-- ==== Sys2Proof/Word.lean ====
section
/-! DEFINITION. The words of the Tabhal Q4 and the sparse maps its State is written in. -/

namespace Sys2Proof

/-- A 64-bit word: a scalar register, an address, a status register. -/
abbrev Word := BitVec 64
/-- A byte of memory (R6). -/
abbrev Byte := BitVec 8
/-- A vector register or an accumulator row: 64 lanes of 32 bits, lane i in bits [32i+31:32i] (R11). -/
abbrev Vec := BitVec 2048
/-- A sparse map from numbers to values: keys strictly rising; what an unlisted key reads as is said where it is read. -/
abbrev SMap (α : Type) := List (Nat × α)

end Sys2Proof
end

