-- ==== Sys2Proof/Config.lean ====
section
/-! DEFINITION. What the spec leaves to the implementation and its free values: constants with no body, so that no proof can
see what they are. -/

namespace Sys2Proof.Config

/-- VCVT between I32 and UI32 of a value outside the destination's range: the spec states no result (log 5). The operand and
the destination type. -/
opaque cvtInt : BitVec 32 → Bool → BitVec 32

/-- Nanoseconds that pass in a step of a bundle when the agenda names none (log 4), by the free-value counter. -/
opaque elapsed : Nat → BitVec 32

/-- A home line of the last-level cache holds data that its memory does not (R322), by the free-value counter (log 6). -/
opaque lineDirty : Nat → Bool

/-- Kiln's flush in direct mode finishes before the board's power fails (R412), by the free-value counter (log 7). -/
opaque flushDone : Nat → Bool

/-- Which image an unfinished flush left in the device (R412), by the free-value counter and sector: 0 the one it had, then those the
sector held at .PK since, the oldest first, and beyond them the newest (log 7). -/
opaque imageLanded : Nat → Nat → Nat

/-- The firmware confirms the board's hold-up window at boot (R407, R412; log 8). -/
opaque holdUp : Bool

/-- A command signed with the firmware's key verifies: the firmware, addition or removal, the key, the signature (R441; log 9). -/
opaque commandSigned : Nat → Bool → Nat → Nat → Bool

/-- The answer to an SPDM request, by its kind, what is measured (the attestation key, the firmware, the repair maps, the signing keys)
and the free-value counter (R420; log 9). -/
opaque attestation : Nat → List Nat → Nat → Nat

/-- A write-through of a lost die had begun to arrive at its home (R452), by the free-value counter and the message's place among
those of the die (log 10). -/
opaque arriving : Nat → Nat → Bool

end Sys2Proof.Config
end

