-- ==== Sys2Proof/Machine/Map.lean ====
section
/-! DEFINITION. Sparse maps in one canonical form, and the bit-field and byte helpers every operation uses. -/

namespace Sys2Proof.Machine

variable {α : Type}

/-- The entry of key `k`, if one is listed. -/
def find? : SMap α → Nat → Option α
  | [], _ => none
  | (j, v) :: m, k => if j = k then some v else find? m k

/-- The entry of key `k`, or `d` where none is listed.
(DESIGN CHOICE, log 2) -/
def look (d : α) (m : SMap α) (k : Nat) : α := (find? m k).getD d

/-- Insert or replace the entry of key `k`, the keys staying strictly rising. -/
def upd : SMap α → Nat → α → SMap α
  | [], k, v => [(k, v)]
  | (j, w) :: m, k, v =>
    if k < j then (k, v) :: (j, w) :: m else if j = k then (k, v) :: m else (j, w) :: upd m k v

/-- Remove every entry of key `k`. -/
def del : SMap α → Nat → SMap α
  | [], _ => []
  | (j, w) :: m, k => if j = k then del m k else (j, w) :: del m k

/-- Write `v` at key `k`; a value equal to the default `d` removes the entry.
(DESIGN CHOICE, log 2) -/
def put [DecidableEq α] (d : α) (m : SMap α) (k : Nat) (v : α) : SMap α :=
  if v = d then del m k else upd m k v

/-- The keys of a map rise strictly. -/
def keysRise : SMap α → Bool
  | [] => true
  | [_] => true
  | (j, _) :: (k, w) :: m => decide (j < k) && keysRise ((k, w) :: m)

/-- The canonical form: keys strictly rising, no entry equal to the default. -/
def canon [DecidableEq α] (d : α) (m : SMap α) : Bool := keysRise m && m.all (fun p => decide (p.2 ≠ d))

/-- `n` bytes of a byte map from key `a`, little-endian (R6), as a number. -/
def getBytes (m : SMap Byte) (a : Nat) : Nat → Nat
  | 0 => 0
  | n + 1 => (look 0 m a).toNat + 256 * getBytes m (a + 1) n

/-- Write the `n` low bytes of `v` from key `a`, little-endian (R6). -/
def setBytes (m : SMap Byte) (a : Nat) : Nat → Nat → SMap Byte
  | 0, _ => m
  | n + 1, v => setBytes (put 0 m a (BitVec.ofNat 8 v)) (a + 1) n (v / 256)

/-- Set the flag of each of `n` keys from `a`. -/
def setFlags (m : SMap Bool) (a : Nat) : Nat → Bool → SMap Bool
  | 0, _ => m
  | n + 1, b => setFlags (put false m a b) (a + 1) n b

/-- Some of the `n` keys from `a` carries the flag. -/
def anyFlag (m : SMap Bool) (a : Nat) : Nat → Bool
  | 0 => false
  | n + 1 => look false m a || anyFlag m (a + 1) n

/-- Bits [lo+n-1:lo] of a number. -/
def fld (v lo n : Nat) : Nat := v / 2 ^ lo % 2 ^ n

/-- Bit `i` of a number. -/
def bitOf (v i : Nat) : Bool := v / 2 ^ i % 2 = 1

/-- The number of a Bool. -/
def b2n (b : Bool) : Nat := if b then 1 else 0

/-- The low `n` bits of a number read as two's complement. -/
def sext (n v : Nat) : Int := if v % 2 ^ n < 2 ^ (n - 1) then (v % 2 ^ n : Nat) else (v % 2 ^ n : Nat) - (2 ^ n : Nat)

/-- The low `n` bits of an integer, as a number (two's complement). -/
def wrap (n : Nat) (v : Int) : Nat := (v % (2 ^ n : Nat)).toNat

/-- Sign extension of a field of `w` bits to 64 bits. -/
def sx {w : Nat} (v : BitVec w) : Word := v.signExtend 64

/-- Canonical 57-bit virtual address: bits [63:57] take the value of bit 56 (R85). -/
def canonVa (a : Word) : Word := (a.setWidth 57).signExtend 64

/-- Floor of the base-2 logarithm, with `fuel` halvings (0 for 0). -/
def log2Fuel : Nat → Nat → Nat
  | 0, _ => 0
  | f + 1, n => if n < 2 then 0 else 1 + log2Fuel f (n / 2)

/-- Position of the lowest set bit below `n`, if any. -/
def lowBit (v : Nat) : Nat → Nat → Option Nat
  | 0, _ => none
  | n + 1, i => if bitOf v i then some i else lowBit v n (i + 1)

/-- Number of set bits among bits [i+n-1:i]. -/
def popCount (v : Nat) : Nat → Nat → Nat
  | 0, _ => 0
  | n + 1, i => b2n (bitOf v i) + popCount v n (i + 1)

/-- A number packed from `n` fields of `w` bits, field `i` at bit `w * i`. -/
def pack (w : Nat) (f : Nat → Nat) : Nat → Nat → Nat
  | 0, _ => 0
  | n + 1, i => f i % 2 ^ w + 2 ^ w * pack w f n (i + 1)

/-- Lane `i` of a vector (R11). -/
def lane (v : Vec) (i : Nat) : Nat := fld v.toNat (32 * i) 32

/-- A vector from its 64 lanes. -/
def ofLanes (f : Nat → Nat) : Vec := BitVec.ofNat 2048 (pack 32 f 64 0)

/-- Repeat a step `n` times over an accumulator, the step seeing its index from `i` up. -/
def loop {σ : Type} (f : Nat → σ → σ) : Nat → Nat → σ → σ
  | 0, _, s => s
  | n + 1, i, s => loop f n (i + 1) (f i s)

/-- The first index from `i` among `n` for which `p` holds. -/
def firstIdx (p : Nat → Bool) : Nat → Nat → Option Nat
  | 0, _ => none
  | n + 1, i => if p i then some i else firstIdx p n (i + 1)

/-- Replace the `i`-th element of a list. -/
def setNth {β : Type} : List β → Nat → β → List β
  | [], _, _ => []
  | _ :: l, 0, v => v :: l
  | x :: l, i + 1, v => x :: setNth l i v

/-- Remove the `i`-th element of a list. -/
def dropNth {β : Type} : List β → Nat → List β
  | [], _ => []
  | _ :: l, 0 => l
  | x :: l, i + 1 => x :: dropNth l i

/-- Sort a list by a key, keeping the order of equal keys (insertion sort). -/
def sortBy {β : Type} (key : β → Nat) (l : List β) : List β :=
  l.foldl (fun acc x => insertLast key x acc) []
where
  /-- Insert after every element whose key is not greater. -/
  insertLast (key : β → Nat) (x : β) : List β → List β
    | [] => [x]
    | y :: l => if key x < key y then x :: y :: l else y :: insertLast key x l

end Sys2Proof.Machine
end

