-- ==== Sys2Proof/Syntax.lean ====
section
/-! DEFINITION. Every row of the opcode table as one constructor: the slot operations, the micro-ops of matrix routines and the steps of the other agents. -/

namespace Sys2Proof

/-- The slots of a bundle, in the order of R47. -/
inductive Slot where
  | ct | sa | sb | va | vb | ld | st | mx | ar | aw | hd
  deriving DecidableEq, Repr

/-- The scalar slot of an S-class operation (R47). -/
inductive SUnit where
  | a | b
  deriving DecidableEq, Repr

/-- The vector slot of a V-class operation (R47). -/
inductive VUnit where
  | a | b
  deriving DecidableEq, Repr

/-- The half of a MARK pair (R233). -/
inductive MemSide where
  | ld | st
  deriving DecidableEq, Repr

/-- Long half of format RG (R53). -/
structure RGX where
  c : BitVec 6
  ext : BitVec 26
  deriving DecidableEq, Repr

/-- Format RG (R53). -/
structure RG where
  d : BitVec 6
  a : BitVec 6
  b : BitVec 6
  f : BitVec 6
  x : Option RGX
  deriving DecidableEq, Repr

/-- Format SI (R53): in the long form `imm` is EXT and `x` is the second word's IMM. -/
structure SI where
  d : BitVec 6
  a : BitVec 6
  imm : BitVec 12
  x : Option (BitVec 32)
  deriving DecidableEq, Repr

/-- Long half of format VR (R53). -/
structure VRX where
  c : BitVec 6
  rm : BitVec 3
  ext : BitVec 23
  deriving DecidableEq, Repr

/-- Format VR (R53). -/
structure VR where
  d : BitVec 6
  a : BitVec 6
  b : BitVec 6
  k : BitVec 3
  t : BitVec 3
  x : Option VRX
  deriving DecidableEq, Repr

/-- Long half of format MS (R53), its reserved bits left out. -/
structure MSX where
  k : BitVec 3
  xr : BitVec 6
  disp : BitVec 20
  deriving DecidableEq, Repr

/-- Format MS (R53). -/
structure MS where
  q : BitVec 6
  a : BitVec 6
  off : BitVec 6
  stp : BitVec 6
  x : Option MSX
  deriving DecidableEq, Repr

/-- Long half of format MG (R53), its reserved bits left out. -/
structure MGX where
  k : BitVec 3
  scope : BitVec 3
  disp : BitVec 20
  deriving DecidableEq, Repr

/-- Format MG (R53), its reserved bits left out. -/
structure MG where
  q : BitVec 6
  a : BitVec 6
  e : BitVec 4
  stp : BitVec 6
  x : Option MGX
  deriving DecidableEq, Repr

/-- Format MK (R53, R233). -/
structure MK where
  scope : BitVec 3
  kind : BitVec 2
  deriving DecidableEq, Repr

/-- Format XC (R53). -/
structure XC where
  rt : BitVec 8
  e : BitVec 4
  gang : BitVec 2
  x : Option (BitVec 32)
  deriving DecidableEq, Repr

/-- Long half of format AC (R53). -/
structure ACX where
  a : BitVec 6
  k : BitVec 3
  ext : BitVec 23
  deriving DecidableEq, Repr

/-- Format AC (R53). -/
structure AC where
  v : BitVec 6
  row : BitVec 10
  stp : BitVec 6
  x : Option ACX
  deriving DecidableEq, Repr

/-- Long half of format HC (R53). -/
structure HCX where
  c : BitVec 6
  d : BitVec 6
  ext : BitVec 20
  deriving DecidableEq, Repr

/-- Format HC (R53). -/
structure HC where
  a : BitVec 6
  b : BitVec 6
  ch : BitVec 4
  e : BitVec 4
  f : BitVec 4
  x : Option HCX
  deriving DecidableEq, Repr

/-- Format CJ (R53). -/
structure CJ where
  off : BitVec 24
  deriving DecidableEq, Repr

/-- Format CC (R53). -/
structure CC where
  p : BitVec 3
  q : BitVec 3
  sense : BitVec 1
  off : BitVec 17
  deriving DecidableEq, Repr

/-- Format CL (R53). -/
structure CL where
  l : BitVec 2
  a : BitVec 6
  off : BitVec 16
  x : Option (BitVec 32)
  deriving DecidableEq, Repr

/-- Format CE (R53). -/
structure CE where
  e : BitVec 4
  imm : BitVec 16
  deriving DecidableEq, Repr

/-- Format CS (R53). -/
structure CS where
  d : BitVec 6
  a : BitVec 6
  srn : BitVec 12
  deriving DecidableEq, Repr

/-- Fields of MM.MAC (R187). -/
structure MmMac where
  pa : BitVec 3
  pb : BitVec 3
  pd : BitVec 3
  ea : BitVec 4
  eb : BitVec 4
  sca : BitVec 3
  scb : BitVec 3
  shape : BitVec 2
  zero : BitVec 1
  klast : BitVec 1
  satm : BitVec 1
  deriving DecidableEq, Repr

/-- Fields of MM.SCL in a scale slot that holds one (R188). -/
structure MmScl where
  d : BitVec 3
  p : BitVec 3
  w : BitVec 1
  deriving DecidableEq, Repr

/-- Fields of MM.CLR (R189). -/
structure MmClr where
  p : BitVec 3
  nm1 : BitVec 10
  deriving DecidableEq, Repr

/-- Fields of MM.DRN (R190). -/
structure MmDrn where
  p : BitVec 3
  nm1 : BitVec 8
  slot : BitVec 4
  pos : BitVec 8
  clr : BitVec 1
  deriving DecidableEq, Repr

/-- Fields of MM.LOOP (R192). -/
structure MmLoop where
  l : BitVec 2
  src : BitVec 4
  fin : BitVec 12
  imm : BitVec 16
  deriving DecidableEq, Repr

/-- Fields of MM.JMP (R193). -/
structure MmJmp where
  target : BitVec 12
  cond : BitVec 1
  bit : BitVec 4
  deriving DecidableEq, Repr

/-- Fields of MM.SETP (R191). -/
structure MmSetp where
  p : BitVec 3
  src : BitVec 4
  half : BitVec 1
  add : BitVec 1
  stride : BitVec 16
  keep : BitVec 1
  deriving DecidableEq, Repr

/-- What a core's checks find (R208, R228, R330): a parity error in the tag table, the watermark channels, the queues or the
engines' held state; one in an instruction-cache sector, by address space and virtual address; an error of a scratchpad atom, that
its check bits correct or not. -/
inductive CoreErr where
  | held
  | icache (asid va : Nat)
  | spad (atom : Nat) (corrected : Bool)
  deriving DecidableEq, Repr

/-- What the checks of one core find. -/
structure CoreHit where
  core : Nat
  err : CoreErr
  deriving DecidableEq, Repr

/-- What a cluster's checks find (R272): a parity error in engine state, with the cores it concerns (bits [3:0]) and whether it is in
the atomic engine's tags; an uncorrectable error of an atom that the atomic engine holds, or of a row of the result ring. -/
inductive ClusterErr where
  | state (mask : Nat) (engine : Bool)
  | atom (sector atom : Nat)
  | row (slot pos : Nat)
  deriving DecidableEq, Repr

/-- An error a die's checks find: in the data or the tags of a last-level-cache slice (R322); a parity error in a structure of the
package that has no poison path; a fault of the management firmware (R448). The table gives the last two no row of their own. -/
inductive SliceErr where
  | single | data (atom : Nat) | tag | structure | firmware
  deriving DecidableEq, Repr

/-- What check bits say of a stored sector's atoms (R396): those that do not correct, and those that are corrected. -/
structure Ecc where
  ueMask : Nat
  ceMask : Nat
  deriving DecidableEq, Repr

/-- Who asks for a stored sector (R396, R400): the task of a strand, or the command of a Hod channel, or an agent of a die that acts for
a context handle, each with the virtual address of its access; a structure of the device; the host or a peer. -/
inductive Requester where
  | strand (n : Nat) (va : BitVec 64)
  | hod (cluster ch : Nat) (va : BitVec 64)
  | agent (die handle : Nat) (va : BitVec 64)
  | device
  | outside
  deriving DecidableEq, Repr

/-- CXL.cache states of a host-memory line (R427). -/
inductive Mesi where
  | i | s | e | m
  deriving DecidableEq, Repr

/-- A link: a CXL port, a UALink port, or the Mortar edge from a base die to the next (R423, R442). -/
inductive Link where
  | cxl (port : Nat)
  | ual (port : Nat)
  | mortar (edge : Nat)
  deriving DecidableEq, Repr

/-- What an inbound peer request does (R445). -/
inductive PeerOp where
  | read
  | write
  | atomic (aop : Nat)
  deriving DecidableEq, Repr

/-- A line's data as the host sends it, and which of its two atoms come poisoned, as after a flit that failed its CRC (R397, R403,
R428). -/
structure LineData where
  data : BitVec 512
  poison : BitVec 2
  deriving DecidableEq, Repr

/-- An inbound peer request: its source, its physical address, its length in bytes, for a write which of those bytes it writes, its
data, and whether its data arrives poisoned, as after a flit that failed its CRC (R403, R442, R445). -/
structure PeerReq where
  peer : Nat
  pa : Nat
  bytes : Nat
  mask : BitVec 128
  op : PeerOp
  data : BitVec 1024
  comparand : BitVec 64
  poison : Bool
  deriving DecidableEq, Repr

/-- How a peer answers a request: performed; performed with poisoned data; or refused (R443 to R445, R450). -/
inductive PeerAns where
  | ok | poison | refused
  deriving DecidableEq, Repr

/-- One constructor per row of the opcode table. The slot operations carry the fields of their format (R53);
the micro-ops carry the core whose matrix unit runs them; the other steps carry what names the agent and the work. -/
inductive Instr where
  /-- NOP (R60): NOP does nothing in a non-sticky slot and clears the sticky engine in LD, ST, AR or AW. -/
  | nop (sl : Slot)
  /-- BR (R93): Unconditional relative branch with one delay bundle. -/
  | br (o : CJ)
  /-- BRC (R93): Relative branch taken when the conjunction of two predicates equals SENSE. -/
  | brc (o : CC)
  /-- BRV (R94): Branch on a lane mask whose active lanes must agree, trapping NONUNIFORM_BRANCH otherwise. -/
  | brv (o : CC)
  /-- BRI (R95): Branch to the address held in a scalar register after alignment and canonical checks. -/
  | bri (o : RG)
  /-- CALL (R95): Relative call that writes the address after the delay bundle into s63. -/
  | call (o : CJ)
  /-- CALLI (R95): Register-target call that writes the return address into s63. -/
  | calli (o : RG)
  /-- RET (R95): Return to the address held in s63. -/
  | ret
  /-- LOOPI (R96): Sets a loop counter from s[A] plus an immediate and skips the loop when the count is zero. -/
  | loopi (o : CL)
  /-- LOOP (R96): Counts a loop counter down and branches back while passes remain. -/
  | loop (o : CL)
  /-- YIELD (R97): Ends the current course after the bundle's last iteration, incrementing COURSE and switching strand if another is ELIGIBLE. -/
  | yield
  /-- WAIT (R99): Consumes IMM completions from one semaphore, clearing their pending flags, or blocks until they are present. -/
  | wait (o : CE)
  /-- WAITANY (R100): Consumes one completion from the lowest selected semaphore that holds one, or blocks. -/
  | waitany (o : CE)
  /-- SIGNAL (R101): Appends IMM unnamed completions to one of the strand's own semaphores. -/
  | signal (o : CE)
  /-- TRAP (R102): Raises a SOFTWARE trap after its iteration commits. -/
  | trap (o : CE)
  /-- RTE (R42): Returns from the handler: flushes level-1 results, clears TL, reloads sticky engines and resumes at XPC. -/
  | rte
  /-- SRD (R103): Reads a strand status register into a scalar register. -/
  | srd (o : CS)
  /-- SWR (R103): Writes a strand status register from a scalar register at commit. -/
  | swr (o : CS)
  /-- SADD (R80): Adds two scalar registers. -/
  | sadd (u : SUnit) (o : RG)
  /-- SADDI (R80): Adds a sign-extended immediate to a scalar register. -/
  | saddi (u : SUnit) (o : SI)
  /-- SSUB (R80): Subtracts two scalar registers. -/
  | ssub (u : SUnit) (o : RG)
  /-- SAND (R80): Bitwise AND of two scalar registers. -/
  | sand (u : SUnit) (o : RG)
  /-- SOR (R80): Bitwise OR of two scalar registers. -/
  | sor (u : SUnit) (o : RG)
  /-- SXOR (R80): Bitwise XOR of two scalar registers. -/
  | sxor (u : SUnit) (o : RG)
  /-- SANDI (R80): Bitwise AND with a sign-extended immediate. -/
  | sandi (u : SUnit) (o : SI)
  /-- SORI (R80): Bitwise OR with a sign-extended immediate. -/
  | sori (u : SUnit) (o : SI)
  /-- SXORI (R80): Bitwise XOR with a sign-extended immediate. -/
  | sxori (u : SUnit) (o : SI)
  /-- SMIN (R80): Unsigned minimum of two scalar registers. -/
  | smin (u : SUnit) (o : RG)
  /-- SMINS (R80): Signed minimum of two scalar registers. -/
  | smins (u : SUnit) (o : RG)
  /-- SMAX (R80): Unsigned maximum of two scalar registers. -/
  | smax (u : SUnit) (o : RG)
  /-- SMAXS (R80): Signed maximum of two scalar registers. -/
  | smaxs (u : SUnit) (o : RG)
  /-- SCLZ (R80): Counts the leading zero bits of a scalar register. -/
  | sclz (u : SUnit) (o : RG)
  /-- SPOP (R80): Counts the one bits of a scalar register. -/
  | spop (u : SUnit) (o : RG)
  /-- SMUL (R81): Low 64 bits of a scalar product. -/
  | smul (u : SUnit) (o : RG)
  /-- SMULH (R81): High 64 bits of an unsigned scalar product. -/
  | smulh (u : SUnit) (o : RG)
  /-- SMULHS (R81): High 64 bits of a signed scalar product. -/
  | smulhs (u : SUnit) (o : RG)
  /-- SDIV (R82): Unsigned scalar division with a defined result on division by zero. -/
  | sdiv (u : SUnit) (o : RG)
  /-- SDIVS (R82): Signed scalar division truncated toward zero. -/
  | sdivs (u : SUnit) (o : RG)
  /-- SREM (R82): Unsigned scalar remainder. -/
  | srem (u : SUnit) (o : RG)
  /-- SREMS (R82): Signed scalar remainder. -/
  | srems (u : SUnit) (o : RG)
  /-- SSHL (R83): Shifts a scalar register left. -/
  | sshl (u : SUnit) (o : RG)
  /-- SSHR (R83): Logical right shift of a scalar register. -/
  | sshr (u : SUnit) (o : RG)
  /-- SSRA (R83): Arithmetic right shift of a scalar register. -/
  | ssra (u : SUnit) (o : RG)
  /-- SROT (R83): Rotates a scalar register left. -/
  | srot (u : SUnit) (o : RG)
  /-- SBFX (R84): Extracts a bit field, optionally sign-extended. -/
  | sbfx (u : SUnit) (o : RG)
  /-- SBFI (R84): Inserts a bit field from one register into another. -/
  | sbfi (u : SUnit) (o : RG)
  /-- SADDR (R85): Forms a canonical virtual address from a base and a scaled index. -/
  | saddr (u : SUnit) (o : RG)
  /-- SMOV (R86): Copies a scalar register. -/
  | smov (u : SUnit) (o : RG)
  /-- SMOVI (R86): Loads a sign-extended immediate into a scalar register. -/
  | smovi (u : SUnit) (o : SI)
  /-- SLUI (R86): Writes an immediate into the upper half above the low half of s[A]. -/
  | slui (u : SUnit) (o : SI)
  /-- SSEL (R86): Selects one of two scalar registers by a predicate. -/
  | ssel (u : SUnit) (o : RG)
  /-- SCMP (R87): Compares two scalar registers and writes a predicate. -/
  | scmp (u : SUnit) (o : RG)
  /-- SCMPI (R87): Compares a scalar register with an immediate and writes a predicate. -/
  | scmpi (u : SUnit) (o : SI)
  /-- PAND (R88): AND of two predicates. -/
  | pand (u : SUnit) (o : RG)
  /-- POR (R88): OR of two predicates. -/
  | por (u : SUnit) (o : RG)
  /-- PXOR (R88): XOR of two predicates. -/
  | pxor (u : SUnit) (o : RG)
  /-- PNOT (R88): Negates a predicate. -/
  | pnot (u : SUnit) (o : RG)
  /-- PMOV_PRED (R88): Copies one predicate to another. -/
  | pmovPred (u : SUnit) (o : RG)
  /-- PMOV_FROM_SCALAR (R88): Sets a predicate to whether a scalar register is non-zero. -/
  | pmovFromScalar (u : SUnit) (o : RG)
  /-- PMOV_TO_SCALAR (R88): Writes a predicate, zero-extended, into a scalar register. -/
  | pmovToScalar (u : SUnit) (o : RG)
  /-- SCHK (R89): Compares two scalar registers and traps SILENT_MISMATCH before commit if they differ. -/
  | schk (u : SUnit) (o : RG)
  /-- SCHK_P (R89): Compares two predicates and traps SILENT_MISMATCH if they differ. -/
  | schkP (u : SUnit) (o : RG)
  /-- SFADD (R130): Scalar floating-point add rounded once by RM. -/
  | sfadd (u : SUnit) (o : RG)
  /-- SFSUB (R130): Scalar floating-point subtract. -/
  | sfsub (u : SUnit) (o : RG)
  /-- SFMUL (R130): Scalar floating-point multiply. -/
  | sfmul (u : SUnit) (o : RG)
  /-- SFDIV (R130): Scalar floating-point divide. -/
  | sfdiv (u : SUnit) (o : RG)
  /-- SFSQRT (R130): Scalar floating-point square root. -/
  | sfsqrt (u : SUnit) (o : RG)
  /-- SFMA (R131): Scalar fused multiply-add with optional negations, rounded once. -/
  | sfma (u : SUnit) (o : RG)
  /-- SFMIN (R132): Scalar floating-point minimum or minimumNumber. -/
  | sfmin (u : SUnit) (o : RG)
  /-- SFMAX (R132): Scalar floating-point maximum or maximumNumber. -/
  | sfmax (u : SUnit) (o : RG)
  /-- SFCMP (R133): Compares two floating-point values and writes a predicate. -/
  | sfcmp (u : SUnit) (o : RG)
  /-- SFCVT (R134): Converts between a floating-point precision and another type. -/
  | sfcvt (u : SUnit) (o : RG)
  /-- SFCLASS (R135): Writes a one-hot class mask of a floating-point value. -/
  | sfclass (u : SUnit) (o : RG)
  /-- VADD (R142): Elementwise floating-point add. -/
  | vadd (u : VUnit) (o : VR)
  /-- VSUB (R142): Elementwise floating-point subtract. -/
  | vsub (u : VUnit) (o : VR)
  /-- VMUL (R142): Elementwise floating-point multiply. -/
  | vmul (u : VUnit) (o : VR)
  /-- VMIN (R142): Elementwise floating-point minimum. -/
  | vmin (u : VUnit) (o : VR)
  /-- VMAX (R142): Elementwise floating-point maximum. -/
  | vmax (u : VUnit) (o : VR)
  /-- VFMA (R143): Elementwise fused multiply-add. -/
  | vfma (u : VUnit) (o : VR)
  /-- VFMS (R143): Elementwise fused multiply-subtract from the addend. -/
  | vfms (u : VUnit) (o : VR)
  /-- VABS (R144): Elementwise absolute value. -/
  | vabs (u : VUnit) (o : VR)
  /-- VNEG (R144): Elementwise negation. -/
  | vneg (u : VUnit) (o : VR)
  /-- VCMP (R145): Elementwise compare that writes a lane mask. -/
  | vcmp (u : VUnit) (o : VR)
  /-- VIADD (R146): Elementwise integer add, wrapping or saturating. -/
  | viadd (u : VUnit) (o : VR)
  /-- VISUB (R146): Elementwise integer subtract. -/
  | visub (u : VUnit) (o : VR)
  /-- VIMUL (R146): Elementwise integer multiply, low, high or saturated. -/
  | vimul (u : VUnit) (o : VR)
  /-- VIMAD (R146): Elementwise integer multiply-add. -/
  | vimad (u : VUnit) (o : VR)
  /-- VIMIN (R146): Elementwise integer minimum. -/
  | vimin (u : VUnit) (o : VR)
  /-- VIMAX (R146): Elementwise integer maximum. -/
  | vimax (u : VUnit) (o : VR)
  /-- VAND (R147): Bitwise AND of two vectors. -/
  | vand (u : VUnit) (o : VR)
  /-- VOR (R147): Bitwise OR of two vectors. -/
  | vor (u : VUnit) (o : VR)
  /-- VXOR (R147): Bitwise XOR of two vectors. -/
  | vxor (u : VUnit) (o : VR)
  /-- VNOT (R147): Bitwise NOT of a vector. -/
  | vnot (u : VUnit) (o : VR)
  /-- VSHL (R148): Elementwise left shift. -/
  | vshl (u : VUnit) (o : VR)
  /-- VSHR (R148): Elementwise logical right shift. -/
  | vshr (u : VUnit) (o : VR)
  /-- VSRA (R148): Elementwise arithmetic right shift. -/
  | vsra (u : VUnit) (o : VR)
  /-- VROTL (R148): Elementwise left rotate. -/
  | vrotl (u : VUnit) (o : VR)
  /-- VSEL (R149): Selects each element from one of two vectors by a mask. -/
  | vsel (u : VUnit) (o : VR)
  /-- VMOV (R149): Copies the active elements of a vector. -/
  | vmov (u : VUnit) (o : VR)
  /-- VBCAST (R149): Broadcasts a scalar into the active elements. -/
  | vbcast (u : VUnit) (o : VR)
  /-- VEXTR (R149): Extracts one vector element into a scalar register. -/
  | vextr (u : VUnit) (o : VR)
  /-- VIDX (R149): Writes an arithmetic index sequence into the active elements. -/
  | vidx (u : VUnit) (o : VR)
  /-- VCVT (R150): Elementwise conversion between allowed type pairs. -/
  | vcvt (u : VUnit) (o : VR)
  /-- VPACK (R151): Narrows two vectors into one of 16-bit or 8-bit elements. -/
  | vpack (u : VUnit) (o : VR)
  /-- VUNPACK (R152): Widens 16-bit or 8-bit elements exactly. -/
  | vunpack (u : VUnit) (o : VR)
  /-- VQMX (R153): Quantises 64 F32 lanes into two MX blocks and writes scales and saturation counts. -/
  | vqmx (u : VUnit) (o : VR)
  /-- VDQMX (R154): Expands two MX blocks into 64 F32 lanes. -/
  | vdqmx (u : VUnit) (o : VR)
  /-- VEXP2 (R155): Correctly rounded 2 to the power of each element. -/
  | vexp2 (u : VUnit) (o : VR)
  /-- VLOG2 (R155): Correctly rounded base-2 logarithm. -/
  | vlog2 (u : VUnit) (o : VR)
  /-- VRCP (R155): Correctly rounded reciprocal. -/
  | vrcp (u : VUnit) (o : VR)
  /-- VRSQ (R155): Correctly rounded reciprocal square root. -/
  | vrsq (u : VUnit) (o : VR)
  /-- VSQRT (R155): Correctly rounded square root. -/
  | vsqrt (u : VUnit) (o : VR)
  /-- VDIV (R155): Correctly rounded division. -/
  | vdiv (u : VUnit) (o : VR)
  /-- VPERM (R156): Gathers 32-bit lanes by index, XOR, rotate or broadcast. -/
  | vperm (u : VUnit) (o : VR)
  /-- VSUM (R157): Sums the active elements in a fixed pairwise tree. -/
  | vsum (u : VUnit) (o : VR)
  /-- VMAXR (R158): Maximum reduction over the active elements. -/
  | vmaxr (u : VUnit) (o : VR)
  /-- VSCAN (R159): Inclusive or exclusive prefix sum. -/
  | vscan (u : VUnit) (o : VR)
  /-- VARGMAX (R160): Index of the greatest active element into a scalar register. -/
  | vargmax (u : VUnit) (o : VR)
  /-- VSRCH (R161): Lowest active index whose element exceeds a key. -/
  | vsrch (u : VUnit) (o : VR)
  /-- VRNG (R162): Draws lane random words from the Philox stream. -/
  | vrng (u : VUnit) (o : VR)
  /-- VACPT (R163): Counts accepted draft tokens per segment. -/
  | vacpt (u : VUnit) (o : VR)
  /-- KAND (R164): AND of two lane masks. -/
  | kand (u : VUnit) (o : VR)
  /-- KOR (R164): OR of two lane masks. -/
  | kor (u : VUnit) (o : VR)
  /-- KXOR (R164): XOR of two lane masks. -/
  | kxor (u : VUnit) (o : VR)
  /-- KNOT (R164): NOT of a lane mask. -/
  | knot (u : VUnit) (o : VR)
  /-- KPOP (R165): Counts the set bits of a lane mask. -/
  | kpop (u : VUnit) (o : VR)
  /-- KFIRST (R165): Index of the lowest set bit of a lane mask. -/
  | kfirst (u : VUnit) (o : VR)
  /-- VCHK (R166): Compares two vectors and traps SILENT_MISMATCH if active elements differ. -/
  | vchk (u : VUnit) (o : VR)
  /-- SPLD (R211): Loads 256 bytes of scratchpad into a vector register. -/
  | spld (o : MS)
  /-- SPLDS (R211): Loads 8 bytes of scratchpad into a scalar register. -/
  | splds (o : MS)
  /-- SPLDB (R211): Broadcasts a 4-byte scratchpad word into the active lanes. -/
  | spldb (o : MS)
  /-- SPLDX (R211): Gathers scratchpad words at per-lane offsets. -/
  | spldx (o : MS)
  /-- SPST (R211): Stores the active lanes of a vector into scratchpad. -/
  | spst (o : MS)
  /-- SPSTS (R211): Stores a scalar register into scratchpad. -/
  | spsts (o : MS)
  /-- SPSTX (R211): Scatters lanes to scratchpad at per-lane offsets. -/
  | spstx (o : MS)
  /-- TLOOK (R217): Looks up a key in the tag table and returns a hit or a miss with a victim hint. -/
  | tlook (o : RG)
  /-- TLOOK_WM (R215): Reads a watermark channel register into a scalar register. -/
  | tlookWm (o : RG)
  /-- TINS (R218): Writes one tag table entry. -/
  | tins (o : RG)
  /-- TDEL (R219): Frees the own tag table entry with a given key. -/
  | tdel (o : RG)
  /-- TDEL_IDX (R219): Frees the own tag table entry at a given index. -/
  | tdelIdx (o : RG)
  /-- GLD (R222): Queues a 256-byte global load into a vector register. -/
  | gld (o : MG)
  /-- GLDS (R222): Queues an 8-byte global load into a scalar register. -/
  | glds (o : MG)
  /-- GLDA (R234): Queues an 8-byte global load with acquire at its scope. -/
  | glda (o : MG)
  /-- PREF (R226): Asks the die to bring a 1,024-byte line and its translation into the caches. -/
  | pref (o : MG)
  /-- GST (R222): Queues a 256-byte global store of the active lanes. -/
  | gst (o : MG)
  /-- GSTS (R222): Queues an 8-byte global store. -/
  | gsts (o : MG)
  /-- GSTL (R234): Queues an 8-byte global store with release at its scope. -/
  | gstl (o : MG)
  /-- MARK (R233): A paired LD and ST MARK orders the two global queues at a scope by KIND. -/
  | mark (h : MemSide) (o : MK)
  /-- ATOM (R265): Queues an atomic read-modify-write without return. -/
  | atom (o : RG)
  /-- ATOMR (R265): Queues an atomic read-modify-write that returns the old value. -/
  | atomr (o : RG)
  /-- TAGPUB_SET (R302): Queues tag sets for a range of tiles with release at its scope. -/
  | tagpubSet (o : RG)
  /-- TAGPUB_CLEAR_TILE (R302): Queues clears of tile tags at the key's generation or older. -/
  | tagpubClearTile (o : RG)
  /-- TAGPUB_CLEAR_TENSOR (R302): Queues a clear of every tag entry and coarse record of a tensor. -/
  | tagpubClearTensor (o : RG)
  /-- MCALL (R196): Enqueues a matrix routine with a snapshot of its table entry and m registers. -/
  | mcall (o : XC)
  /-- MLDUC (R197): Enqueues a load of micro-op store words from scratchpad. -/
  | mlduc (o : RG)
  /-- MLDRT (R197): Enqueues a load of routine table entries from scratchpad. -/
  | mldrt (o : RG)
  /-- MSTAT (R198): Reads the strand's matrix status word. -/
  | mstat (o : RG)
  /-- MSTAT_FAULT (R198): Reads the fault record of the oldest marked completion. -/
  | mstatFault (o : RG)
  /-- MSTAT_TAKE (R198): Reads and clears the mark of the oldest marked completion. -/
  | mstatTake (o : RG)
  /-- MSTAT_CSAT (R198): Reads the status word and clears SAT. -/
  | mstatCsat (o : RG)
  /-- MSTAT_SETM (R198): Writes a matrix parameter register from a scalar. -/
  | mstatSetm (o : RG)
  /-- MSTAT_GETM (R198): Reads a matrix parameter register into a scalar. -/
  | mstatGetm (o : RG)
  /-- MABORT (R199): Removes the strand's unstarted routines and stops its running routine after its current word. -/
  | mabort
  /-- ARD (R201): Reads an accumulator row into a vector register. -/
  | ard (o : AC)
  /-- ACLR (R202): Clears the active words of an accumulator row. -/
  | aclr (o : AC)
  /-- AWR (R202): Writes a vector register into an accumulator row. -/
  | awr (o : AC)
  /-- AACC (R202): Adds a vector register into an accumulator row. -/
  | aacc (o : AC)
  /-- AOW (R203): Adds the Hod's staged add-on-write row into an accumulator row. -/
  | aow (o : AC)
  /-- ADRN (R204): Drains an accumulator row into a ring slot, optionally clearing it. -/
  | adrn (o : AC)
  /-- HCOPY_S2S (R248): Queues a scratchpad-to-scratchpad copy on a Hod channel. -/
  | hcopyS2s (o : HC)
  /-- HCOPY_G2S (R248): Queues a global-to-scratchpad copy. -/
  | hcopyG2s (o : HC)
  /-- HCOPY_G2T (R248): Queues a global copy into a tile's shadow, publishing unless deferred. -/
  | hcopyG2t (o : HC)
  /-- HFILL (R249): Queues a pattern fill of scratchpad. -/
  | hfill (o : HC)
  /-- HFILL_T (R249): Queues a pattern fill of a tile's shadow. -/
  | hfillT (o : HC)
  /-- HTILE (R250): Queues a read of a tensor window into scratchpad. -/
  | htile (o : HC)
  /-- HTWR (R251): Queues a write of a tile from scratchpad into its shadow. -/
  | htwr (o : HC)
  /-- HWM (R252): Enables a watermark channel with its range and initial watermark at commit. -/
  | hwm (o : HC)
  /-- HWM_OFF (R252): Disables a watermark channel at commit. -/
  | hwmOff (o : HC)
  /-- HSCHED (R254): Queues the binding or release of a static schedule on a channel. -/
  | hsched (o : HC)
  /-- HSTEP (R255): Queues the release of stages of the bound schedule. -/
  | hstep (o : HC)
  /-- HMCAST (R256): Queues a multicast of a scratchpad range to several cores of the cluster. -/
  | hmcast (o : HC)
  /-- HMWAIT (R257): Queues a wait for the acknowledgements of earlier multicasts. -/
  | hmwait (o : HC)
  /-- HADD (R258): Queues rows to be staged as add-on-writes into a core's accumulator. -/
  | hadd (o : HC)
  /-- HPUB (R259): Queues the publication of a tile, optionally setting its tag. -/
  | hpub (o : HC)
  /-- HPUB_RING (R267): Queues the submission of a ring slot to the epilogue. -/
  | hpubRing (o : HC)
  /-- HSTAT (R260): Reads a channel's head, halt, binding and queue state. -/
  | hstat (o : HC)
  /-- HSTAT_STAGE (R260): Reads the stage counter of the bound schedule. -/
  | hstatStage (o : HC)
  /-- HSTAT_LAST (R260): Reads the identifier of the last committed command. -/
  | hstatLast (o : HC)
  /-- LAUNCH (R293): Submits a launch record from a task and sets the status register pending. -/
  | launch (o : RG)
  /-- SPAWN (R291): Creates a child task with half the parent's weight. -/
  | spawn (o : RG)
  /-- SPAWN_AT (R291): Creates a child task that starts at an entry register. -/
  | spawnAt (o : RG)
  /-- EXIT (R292): Ends the task after its bundle commits. -/
  | exit (o : RG)
  /-- EXIT_ERR (R292): Ends the task and raises the launch status to ERROR with an error code. -/
  | exitErr (o : RG)
  /-- BAR (R296): Arrives at the domain barrier and blocks until the phase completes. -/
  | bar (o : RG)
  /-- BAR_ARRIVE (R296): Arrives at the domain barrier without waiting. -/
  | barArrive (o : RG)
  /-- BAR_WAIT (R296): Waits for the phase of the strand's last arrival to complete. -/
  | barWait (o : RG)
  /-- TAGWAIT (R304): Waits for a tag with acquire, trapping STALE_TAG if stale. -/
  | tagwait (o : RG)
  /-- CSWITCH (R355): Checkpoints the current task and binds a READY task of a named context to the strand. -/
  | cswitch (o : RG)
  /-- PARK (R356): Checkpoints the task and parks its context until a wake, deadline or resume. -/
  | park (o : RG)
  /-- WAKE (R357): Wakes every PARKed task of a context or sets WAKEPEND. -/
  | wake (o : RG)
  /-- WAKE_AT (R357): Sets a context's predicted wake time to an absolute GTIME. -/
  | wakeAt (o : RG)
  /-- WAKE_IN (R357): Sets a context's predicted wake time relative to now. -/
  | wakeIn (o : RG)
  /-- ESTSET (R358): Records the task's remaining-work estimate. -/
  | estset (o : RG)
  /-- ESTSET_WAKE (R358): Sets the own context's predicted wake time. -/
  | estsetWake (o : RG)
  /-- PBAR (R405): Enters the store queue and holds younger non-volatile stores until older ones are durable. -/
  | pbar (o : RG)
  /-- MM_MAC (R187): Performs one matrix step into block sums and completes the block when due. -/
  | mmMac (core : Nat) (o : MmMac) (scl : (Option MmScl))
  /-- MM_SCL (R188): Loads a scale register from scratchpad, visible three steps later. -/
  | mmScl (core : Nat) (o : MmScl)
  /-- MM_CLR (R189): Clears accumulator rows and their poison. -/
  | mmClr (core : Nat) (o : MmClr) (scl : (Option MmScl))
  /-- MM_DRN (R190): Drains accumulator rows into a result ring slot. -/
  | mmDrn (core : Nat) (o : MmDrn) (scl : (Option MmScl))
  /-- MM_LOOP (R192): Opens a zero-overhead micro-op loop. -/
  | mmLoop (core : Nat) (o : MmLoop) (scl : (Option MmScl))
  /-- MM_JMP (R193): Jumps within the micro-op store, optionally on an ARG bit. -/
  | mmJmp (core : Nat) (o : MmJmp) (scl : (Option MmScl))
  /-- MM_SETP (R191): Sets or adds to a routine pointer and its stride. -/
  | mmSetp (core : Nat) (o : MmSetp) (scl : (Option MmScl))
  /-- MM_END (R194): Completes any open block and ends the routine. -/
  | mmEnd (core : Nat) (scl : (Option MmScl))
  /-- MM_NOP (R194): Does nothing for one step except its scale slot. -/
  | mmNop (core : Nat)
  /-- BUNDLE_ISSUE (R25): The active strand frames and issues one iteration of a bundle, and all its slot operations commit together or, on a trap, nothing commits. -/
  | bundleIssue (core : Nat)
  /-- STRAND_UNBLOCK (R15): A blocked strand becomes ELIGIBLE in the cycle after its blocking condition is satisfied, and it re-attempts the same iteration. -/
  | strandUnblock (strand : Nat)
  /-- IDLE_CORE_SELECT (R16): A core that issued nothing selects a strand in the first cycle in which some strand is ELIGIBLE. -/
  | idleCoreSelect (core : Nat)
  /-- FORCED_YIELD (R18): When the active-cycle count reaches 65,536, the strand is switched out at its next strand-cycle boundary if another strand is ELIGIBLE, otherwise the count restarts. -/
  | forcedYield (core : Nat)
  /-- MARK_RETIRE (R233): A MARK retires and frees its entries once the accesses it orders are performed at its scope. -/
  | markRetire (strand : Nat)
  /-- GLOBAL_LOAD_ARRIVAL (R224): A global load's data arrives, is written to its register, and its completion is appended in commit order. -/
  | globalLoadArrival (strand : Nat) (idx : Nat)
  /-- GLOBAL_STORE_PERFORMED (R225): A global store is performed at its target's scope and its completion is appended. -/
  | globalStorePerformed (strand : Nat) (idx : Nat)
  /-- PREF_ACCEPTED (R221): A PREF's line request is accepted by a slice and its load-queue entry frees. -/
  | prefAccepted (strand : Nat) (idx : Nat)
  /-- TRANSLATION_WALK_RETURN (R326): A TLB miss walk returns a translation, a fault, or a migration replay. -/
  | translationWalkReturn (strand : Nat)
  /-- ATOMIC_ENGINE_ACCEPT (R264): The atomic engine accepts one request per cycle by its priority order and performs it indivisibly. -/
  | atomicEngineAccept (cluster : Nat)
  /-- ATOMIC_RECALL (R263): A home slice recalls a sector held by an atomic engine, which writes it back and releases it. -/
  | atomicRecall (cluster : Nat) (sector : Nat)
  /-- TAG_SET_ACT (R300): A tag set reaches the tag table after its release and makes, updates or discards an entry or enters coarse mode. -/
  | tagSetAct (die : Nat)
  /-- TAG_CLEAR_ACT (R302): A tag clear acts on the tag table. -/
  | tagClearAct (die : Nat)
  /-- MX_ENTRY_BEGIN (R177): The matrix unit begins the next MX queue entry in the cycle after the previous one ends. -/
  | mxEntryBegin (core : Nat)
  /-- ROUTINE_WATERMARK_RESUME (R173): A routine waiting on a watermark or ring resumes when the read is covered or the drain accepted. -/
  | routineWatermarkResume (core : Nat)
  /-- ROUTINE_COMPLETE (R180): A routine's completion is appended after all its writes are performed and drains accepted. -/
  | routineComplete (core : Nat)
  /-- HOD_COMMAND_BEGIN (R237): A channel's next command begins after the previous one finishes and reads its descriptors. -/
  | hodCommandBegin (cluster : Nat) (ch : Nat)
  /-- HOD_TURN (R237): The Hod grants a channel a transfer turn of up to 1,024 bytes round-robin. -/
  | hodTurn (cluster : Nat)
  /-- HOD_WRITE_LAND (R252): A Hod write lands in a scratchpad and fills watermark sectors, advancing WM. -/
  | hodWriteLand (cluster : Nat) (ch : Nat)
  /-- HOD_COMMAND_COMPLETE (R238): A command's effects are in place and its completion is appended to the issuing strand's semaphore. -/
  | hodCommandComplete (cluster : Nat) (ch : Nat)
  /-- HSTEP_STAGE_COMPLETE (R255): A released stage's last command finishes, a completion is appended and the counter advances. -/
  | hstepStageComplete (cluster : Nat) (ch : Nat)
  /-- HMCAST_ACK (R256): A receiver's copy of a multicast is written whole and the receiver acknowledges. -/
  | hmcastAck (cluster : Nat) (ch : Nat) (rcv : Nat)
  /-- HADD_ROW_STAGE (R258): An HADD row enters its target core's staging buffer as space frees. -/
  | haddRowStage (cluster : Nat) (ch : Nat)
  /-- RING_DRAIN_LAND (R266): A drained row lands in a ring slot, opening a free slot for the draining core. -/
  | ringDrainLand (cluster : Nat)
  /-- EPILOGUE_SLOT (R268): The epilogue engine takes a submitted slot, converts and writes the tile, publishes it and frees the slot. -/
  | epilogueSlot (cluster : Nat)
  /-- LAUNCH_ANSWER (R293): The home slice's answer to a LAUNCH is written to its register with a completion. -/
  | launchAnswer (strand : Nat)
  /-- LAUNCH_VALIDATE (R276): The home slice reads a launch record, descriptor and arguments and accepts or refuses the launch. -/
  | launchValidate (die : Nat)
  /-- LAUNCH_COMPLETE (R281): When returned weight reaches 2^62 the launch is marked done, coarse records freed and the completion record written. -/
  | launchComplete (ctx : Nat) (lid : Nat)
  /-- DISPATCH_CYCLE (R284): Each cycle a die's dispatcher chooses a READY task and sends one binding or placement. -/
  | dispatchCycle (die : Nat)
  /-- BINDING_JUDGE (R287): A core accepts or refuses arriving bindings and binds accepted tasks to strands. -/
  | bindingJudge (core : Nat)
  /-- TASK_WEIGHT_RETURN (R290): An ended task's weight returns once its accesses are performed and entries complete. -/
  | taskWeightReturn (ctx : Nat) (lid : Nat) (task : Nat)
  /-- BAR_PHASE_COMPLETE (R295): When all arrivals of a phase are complete, PHASE advances and waiting members are released. -/
  | barPhaseComplete (ctx : Nat) (lid : Nat) (didx : Nat)
  /-- WAKE_REQUEST_ARRIVAL (R357): A WAKE request reaches the context's home slice and takes effect there. -/
  | wakeRequestArrival (die : Nat)
  /-- PARK_DEADLINE (R356): A parked task's deadline is reached and it is woken with reason 2. -/
  | parkDeadline (ctx : Nat) (lid : Nat) (task : Nat)
  /-- CHECKPOINT_SAVE (R351): After the strand's queues, commands and entries drain, the task image is written to a save area and the strand freed. -/
  | checkpointSave (strand : Nat)
  /-- TASK_REEXECUTE (R364): A RESTARTABLE task that is killed or hit by a hardware error is discarded and made READY again. -/
  | taskReexecute (ctx : Nat) (lid : Nat) (task : Nat)
  /-- CORE_HARDWARE_ERROR (R363): A core reports a hardware error and every task bound or pinned on it is re-executed or ended. -/
  | coreHardwareError (core : Nat)
  /-- CORE_PARITY_ERROR (R228): A parity error in core structures stops the core and resets its tag table and channels. -/
  | coreParityError (hit : CoreHit)
  /-- CLUSTER_PARITY_ERROR (R272): A parity error in a cluster engine structure is handled as a hardware error of the cores concerned. -/
  | clusterParityError (cluster : Nat) (err : ClusterErr)
  /-- TEARDOWN_COMPLETE (R371): When every strand of a dying context is FREE, the entry becomes FREE and the DESTROY completion is written. -/
  | teardownComplete (ctx : Nat)
  /-- TROWEL_MIGRATION_DONE (R368): A Trowel migration completes and the freed page returns to the other pool. -/
  | trowelMigrationDone (idx : Nat)
  /-- MIGRATION_REQUEST (R335): A migration descriptor is judged and, if valid, its leaf is stopped and the page invalidated. -/
  | migrationRequest (trowel : Bool)
  /-- MIGRATION_COPY (R336): After the invalidation completes, the copy engine copies every sector of the old page to the new. -/
  | migrationCopy (idx : Nat)
  /-- MIGRATION_RESTART (R336): After the copy the leaf is restarted at the new page, held accesses are released and the completion written. -/
  | migrationRestart (idx : Nat)
  /-- COPY_FILL_RETURN (R317): A copy-sector fill from the home arrives and merges without overwriting local bytes. -/
  | copyFillReturn (die : Nat) (idx : Nat)
  /-- WRITE_THROUGH_ACK (R317): The home acknowledges a write-through and the bytes become clean. -/
  | writeThroughAck (die : Nat) (idx : Nat)
  /-- COPY_SECTOR_AGEOUT (R319): A copy sector's clean bytes are dropped 65,536 cycles after its latest fill. -/
  | copySectorAgeout (die : Nat) (sector : Nat)
  /-- SLICE_ERROR (R322): A slice ECC or tag parity error corrects, poisons or invalidates the line; the errors of R448 that no other row
  shows stand here too. -/
  | sliceError (die : Nat) (sector : Nat) (kind : SliceErr)
  /-- HBM_SECTOR_READ (R396): The controller checks ECC and integrity of a sector for a requester and decrypts or poisons it; which
  atoms do not correct, which are corrected, and whether the tag is found not to verify. -/
  | hbmSectorRead (sector : Nat) (who : Requester) (ecc : Ecc) (tagBad : Bool)
  /-- KILN_IMAGE_ACCEPT (R406): A non-volatile sector image enters Kiln's buffer, releasing a held home write. -/
  | kilnImageAccept (half : Nat)
  /-- KILN_IMAGE_ACK (R406): The device acknowledges both halves of an image, which becomes durable and leaves the buffer. -/
  | kilnImageAck (half : Nat) (sector : Nat) (part : Nat)
  /-- KILN_IMAGE_REFUSED (R411): An image refused three retries is dropped and its stores settled as failed. -/
  | kilnImageRefused (half : Nat) (sector : Nat)
  /-- KILN_DEVICE_TIMEOUT (R411): A device that does not respond for 1 ms has its images dropped. -/
  | kilnDeviceTimeout (units : List Nat)
  /-- PBAR_COMPLETE (R405): When older non-volatile stores are durable or settled, held stores are released and a completion appended. -/
  | pbarComplete (strand : Nat)
  /-- COLD_BOOT (R419): The boot ROM verifies firmware, which repairs, trains, generates slot 0 and zeroes HBM4E. -/
  | coldBoot (fwOk : Bool)
  /-- SCRUB_COUNT_POLL (R414): Every millisecond the controller adds the stacks' scrub counts into ECS. -/
  | scrubCountPoll (counts : (List Nat))
  /-- STACK_RETIRE (R415): The firmware retires a stack by migrating its pages and powering it down. -/
  | stackRetire (stack : Nat) (dests : List (Nat × Nat))
  /-- MARGIN_PLAN (R416): Every 10 s the margin planner re-plans voltage margins and retires exhausted cores. -/
  | marginPlan (cores : (List Nat))
  /-- POWER_MANAGER_SAMPLE (R421): Every microsecond the power manager reads currents and steps the package clock. -/
  | powerManagerSample (avg : Nat)
  /-- GS_ENABLE (R388): A write of GSCTL.EN = 1 starts or restarts the sequencer. -/
  | gsEnable (value : Nat)
  /-- GS_DISABLE (R388): A write of GSCTL.EN = 0 abandons the attempt or turns the sequencer off. -/
  | gsDisable (value : Nat)
  /-- GS_STOP (R388): A write of GSCTL.STOP = 1 stops the sequencer after the next commit. -/
  | gsStop (value : Nat)
  /-- CQ_PROD_WRITE (R436): A write of a host queue's producer count is checked and hands new entries to the device. -/
  | cqProdWrite (q : Nat) (value : Nat)
  /-- QCFG_WRITE (R435): A write of a queue configuration enables it or sets ERR. -/
  | qcfgWrite (q : Nat) (value : Nat)
  /-- HPPUSH (R439): A register write adds a page to the HBM4E pool. -/
  | hppush (value : Nat)
  /-- PPPUSH (R439): A register write adds a page to the pooled-memory pool. -/
  | pppush (value : Nat)
  /-- FORCEV (R434): A write of DEVCTL.FORCEV enters the viral state. -/
  | forcev (value : Nat)
  /-- KLCTL_GPF_WRITE (R407): A write of KLCTL.GPF changes Kiln's mode once the buffer drains, if hold-up is confirmed. -/
  | klctlGpfWrite (value : Nat)
  /-- REGISTER_WRITE (R432): A host write to a register without behaviour of its own sets its fields; with no value, the host's read of
  a register, which the table gives no row of its own. -/
  | registerWrite (off : Nat) (bytes : Nat) (value : Option Nat)
  /-- KEYLOAD (R441): SPDM operation that loads a key slot. -/
  | keyload (slot : Nat) (retain : Bool)
  /-- KEYZERO (R441): SPDM operation that zeroises a key slot. -/
  | keyzero (slot : Nat)
  /-- KDSET (R399): SPDM operation that sets the key domain of pages, zeroing them under the new domain. -/
  | kdset (page : Nat) (count : Nat) (dom : Nat)
  /-- SIGKEY (R441): SPDM operation that adds or removes a loader signing key. -/
  | sigkey (addKey : Bool) (key : Nat) (sig : Nat)
  /-- SPDM_ATTEST (R420): The device answers an SPDM identity, measurement or attestation request. -/
  | spdmAttest (kind : Nat)
  /-- SNP_INV (R427): A host SnpInv invalidates a host-memory line, returning M data. -/
  | snpInv (line : Nat)
  /-- SNP_DATA (R427): A host SnpData downgrades a line to S, returning M data. -/
  | snpData (line : Nat)
  /-- SNP_CUR (R427): A host SnpCur returns the data without changing state. -/
  | snpCur (line : Nat)
  /-- HOST_MEMRD (R428): A host MemRd to device HBM4E is served and recorded in the snoop filter. -/
  | hostMemrd (port : Nat) (off : Nat) (any : Bool)
  /-- HOST_MEMWR (R428): A host MemWr is written into its home sector. -/
  | hostMemwr (port : Nat) (off : Nat) (data : LineData)
  /-- BISNP_ANSWER (R428): The host answers a back-invalidation and the waiting device write proceeds. -/
  | bisnpAnswer (line : Nat) (dirty : (Option LineData))
  /-- CXL_RESPONSE (R427): A host answer to RdShared or RdOwn arrives and the home line takes its state. -/
  | cxlResponse (line : Nat) (grant : Mesi) (data : (BitVec 512))
  /-- PEER_INBOUND (R445): An inbound peer request is performed at its home sector and acknowledged. -/
  | peerInbound (req : PeerReq)
  /-- PEER_RESPONSE (R429): A peer answers a request and the access is performed at .FB. -/
  | peerResponse (idx : Nat) (data : (BitVec 1024)) (answer : PeerAns)
  /-- PEER_TIMEOUT (R444): A peer request unanswered after 1 ms returns poison or is not performed, and the peer is fenced. -/
  | peerTimeout (idx : Nat)
  /-- FENCE_NOTICE (R450): A fence notice received from a peer sets its fence bit. -/
  | fenceNotice (peer : Nat)
  /-- FENCE_WRITE (R450): A host write to a FENCE register sets or clears peer fence bits. -/
  | fenceWrite (reg : Nat) (value : Nat)
  /-- HOST_VIRAL_INDICATION (R448): A viral indication from the host enters the viral state and poisons possibly lost lines. -/
  | hostViralIndication (port : Nat)
  /-- HOST_PORT_LOSS (R452): A host-facing port lost beyond retraining poisons lines the host may have held. -/
  | hostPortLoss (port : Nat)
  /-- DIE_LOSS (R452): The loss of a die poisons in-transit sectors and makes the package viral. -/
  | dieLoss (die : Nat)
  /-- LINK_CRC_FAILURE (R403): A flit failing all retries retrains the link and delivers its atoms poisoned. -/
  | linkCrcFailure (link : Link) (atoms : (List Nat))
  /-- LINK_DOWN (R426): A CXL, UALink or Mortar link goes down, so CXL units are reached through the other memory port, UP bits clear, or an untrainable Mortar edge makes the package viral. -/
  | linkDown (link : Link)
  /-- LINK_TRAINED (R434): A CXL or UALink port completes training, setting LINK0, LINK1 or its FPORTS UP bit and returning the port to service. -/
  | linkTrained (link : Link)
  /-- CREATE (R344): Host context command that creates a context from a descriptor. -/
  | create
  /-- DESTROY (R371): Host context command that tears a context down. -/
  | destroy
  /-- RESUME (R347): Host context command that clears parks, releases halted channels and readies checkpointed tasks. -/
  | resume
  /-- SETWAKE (R344): Host context command that sets the context's predicted wake time. -/
  | setwake
  /-- SETTOK (R360): Host context command that sets the context's priority tokens. -/
  | settok
  /-- SETCLASS (R344): Host context command that sets the context's priority class. -/
  | setclass
  /-- LOAD (R312): Host context command that has the loader check, place and relocate a .nym object. -/
  | load
  /-- TROWEL_SCAN (R369): Every TSCAN ns Trowel scans live contexts and starts promotions and demotions. -/
  | trowelScan
  /-- INVALIDATE_RANGE (R329): IQ request that invalidates translations and code of a range of pages in one ASID. -/
  | invalidateRange
  /-- INVALIDATE_ASID (R329): IQ request that invalidates a whole ASID. -/
  | invalidateAsid
  /-- INVALIDATE_ALL (R329): IQ request that invalidates every ASID. -/
  | invalidateAll
  /-- ICACHE_INVALIDATE (R330): IQ request that drops every sector of every core's instruction cache. -/
  | icacheInvalidate
  /-- LQ_LAUNCH (R437): An LQ entry submits a launch and receives its RESULT. -/
  | lqLaunch
  /-- POWER_LOSS (R412): On a board power-loss signal Kiln flushes its buffer and issues Global Persistent Flush. -/
  | powerLoss
  /-- WARM_RESET (R418): A warm reset flushes, keeps HBM4E and retained keys, and resets volatile state. -/
  | warmReset
  /-- GS_ATTEMPT (R377): The sequencer reads the header, chooses a slot, advances ATT and submits the root launch. -/
  | gsAttempt
  /-- GS_WAIT_RECHECK (R377): A waiting sequencer rereads OCC at a GSCTL write or WAKE. -/
  | gsWaitRecheck
  /-- GS_COMMIT (R381): When every iteration launch completes OK, ACC is read and new lengths and CUR are committed. -/
  | gsCommit
  /-- GS_ABANDON (R387): An abandonment event ends the iteration launches and starts a new attempt or halts. -/
  | gsAbandon
  /-- HPPOP (R439): A register read removes and returns the latest page of the HBM4E pool. -/
  | hppop
  /-- PPPOP (R439): A register read removes and returns the latest page of the pooled-memory pool. -/
  | pppop
  /-- VIRAL_ENTRY (R449): At the viral point all outgoing traffic stops, tasks stop and inbound requests are refused. -/
  | viralEntry
  /-- GLOBAL_PERSISTENT_FLUSH (R424): The host's Global Persistent Flush on port 0 or 1 makes the home slices write back their M host lines and Kiln flush its buffer. -/
  | globalPersistentFlush
  deriving DecidableEq, Repr

end Sys2Proof
end

