-- ==== Sys2Proof/Machine/Legal.lean ====
section
/-! DEFINITION. The encoding checks of the slot operations: what the spec reserves, in the order of R455. -/

namespace Sys2Proof.Machine

/-- Who may read and write a status register (R103, R105). -/
inductive SrnAccess where
  | none | r | rw | system
  deriving DecidableEq, Repr

/-- The access of a status register number (R105). -/
def srnAccess (n : Nat) : SrnAccess :=
  if n ≤ 0x009 then .r else if n = 0x00A then .rw
  else if 0x010 ≤ n && n ≤ 0x013 then .rw else if 0x020 ≤ n && n ≤ 0x02F then .r
  else if 0x030 ≤ n && n ≤ 0x033 then .r else if 0x040 ≤ n && n ≤ 0x045 then .rw
  else if n = 0x046 || (0x050 ≤ n && n ≤ 0x05F) then .system else .none

/-- The first encoding error in the order of R455: form 0x0002, reserved 0x0001, coded 0x0004, range 0x0003. -/
def chk (form rsv coded rng : Bool) : Option Nat :=
  if form then some 2 else if rsv then some 1 else if coded then some 4 else if rng then some 3 else none
/-- An operation's own condition, last in the order of R455. -/
def own (c : Bool) (d : Nat) : Option Nat := if c then some d else none
/-- EXT of format RG, 0 in the short form. -/
def extOf (o : RG) : Nat := (o.x.map (fun x => x.ext.toNat)).getD 0
/-- A bit of EXT outside `mask` is set (the mask a run of low bits). -/
def extRsv (o : RG) (mask : Nat) : Bool := extOf o / (mask + 1) ≠ 0
/-- C of format RG, where reserved, is not zero. -/
def cRsv (o : RG) : Bool := (o.x.map (fun x => x.c.toNat)).getD 0 ≠ 0
/-- Short-only RG operation. -/
def rgS (o : RG) (rsv coded rng : Bool) : Option Nat := chk o.x.isSome rsv coded rng
/-- SI operation with both forms: EXT is reserved in the long one (R78). -/
def siSL (o : SI) : Option Nat := chk false (o.x.isSome && o.imm ≠ 0) false false
/-- RM of a scalar floating-point operation (R56). -/
def fRm (o : RG) : Nat := fld o.f.toNat 2 3
/-- F[1:0] of a scalar floating-point operation (R56). -/
def fLow (o : RG) : Nat := o.f.toNat % 4
/-- POS of a bit-field operation (R84). -/
def bfPos (o : RG) : Nat := fld (extOf o) 0 6
/-- Field length of a bit-field operation (R84). -/
def bfLen (o : RG) : Nat := fld (extOf o) 6 6 + 1
/-- EXT of format VR, 0 in the short form. -/
def vExt (o : VR) : Nat := (o.x.map (fun x => x.ext.toNat)).getD 0
/-- RM of format VR; a short form rounds RNE (R55). -/
def vRm (o : VR) : Nat := (o.x.map (fun x => x.rm.toNat)).getD 0
/-- C of format VR, where reserved, is not zero. -/
def vcRsv (o : VR) : Bool := (o.x.map (fun x => x.c.toNat)).getD 0 ≠ 0
/-- VR operation: long-only or not, its type codes, the RM codes below `rm` it takes (none but 0 where `rm` is 0, R138),
the EXT bits it assigns, and its other conditions. -/
def vr (o : VR) (long : Bool) (ts : List Nat) (rm ext : Nat) (rsv coded rng : Bool) : Option Nat :=
  chk (long && o.x.isNone) (vExt o ≠ vExt o &&& ext || rsv)
    (!ts.contains o.t.toNat || (if rm = 0 then vRm o ≠ 0 else decide (vRm o ≥ (if rm = 4 then 4 else 5))) || coded) rng
/-- Width class of a type code: 0 for 64, 1 for 32, 2 for 16 bits; 3 for the reserved code (R55). -/
def tClass (t : Nat) : Nat := if t = 3 then 0 else if t ≤ 2 then 1 else if t ≤ 6 then 2 else 3
/-- VCVT accepts this pair of destination and source (R150). -/
def cvtPair (d s : Nat) : Bool :=
  d ≠ s && d < 7 && s < 7 && (tClass d = tClass s || (d = 3 && tClass s = 1) || (s = 3 && tClass d = 1))
/-- X of format MS. -/
def msX (o : MS) : Nat := (o.x.map (fun x => x.xr.toNat)).getD 0
/-- K of format MS; k0 in the short form (R54). -/
def msK (o : MS) : Nat := (o.x.map (fun x => x.k.toNat)).getD 0
/-- MS operation. -/
def ms (o : MS) (long rsv : Bool) : Option Nat := chk (long && o.x.isNone) rsv false false
/-- K of format MG; k0 in the short form (R54). -/
def mgK (o : MG) : Nat := (o.x.map (fun x => x.k.toNat)).getD 0
/-- SCOPE of format MG; .ST in the short form. -/
def mgScope (o : MG) : Nat := (o.x.map (fun x => x.scope.toNat)).getD 0
/-- MG operation. -/
def mg (o : MG) (long rsv coded : Bool) : Option Nat := chk (long && o.x.isNone) rsv coded false
/-- EXT of format AC; 0 (F32, RNE) in the short form (R202). -/
def acExt (o : AC) : Nat := (o.x.map (fun x => x.ext.toNat)).getD 0
/-- K of format AC; k0 in the short form (R54). -/
def acK (o : AC) : Nat := (o.x.map (fun x => x.k.toNat)).getD 0
/-- AC operation, with the EXT bits it assigns. -/
def ac (o : AC) (ext : Nat) (rsv coded : Bool) : Option Nat := chk false (acExt o ≠ acExt o &&& ext || rsv) coded false
/-- C of format HC. -/
def hC (o : HC) : Nat := (o.x.map (fun x => x.c.toNat)).getD 0
/-- D of format HC. -/
def hD (o : HC) : Nat := (o.x.map (fun x => x.d.toNat)).getD 0
/-- EXT of format HC. -/
def hExt (o : HC) : Nat := (o.x.map (fun x => x.ext.toNat)).getD 0
/-- Long-only HC operation. -/
def hcL (o : HC) (rsv coded : Bool) : Option Nat := chk o.x.isNone rsv coded false
/-- Short-only HC operation. -/
def hcS (o : HC) (rsv coded : Bool) : Option Nat := chk o.x.isSome rsv coded false
/-- A publication's scope: .CL, .DI or .PK (R246). -/
def pubScope (sc : Nat) : Bool := sc = 2 || sc = 3 || sc = 4
/-- Either form of HPUB (R259). -/
def hpub (o : HC) (wrong : Bool) : Option Nat :=
  chk false (wrong || hD o ≠ 0 || hExt o / 2 ≠ 0 || (hExt o = 0 && hC o ≠ 0)) (!pubScope (o.f.toNat % 8)) false

/-- SRC of MM.SETP or MM.LOOP is reserved, or HALF is set where it must be 0 (R191, R192). -/
def setpRsv (o : MmSetp) : Bool := (o.src.toNat > 8 && o.src.toNat < 15) || (o.half = 1 && o.src.toNat ≥ 8)
/-- SRC of MM.LOOP is reserved (R192). -/
def mloopRsv (o : MmLoop) : Bool := o.src.toNat > 8 && o.src.toNat < 15

/-- The first encoding error of an instruction that has its form (R53 to R56, R61, R455); none for the steps of other
agents; the word of a micro-op has its own check (R186), of which its fields here leave the reserved sources. Rules: each operation's own.
(DEDUCED, log 16, 17, 27) -/
def check (i : Instr) : Option Nat :=
  match i with
  | .nop _ => none
  | .br _ => none
  | .brc _ => none
  | .brv _ => none
  | .bri o => rgS o (o.d ≠ 0 || o.b ≠ 0 || o.f ≠ 0) false false
  | .call _ => none
  | .calli o => rgS o (o.d ≠ 0 || o.b ≠ 0 || o.f ≠ 0) false false
  | .ret => none
  | .loopi o => chk o.x.isNone false false false
  | .loop o => chk o.x.isSome (o.a ≠ 0) false false
  | .yield => none
  | .wait o => own (o.imm = 0) 0x0101
  | .waitany o => chk false (o.e ≠ 0) false false <|> own (o.imm = 0) 0x0101
  | .signal o => own (o.imm = 0) 0x0101
  | .trap o => chk false (o.e ≠ 0) false false
  | .rte => none
  | .srd o => chk false (o.a ≠ 0) false false <|> own (srnAccess o.srn.toNat = .none) 0x0102
  | .swr o => chk false (o.d ≠ 0) false false <|> own (srnAccess o.srn.toNat = .none) 0x0102 <|> own (srnAccess o.srn.toNat = .r) 0x0103
  | .sadd _ o => rgS o (o.f ≠ 0) false false
  | .saddi _ o => siSL o
  | .ssub _ o => rgS o (o.f ≠ 0) false false
  | .sand _ o => rgS o (o.f ≠ 0) false false
  | .sor _ o => rgS o (o.f ≠ 0) false false
  | .sxor _ o => rgS o (o.f ≠ 0) false false
  | .sandi _ o => siSL o
  | .sori _ o => siSL o
  | .sxori _ o => siSL o
  | .smin _ o => rgS o (o.f ≠ 0) false false
  | .smins _ o => rgS o (o.f ≠ 0) false false
  | .smax _ o => rgS o (o.f ≠ 0) false false
  | .smaxs _ o => rgS o (o.f ≠ 0) false false
  | .sclz _ o => rgS o (o.b ≠ 0 || o.f ≠ 0) false false
  | .spop _ o => rgS o (o.b ≠ 0 || o.f ≠ 0) false false
  | .smul _ o => rgS o (o.f ≠ 0) false false
  | .smulh _ o => rgS o (o.f ≠ 0) false false
  | .smulhs _ o => rgS o (o.f ≠ 0) false false
  | .sdiv _ o => rgS o (o.f ≠ 0) false false
  | .sdivs _ o => rgS o (o.f ≠ 0) false false
  | .srem _ o => rgS o (o.f ≠ 0) false false
  | .srems _ o => rgS o (o.f ≠ 0) false false
  | .sshl _ o => rgS o false false false
  | .sshr _ o => rgS o false false false
  | .ssra _ o => rgS o false false false
  | .srot _ o => rgS o false false false
  | .sbfx _ o => chk o.x.isNone (o.b ≠ 0 || o.f ≠ 0 || cRsv o || extRsv o 0x1FFF) false false <|> own (bfPos o + bfLen o > 64) 0x0100
  | .sbfi _ o => chk o.x.isNone (o.f ≠ 0 || cRsv o || extRsv o 0xFFF) false false <|> own (bfPos o + bfLen o > 64) 0x0100
  | .saddr _ o => rgS o (o.f.toNat ≥ 8) false false
  | .smov _ o => rgS o (o.b ≠ 0 || o.f ≠ 0) false false
  | .smovi _ o => (if o.x.isSome && o.imm ≠ 0 || o.a ≠ 0 then some 1 else none)
  | .slui _ o => chk o.x.isNone (o.imm ≠ 0) false false
  | .ssel _ o => rgS o (o.f.toNat ≥ 8) false false
  | .scmp _ o => rgS o (o.f.toNat ≥ 8) false (o.d.toNat > 7)
  | .scmpi _ o => chk o.x.isNone (o.imm.toNat ≥ 8) false (o.d.toNat > 7)
  | .pand _ o => rgS o (o.f ≠ 0) false (o.d.toNat > 7 || o.a.toNat > 7 || o.b.toNat > 7)
  | .por _ o => rgS o (o.f ≠ 0) false (o.d.toNat > 7 || o.a.toNat > 7 || o.b.toNat > 7)
  | .pxor _ o => rgS o (o.f ≠ 0) false (o.d.toNat > 7 || o.a.toNat > 7 || o.b.toNat > 7)
  | .pnot _ o => rgS o (o.b ≠ 0 || o.f ≠ 0) false (o.d.toNat > 7 || o.a.toNat > 7)
  | .pmovPred _ o => rgS o (o.b ≠ 0 || o.f ≠ 0) false (o.d.toNat > 7 || o.a.toNat > 7)
  | .pmovFromScalar _ o => rgS o (o.b ≠ 0 || o.f ≠ 1) false (o.d.toNat > 7)
  | .pmovToScalar _ o => rgS o (o.b ≠ 0 || o.f ≠ 2) false (o.a.toNat > 7)
  | .schk _ o => rgS o (o.d ≠ 0 || o.f ≠ 0) false false
  | .schkP _ o => rgS o (o.d ≠ 0 || o.f ≠ 1) false (o.a.toNat > 7 || o.b.toNat > 7)
  | .sfadd _ o => rgS o (fLow o ≠ 0) (fRm o ≥ 5) false
  | .sfsub _ o => rgS o (fLow o ≠ 0) (fRm o ≥ 5) false
  | .sfmul _ o => rgS o (fLow o ≠ 0) (fRm o ≥ 5) false
  | .sfdiv _ o => rgS o (fLow o ≠ 0) (fRm o ≥ 5) false
  | .sfsqrt _ o => rgS o (o.b ≠ 0 || fLow o ≠ 0) (fRm o ≥ 5) false
  | .sfma _ o => chk o.x.isNone (extRsv o 0) (fRm o ≥ 5) false
  | .sfmin _ o => rgS o false (fLow o ≥ 2 || fRm o ≠ 0) false
  | .sfmax _ o => rgS o false (fLow o ≥ 2 || fRm o ≠ 0) false
  | .sfcmp _ o => rgS o false (fRm o ≠ 0) (o.d.toNat > 7)
  | .sfcvt _ o => chk false (o.b ≠ 0 || (o.x.isSome != decide (fLow o = 3)) || cRsv o || extRsv o 0x1F) (fRm o ≥ 5 || extOf o % 16 ≥ 8) false
  | .sfclass _ o => rgS o (o.b ≠ 0 || fLow o ≠ 0) (fRm o ≠ 0) false
  | .vadd _ o => vr o false [0, 3, 4, 5] 5 0 (vcRsv o || false) (false) (false)
  | .vsub _ o => vr o false [0, 3, 4, 5] 5 0 (vcRsv o || false) (false) (false)
  | .vmul _ o => vr o false [0, 3, 4, 5] 5 0 (vcRsv o || false) (false) (false)
  | .vmin _ o => vr o false [0, 3, 4, 5] 0 1 (vcRsv o || false) (false) (false)
  | .vmax _ o => vr o false [0, 3, 4, 5] 0 1 (vcRsv o || false) (false) (false)
  | .vfma _ o => vr o true [0, 3, 4, 5] 5 0 (false) (false) (false)
  | .vfms _ o => vr o true [0, 3, 4, 5] 5 0 (false) (false) (false)
  | .vabs _ o => vr o false [0, 1, 3, 4, 5, 6] 0 (if o.t = 1 || o.t = 6 then 1 else 0) (o.b ≠ 0 || vcRsv o || false) (false) (false)
  | .vneg _ o => vr o false [0, 1, 3, 4, 5, 6] 0 (if o.t = 1 || o.t = 6 then 1 else 0) (o.b ≠ 0 || vcRsv o || false) (false) (false)
  | .vcmp _ o => vr o false [0, 1, 2, 3] 0 0 (vcRsv o || false) ((o.d.toNat / 8 = 7) || (o.d.toNat / 8 = 6 && (o.t = 1 || o.t = 2))) (false)
  | .viadd _ o => vr o false [1, 2, 6] 0 1 (vcRsv o || false) (false) (false)
  | .visub _ o => vr o false [1, 2, 6] 0 1 (vcRsv o || false) (false) (false)
  | .vimul _ o => vr o false [1, 2, 6] 0 3 (vcRsv o || false) (vExt o % 4 = 3) (false)
  | .vimad _ o => vr o true [1, 2, 6] 0 1 (false) (false) (false)
  | .vimin _ o => vr o false [1, 2, 6] 0 0 (vcRsv o || false) (false) (false)
  | .vimax _ o => vr o false [1, 2, 6] 0 0 (vcRsv o || false) (false) (false)
  | .vand _ o => vr o false [0, 1, 2] 0 0 (vcRsv o || false) (false) (false)
  | .vor _ o => vr o false [0, 1, 2] 0 0 (vcRsv o || false) (false) (false)
  | .vxor _ o => vr o false [0, 1, 2] 0 0 (vcRsv o || false) (false) (false)
  | .vnot _ o => vr o false [0, 1, 2] 0 0 (o.b ≠ 0 || vcRsv o || false) (false) (false)
  | .vshl _ o => vr o false [1, 2, 6] 0 0x3F (vcRsv o || (if bitOf (vExt o) 5 then o.b ≠ 0 else vExt o % 32 ≠ 0)) (bitOf (vExt o) 5 && o.t = 6 && vExt o % 32 ≥ 16) (false)
  | .vshr _ o => vr o false [1, 2, 6] 0 0x3F (vcRsv o || (if bitOf (vExt o) 5 then o.b ≠ 0 else vExt o % 32 ≠ 0)) (bitOf (vExt o) 5 && o.t = 6 && vExt o % 32 ≥ 16) (false)
  | .vsra _ o => vr o false [1, 2, 6] 0 0x3F (vcRsv o || (if bitOf (vExt o) 5 then o.b ≠ 0 else vExt o % 32 ≠ 0)) (bitOf (vExt o) 5 && o.t = 6 && vExt o % 32 ≥ 16) (false)
  | .vrotl _ o => vr o false [1, 2, 6] 0 0x3F (vcRsv o || (if bitOf (vExt o) 5 then o.b ≠ 0 else vExt o % 32 ≠ 0)) (bitOf (vExt o) 5 && o.t = 6 && vExt o % 32 ≥ 16) (false)
  | .vsel _ o => vr o false [0, 1, 2, 3, 4, 5, 6] 0 0 (vcRsv o || false) (false) (false)
  | .vmov _ o => vr o false [0, 1, 2] 0 0 (o.b ≠ 0 || vcRsv o || false) (false) (false)
  | .vbcast _ o => vr o false [0, 1, 2, 3, 4, 5, 6] 0 0 (o.b ≠ 0 || vcRsv o || false) (false) (false)
  | .vextr _ o => vr o false [0, 1, 2, 3, 4, 5, 6] 0 0x7F (vcRsv o || o.k ≠ 0) (false) (false)
  | .vidx _ o => vr o false [1, 2, 6] 0 0 (vcRsv o || false) (false) (false)
  | .vcvt _ o => vr o true [0, 1, 2, 3, 4, 5, 6] 5 7 (o.b ≠ 0 || vcRsv o || false) (!cvtPair o.t.toNat (vExt o % 8)) (false)
  | .vpack _ o => vr o false (if bitOf (vExt o) 3 then (if vExt o % 8 < 2 then [0] else [1]) else [4, 5, 6]) 5 (if bitOf (vExt o) 3 then 0x1F else 0) (vcRsv o || false) (bitOf (vExt o) 3 && vExt o % 8 ≥ 4) (false)
  | .vunpack _ o => vr o false (if bitOf (vExt o) 3 then (if vExt o % 8 < 2 then [0] else [1]) else [4, 5, 6]) 0 (if bitOf (vExt o) 3 then 0x3F else 1) (o.b ≠ 0 || vcRsv o || false) (bitOf (vExt o) 3 && vExt o % 8 ≥ 4) (false)
  | .vqmx _ o => vr o true [0] 0 0xF (o.b ≠ 0 || false) (vExt o % 16 < 2 || vExt o % 16 > 9) (false)
  | .vdqmx _ o => vr o true [0] 5 0xF (o.b ≠ 0 || false) (vExt o % 16 < 2 || vExt o % 16 > 9) (false)
  | .vexp2 _ o => vr o false [0] 5 0 (o.b ≠ 0 || vcRsv o || false) (false) (false)
  | .vlog2 _ o => vr o false [0] 5 0 (o.b ≠ 0 || vcRsv o || false) (false) (false)
  | .vrcp _ o => vr o false [0] 5 0 (o.b ≠ 0 || vcRsv o || false) (false) (false)
  | .vrsq _ o => vr o false [0] 5 0 (o.b ≠ 0 || vcRsv o || false) (false) (false)
  | .vsqrt _ o => vr o false [0] 5 0 (o.b ≠ 0 || vcRsv o || false) (false) (false)
  | .vdiv _ o => vr o false [0] 5 0 (vcRsv o || false) (false) (false)
  | .vperm _ o => vr o false [0, 1, 2] 0 (if vExt o / 64 % 4 = 0 then 0xC0 else 0xFF) (vcRsv o || (vExt o / 64 % 4 ≠ 0 && o.b ≠ 0)) (false) (false)
  | .vsum _ o => vr o false [0, 1, 2, 3] 4 0 (o.b ≠ 0 || vcRsv o || false) (false) (false)
  | .vmaxr _ o => vr o false [0, 1, 2, 3] 0 1 (o.b ≠ 0 || vcRsv o || false) (false) (false)
  | .vscan _ o => vr o false [0, 1, 2, 3] 4 1 (o.b ≠ 0 || vcRsv o || false) (false) (false)
  | .vargmax _ o => vr o false [0, 1, 2, 3] 0 0 (o.b ≠ 0 || vcRsv o || false) (false) (false)
  | .vsrch _ o => vr o false [0, 1, 2] 0 1 (vcRsv o || false) (false) (false)
  | .vrng _ o => vr o false [0, 2] 0 0 (o.a ≠ 0 || o.b ≠ 0 || vcRsv o || false) (false) (false)
  | .vacpt _ o => vr o true [1, 2] 0 7 (vcRsv o || false) (vExt o % 8 = 7) (false)
  | .kand _ o => vr o false [0] 0 3 (vcRsv o || o.k ≠ 0) (false) ((!bitOf (vExt o) 1 && o.d.toNat > 7) || o.a.toNat > 7 || (!bitOf (vExt o) 0 && o.b.toNat > 7))
  | .kor _ o => vr o false [0] 0 3 (vcRsv o || o.k ≠ 0) (false) ((!bitOf (vExt o) 1 && o.d.toNat > 7) || o.a.toNat > 7 || (!bitOf (vExt o) 0 && o.b.toNat > 7))
  | .kxor _ o => vr o false [0] 0 3 (vcRsv o || o.k ≠ 0) (false) ((!bitOf (vExt o) 1 && o.d.toNat > 7) || o.a.toNat > 7 || (!bitOf (vExt o) 0 && o.b.toNat > 7))
  | .knot _ o => vr o false [0] 0 2 (o.b ≠ 0 || vcRsv o || o.k ≠ 0) (false) ((!bitOf (vExt o) 1 && o.d.toNat > 7) || o.a.toNat > 7)
  | .kpop _ o => vr o false [0, 1, 2, 3, 4, 5, 6, 7] 0 0 (o.b ≠ 0 || vcRsv o || o.t ≠ 0 || o.k ≠ 0) (false) (o.a.toNat > 7)
  | .kfirst _ o => vr o false [0, 1, 2, 3, 4, 5, 6, 7] 0 0 (o.b ≠ 0 || vcRsv o || o.t ≠ 0 || o.k ≠ 0) (false) (o.a.toNat > 7)
  | .vchk _ o => vr o false [0, 1, 2, 3, 4, 5, 6] 0 0 (vcRsv o || o.d ≠ 0) (false) (false)
  | .spld o => ms o false (msX o ≠ 0)
  | .splds o => ms o false (msX o ≠ 0 || msK o ≠ 0)
  | .spldb o => ms o false (msX o ≠ 0)
  | .spldx o => ms o true false
  | .spst o => ms o false (msX o ≠ 0)
  | .spsts o => ms o false (msX o ≠ 0 || msK o ≠ 0)
  | .spstx o => ms o true false
  | .tlook o => rgS o (o.f ≠ 0 || o.b ≠ 0) false false
  | .tlookWm o => rgS o (o.f ≠ 1 || o.b ≠ 0) false (o.a.toNat > 15)
  | .tins o => rgS o (o.f ≠ 0) false false
  | .tdel o => rgS o (o.d ≠ 0 || o.b ≠ 0 || o.f ≠ 0) false false
  | .tdelIdx o => rgS o (o.d ≠ 0 || o.b ≠ 0 || o.f ≠ 1) false false
  | .gld o => mg o false false (mgScope o ≠ 0)
  | .glds o => mg o false (mgK o ≠ 0) (mgScope o ≠ 0)
  | .glda o => mg o true (mgK o ≠ 0) (mgScope o = 7)
  | .pref o => mg o false (o.q ≠ 0 || mgK o ≠ 0 || o.e ≠ 0) (mgScope o ≠ 0)
  | .gst o => mg o false false (mgScope o ≠ 0 && mgScope o ≠ 7)
  | .gsts o => mg o false (mgK o ≠ 0) (mgScope o ≠ 0 && mgScope o ≠ 7)
  | .gstl o => mg o true (mgK o ≠ 0) (mgScope o = 7)
  | .mark _ o => chk false false (o.scope = 7) false
  | .atom o => chk o.x.isNone (o.d ≠ 0 || o.f ≠ 0 || (extOf o % 16 ≠ 9 && cRsv o) || extRsv o 0x7FFF) (if fld (extOf o) 9 2 = 0 then fld (extOf o) 6 3 ≠ 0 else fld (extOf o) 6 3 = 0 || fld (extOf o) 6 3 = 7) false <|> own (extOf o % 16 > 10 || fld (extOf o) 4 2 ≥ 2) 0x0403
  | .atomr o => chk o.x.isNone (o.f ≠ 0 || (extOf o % 16 ≠ 9 && cRsv o) || extRsv o 0x7FFF) (if fld (extOf o) 9 2 = 0 then fld (extOf o) 6 3 ≠ 0 else fld (extOf o) 6 3 = 0 || fld (extOf o) 6 3 = 7) false <|> own (extOf o % 16 > 10 || fld (extOf o) 4 2 ≥ 2) 0x0403
  | .tagpubSet o => chk false (o.b ≠ 0 || o.f.toNat ≥ 32 || cRsv o || extRsv o 0xFFF) (o.f.toNat % 8 ≠ 3 && o.f.toNat % 8 ≠ 4 || o.f.toNat / 8 % 4 ≠ 0) (o.d.toNat > 15)
  | .tagpubClearTile o => chk false (o.b ≠ 0 || o.f.toNat ≥ 32 || cRsv o || extRsv o 0xFFF) (o.f.toNat % 8 ≠ 3 && o.f.toNat % 8 ≠ 4 || o.f.toNat / 8 % 4 ≠ 1) (o.d.toNat > 15)
  | .tagpubClearTensor o => chk false (o.b ≠ 0 || o.f.toNat ≥ 32 || cRsv o || extRsv o 0xFFF || extOf o ≠ 0) (o.f.toNat % 8 ≠ 3 && o.f.toNat % 8 ≠ 4 || o.f.toNat / 8 % 4 ≠ 2) (o.d.toNat > 15)
  | .mcall o => chk false false (o.gang = 3) false
  | .mlduc o => rgS o (o.f ≠ 0) false (o.d.toNat > 15)
  | .mldrt o => rgS o (o.f ≠ 0) false (o.d.toNat > 15)
  | .mstat o => rgS o (o.f ≠ 0 || o.a ≠ 0 || o.b ≠ 0) false false
  | .mstatFault o => rgS o (o.f ≠ 1 || o.a ≠ 0 || o.b ≠ 0) false false
  | .mstatTake o => rgS o (o.f ≠ 2 || o.a ≠ 0 || o.b ≠ 0) false false
  | .mstatCsat o => rgS o (o.f ≠ 3 || o.a ≠ 0 || o.b ≠ 0) false false
  | .mstatSetm o => rgS o (o.f ≠ 4 || o.b ≠ 0) false (o.d.toNat > 7)
  | .mstatGetm o => rgS o (o.f ≠ 5 || o.b ≠ 0) false (o.a.toNat > 7)
  | .mabort => none
  | .ard o => ac o 0 false false
  | .aclr o => ac o 0 (o.v ≠ 0) false
  | .awr o => ac o 0 false false
  | .aacc o => ac o (if acExt o % 8 = 1 then 0x7F else 0x3F) false (!(List.contains [0, 1, 3] (acExt o % 8)) || acExt o / 8 % 8 ≥ 4)
  | .aow o => ac o 0 (o.v ≠ 0 || acK o ≠ 0) false
  | .adrn o => ac o 0 (o.v.toNat ≥ 32 || acK o ≠ 0) false
  | .hcopyS2s o => hcL o (o.f ≠ 0 || hD o ≠ 0 || hExt o ≠ 0) false
  | .hcopyG2s o => hcL o (o.f ≠ 1 || hD o ≠ 0 || hExt o ≠ 0) false
  | .hcopyG2t o => hcL o (o.f.toNat ≥ 4 || (hC o ≠ 0 && o.f = 2) || hExt o % 0x10000 ≠ 0 || (o.f.toNat % 4 ≠ 2 && hExt o ≠ 0)) (o.f.toNat % 4 ≠ 2 || !pubScope (fld (hExt o) 16 3))
  | .hfill o => hcL o (o.f ≠ 0 || hD o ≠ 0 || hExt o ≠ 0) false
  | .hfillT o => hcL o (o.f ≠ 1 || hC o ≠ 0 || hExt o % 0x10000 ≠ 0) (!pubScope (fld (hExt o) 16 3))
  | .htile o => hcL o (o.f.toNat ≥ 2 || hD o ≠ 0) false
  | .htwr o => hcL o (o.f ≠ 0 || hD o ≠ 0 || hExt o % 0x10000 ≠ 0) (!pubScope (fld (hExt o) 16 3))
  | .hwm o => chk false (o.e ≠ 0 || o.f ≠ 0 || hD o ≠ 0 || hExt o ≠ 0) false false
  | .hwmOff o => hcS o (o.e ≠ 0 || o.f ≠ 1 || o.a ≠ 0 || o.b ≠ 0) false
  | .hsched o => hcS o (o.b ≠ 0 || o.f ≠ 0) false
  | .hstep o => hcS o (o.b ≠ 0) false
  | .hmcast o => hcL o (o.e ≠ 0 || o.f ≠ 0 || hD o ≠ 0 || hExt o / 16 ≠ 0) false
  | .hmwait o => hcS o (o.a ≠ 0 || o.b ≠ 0 || o.f ≠ 0) false
  | .hadd o => hcL o (o.f.toNat ≥ 2 || hD o ≠ 0 || hExt o / 64 ≠ 0 || (fld (hExt o) 2 3 ≠ 1 && bitOf (hExt o) 5)) (fld (hExt o) 2 3 ≥ 2)
  | .hpub o => hpub o (bitOf o.f.toNat 3)
  | .hpubRing o => hpub o (!bitOf o.f.toNat 3)
  | .hstat o => hcS o (o.e ≠ 0 || o.b ≠ 0) (o.f ≠ 0)
  | .hstatStage o => hcS o (o.e ≠ 0 || o.b ≠ 0) (o.f ≠ 1)
  | .hstatLast o => hcS o (o.e ≠ 0 || o.b ≠ 0) (o.f ≠ 2)
  | .launch o => chk o.x.isNone (o.b ≠ 0 || o.f ≠ 0 || cRsv o || extRsv o 0xF) false false
  | .spawn o => chk false (o.b ≠ 0 || o.f ≠ 0 || extRsv o 0) false false
  | .spawnAt o => chk false (o.f ≠ 1 || extRsv o 0) false false
  | .exit o => rgS o (o.d ≠ 0 || o.a ≠ 0 || o.b ≠ 0 || o.f ≠ 0) false false
  | .exitErr o => rgS o (o.d ≠ 0 || o.b ≠ 0 || o.f ≠ 1) false false
  | .bar o => rgS o (o.d ≠ 0 || o.a ≠ 0 || o.b ≠ 0 || o.f ≠ 0) false false
  | .barArrive o => rgS o (o.d ≠ 0 || o.a ≠ 0 || o.b ≠ 0 || o.f ≠ 1) false false
  | .barWait o => rgS o (o.d ≠ 0 || o.a ≠ 0 || o.b ≠ 0 || o.f ≠ 2) false false
  | .tagwait o => chk false (o.d ≠ 0 || o.b ≠ 0 || o.f.toNat ≥ 8 || extRsv o 0) (o.f.toNat % 8 ≠ 3 && o.f.toNat % 8 ≠ 4) false
  | .cswitch o => rgS o (o.b ≠ 0 || o.f ≠ 0) false false
  | .park o => rgS o (o.b ≠ 0 || o.f ≠ 0) false false
  | .wake o => chk false (o.d ≠ 0 || o.b ≠ 0 || cRsv o || extRsv o 0) (o.f ≠ 0) false
  | .wakeAt o => chk false (o.d ≠ 0 || cRsv o || extRsv o 0) (o.f ≠ 1) false
  | .wakeIn o => chk false (o.d ≠ 0 || cRsv o) (o.f ≠ 2) false
  | .estset o => chk false (o.d ≠ 0 || o.b ≠ 0 || cRsv o) (o.f ≠ 0) false
  | .estsetWake o => chk false (o.d ≠ 0 || o.b ≠ 0 || cRsv o) (o.f ≠ 1) false
  | .pbar o => rgS o (o.a ≠ 0 || o.b ≠ 0 || o.f.toNat ≥ 8) (o.f.toNat % 8 ≠ 7) (o.d.toNat > 15)
  | .mmMac _ _ _ => none
  | .mmScl _ _ => none
  | .mmClr _ _ _ => none
  | .mmDrn _ _ _ => none
  | .mmLoop _ o _ => own (mloopRsv o) 0x0210
  | .mmJmp _ _ _ => none
  | .mmSetp _ o _ => own (setpRsv o) 0x0210
  | .mmEnd _ _ => none
  | .mmNop _ => none
  | .bundleIssue _ => none
  | .strandUnblock _ => none
  | .idleCoreSelect _ => none
  | .forcedYield _ => none
  | .markRetire _ => none
  | .globalLoadArrival _ _ => none
  | .globalStorePerformed _ _ => none
  | .prefAccepted _ _ => none
  | .translationWalkReturn _ => none
  | .atomicEngineAccept _ => none
  | .atomicRecall _ _ => none
  | .tagSetAct _ => none
  | .tagClearAct _ => none
  | .mxEntryBegin _ => none
  | .routineWatermarkResume _ => none
  | .routineComplete _ => none
  | .hodCommandBegin _ _ => none
  | .hodTurn _ => none
  | .hodWriteLand _ _ => none
  | .hodCommandComplete _ _ => none
  | .hstepStageComplete _ _ => none
  | .hmcastAck _ _ _ => none
  | .haddRowStage _ _ => none
  | .ringDrainLand _ => none
  | .epilogueSlot _ => none
  | .launchAnswer _ => none
  | .launchValidate _ => none
  | .launchComplete _ _ => none
  | .dispatchCycle _ => none
  | .bindingJudge _ => none
  | .taskWeightReturn _ _ _ => none
  | .barPhaseComplete _ _ _ => none
  | .wakeRequestArrival _ => none
  | .parkDeadline _ _ _ => none
  | .checkpointSave _ => none
  | .taskReexecute _ _ _ => none
  | .coreHardwareError _ => none
  | .coreParityError _ => none
  | .clusterParityError _ _ => none
  | .teardownComplete _ => none
  | .trowelMigrationDone _ => none
  | .migrationRequest _ => none
  | .migrationCopy _ => none
  | .migrationRestart _ => none
  | .copyFillReturn _ _ => none
  | .writeThroughAck _ _ => none
  | .copySectorAgeout _ _ => none
  | .sliceError _ _ _ => none
  | .hbmSectorRead _ _ _ _ => none
  | .kilnImageAccept _ => none
  | .kilnImageAck _ _ _ => none
  | .kilnImageRefused _ _ => none
  | .kilnDeviceTimeout _ => none
  | .pbarComplete _ => none
  | .coldBoot _ => none
  | .scrubCountPoll _ => none
  | .stackRetire _ _ => none
  | .marginPlan _ => none
  | .powerManagerSample _ => none
  | .gsEnable _ => none
  | .gsDisable _ => none
  | .gsStop _ => none
  | .cqProdWrite _ _ => none
  | .qcfgWrite _ _ => none
  | .hppush _ => none
  | .pppush _ => none
  | .forcev _ => none
  | .klctlGpfWrite _ => none
  | .registerWrite _ _ _ => none
  | .keyload _ _ => none
  | .keyzero _ => none
  | .kdset _ _ _ => none
  | .sigkey _ _ _ => none
  | .spdmAttest _ => none
  | .snpInv _ => none
  | .snpData _ => none
  | .snpCur _ => none
  | .hostMemrd _ _ _ => none
  | .hostMemwr _ _ _ => none
  | .bisnpAnswer _ _ => none
  | .cxlResponse _ _ _ => none
  | .peerInbound _ => none
  | .peerResponse _ _ _ => none
  | .peerTimeout _ => none
  | .fenceNotice _ => none
  | .fenceWrite _ _ => none
  | .hostViralIndication _ => none
  | .hostPortLoss _ => none
  | .dieLoss _ => none
  | .linkCrcFailure _ _ => none
  | .linkDown _ => none
  | .linkTrained _ => none
  | .create => none
  | .destroy => none
  | .resume => none
  | .setwake => none
  | .settok => none
  | .setclass => none
  | .load => none
  | .trowelScan => none
  | .invalidateRange => none
  | .invalidateAsid => none
  | .invalidateAll => none
  | .icacheInvalidate => none
  | .lqLaunch => none
  | .powerLoss => none
  | .warmReset => none
  | .gsAttempt => none
  | .gsWaitRecheck => none
  | .gsCommit => none
  | .gsAbandon => none
  | .hppop => none
  | .pppop => none
  | .viralEntry => none
  | .globalPersistentFlush => none

/-- The numbers that name an agent lie in their ranges (R3, R236, R340). -/
def agentOk (i : Instr) : Bool :=
  match i with
  | .nop _ => true
  | .br _ => true
  | .brc _ => true
  | .brv _ => true
  | .bri _ => true
  | .call _ => true
  | .calli _ => true
  | .ret => true
  | .loopi _ => true
  | .loop _ => true
  | .yield => true
  | .wait _ => true
  | .waitany _ => true
  | .signal _ => true
  | .trap _ => true
  | .rte => true
  | .srd _ => true
  | .swr _ => true
  | .sadd _ _ => true
  | .saddi _ _ => true
  | .ssub _ _ => true
  | .sand _ _ => true
  | .sor _ _ => true
  | .sxor _ _ => true
  | .sandi _ _ => true
  | .sori _ _ => true
  | .sxori _ _ => true
  | .smin _ _ => true
  | .smins _ _ => true
  | .smax _ _ => true
  | .smaxs _ _ => true
  | .sclz _ _ => true
  | .spop _ _ => true
  | .smul _ _ => true
  | .smulh _ _ => true
  | .smulhs _ _ => true
  | .sdiv _ _ => true
  | .sdivs _ _ => true
  | .srem _ _ => true
  | .srems _ _ => true
  | .sshl _ _ => true
  | .sshr _ _ => true
  | .ssra _ _ => true
  | .srot _ _ => true
  | .sbfx _ _ => true
  | .sbfi _ _ => true
  | .saddr _ _ => true
  | .smov _ _ => true
  | .smovi _ _ => true
  | .slui _ _ => true
  | .ssel _ _ => true
  | .scmp _ _ => true
  | .scmpi _ _ => true
  | .pand _ _ => true
  | .por _ _ => true
  | .pxor _ _ => true
  | .pnot _ _ => true
  | .pmovPred _ _ => true
  | .pmovFromScalar _ _ => true
  | .pmovToScalar _ _ => true
  | .schk _ _ => true
  | .schkP _ _ => true
  | .sfadd _ _ => true
  | .sfsub _ _ => true
  | .sfmul _ _ => true
  | .sfdiv _ _ => true
  | .sfsqrt _ _ => true
  | .sfma _ _ => true
  | .sfmin _ _ => true
  | .sfmax _ _ => true
  | .sfcmp _ _ => true
  | .sfcvt _ _ => true
  | .sfclass _ _ => true
  | .vadd _ _ => true
  | .vsub _ _ => true
  | .vmul _ _ => true
  | .vmin _ _ => true
  | .vmax _ _ => true
  | .vfma _ _ => true
  | .vfms _ _ => true
  | .vabs _ _ => true
  | .vneg _ _ => true
  | .vcmp _ _ => true
  | .viadd _ _ => true
  | .visub _ _ => true
  | .vimul _ _ => true
  | .vimad _ _ => true
  | .vimin _ _ => true
  | .vimax _ _ => true
  | .vand _ _ => true
  | .vor _ _ => true
  | .vxor _ _ => true
  | .vnot _ _ => true
  | .vshl _ _ => true
  | .vshr _ _ => true
  | .vsra _ _ => true
  | .vrotl _ _ => true
  | .vsel _ _ => true
  | .vmov _ _ => true
  | .vbcast _ _ => true
  | .vextr _ _ => true
  | .vidx _ _ => true
  | .vcvt _ _ => true
  | .vpack _ _ => true
  | .vunpack _ _ => true
  | .vqmx _ _ => true
  | .vdqmx _ _ => true
  | .vexp2 _ _ => true
  | .vlog2 _ _ => true
  | .vrcp _ _ => true
  | .vrsq _ _ => true
  | .vsqrt _ _ => true
  | .vdiv _ _ => true
  | .vperm _ _ => true
  | .vsum _ _ => true
  | .vmaxr _ _ => true
  | .vscan _ _ => true
  | .vargmax _ _ => true
  | .vsrch _ _ => true
  | .vrng _ _ => true
  | .vacpt _ _ => true
  | .kand _ _ => true
  | .kor _ _ => true
  | .kxor _ _ => true
  | .knot _ _ => true
  | .kpop _ _ => true
  | .kfirst _ _ => true
  | .vchk _ _ => true
  | .spld _ => true
  | .splds _ => true
  | .spldb _ => true
  | .spldx _ => true
  | .spst _ => true
  | .spsts _ => true
  | .spstx _ => true
  | .tlook _ => true
  | .tlookWm _ => true
  | .tins _ => true
  | .tdel _ => true
  | .tdelIdx _ => true
  | .gld _ => true
  | .glds _ => true
  | .glda _ => true
  | .pref _ => true
  | .gst _ => true
  | .gsts _ => true
  | .gstl _ => true
  | .mark _ _ => true
  | .atom _ => true
  | .atomr _ => true
  | .tagpubSet _ => true
  | .tagpubClearTile _ => true
  | .tagpubClearTensor _ => true
  | .mcall _ => true
  | .mlduc _ => true
  | .mldrt _ => true
  | .mstat _ => true
  | .mstatFault _ => true
  | .mstatTake _ => true
  | .mstatCsat _ => true
  | .mstatSetm _ => true
  | .mstatGetm _ => true
  | .mabort => true
  | .ard _ => true
  | .aclr _ => true
  | .awr _ => true
  | .aacc _ => true
  | .aow _ => true
  | .adrn _ => true
  | .hcopyS2s _ => true
  | .hcopyG2s _ => true
  | .hcopyG2t _ => true
  | .hfill _ => true
  | .hfillT _ => true
  | .htile _ => true
  | .htwr _ => true
  | .hwm _ => true
  | .hwmOff _ => true
  | .hsched _ => true
  | .hstep _ => true
  | .hmcast _ => true
  | .hmwait _ => true
  | .hadd _ => true
  | .hpub _ => true
  | .hpubRing _ => true
  | .hstat _ => true
  | .hstatStage _ => true
  | .hstatLast _ => true
  | .launch _ => true
  | .spawn _ => true
  | .spawnAt _ => true
  | .exit _ => true
  | .exitErr _ => true
  | .bar _ => true
  | .barArrive _ => true
  | .barWait _ => true
  | .tagwait _ => true
  | .cswitch _ => true
  | .park _ => true
  | .wake _ => true
  | .wakeAt _ => true
  | .wakeIn _ => true
  | .estset _ => true
  | .estsetWake _ => true
  | .pbar _ => true
  | .mmMac core _ _ => decide (core < 192)
  | .mmScl core _ => decide (core < 192)
  | .mmClr core _ _ => decide (core < 192)
  | .mmDrn core _ _ => decide (core < 192)
  | .mmLoop core _ _ => decide (core < 192)
  | .mmJmp core _ _ => decide (core < 192)
  | .mmSetp core _ _ => decide (core < 192)
  | .mmEnd core _ => decide (core < 192)
  | .mmNop core => decide (core < 192)
  | .bundleIssue core => decide (core < 192)
  | .strandUnblock strand => decide (strand < 1536)
  | .idleCoreSelect core => decide (core < 192)
  | .forcedYield core => decide (core < 192)
  | .markRetire strand => decide (strand < 1536)
  | .globalLoadArrival strand _ => decide (strand < 1536)
  | .globalStorePerformed strand _ => decide (strand < 1536)
  | .prefAccepted strand _ => decide (strand < 1536)
  | .translationWalkReturn strand => decide (strand < 1536)
  | .atomicEngineAccept cluster => decide (cluster < 48)
  | .atomicRecall cluster _ => decide (cluster < 48)
  | .tagSetAct die => decide (die < 4)
  | .tagClearAct die => decide (die < 4)
  | .mxEntryBegin core => decide (core < 192)
  | .routineWatermarkResume core => decide (core < 192)
  | .routineComplete core => decide (core < 192)
  | .hodCommandBegin cluster ch => decide (cluster < 48) && decide (ch < 64)
  | .hodTurn cluster => decide (cluster < 48)
  | .hodWriteLand cluster ch => decide (cluster < 48) && decide (ch < 64)
  | .hodCommandComplete cluster ch => decide (cluster < 48) && decide (ch < 64)
  | .hstepStageComplete cluster ch => decide (cluster < 48) && decide (ch < 64)
  | .hmcastAck cluster ch _ => decide (cluster < 48) && decide (ch < 64)
  | .haddRowStage cluster ch => decide (cluster < 48) && decide (ch < 64)
  | .ringDrainLand cluster => decide (cluster < 48)
  | .epilogueSlot cluster => decide (cluster < 48)
  | .launchAnswer strand => decide (strand < 1536)
  | .launchValidate die => decide (die < 4)
  | .launchComplete ctx _ => decide (ctx < 65536)
  | .dispatchCycle die => decide (die < 4)
  | .bindingJudge core => decide (core < 192)
  | .taskWeightReturn ctx _ _ => decide (ctx < 65536)
  | .barPhaseComplete ctx _ _ => decide (ctx < 65536)
  | .wakeRequestArrival die => decide (die < 4)
  | .parkDeadline ctx _ _ => decide (ctx < 65536)
  | .checkpointSave strand => decide (strand < 1536)
  | .taskReexecute ctx _ _ => decide (ctx < 65536)
  | .coreHardwareError core => decide (core < 192)
  | .coreParityError hit => decide (hit.core < 192)
  | .clusterParityError cluster _ => decide (cluster < 48)
  | .teardownComplete ctx => decide (ctx < 65536)
  | .trowelMigrationDone _ => true
  | .migrationRequest _ => true
  | .migrationCopy _ => true
  | .migrationRestart _ => true
  | .copyFillReturn die _ => decide (die < 4)
  | .writeThroughAck die _ => decide (die < 4)
  | .copySectorAgeout die _ => decide (die < 4)
  | .sliceError die _ _ => decide (die < 4)
  | .hbmSectorRead _ _ _ _ => true
  | .kilnImageAccept half => decide (half < 2)
  | .kilnImageAck half _ _ => decide (half < 2)
  | .kilnImageRefused half _ => decide (half < 2)
  | .kilnDeviceTimeout units => units.all (fun u => u < 0x4000)
  | .pbarComplete strand => decide (strand < 1536)
  | .coldBoot _ => true
  | .scrubCountPoll _ => true
  | .stackRetire stack _ => decide (stack < 16)
  | .marginPlan _ => true
  | .powerManagerSample _ => true
  | .gsEnable _ => true
  | .gsDisable _ => true
  | .gsStop _ => true
  | .cqProdWrite _ _ => true
  | .qcfgWrite _ _ => true
  | .hppush _ => true
  | .pppush _ => true
  | .forcev _ => true
  | .klctlGpfWrite _ => true
  | .registerWrite _ _ _ => true
  | .keyload _ _ => true
  | .keyzero _ => true
  | .kdset _ _ _ => true
  | .sigkey _ _ _ => true
  | .spdmAttest _ => true
  | .snpInv _ => true
  | .snpData _ => true
  | .snpCur _ => true
  | .hostMemrd _ _ _ => true
  | .hostMemwr _ _ _ => true
  | .bisnpAnswer _ _ => true
  | .cxlResponse _ _ _ => true
  | .peerInbound _ => true
  | .peerResponse _ _ _ => true
  | .peerTimeout _ => true
  | .fenceNotice _ => true
  | .fenceWrite _ _ => true
  | .hostViralIndication _ => true
  | .hostPortLoss _ => true
  | .dieLoss die => decide (die < 4)
  | .linkCrcFailure _ _ => true
  | .linkDown _ => true
  | .linkTrained _ => true
  | .create => true
  | .destroy => true
  | .resume => true
  | .setwake => true
  | .settok => true
  | .setclass => true
  | .load => true
  | .trowelScan => true
  | .invalidateRange => true
  | .invalidateAsid => true
  | .invalidateAll => true
  | .icacheInvalidate => true
  | .lqLaunch => true
  | .powerLoss => true
  | .warmReset => true
  | .gsAttempt => true
  | .gsWaitRecheck => true
  | .gsCommit => true
  | .gsAbandon => true
  | .hppop => true
  | .pppop => true
  | .viralEntry => true
  | .globalPersistentFlush => true

end Sys2Proof.Machine
end

