-- ==== Sys2Proof/WellFormed.lean ====
section
/-! DEFINITION. Which instructions are well formed: no encoding check of R455 refuses them, and the agents they name exist. -/

namespace Sys2Proof

/-- A well-formed instruction: no condition of R455 that its words alone decide, and agent numbers in range (R3). -/
def WellFormed (i : Instr) : Bool := (Machine.check i).isNone && Machine.agentOk i

end Sys2Proof
end

