-- ==== Sys2Proof/Decode.lean ====
section
/-! DEFINITION. Decoding slot operations, bundles and micro-op words, total on any bits; and the encoder from the same tables. -/

namespace Sys2Proof

open Machine

/-- A slot operation read from its words: the instruction, and the errors the words alone show (R53, R68, R455). -/
structure Raw where
  i : Instr
  noLong : Bool := false
  port : Bool := false
  rsv : Bool := false
  deriving DecidableEq, Repr

/-- LONG, bit 31 of a slot operation's first word (R52). -/
def isLong (w : Nat) : Bool := bitOf w 31
/-- OP, bits [30:24] (R52). -/
def opcodeOf (w : Nat) : Nat := fld w 24 7
/-- A second-word half, present when LONG is set. -/
def half {α : Type} (w : Nat) (x : α) : Option α := if isLong w then some x else none

/-- Format RG (R53). -/
def rgOf (w w2 : Nat) : RG := ⟨BitVec.ofNat 6 (fld w 18 6), BitVec.ofNat 6 (fld w 12 6), BitVec.ofNat 6 (fld w 6 6), BitVec.ofNat 6 (fld w 0 6), half w ⟨BitVec.ofNat 6 (fld w2 26 6), BitVec.ofNat 26 (fld w2 0 26)⟩⟩
/-- The first word's [23:0] in format RG. -/
def rgWord (o : RG) : Nat := o.d.toNat * 2 ^ 18 + o.a.toNat * 2 ^ 12 + o.b.toNat * 2 ^ 6 + o.f.toNat
/-- The second word in format RG. -/
def rgWord2 (o : RG) : Option Nat := o.x.map (fun x => x.c.toNat * 2 ^ 26 + x.ext.toNat)

/-- Format SI (R53). -/
def siOf (w w2 : Nat) : SI := ⟨BitVec.ofNat 6 (fld w 18 6), BitVec.ofNat 6 (fld w 12 6), BitVec.ofNat 12 (fld w 0 12), half w (BitVec.ofNat 32 w2)⟩
/-- The first word's [23:0] in format SI. -/
def siWord (o : SI) : Nat := o.d.toNat * 2 ^ 18 + o.a.toNat * 2 ^ 12 + o.imm.toNat
/-- The second word in format SI. -/
def siWord2 (o : SI) : Option Nat := o.x.map (fun x => x.toNat)

/-- Format VR (R53). -/
def vrOf (w w2 : Nat) : VR := ⟨BitVec.ofNat 6 (fld w 18 6), BitVec.ofNat 6 (fld w 12 6), BitVec.ofNat 6 (fld w 6 6), BitVec.ofNat 3 (fld w 3 3), BitVec.ofNat 3 (fld w 0 3), half w ⟨BitVec.ofNat 6 (fld w2 26 6), BitVec.ofNat 3 (fld w2 23 3), BitVec.ofNat 23 (fld w2 0 23)⟩⟩
/-- The first word's [23:0] in format VR. -/
def vrWord (o : VR) : Nat := o.d.toNat * 2 ^ 18 + o.a.toNat * 2 ^ 12 + o.b.toNat * 2 ^ 6 + o.k.toNat * 2 ^ 3 + o.t.toNat
/-- The second word in format VR. -/
def vrWord2 (o : VR) : Option Nat := o.x.map (fun x => x.c.toNat * 2 ^ 26 + x.rm.toNat * 2 ^ 23 + x.ext.toNat)

/-- Format MS (R53). -/
def msOf (w w2 : Nat) : MS := ⟨BitVec.ofNat 6 (fld w 18 6), BitVec.ofNat 6 (fld w 12 6), BitVec.ofNat 6 (fld w 6 6), BitVec.ofNat 6 (fld w 0 6), half w ⟨BitVec.ofNat 3 (fld w2 29 3), BitVec.ofNat 6 (fld w2 23 6), BitVec.ofNat 20 (fld w2 0 20)⟩⟩
/-- The first word's [23:0] in format MS. -/
def msWord (o : MS) : Nat := o.q.toNat * 2 ^ 18 + o.a.toNat * 2 ^ 12 + o.off.toNat * 2 ^ 6 + o.stp.toNat
/-- The second word in format MS. -/
def msWord2 (o : MS) : Option Nat := o.x.map (fun x => x.k.toNat * 2 ^ 29 + x.xr.toNat * 2 ^ 23 + x.disp.toNat)
/-- A reserved bit of format MS is set (R53). -/
def msRsv (w w2 : Nat) : Bool := (isLong w && fld w2 20 3 ≠ 0)

/-- Format MG (R53). -/
def mgOf (w w2 : Nat) : MG := ⟨BitVec.ofNat 6 (fld w 18 6), BitVec.ofNat 6 (fld w 12 6), BitVec.ofNat 4 (fld w 8 4), BitVec.ofNat 6 (fld w 0 6), half w ⟨BitVec.ofNat 3 (fld w2 29 3), BitVec.ofNat 3 (fld w2 26 3), BitVec.ofNat 20 (fld w2 0 20)⟩⟩
/-- The first word's [23:0] in format MG. -/
def mgWord (o : MG) : Nat := o.q.toNat * 2 ^ 18 + o.a.toNat * 2 ^ 12 + o.e.toNat * 2 ^ 8 + o.stp.toNat
/-- The second word in format MG. -/
def mgWord2 (o : MG) : Option Nat := o.x.map (fun x => x.k.toNat * 2 ^ 29 + x.scope.toNat * 2 ^ 26 + x.disp.toNat)
/-- A reserved bit of format MG is set (R53). -/
def mgRsv (w w2 : Nat) : Bool := fld w 6 2 ≠ 0 || (isLong w && fld w2 20 6 ≠ 0)

/-- Format MK (R53). -/
def mkOf (w _w2 : Nat) : MK := ⟨BitVec.ofNat 3 (fld w 8 3), BitVec.ofNat 2 (fld w 6 2)⟩
/-- The first word's [23:0] in format MK. -/
def mkWord (o : MK) : Nat := o.scope.toNat * 2 ^ 8 + o.kind.toNat * 2 ^ 6
/-- A reserved bit of format MK is set (R53). -/
def mkRsv (w _w2 : Nat) : Bool := fld w 11 13 ≠ 0 || fld w 0 6 ≠ 0

/-- Format XC (R53). -/
def xcOf (w w2 : Nat) : XC := ⟨BitVec.ofNat 8 (fld w 16 8), BitVec.ofNat 4 (fld w 12 4), BitVec.ofNat 2 (fld w 10 2), half w (BitVec.ofNat 32 w2)⟩
/-- The first word's [23:0] in format XC. -/
def xcWord (o : XC) : Nat := o.rt.toNat * 2 ^ 16 + o.e.toNat * 2 ^ 12 + o.gang.toNat * 2 ^ 10
/-- The second word in format XC. -/
def xcWord2 (o : XC) : Option Nat := o.x.map (fun x => x.toNat)
/-- A reserved bit of format XC is set (R53). -/
def xcRsv (w _w2 : Nat) : Bool := fld w 0 10 ≠ 0

/-- Format AC (R53). -/
def acOf (w w2 : Nat) : AC := ⟨BitVec.ofNat 6 (fld w 18 6), BitVec.ofNat 10 (fld w 8 10), BitVec.ofNat 6 (fld w 0 6), half w ⟨BitVec.ofNat 6 (fld w2 26 6), BitVec.ofNat 3 (fld w2 23 3), BitVec.ofNat 23 (fld w2 0 23)⟩⟩
/-- The first word's [23:0] in format AC. -/
def acWord (o : AC) : Nat := o.v.toNat * 2 ^ 18 + o.row.toNat * 2 ^ 8 + o.stp.toNat
/-- The second word in format AC. -/
def acWord2 (o : AC) : Option Nat := o.x.map (fun x => x.a.toNat * 2 ^ 26 + x.k.toNat * 2 ^ 23 + x.ext.toNat)
/-- A reserved bit of format AC is set (R53). -/
def acRsv (w _w2 : Nat) : Bool := fld w 6 2 ≠ 0

/-- Format HC (R53). -/
def hcOf (w w2 : Nat) : HC := ⟨BitVec.ofNat 6 (fld w 18 6), BitVec.ofNat 6 (fld w 12 6), BitVec.ofNat 4 (fld w 8 4), BitVec.ofNat 4 (fld w 4 4), BitVec.ofNat 4 (fld w 0 4), half w ⟨BitVec.ofNat 6 (fld w2 26 6), BitVec.ofNat 6 (fld w2 20 6), BitVec.ofNat 20 (fld w2 0 20)⟩⟩
/-- The first word's [23:0] in format HC. -/
def hcWord (o : HC) : Nat := o.a.toNat * 2 ^ 18 + o.b.toNat * 2 ^ 12 + o.ch.toNat * 2 ^ 8 + o.e.toNat * 2 ^ 4 + o.f.toNat
/-- The second word in format HC. -/
def hcWord2 (o : HC) : Option Nat := o.x.map (fun x => x.c.toNat * 2 ^ 26 + x.d.toNat * 2 ^ 20 + x.ext.toNat)

/-- Format CJ (R53). -/
def cjOf (w _w2 : Nat) : CJ := ⟨BitVec.ofNat 24 (fld w 0 24)⟩
/-- The first word's [23:0] in format CJ. -/
def cjWord (o : CJ) : Nat := o.off.toNat

/-- Format CC (R53). -/
def ccOf (w _w2 : Nat) : CC := ⟨BitVec.ofNat 3 (fld w 21 3), BitVec.ofNat 3 (fld w 18 3), BitVec.ofNat 1 (fld w 17 1), BitVec.ofNat 17 (fld w 0 17)⟩
/-- The first word's [23:0] in format CC. -/
def ccWord (o : CC) : Nat := o.p.toNat * 2 ^ 21 + o.q.toNat * 2 ^ 18 + o.sense.toNat * 2 ^ 17 + o.off.toNat

/-- Format CL (R53). -/
def clOf (w w2 : Nat) : CL := ⟨BitVec.ofNat 2 (fld w 22 2), BitVec.ofNat 6 (fld w 16 6), BitVec.ofNat 16 (fld w 0 16), half w (BitVec.ofNat 32 w2)⟩
/-- The first word's [23:0] in format CL. -/
def clWord (o : CL) : Nat := o.l.toNat * 2 ^ 22 + o.a.toNat * 2 ^ 16 + o.off.toNat
/-- The second word in format CL. -/
def clWord2 (o : CL) : Option Nat := o.x.map (fun x => x.toNat)

/-- Format CE (R53). -/
def ceOf (w _w2 : Nat) : CE := ⟨BitVec.ofNat 4 (fld w 20 4), BitVec.ofNat 16 (fld w 0 16)⟩
/-- The first word's [23:0] in format CE. -/
def ceWord (o : CE) : Nat := o.e.toNat * 2 ^ 20 + o.imm.toNat
/-- A reserved bit of format CE is set (R53). -/
def ceRsv (w _w2 : Nat) : Bool := fld w 16 4 ≠ 0

/-- Format CS (R53). -/
def csOf (w _w2 : Nat) : CS := ⟨BitVec.ofNat 6 (fld w 18 6), BitVec.ofNat 6 (fld w 12 6), BitVec.ofNat 12 (fld w 0 12)⟩
/-- The first word's [23:0] in format CS. -/
def csWord (o : CS) : Nat := o.d.toNat * 2 ^ 18 + o.a.toNat * 2 ^ 12 + o.srn.toNat

/-- Opcodes of class CT (R62 to R69); none where the opcode is reserved (R61). -/
def decodeCT (w w2 : Nat) : Option Raw :=
  match opcodeOf w with
  | 0x00 => some { i := .nop .ct, noLong := isLong w, rsv := fld w 0 24 ≠ 0 }
  | 0x01 => some { i := .br (cjOf w w2), noLong := isLong w }
  | 0x02 => some { i := .brc (ccOf w w2), noLong := isLong w }
  | 0x03 => some { i := .brv (ccOf w w2), noLong := isLong w }
  | 0x04 => some { i := .bri (rgOf w w2) }
  | 0x05 => some { i := .call (cjOf w w2), noLong := isLong w }
  | 0x06 => some { i := .calli (rgOf w w2) }
  | 0x07 => some { i := .ret, noLong := isLong w, rsv := fld w 0 24 ≠ 0 }
  | 0x08 => some { i := .loop (clOf w w2) }
  | 0x09 => some { i := .loopi (clOf w w2) }
  | 0x0A => some { i := .yield, noLong := isLong w, rsv := fld w 0 24 ≠ 0 }
  | 0x0B => some { i := .wait (ceOf w w2), noLong := isLong w, rsv := ceRsv w w2 }
  | 0x0C => some { i := .waitany (ceOf w w2), noLong := isLong w, rsv := ceRsv w w2 }
  | 0x0D => some { i := .signal (ceOf w w2), noLong := isLong w, rsv := ceRsv w w2 }
  | 0x0E => some { i := .trap (ceOf w w2), noLong := isLong w, rsv := ceRsv w w2 }
  | 0x0F => some { i := .rte, noLong := isLong w, rsv := fld w 0 24 ≠ 0 }
  | 0x10 => some { i := .srd (csOf w w2), noLong := isLong w }
  | 0x11 => some { i := .swr (csOf w w2), noLong := isLong w }
  | 0x12 => if fld w 0 6 = 1 then some { i := .barArrive (rgOf w w2) } else if fld w 0 6 = 2 then some { i := .barWait (rgOf w w2) } else some { i := .bar (rgOf w w2) }
  | 0x13 => if fld w 0 1 = 1 then some { i := .spawnAt (rgOf w w2) } else some { i := .spawn (rgOf w w2) }
  | 0x14 => if fld w 0 1 = 1 then some { i := .exitErr (rgOf w w2) } else some { i := .exit (rgOf w w2) }
  | 0x15 => some { i := .launch (rgOf w w2) }
  | 0x16 => some { i := .tagwait (rgOf w w2) }
  | 0x17 => some { i := .cswitch (rgOf w w2) }
  | 0x18 => some { i := .park (rgOf w w2) }
  | 0x19 => if fld w 0 6 = 1 then some { i := .wakeAt (rgOf w w2) } else if fld w 0 6 = 2 then some { i := .wakeIn (rgOf w w2) } else some { i := .wake (rgOf w w2) }
  | 0x1A => if fld w 0 6 = 1 then some { i := .estsetWake (rgOf w w2) } else some { i := .estset (rgOf w w2) }
  | 0x1B => some { i := .pbar (rgOf w w2) }
  | _ => none

/-- Opcodes of class S (R62 to R69); none where the opcode is reserved (R61). -/
def decodeS (u : SUnit) (w w2 : Nat) : Option Raw :=
  match opcodeOf w with
  | 0x00 => some { i := .sadd u (rgOf w w2) }
  | 0x01 => some { i := .saddi u (siOf w w2) }
  | 0x02 => some { i := .ssub u (rgOf w w2) }
  | 0x03 => some { i := .smul u (rgOf w w2) }
  | 0x04 => some { i := .smulh u (rgOf w w2) }
  | 0x05 => some { i := .smulhs u (rgOf w w2) }
  | 0x06 => some { i := .sdiv u (rgOf w w2) }
  | 0x07 => some { i := .sdivs u (rgOf w w2) }
  | 0x08 => some { i := .srem u (rgOf w w2) }
  | 0x09 => some { i := .srems u (rgOf w w2) }
  | 0x0A => some { i := .sand u (rgOf w w2) }
  | 0x0B => some { i := .sandi u (siOf w w2) }
  | 0x0C => some { i := .sor u (rgOf w w2) }
  | 0x0D => some { i := .sori u (siOf w w2) }
  | 0x0E => some { i := .sxor u (rgOf w w2) }
  | 0x0F => some { i := .sxori u (siOf w w2) }
  | 0x10 => some { i := .sshl u (rgOf w w2) }
  | 0x11 => some { i := .sshr u (rgOf w w2) }
  | 0x12 => some { i := .ssra u (rgOf w w2) }
  | 0x13 => some { i := .srot u (rgOf w w2) }
  | 0x14 => some { i := .smin u (rgOf w w2) }
  | 0x15 => some { i := .smins u (rgOf w w2) }
  | 0x16 => some { i := .smax u (rgOf w w2) }
  | 0x17 => some { i := .smaxs u (rgOf w w2) }
  | 0x18 => some { i := .sclz u (rgOf w w2) }
  | 0x19 => some { i := .spop u (rgOf w w2) }
  | 0x1A => some { i := .sbfx u (rgOf w w2) }
  | 0x1B => some { i := .sbfi u (rgOf w w2) }
  | 0x1C => some { i := .saddr u (rgOf w w2) }
  | 0x1D => some { i := .smov u (rgOf w w2) }
  | 0x1E => some { i := .smovi u (siOf w w2) }
  | 0x1F => some { i := .slui u (siOf w w2) }
  | 0x20 => some { i := .ssel u (rgOf w w2) }
  | 0x21 => some { i := .scmp u (rgOf w w2) }
  | 0x22 => some { i := .scmpi u (siOf w w2) }
  | 0x23 => some { i := .pand u (rgOf w w2) }
  | 0x24 => some { i := .por u (rgOf w w2) }
  | 0x25 => some { i := .pxor u (rgOf w w2) }
  | 0x26 => some { i := .pnot u (rgOf w w2) }
  | 0x27 => if fld w 0 6 = 1 then some { i := .pmovFromScalar u (rgOf w w2) } else if fld w 0 6 = 2 then some { i := .pmovToScalar u (rgOf w w2) } else some { i := .pmovPred u (rgOf w w2) }
  | 0x28 => if fld w 0 1 = 1 then some { i := .schkP u (rgOf w w2) } else some { i := .schk u (rgOf w w2) }
  | 0x29 => some { i := .sfadd u (rgOf w w2) }
  | 0x2A => some { i := .sfsub u (rgOf w w2) }
  | 0x2B => some { i := .sfmul u (rgOf w w2) }
  | 0x2C => some { i := .sfma u (rgOf w w2) }
  | 0x2D => some { i := .sfdiv u (rgOf w w2) }
  | 0x2E => some { i := .sfsqrt u (rgOf w w2) }
  | 0x2F => some { i := .sfmin u (rgOf w w2) }
  | 0x30 => some { i := .sfmax u (rgOf w w2) }
  | 0x31 => some { i := .sfcmp u (rgOf w w2) }
  | 0x32 => some { i := .sfcvt u (rgOf w w2) }
  | 0x33 => some { i := .sfclass u (rgOf w w2) }
  | 0x7F => some { i := .nop (match u with | .a => .sa | .b => .sb), noLong := isLong w, rsv := fld w 0 24 ≠ 0 }
  | _ => none

/-- Opcodes of class V (R62 to R69); none where the opcode is reserved (R61). -/
def decodeV (u : VUnit) (w w2 : Nat) : Option Raw :=
  match opcodeOf w with
  | 0x00 => some { i := .vadd u (vrOf w w2) }
  | 0x01 => some { i := .vsub u (vrOf w w2) }
  | 0x02 => some { i := .vmul u (vrOf w w2) }
  | 0x03 => some { i := .vfma u (vrOf w w2) }
  | 0x04 => some { i := .vfms u (vrOf w w2) }
  | 0x05 => some { i := .vmin u (vrOf w w2) }
  | 0x06 => some { i := .vmax u (vrOf w w2) }
  | 0x07 => some { i := .vabs u (vrOf w w2) }
  | 0x08 => some { i := .vneg u (vrOf w w2) }
  | 0x09 => some { i := .vcmp u (vrOf w w2) }
  | 0x0A => some { i := .vsel u (vrOf w w2) }
  | 0x0B => some { i := .vmov u (vrOf w w2) }
  | 0x0C => some { i := .vbcast u (vrOf w w2) }
  | 0x0D => some { i := .vextr u (vrOf w w2) }
  | 0x0E => some { i := .vidx u (vrOf w w2) }
  | 0x0F => some { i := .viadd u (vrOf w w2) }
  | 0x10 => some { i := .visub u (vrOf w w2) }
  | 0x11 => some { i := .vimul u (vrOf w w2) }
  | 0x12 => some { i := .vimad u (vrOf w w2) }
  | 0x13 => some { i := .vimin u (vrOf w w2) }
  | 0x14 => some { i := .vimax u (vrOf w w2) }
  | 0x15 => some { i := .vand u (vrOf w w2) }
  | 0x16 => some { i := .vor u (vrOf w w2) }
  | 0x17 => some { i := .vxor u (vrOf w w2) }
  | 0x18 => some { i := .vnot u (vrOf w w2) }
  | 0x19 => some { i := .vshl u (vrOf w w2) }
  | 0x1A => some { i := .vshr u (vrOf w w2) }
  | 0x1B => some { i := .vsra u (vrOf w w2) }
  | 0x1C => some { i := .vcvt u (vrOf w w2) }
  | 0x1D => some { i := .vpack u (vrOf w w2) }
  | 0x1E => some { i := .vunpack u (vrOf w w2) }
  | 0x1F => some { i := .vqmx u (vrOf w w2) }
  | 0x20 => some { i := .vdqmx u (vrOf w w2) }
  | 0x21 => some { i := .vexp2 u (vrOf w w2) }
  | 0x22 => some { i := .vlog2 u (vrOf w w2) }
  | 0x23 => some { i := .vrcp u (vrOf w w2) }
  | 0x24 => some { i := .vrsq u (vrOf w w2) }
  | 0x25 => some { i := .vsqrt u (vrOf w w2) }
  | 0x26 => some { i := .vdiv u (vrOf w w2) }
  | 0x27 => some { i := .vperm u (vrOf w w2) }
  | 0x28 => some { i := .vrotl u (vrOf w w2) }
  | 0x29 => some { i := .vsum u (vrOf w w2) }
  | 0x2A => some { i := .vmaxr u (vrOf w w2) }
  | 0x2B => some { i := .vargmax u (vrOf w w2) }
  | 0x2C => some { i := .vscan u (vrOf w w2) }
  | 0x2D => some { i := .vsrch u (vrOf w w2) }
  | 0x2E => some { i := .vrng u (vrOf w w2) }
  | 0x2F => some { i := .vacpt u (vrOf w w2) }
  | 0x30 => some { i := .kand u (vrOf w w2) }
  | 0x31 => some { i := .kor u (vrOf w w2) }
  | 0x32 => some { i := .kxor u (vrOf w w2) }
  | 0x33 => some { i := .knot u (vrOf w w2) }
  | 0x34 => some { i := .kpop u (vrOf w w2) }
  | 0x35 => some { i := .kfirst u (vrOf w w2) }
  | 0x36 => some { i := .vchk u (vrOf w w2) }
  | 0x7F => some { i := .nop (match u with | .a => .va | .b => .vb), noLong := isLong w, rsv := fld w 0 24 ≠ 0 }
  | _ => none

/-- Opcodes of class LD (R62 to R69); none where the opcode is reserved (R61). -/
def decodeLD (w w2 : Nat) : Option Raw :=
  match opcodeOf w with
  | 0x00 => some { i := .spld (msOf w w2), rsv := msRsv w w2 }
  | 0x01 => some { i := .splds (msOf w w2), rsv := msRsv w w2 }
  | 0x02 => some { i := .spldb (msOf w w2), rsv := msRsv w w2 }
  | 0x03 => some { i := .spldx (msOf w w2), rsv := msRsv w w2 }
  | 0x04 => some { i := .gld (mgOf w w2), rsv := mgRsv w w2 }
  | 0x05 => some { i := .glds (mgOf w w2), rsv := mgRsv w w2 }
  | 0x06 => some { i := .glda (mgOf w w2), rsv := mgRsv w w2 }
  | 0x07 => some { i := .pref (mgOf w w2), rsv := mgRsv w w2 }
  | 0x08 => if fld w 0 1 = 1 then some { i := .tlookWm (rgOf w w2) } else some { i := .tlook (rgOf w w2) }
  | 0x09 => some { i := .mark .ld (mkOf w w2), noLong := isLong w, rsv := mkRsv w w2 }
  | 0x7F => some { i := .nop .ld, noLong := isLong w, rsv := fld w 0 24 ≠ 0 }
  | _ => none

/-- Opcodes of class ST (R62 to R69); none where the opcode is reserved (R61). -/
def decodeST (w w2 : Nat) : Option Raw :=
  match opcodeOf w with
  | 0x00 => some { i := .spst (msOf w w2), rsv := msRsv w w2 }
  | 0x01 => some { i := .spsts (msOf w w2), rsv := msRsv w w2 }
  | 0x02 => some { i := .spstx (msOf w w2), rsv := msRsv w w2 }
  | 0x03 => some { i := .gst (mgOf w w2), rsv := mgRsv w w2 }
  | 0x04 => some { i := .gsts (mgOf w w2), rsv := mgRsv w w2 }
  | 0x05 => some { i := .gstl (mgOf w w2), rsv := mgRsv w w2 }
  | 0x06 => some { i := .tins (rgOf w w2) }
  | 0x07 => if fld w 0 1 = 1 then some { i := .tdelIdx (rgOf w w2) } else some { i := .tdel (rgOf w w2) }
  | 0x08 => some { i := .mark .st (mkOf w w2), noLong := isLong w, rsv := mkRsv w w2 }
  | 0x09 => some { i := .atom (rgOf w w2) }
  | 0x0A => some { i := .atomr (rgOf w w2) }
  | 0x0B => if fld w 3 2 = 1 then some { i := .tagpubClearTile (rgOf w w2) } else if fld w 3 2 = 2 then some { i := .tagpubClearTensor (rgOf w w2) } else some { i := .tagpubSet (rgOf w w2) }
  | 0x7F => some { i := .nop .st, noLong := isLong w, rsv := fld w 0 24 ≠ 0 }
  | _ => none

/-- Opcodes of class MX (R62 to R69); none where the opcode is reserved (R61). -/
def decodeMX (w w2 : Nat) : Option Raw :=
  match opcodeOf w with
  | 0x00 => some { i := .mcall (xcOf w w2), rsv := xcRsv w w2 }
  | 0x01 => some { i := .mlduc (rgOf w w2) }
  | 0x02 => some { i := .mldrt (rgOf w w2) }
  | 0x03 => if fld w 0 6 = 1 then some { i := .mstatFault (rgOf w w2) } else if fld w 0 6 = 2 then some { i := .mstatTake (rgOf w w2) } else if fld w 0 6 = 3 then some { i := .mstatCsat (rgOf w w2) } else if fld w 0 6 = 4 then some { i := .mstatSetm (rgOf w w2) } else if fld w 0 6 = 5 then some { i := .mstatGetm (rgOf w w2) } else some { i := .mstat (rgOf w w2) }
  | 0x04 => some { i := .mabort, noLong := isLong w, rsv := fld w 0 24 ≠ 0 }
  | 0x7F => some { i := .nop .mx, noLong := isLong w, rsv := fld w 0 24 ≠ 0 }
  | _ => none

/-- Opcodes of class A (R62 to R69); none where the opcode is reserved (R61). -/
def decodeA (aw : Bool) (w w2 : Nat) : Option Raw :=
  match opcodeOf w with
  | 0x00 => some { i := .ard (acOf w w2), rsv := acRsv w w2, port := aw }
  | 0x01 => some { i := .aclr (acOf w w2), rsv := acRsv w w2, port := !aw }
  | 0x02 => some { i := .awr (acOf w w2), rsv := acRsv w w2, port := !aw }
  | 0x03 => some { i := .aacc (acOf w w2), rsv := acRsv w w2, port := !aw }
  | 0x04 => some { i := .aow (acOf w w2), rsv := acRsv w w2, port := !aw }
  | 0x05 => some { i := .adrn (acOf w w2), rsv := acRsv w w2, port := aw }
  | 0x7F => some { i := .nop (if aw then .aw else .ar), noLong := isLong w, rsv := fld w 0 24 ≠ 0 }
  | _ => none

/-- Opcodes of class HD (R62 to R69); none where the opcode is reserved (R61). -/
def decodeHD (w w2 : Nat) : Option Raw :=
  match opcodeOf w with
  | 0x00 => if fld w 0 2 = 1 then some { i := .hcopyG2s (hcOf w w2) } else if fld w 0 2 = 2 then some { i := .hcopyG2t (hcOf w w2) } else if fld w 0 2 = 3 then some { i := .hcopyG2t (hcOf w w2) } else some { i := .hcopyS2s (hcOf w w2) }
  | 0x01 => some { i := .htile (hcOf w w2) }
  | 0x02 => some { i := .htwr (hcOf w w2) }
  | 0x03 => some { i := .hsched (hcOf w w2) }
  | 0x04 => some { i := .hstep (hcOf w w2) }
  | 0x05 => some { i := .hmcast (hcOf w w2) }
  | 0x06 => some { i := .hmwait (hcOf w w2) }
  | 0x07 => some { i := .hadd (hcOf w w2) }
  | 0x08 => if fld w 3 1 = 1 then some { i := .hpubRing (hcOf w w2) } else some { i := .hpub (hcOf w w2) }
  | 0x09 => if fld w 0 1 = 1 then some { i := .hwmOff (hcOf w w2) } else some { i := .hwm (hcOf w w2) }
  | 0x0A => if fld w 0 1 = 1 then some { i := .hfillT (hcOf w w2) } else some { i := .hfill (hcOf w w2) }
  | 0x0B => if fld w 0 4 = 1 then some { i := .hstatStage (hcOf w w2) } else if fld w 0 4 = 2 then some { i := .hstatLast (hcOf w w2) } else some { i := .hstat (hcOf w w2) }
  | 0x7F => some { i := .nop .hd, noLong := isLong w, rsv := fld w 0 24 ≠ 0 }
  | _ => none

/-- The class of a slot reads its words (R47). -/
def rawOp (sl : Slot) (w w2 : Nat) : Option Raw :=
  match sl with
  | .ct => decodeCT w w2 | .sa => decodeS .a w w2 | .sb => decodeS .b w w2 | .va => decodeV .a w w2 | .vb => decodeV .b w w2
  | .ld => decodeLD w w2 | .st => decodeST w w2 | .mx => decodeMX w w2 | .ar => decodeA false w w2 | .aw => decodeA true w w2
  | .hd => decodeHD w w2

/-- A slot operation decoded: the instruction, or the DETAIL of its ILLEGAL_OP in the order of R455. -/
def decodeOp (sl : Slot) (w w2 : Nat) : Except Nat Instr :=
  match rawOp sl w w2 with
  | none => .error 0x0000
  | some r =>
    if r.noLong || check r.i = some 2 then .error 0x0002
    else if r.port then .error 0x0005
    else if r.rsv then .error 0x0001
    else match check r.i with
      | some d => .error d
      | none => .ok r.i

/-- The slots in ascending number (R47). -/
def slots : List Slot := [.ct, .sa, .sb, .va, .vb, .ld, .st, .mx, .ar, .aw, .hd]

/-- The number of a slot (R47). -/
def Slot.num : Slot → Nat
  | .ct => 0 | .sa => 1 | .sb => 2 | .va => 3 | .vb => 4 | .ld => 5 | .st => 6 | .mx => 7 | .ar => 8 | .aw => 9 | .hd => 10

/-- A bundle header's fields (R46). -/
structure Header where
  len : Nat
  clr : Bool
  repeats : Nat
  present : Nat
  deriving DecidableEq, Repr

/-- The header, or the DETAIL of the framing error its word alone shows (R48). -/
def decodeHeader (h : Nat) : Except Nat Header :=
  if fld h 28 4 ≠ 0b1010 then .error 0x0000
  else if fld h 20 2 ≠ 0 then .error 0x0002
  else if fld h 22 6 = 0 || fld h 22 6 > 23 then .error 0x0001
  else .ok ⟨fld h 22 6, bitOf h 19, fld h 11 8, fld h 0 11⟩

/-- The words of the present slots, in order, from the words that follow the header; none where LEN disagrees (R48). -/
def frameOps (present : Nat) : List Slot → List Nat → Option (List (Slot × Nat × Nat))
  | [], [] => some []
  | [], _ :: _ => none
  | sl :: sls, ws =>
    if bitOf present sl.num then
      match ws with
      | [] => none
      | w :: rest =>
        if isLong w then
          match rest with
          | [] => none
          | w2 :: rest => (frameOps present sls rest).map (fun l => (sl, w, w2) :: l)
        else (frameOps present sls rest).map (fun l => (sl, w, 0) :: l)
    else frameOps present sls ws

/-- The words of a table row's number: 32-bit words, the first at the lowest address. -/
def wordsOf (w : Nat) : Nat → List Nat
  | 0 => []
  | n + 1 => w % 2 ^ 32 :: wordsOf (w / 2 ^ 32) n

/-- The one operation of a bundle that holds exactly one, in its one iteration with CLR clear.
(DESIGN CHOICE, log 12) -/
def decodeBundle1 (ws : List Nat) : Option Instr :=
  match ws with
  | [] => none
  | h :: ws =>
    match decodeHeader h with
    | .error _ => none
    | .ok hd =>
      if hd.clr || hd.repeats ≠ 0 || ws.length + 1 < hd.len then none
      else match frameOps hd.present slots (ws.take (hd.len - 1)) with
        | some [(sl, w, w2)] => match decodeOp sl w w2 with | .ok i => some i | .error _ => none
        | _ => none

/-- The instruction the decoder reads from the bits `w` of a bundle: its header word lowest, then the operation's one or two
words. The opcode table gives its rows no bits, so this numbering is the model's.
(DESIGN CHOICE, log 12) -/
def decodeTableWord (_nbits w : Nat) : Option Instr := decodeBundle1 (wordsOf w 3)

/-- The scale slot of a micro-op word (R188): nothing, an MM.SCL, or a reserved field set. -/
def sclOf (w : Nat) : Except Unit (Option MmScl) :=
  if bitOf w 23 then
    if fld w 0 16 ≠ 0 then .error () else .ok (some ⟨BitVec.ofNat 3 (fld w 20 3), BitVec.ofNat 3 (fld w 17 3), BitVec.ofNat 1 (fld w 16 1)⟩)
  else if fld w 0 23 ≠ 0 then .error () else .ok none
/-- The bits of a scale slot. -/
def sclWord (x : Option MmScl) : Nat :=
  match x with
  | none => 0
  | some o => 2 ^ 23 + o.d.toNat * 2 ^ 20 + o.p.toNat * 2 ^ 17 + o.w.toNat * 2 ^ 16
/-- The fields of MM.MAC . -/
def mmMacOf (w : Nat) : MmMac := ⟨BitVec.ofNat 3 (fld w 57 3), BitVec.ofNat 3 (fld w 54 3), BitVec.ofNat 3 (fld w 51 3), BitVec.ofNat 4 (fld w 47 4), BitVec.ofNat 4 (fld w 43 4), BitVec.ofNat 3 (fld w 40 3), BitVec.ofNat 3 (fld w 37 3), BitVec.ofNat 2 (fld w 35 2), BitVec.ofNat 1 (fld w 34 1), BitVec.ofNat 1 (fld w 33 1), BitVec.ofNat 1 (fld w 32 1)⟩
/-- The main slot of MM.MAC . -/
def mmMacWord (o : MmMac) : Nat := 0 * 2 ^ 60 + o.pa.toNat * 2 ^ 57 + o.pb.toNat * 2 ^ 54 + o.pd.toNat * 2 ^ 51 + o.ea.toNat * 2 ^ 47 + o.eb.toNat * 2 ^ 43 + o.sca.toNat * 2 ^ 40 + o.scb.toNat * 2 ^ 37 + o.shape.toNat * 2 ^ 35 + o.zero.toNat * 2 ^ 34 + o.klast.toNat * 2 ^ 33 + o.satm.toNat * 2 ^ 32
/-- The fields of MM.CLR . -/
def mmClrOf (w : Nat) : MmClr := ⟨BitVec.ofNat 3 (fld w 57 3), BitVec.ofNat 10 (fld w 47 10)⟩
/-- The main slot of MM.CLR . -/
def mmClrWord (o : MmClr) : Nat := 2 * 2 ^ 60 + o.p.toNat * 2 ^ 57 + o.nm1.toNat * 2 ^ 47
/-- The fields of MM.DRN . -/
def mmDrnOf (w : Nat) : MmDrn := ⟨BitVec.ofNat 3 (fld w 57 3), BitVec.ofNat 8 (fld w 49 8), BitVec.ofNat 4 (fld w 45 4), BitVec.ofNat 8 (fld w 37 8), BitVec.ofNat 1 (fld w 36 1)⟩
/-- The main slot of MM.DRN . -/
def mmDrnWord (o : MmDrn) : Nat := 3 * 2 ^ 60 + o.p.toNat * 2 ^ 57 + o.nm1.toNat * 2 ^ 49 + o.slot.toNat * 2 ^ 45 + o.pos.toNat * 2 ^ 37 + o.clr.toNat * 2 ^ 36
/-- The fields of MM.LOOP . -/
def mmLoopOf (w : Nat) : MmLoop := ⟨BitVec.ofNat 2 (fld w 58 2), BitVec.ofNat 4 (fld w 54 4), BitVec.ofNat 12 (fld w 42 12), BitVec.ofNat 16 (fld w 26 16)⟩
/-- The main slot of MM.LOOP . -/
def mmLoopWord (o : MmLoop) : Nat := 4 * 2 ^ 60 + o.l.toNat * 2 ^ 58 + o.src.toNat * 2 ^ 54 + o.fin.toNat * 2 ^ 42 + o.imm.toNat * 2 ^ 26
/-- The fields of MM.JMP . -/
def mmJmpOf (w : Nat) : MmJmp := ⟨BitVec.ofNat 12 (fld w 48 12), BitVec.ofNat 1 (fld w 47 1), BitVec.ofNat 4 (fld w 43 4)⟩
/-- The main slot of MM.JMP . -/
def mmJmpWord (o : MmJmp) : Nat := 5 * 2 ^ 60 + o.target.toNat * 2 ^ 48 + o.cond.toNat * 2 ^ 47 + o.bit.toNat * 2 ^ 43
/-- The fields of MM.SETP . -/
def mmSetpOf (w : Nat) : MmSetp := ⟨BitVec.ofNat 3 (fld w 57 3), BitVec.ofNat 4 (fld w 53 4), BitVec.ofNat 1 (fld w 52 1), BitVec.ofNat 1 (fld w 51 1), BitVec.ofNat 16 (fld w 35 16), BitVec.ofNat 1 (fld w 34 1)⟩
/-- The main slot of MM.SETP . -/
def mmSetpWord (o : MmSetp) : Nat := 6 * 2 ^ 60 + o.p.toNat * 2 ^ 57 + o.src.toNat * 2 ^ 53 + o.half.toNat * 2 ^ 52 + o.add.toNat * 2 ^ 51 + o.stride.toNat * 2 ^ 35 + o.keep.toNat * 2 ^ 34

/-- A micro-op word decoded for a core's matrix unit; none where check 1 of R186 fails (ILLEGAL_OP 0x0210).
(DEDUCED, log 17) -/
def decodeMicro (core w : Nat) : Option Instr :=
  match sclOf w with
  | .error _ => none
  | .ok x =>
    match fld w 60 4 with
    | 0x0 => if fld w 24 8 ≠ 0 then none else some (.mmMac core (mmMacOf w) x)
    | 0x2 => if fld w 24 23 ≠ 0 then none else some (.mmClr core (mmClrOf w) x)
    | 0x3 => if fld w 24 12 ≠ 0 then none else some (.mmDrn core (mmDrnOf w) x)
    | 0x4 => if fld w 24 2 ≠ 0 || mloopRsv (mmLoopOf w) then none else some (.mmLoop core (mmLoopOf w) x)
    | 0x5 => if fld w 24 19 ≠ 0 then none else some (.mmJmp core (mmJmpOf w) x)
    | 0x6 => if fld w 24 10 ≠ 0 || setpRsv (mmSetpOf w) then none else some (.mmSetp core (mmSetpOf w) x)
    | 0x7 => if fld w 24 36 ≠ 0 then none else some (.mmEnd core x)
    | 0x8 => if fld w 24 36 ≠ 0 then none else some (match x with | some o => .mmScl core o | none => .mmNop core)
    | _ => none

/-- The slot an operation stands in (R47, R68); none for the steps of other agents and the micro-ops. -/
def slotOf (i : Instr) : Option Slot :=
  match i with
  | .nop sl => some sl
  | .br _ => some .ct
  | .brc _ => some .ct
  | .brv _ => some .ct
  | .bri _ => some .ct
  | .call _ => some .ct
  | .calli _ => some .ct
  | .ret => some .ct
  | .loopi _ => some .ct
  | .loop _ => some .ct
  | .yield => some .ct
  | .wait _ => some .ct
  | .waitany _ => some .ct
  | .signal _ => some .ct
  | .trap _ => some .ct
  | .rte => some .ct
  | .srd _ => some .ct
  | .swr _ => some .ct
  | .sadd u _ => match u with | .a => some .sa | .b => some .sb
  | .saddi u _ => match u with | .a => some .sa | .b => some .sb
  | .ssub u _ => match u with | .a => some .sa | .b => some .sb
  | .sand u _ => match u with | .a => some .sa | .b => some .sb
  | .sor u _ => match u with | .a => some .sa | .b => some .sb
  | .sxor u _ => match u with | .a => some .sa | .b => some .sb
  | .sandi u _ => match u with | .a => some .sa | .b => some .sb
  | .sori u _ => match u with | .a => some .sa | .b => some .sb
  | .sxori u _ => match u with | .a => some .sa | .b => some .sb
  | .smin u _ => match u with | .a => some .sa | .b => some .sb
  | .smins u _ => match u with | .a => some .sa | .b => some .sb
  | .smax u _ => match u with | .a => some .sa | .b => some .sb
  | .smaxs u _ => match u with | .a => some .sa | .b => some .sb
  | .sclz u _ => match u with | .a => some .sa | .b => some .sb
  | .spop u _ => match u with | .a => some .sa | .b => some .sb
  | .smul u _ => match u with | .a => some .sa | .b => some .sb
  | .smulh u _ => match u with | .a => some .sa | .b => some .sb
  | .smulhs u _ => match u with | .a => some .sa | .b => some .sb
  | .sdiv u _ => match u with | .a => some .sa | .b => some .sb
  | .sdivs u _ => match u with | .a => some .sa | .b => some .sb
  | .srem u _ => match u with | .a => some .sa | .b => some .sb
  | .srems u _ => match u with | .a => some .sa | .b => some .sb
  | .sshl u _ => match u with | .a => some .sa | .b => some .sb
  | .sshr u _ => match u with | .a => some .sa | .b => some .sb
  | .ssra u _ => match u with | .a => some .sa | .b => some .sb
  | .srot u _ => match u with | .a => some .sa | .b => some .sb
  | .sbfx u _ => match u with | .a => some .sa | .b => some .sb
  | .sbfi u _ => match u with | .a => some .sa | .b => some .sb
  | .saddr u _ => match u with | .a => some .sa | .b => some .sb
  | .smov u _ => match u with | .a => some .sa | .b => some .sb
  | .smovi u _ => match u with | .a => some .sa | .b => some .sb
  | .slui u _ => match u with | .a => some .sa | .b => some .sb
  | .ssel u _ => match u with | .a => some .sa | .b => some .sb
  | .scmp u _ => match u with | .a => some .sa | .b => some .sb
  | .scmpi u _ => match u with | .a => some .sa | .b => some .sb
  | .pand u _ => match u with | .a => some .sa | .b => some .sb
  | .por u _ => match u with | .a => some .sa | .b => some .sb
  | .pxor u _ => match u with | .a => some .sa | .b => some .sb
  | .pnot u _ => match u with | .a => some .sa | .b => some .sb
  | .pmovPred u _ => match u with | .a => some .sa | .b => some .sb
  | .pmovFromScalar u _ => match u with | .a => some .sa | .b => some .sb
  | .pmovToScalar u _ => match u with | .a => some .sa | .b => some .sb
  | .schk u _ => match u with | .a => some .sa | .b => some .sb
  | .schkP u _ => match u with | .a => some .sa | .b => some .sb
  | .sfadd u _ => match u with | .a => some .sa | .b => some .sb
  | .sfsub u _ => match u with | .a => some .sa | .b => some .sb
  | .sfmul u _ => match u with | .a => some .sa | .b => some .sb
  | .sfdiv u _ => match u with | .a => some .sa | .b => some .sb
  | .sfsqrt u _ => match u with | .a => some .sa | .b => some .sb
  | .sfma u _ => match u with | .a => some .sa | .b => some .sb
  | .sfmin u _ => match u with | .a => some .sa | .b => some .sb
  | .sfmax u _ => match u with | .a => some .sa | .b => some .sb
  | .sfcmp u _ => match u with | .a => some .sa | .b => some .sb
  | .sfcvt u _ => match u with | .a => some .sa | .b => some .sb
  | .sfclass u _ => match u with | .a => some .sa | .b => some .sb
  | .vadd u _ => match u with | .a => some .va | .b => some .vb
  | .vsub u _ => match u with | .a => some .va | .b => some .vb
  | .vmul u _ => match u with | .a => some .va | .b => some .vb
  | .vmin u _ => match u with | .a => some .va | .b => some .vb
  | .vmax u _ => match u with | .a => some .va | .b => some .vb
  | .vfma u _ => match u with | .a => some .va | .b => some .vb
  | .vfms u _ => match u with | .a => some .va | .b => some .vb
  | .vabs u _ => match u with | .a => some .va | .b => some .vb
  | .vneg u _ => match u with | .a => some .va | .b => some .vb
  | .vcmp u _ => match u with | .a => some .va | .b => some .vb
  | .viadd u _ => match u with | .a => some .va | .b => some .vb
  | .visub u _ => match u with | .a => some .va | .b => some .vb
  | .vimul u _ => match u with | .a => some .va | .b => some .vb
  | .vimad u _ => match u with | .a => some .va | .b => some .vb
  | .vimin u _ => match u with | .a => some .va | .b => some .vb
  | .vimax u _ => match u with | .a => some .va | .b => some .vb
  | .vand u _ => match u with | .a => some .va | .b => some .vb
  | .vor u _ => match u with | .a => some .va | .b => some .vb
  | .vxor u _ => match u with | .a => some .va | .b => some .vb
  | .vnot u _ => match u with | .a => some .va | .b => some .vb
  | .vshl u _ => match u with | .a => some .va | .b => some .vb
  | .vshr u _ => match u with | .a => some .va | .b => some .vb
  | .vsra u _ => match u with | .a => some .va | .b => some .vb
  | .vrotl u _ => match u with | .a => some .va | .b => some .vb
  | .vsel u _ => match u with | .a => some .va | .b => some .vb
  | .vmov u _ => match u with | .a => some .va | .b => some .vb
  | .vbcast u _ => match u with | .a => some .va | .b => some .vb
  | .vextr u _ => match u with | .a => some .va | .b => some .vb
  | .vidx u _ => match u with | .a => some .va | .b => some .vb
  | .vcvt u _ => match u with | .a => some .va | .b => some .vb
  | .vpack u _ => match u with | .a => some .va | .b => some .vb
  | .vunpack u _ => match u with | .a => some .va | .b => some .vb
  | .vqmx u _ => match u with | .a => some .va | .b => some .vb
  | .vdqmx u _ => match u with | .a => some .va | .b => some .vb
  | .vexp2 u _ => match u with | .a => some .va | .b => some .vb
  | .vlog2 u _ => match u with | .a => some .va | .b => some .vb
  | .vrcp u _ => match u with | .a => some .va | .b => some .vb
  | .vrsq u _ => match u with | .a => some .va | .b => some .vb
  | .vsqrt u _ => match u with | .a => some .va | .b => some .vb
  | .vdiv u _ => match u with | .a => some .va | .b => some .vb
  | .vperm u _ => match u with | .a => some .va | .b => some .vb
  | .vsum u _ => match u with | .a => some .va | .b => some .vb
  | .vmaxr u _ => match u with | .a => some .va | .b => some .vb
  | .vscan u _ => match u with | .a => some .va | .b => some .vb
  | .vargmax u _ => match u with | .a => some .va | .b => some .vb
  | .vsrch u _ => match u with | .a => some .va | .b => some .vb
  | .vrng u _ => match u with | .a => some .va | .b => some .vb
  | .vacpt u _ => match u with | .a => some .va | .b => some .vb
  | .kand u _ => match u with | .a => some .va | .b => some .vb
  | .kor u _ => match u with | .a => some .va | .b => some .vb
  | .kxor u _ => match u with | .a => some .va | .b => some .vb
  | .knot u _ => match u with | .a => some .va | .b => some .vb
  | .kpop u _ => match u with | .a => some .va | .b => some .vb
  | .kfirst u _ => match u with | .a => some .va | .b => some .vb
  | .vchk u _ => match u with | .a => some .va | .b => some .vb
  | .spld _ => some .ld
  | .splds _ => some .ld
  | .spldb _ => some .ld
  | .spldx _ => some .ld
  | .spst _ => some .st
  | .spsts _ => some .st
  | .spstx _ => some .st
  | .tlook _ => some .ld
  | .tlookWm _ => some .ld
  | .tins _ => some .st
  | .tdel _ => some .st
  | .tdelIdx _ => some .st
  | .gld _ => some .ld
  | .glds _ => some .ld
  | .glda _ => some .ld
  | .pref _ => some .ld
  | .gst _ => some .st
  | .gsts _ => some .st
  | .gstl _ => some .st
  | .mark h _ => match h with | .ld => some .ld | .st => some .st
  | .atom _ => some .st
  | .atomr _ => some .st
  | .tagpubSet _ => some .st
  | .tagpubClearTile _ => some .st
  | .tagpubClearTensor _ => some .st
  | .mcall _ => some .mx
  | .mlduc _ => some .mx
  | .mldrt _ => some .mx
  | .mstat _ => some .mx
  | .mstatFault _ => some .mx
  | .mstatTake _ => some .mx
  | .mstatCsat _ => some .mx
  | .mstatSetm _ => some .mx
  | .mstatGetm _ => some .mx
  | .mabort => some .mx
  | .ard _ => some .ar
  | .aclr _ => some .aw
  | .awr _ => some .aw
  | .aacc _ => some .aw
  | .aow _ => some .aw
  | .adrn _ => some .ar
  | .hcopyS2s _ => some .hd
  | .hcopyG2s _ => some .hd
  | .hcopyG2t _ => some .hd
  | .hfill _ => some .hd
  | .hfillT _ => some .hd
  | .htile _ => some .hd
  | .htwr _ => some .hd
  | .hwm _ => some .hd
  | .hwmOff _ => some .hd
  | .hsched _ => some .hd
  | .hstep _ => some .hd
  | .hmcast _ => some .hd
  | .hmwait _ => some .hd
  | .hadd _ => some .hd
  | .hpub _ => some .hd
  | .hpubRing _ => some .hd
  | .hstat _ => some .hd
  | .hstatStage _ => some .hd
  | .hstatLast _ => some .hd
  | .launch _ => some .ct
  | .spawn _ => some .ct
  | .spawnAt _ => some .ct
  | .exit _ => some .ct
  | .exitErr _ => some .ct
  | .bar _ => some .ct
  | .barArrive _ => some .ct
  | .barWait _ => some .ct
  | .tagwait _ => some .ct
  | .cswitch _ => some .ct
  | .park _ => some .ct
  | .wake _ => some .ct
  | .wakeAt _ => some .ct
  | .wakeIn _ => some .ct
  | .estset _ => some .ct
  | .estsetWake _ => some .ct
  | .pbar _ => some .ct
  | .mmMac _ _ _ => none
  | .mmScl _ _ => none
  | .mmClr _ _ _ => none
  | .mmDrn _ _ _ => none
  | .mmLoop _ _ _ => none
  | .mmJmp _ _ _ => none
  | .mmSetp _ _ _ => none
  | .mmEnd _ _ => none
  | .mmNop _ => none
  | .bundleIssue _ => none
  | .strandUnblock _ => none
  | .idleCoreSelect _ => none
  | .forcedYield _ => none
  | .markRetire _ => none
  | .globalLoadArrival _ _ => none
  | .globalStorePerformed _ _ => none
  | .prefAccepted _ _ => none
  | .translationWalkReturn _ => none
  | .atomicEngineAccept _ => none
  | .atomicRecall _ _ => none
  | .tagSetAct _ => none
  | .tagClearAct _ => none
  | .mxEntryBegin _ => none
  | .routineWatermarkResume _ => none
  | .routineComplete _ => none
  | .hodCommandBegin _ _ => none
  | .hodTurn _ => none
  | .hodWriteLand _ _ => none
  | .hodCommandComplete _ _ => none
  | .hstepStageComplete _ _ => none
  | .hmcastAck _ _ _ => none
  | .haddRowStage _ _ => none
  | .ringDrainLand _ => none
  | .epilogueSlot _ => none
  | .launchAnswer _ => none
  | .launchValidate _ => none
  | .launchComplete _ _ => none
  | .dispatchCycle _ => none
  | .bindingJudge _ => none
  | .taskWeightReturn _ _ _ => none
  | .barPhaseComplete _ _ _ => none
  | .wakeRequestArrival _ => none
  | .parkDeadline _ _ _ => none
  | .checkpointSave _ => none
  | .taskReexecute _ _ _ => none
  | .coreHardwareError _ => none
  | .coreParityError _ => none
  | .clusterParityError _ _ => none
  | .teardownComplete _ => none
  | .trowelMigrationDone _ => none
  | .migrationRequest _ => none
  | .migrationCopy _ => none
  | .migrationRestart _ => none
  | .copyFillReturn _ _ => none
  | .writeThroughAck _ _ => none
  | .copySectorAgeout _ _ => none
  | .sliceError _ _ _ => none
  | .hbmSectorRead _ _ _ _ => none
  | .kilnImageAccept _ => none
  | .kilnImageAck _ _ _ => none
  | .kilnImageRefused _ _ => none
  | .kilnDeviceTimeout _ => none
  | .pbarComplete _ => none
  | .coldBoot _ => none
  | .scrubCountPoll _ => none
  | .stackRetire _ _ => none
  | .marginPlan _ => none
  | .powerManagerSample _ => none
  | .gsEnable _ => none
  | .gsDisable _ => none
  | .gsStop _ => none
  | .cqProdWrite _ _ => none
  | .qcfgWrite _ _ => none
  | .hppush _ => none
  | .pppush _ => none
  | .forcev _ => none
  | .klctlGpfWrite _ => none
  | .registerWrite _ _ _ => none
  | .keyload _ _ => none
  | .keyzero _ => none
  | .kdset _ _ _ => none
  | .sigkey _ _ _ => none
  | .spdmAttest _ => none
  | .snpInv _ => none
  | .snpData _ => none
  | .snpCur _ => none
  | .hostMemrd _ _ _ => none
  | .hostMemwr _ _ _ => none
  | .bisnpAnswer _ _ => none
  | .cxlResponse _ _ _ => none
  | .peerInbound _ => none
  | .peerResponse _ _ _ => none
  | .peerTimeout _ => none
  | .fenceNotice _ => none
  | .fenceWrite _ _ => none
  | .hostViralIndication _ => none
  | .hostPortLoss _ => none
  | .dieLoss _ => none
  | .linkCrcFailure _ _ => none
  | .linkDown _ => none
  | .linkTrained _ => none
  | .create => none
  | .destroy => none
  | .resume => none
  | .setwake => none
  | .settok => none
  | .setclass => none
  | .load => none
  | .trowelScan => none
  | .invalidateRange => none
  | .invalidateAsid => none
  | .invalidateAll => none
  | .icacheInvalidate => none
  | .lqLaunch => none
  | .powerLoss => none
  | .warmReset => none
  | .gsAttempt => none
  | .gsWaitRecheck => none
  | .gsCommit => none
  | .gsAbandon => none
  | .hppop => none
  | .pppop => none
  | .viralEntry => none
  | .globalPersistentFlush => none

/-- Bit 31 of the first word, set when a second word follows (R52). -/
def longBit (x : Option Nat) : Nat := if x.isSome then 2 ^ 31 else 0

/-- The words of a slot operation: the first, and the second of a long form; none for every other step. -/
def encodeOp (i : Instr) : Option (Nat × Option Nat) :=
  match i with
  | .nop sl => some (if sl = .ct then 0 else 0x7F000000, none)
  | .br o => some (0x01000000 + cjWord o, none)
  | .brc o => some (0x02000000 + ccWord o, none)
  | .brv o => some (0x03000000 + ccWord o, none)
  | .bri o => some (0x04000000 + rgWord o + longBit (rgWord2 o), rgWord2 o)
  | .call o => some (0x05000000 + cjWord o, none)
  | .calli o => some (0x06000000 + rgWord o + longBit (rgWord2 o), rgWord2 o)
  | .ret => some (0x07000000, none)
  | .loopi o => some (0x09000000 + clWord o + longBit (clWord2 o), clWord2 o)
  | .loop o => some (0x08000000 + clWord o + longBit (clWord2 o), clWord2 o)
  | .yield => some (0x0A000000, none)
  | .wait o => some (0x0B000000 + ceWord o, none)
  | .waitany o => some (0x0C000000 + ceWord o, none)
  | .signal o => some (0x0D000000 + ceWord o, none)
  | .trap o => some (0x0E000000 + ceWord o, none)
  | .rte => some (0x0F000000, none)
  | .srd o => some (0x10000000 + csWord o, none)
  | .swr o => some (0x11000000 + csWord o, none)
  | .sadd _ o => some (0x00000000 + rgWord o + longBit (rgWord2 o), rgWord2 o)
  | .saddi _ o => some (0x01000000 + siWord o + longBit (siWord2 o), siWord2 o)
  | .ssub _ o => some (0x02000000 + rgWord o + longBit (rgWord2 o), rgWord2 o)
  | .sand _ o => some (0x0A000000 + rgWord o + longBit (rgWord2 o), rgWord2 o)
  | .sor _ o => some (0x0C000000 + rgWord o + longBit (rgWord2 o), rgWord2 o)
  | .sxor _ o => some (0x0E000000 + rgWord o + longBit (rgWord2 o), rgWord2 o)
  | .sandi _ o => some (0x0B000000 + siWord o + longBit (siWord2 o), siWord2 o)
  | .sori _ o => some (0x0D000000 + siWord o + longBit (siWord2 o), siWord2 o)
  | .sxori _ o => some (0x0F000000 + siWord o + longBit (siWord2 o), siWord2 o)
  | .smin _ o => some (0x14000000 + rgWord o + longBit (rgWord2 o), rgWord2 o)
  | .smins _ o => some (0x15000000 + rgWord o + longBit (rgWord2 o), rgWord2 o)
  | .smax _ o => some (0x16000000 + rgWord o + longBit (rgWord2 o), rgWord2 o)
  | .smaxs _ o => some (0x17000000 + rgWord o + longBit (rgWord2 o), rgWord2 o)
  | .sclz _ o => some (0x18000000 + rgWord o + longBit (rgWord2 o), rgWord2 o)
  | .spop _ o => some (0x19000000 + rgWord o + longBit (rgWord2 o), rgWord2 o)
  | .smul _ o => some (0x03000000 + rgWord o + longBit (rgWord2 o), rgWord2 o)
  | .smulh _ o => some (0x04000000 + rgWord o + longBit (rgWord2 o), rgWord2 o)
  | .smulhs _ o => some (0x05000000 + rgWord o + longBit (rgWord2 o), rgWord2 o)
  | .sdiv _ o => some (0x06000000 + rgWord o + longBit (rgWord2 o), rgWord2 o)
  | .sdivs _ o => some (0x07000000 + rgWord o + longBit (rgWord2 o), rgWord2 o)
  | .srem _ o => some (0x08000000 + rgWord o + longBit (rgWord2 o), rgWord2 o)
  | .srems _ o => some (0x09000000 + rgWord o + longBit (rgWord2 o), rgWord2 o)
  | .sshl _ o => some (0x10000000 + rgWord o + longBit (rgWord2 o), rgWord2 o)
  | .sshr _ o => some (0x11000000 + rgWord o + longBit (rgWord2 o), rgWord2 o)
  | .ssra _ o => some (0x12000000 + rgWord o + longBit (rgWord2 o), rgWord2 o)
  | .srot _ o => some (0x13000000 + rgWord o + longBit (rgWord2 o), rgWord2 o)
  | .sbfx _ o => some (0x1A000000 + rgWord o + longBit (rgWord2 o), rgWord2 o)
  | .sbfi _ o => some (0x1B000000 + rgWord o + longBit (rgWord2 o), rgWord2 o)
  | .saddr _ o => some (0x1C000000 + rgWord o + longBit (rgWord2 o), rgWord2 o)
  | .smov _ o => some (0x1D000000 + rgWord o + longBit (rgWord2 o), rgWord2 o)
  | .smovi _ o => some (0x1E000000 + siWord o + longBit (siWord2 o), siWord2 o)
  | .slui _ o => some (0x1F000000 + siWord o + longBit (siWord2 o), siWord2 o)
  | .ssel _ o => some (0x20000000 + rgWord o + longBit (rgWord2 o), rgWord2 o)
  | .scmp _ o => some (0x21000000 + rgWord o + longBit (rgWord2 o), rgWord2 o)
  | .scmpi _ o => some (0x22000000 + siWord o + longBit (siWord2 o), siWord2 o)
  | .pand _ o => some (0x23000000 + rgWord o + longBit (rgWord2 o), rgWord2 o)
  | .por _ o => some (0x24000000 + rgWord o + longBit (rgWord2 o), rgWord2 o)
  | .pxor _ o => some (0x25000000 + rgWord o + longBit (rgWord2 o), rgWord2 o)
  | .pnot _ o => some (0x26000000 + rgWord o + longBit (rgWord2 o), rgWord2 o)
  | .pmovPred _ o => some (0x27000000 + rgWord o + longBit (rgWord2 o), rgWord2 o)
  | .pmovFromScalar _ o => some (0x27000000 + rgWord o + longBit (rgWord2 o), rgWord2 o)
  | .pmovToScalar _ o => some (0x27000000 + rgWord o + longBit (rgWord2 o), rgWord2 o)
  | .schk _ o => some (0x28000000 + rgWord o + longBit (rgWord2 o), rgWord2 o)
  | .schkP _ o => some (0x28000000 + rgWord o + longBit (rgWord2 o), rgWord2 o)
  | .sfadd _ o => some (0x29000000 + rgWord o + longBit (rgWord2 o), rgWord2 o)
  | .sfsub _ o => some (0x2A000000 + rgWord o + longBit (rgWord2 o), rgWord2 o)
  | .sfmul _ o => some (0x2B000000 + rgWord o + longBit (rgWord2 o), rgWord2 o)
  | .sfdiv _ o => some (0x2D000000 + rgWord o + longBit (rgWord2 o), rgWord2 o)
  | .sfsqrt _ o => some (0x2E000000 + rgWord o + longBit (rgWord2 o), rgWord2 o)
  | .sfma _ o => some (0x2C000000 + rgWord o + longBit (rgWord2 o), rgWord2 o)
  | .sfmin _ o => some (0x2F000000 + rgWord o + longBit (rgWord2 o), rgWord2 o)
  | .sfmax _ o => some (0x30000000 + rgWord o + longBit (rgWord2 o), rgWord2 o)
  | .sfcmp _ o => some (0x31000000 + rgWord o + longBit (rgWord2 o), rgWord2 o)
  | .sfcvt _ o => some (0x32000000 + rgWord o + longBit (rgWord2 o), rgWord2 o)
  | .sfclass _ o => some (0x33000000 + rgWord o + longBit (rgWord2 o), rgWord2 o)
  | .vadd _ o => some (0x00000000 + vrWord o + longBit (vrWord2 o), vrWord2 o)
  | .vsub _ o => some (0x01000000 + vrWord o + longBit (vrWord2 o), vrWord2 o)
  | .vmul _ o => some (0x02000000 + vrWord o + longBit (vrWord2 o), vrWord2 o)
  | .vmin _ o => some (0x05000000 + vrWord o + longBit (vrWord2 o), vrWord2 o)
  | .vmax _ o => some (0x06000000 + vrWord o + longBit (vrWord2 o), vrWord2 o)
  | .vfma _ o => some (0x03000000 + vrWord o + longBit (vrWord2 o), vrWord2 o)
  | .vfms _ o => some (0x04000000 + vrWord o + longBit (vrWord2 o), vrWord2 o)
  | .vabs _ o => some (0x07000000 + vrWord o + longBit (vrWord2 o), vrWord2 o)
  | .vneg _ o => some (0x08000000 + vrWord o + longBit (vrWord2 o), vrWord2 o)
  | .vcmp _ o => some (0x09000000 + vrWord o + longBit (vrWord2 o), vrWord2 o)
  | .viadd _ o => some (0x0F000000 + vrWord o + longBit (vrWord2 o), vrWord2 o)
  | .visub _ o => some (0x10000000 + vrWord o + longBit (vrWord2 o), vrWord2 o)
  | .vimul _ o => some (0x11000000 + vrWord o + longBit (vrWord2 o), vrWord2 o)
  | .vimad _ o => some (0x12000000 + vrWord o + longBit (vrWord2 o), vrWord2 o)
  | .vimin _ o => some (0x13000000 + vrWord o + longBit (vrWord2 o), vrWord2 o)
  | .vimax _ o => some (0x14000000 + vrWord o + longBit (vrWord2 o), vrWord2 o)
  | .vand _ o => some (0x15000000 + vrWord o + longBit (vrWord2 o), vrWord2 o)
  | .vor _ o => some (0x16000000 + vrWord o + longBit (vrWord2 o), vrWord2 o)
  | .vxor _ o => some (0x17000000 + vrWord o + longBit (vrWord2 o), vrWord2 o)
  | .vnot _ o => some (0x18000000 + vrWord o + longBit (vrWord2 o), vrWord2 o)
  | .vshl _ o => some (0x19000000 + vrWord o + longBit (vrWord2 o), vrWord2 o)
  | .vshr _ o => some (0x1A000000 + vrWord o + longBit (vrWord2 o), vrWord2 o)
  | .vsra _ o => some (0x1B000000 + vrWord o + longBit (vrWord2 o), vrWord2 o)
  | .vrotl _ o => some (0x28000000 + vrWord o + longBit (vrWord2 o), vrWord2 o)
  | .vsel _ o => some (0x0A000000 + vrWord o + longBit (vrWord2 o), vrWord2 o)
  | .vmov _ o => some (0x0B000000 + vrWord o + longBit (vrWord2 o), vrWord2 o)
  | .vbcast _ o => some (0x0C000000 + vrWord o + longBit (vrWord2 o), vrWord2 o)
  | .vextr _ o => some (0x0D000000 + vrWord o + longBit (vrWord2 o), vrWord2 o)
  | .vidx _ o => some (0x0E000000 + vrWord o + longBit (vrWord2 o), vrWord2 o)
  | .vcvt _ o => some (0x1C000000 + vrWord o + longBit (vrWord2 o), vrWord2 o)
  | .vpack _ o => some (0x1D000000 + vrWord o + longBit (vrWord2 o), vrWord2 o)
  | .vunpack _ o => some (0x1E000000 + vrWord o + longBit (vrWord2 o), vrWord2 o)
  | .vqmx _ o => some (0x1F000000 + vrWord o + longBit (vrWord2 o), vrWord2 o)
  | .vdqmx _ o => some (0x20000000 + vrWord o + longBit (vrWord2 o), vrWord2 o)
  | .vexp2 _ o => some (0x21000000 + vrWord o + longBit (vrWord2 o), vrWord2 o)
  | .vlog2 _ o => some (0x22000000 + vrWord o + longBit (vrWord2 o), vrWord2 o)
  | .vrcp _ o => some (0x23000000 + vrWord o + longBit (vrWord2 o), vrWord2 o)
  | .vrsq _ o => some (0x24000000 + vrWord o + longBit (vrWord2 o), vrWord2 o)
  | .vsqrt _ o => some (0x25000000 + vrWord o + longBit (vrWord2 o), vrWord2 o)
  | .vdiv _ o => some (0x26000000 + vrWord o + longBit (vrWord2 o), vrWord2 o)
  | .vperm _ o => some (0x27000000 + vrWord o + longBit (vrWord2 o), vrWord2 o)
  | .vsum _ o => some (0x29000000 + vrWord o + longBit (vrWord2 o), vrWord2 o)
  | .vmaxr _ o => some (0x2A000000 + vrWord o + longBit (vrWord2 o), vrWord2 o)
  | .vscan _ o => some (0x2C000000 + vrWord o + longBit (vrWord2 o), vrWord2 o)
  | .vargmax _ o => some (0x2B000000 + vrWord o + longBit (vrWord2 o), vrWord2 o)
  | .vsrch _ o => some (0x2D000000 + vrWord o + longBit (vrWord2 o), vrWord2 o)
  | .vrng _ o => some (0x2E000000 + vrWord o + longBit (vrWord2 o), vrWord2 o)
  | .vacpt _ o => some (0x2F000000 + vrWord o + longBit (vrWord2 o), vrWord2 o)
  | .kand _ o => some (0x30000000 + vrWord o + longBit (vrWord2 o), vrWord2 o)
  | .kor _ o => some (0x31000000 + vrWord o + longBit (vrWord2 o), vrWord2 o)
  | .kxor _ o => some (0x32000000 + vrWord o + longBit (vrWord2 o), vrWord2 o)
  | .knot _ o => some (0x33000000 + vrWord o + longBit (vrWord2 o), vrWord2 o)
  | .kpop _ o => some (0x34000000 + vrWord o + longBit (vrWord2 o), vrWord2 o)
  | .kfirst _ o => some (0x35000000 + vrWord o + longBit (vrWord2 o), vrWord2 o)
  | .vchk _ o => some (0x36000000 + vrWord o + longBit (vrWord2 o), vrWord2 o)
  | .spld o => some (0x00000000 + msWord o + longBit (msWord2 o), msWord2 o)
  | .splds o => some (0x01000000 + msWord o + longBit (msWord2 o), msWord2 o)
  | .spldb o => some (0x02000000 + msWord o + longBit (msWord2 o), msWord2 o)
  | .spldx o => some (0x03000000 + msWord o + longBit (msWord2 o), msWord2 o)
  | .spst o => some (0x00000000 + msWord o + longBit (msWord2 o), msWord2 o)
  | .spsts o => some (0x01000000 + msWord o + longBit (msWord2 o), msWord2 o)
  | .spstx o => some (0x02000000 + msWord o + longBit (msWord2 o), msWord2 o)
  | .tlook o => some (0x08000000 + rgWord o + longBit (rgWord2 o), rgWord2 o)
  | .tlookWm o => some (0x08000000 + rgWord o + longBit (rgWord2 o), rgWord2 o)
  | .tins o => some (0x06000000 + rgWord o + longBit (rgWord2 o), rgWord2 o)
  | .tdel o => some (0x07000000 + rgWord o + longBit (rgWord2 o), rgWord2 o)
  | .tdelIdx o => some (0x07000000 + rgWord o + longBit (rgWord2 o), rgWord2 o)
  | .gld o => some (0x04000000 + mgWord o + longBit (mgWord2 o), mgWord2 o)
  | .glds o => some (0x05000000 + mgWord o + longBit (mgWord2 o), mgWord2 o)
  | .glda o => some (0x06000000 + mgWord o + longBit (mgWord2 o), mgWord2 o)
  | .pref o => some (0x07000000 + mgWord o + longBit (mgWord2 o), mgWord2 o)
  | .gst o => some (0x03000000 + mgWord o + longBit (mgWord2 o), mgWord2 o)
  | .gsts o => some (0x04000000 + mgWord o + longBit (mgWord2 o), mgWord2 o)
  | .gstl o => some (0x05000000 + mgWord o + longBit (mgWord2 o), mgWord2 o)
  | .mark h o => some ((match h with | .ld => 0x09000000 | .st => 0x08000000) + mkWord o, none)
  | .atom o => some (0x09000000 + rgWord o + longBit (rgWord2 o), rgWord2 o)
  | .atomr o => some (0x0A000000 + rgWord o + longBit (rgWord2 o), rgWord2 o)
  | .tagpubSet o => some (0x0B000000 + rgWord o + longBit (rgWord2 o), rgWord2 o)
  | .tagpubClearTile o => some (0x0B000000 + rgWord o + longBit (rgWord2 o), rgWord2 o)
  | .tagpubClearTensor o => some (0x0B000000 + rgWord o + longBit (rgWord2 o), rgWord2 o)
  | .mcall o => some (0x00000000 + xcWord o + longBit (xcWord2 o), xcWord2 o)
  | .mlduc o => some (0x01000000 + rgWord o + longBit (rgWord2 o), rgWord2 o)
  | .mldrt o => some (0x02000000 + rgWord o + longBit (rgWord2 o), rgWord2 o)
  | .mstat o => some (0x03000000 + rgWord o + longBit (rgWord2 o), rgWord2 o)
  | .mstatFault o => some (0x03000000 + rgWord o + longBit (rgWord2 o), rgWord2 o)
  | .mstatTake o => some (0x03000000 + rgWord o + longBit (rgWord2 o), rgWord2 o)
  | .mstatCsat o => some (0x03000000 + rgWord o + longBit (rgWord2 o), rgWord2 o)
  | .mstatSetm o => some (0x03000000 + rgWord o + longBit (rgWord2 o), rgWord2 o)
  | .mstatGetm o => some (0x03000000 + rgWord o + longBit (rgWord2 o), rgWord2 o)
  | .mabort => some (0x04000000, none)
  | .ard o => some (0x00000000 + acWord o + longBit (acWord2 o), acWord2 o)
  | .aclr o => some (0x01000000 + acWord o + longBit (acWord2 o), acWord2 o)
  | .awr o => some (0x02000000 + acWord o + longBit (acWord2 o), acWord2 o)
  | .aacc o => some (0x03000000 + acWord o + longBit (acWord2 o), acWord2 o)
  | .aow o => some (0x04000000 + acWord o + longBit (acWord2 o), acWord2 o)
  | .adrn o => some (0x05000000 + acWord o + longBit (acWord2 o), acWord2 o)
  | .hcopyS2s o => some (0x00000000 + hcWord o + longBit (hcWord2 o), hcWord2 o)
  | .hcopyG2s o => some (0x00000000 + hcWord o + longBit (hcWord2 o), hcWord2 o)
  | .hcopyG2t o => some (0x00000000 + hcWord o + longBit (hcWord2 o), hcWord2 o)
  | .hfill o => some (0x0A000000 + hcWord o + longBit (hcWord2 o), hcWord2 o)
  | .hfillT o => some (0x0A000000 + hcWord o + longBit (hcWord2 o), hcWord2 o)
  | .htile o => some (0x01000000 + hcWord o + longBit (hcWord2 o), hcWord2 o)
  | .htwr o => some (0x02000000 + hcWord o + longBit (hcWord2 o), hcWord2 o)
  | .hwm o => some (0x09000000 + hcWord o + longBit (hcWord2 o), hcWord2 o)
  | .hwmOff o => some (0x09000000 + hcWord o + longBit (hcWord2 o), hcWord2 o)
  | .hsched o => some (0x03000000 + hcWord o + longBit (hcWord2 o), hcWord2 o)
  | .hstep o => some (0x04000000 + hcWord o + longBit (hcWord2 o), hcWord2 o)
  | .hmcast o => some (0x05000000 + hcWord o + longBit (hcWord2 o), hcWord2 o)
  | .hmwait o => some (0x06000000 + hcWord o + longBit (hcWord2 o), hcWord2 o)
  | .hadd o => some (0x07000000 + hcWord o + longBit (hcWord2 o), hcWord2 o)
  | .hpub o => some (0x08000000 + hcWord o + longBit (hcWord2 o), hcWord2 o)
  | .hpubRing o => some (0x08000000 + hcWord o + longBit (hcWord2 o), hcWord2 o)
  | .hstat o => some (0x0B000000 + hcWord o + longBit (hcWord2 o), hcWord2 o)
  | .hstatStage o => some (0x0B000000 + hcWord o + longBit (hcWord2 o), hcWord2 o)
  | .hstatLast o => some (0x0B000000 + hcWord o + longBit (hcWord2 o), hcWord2 o)
  | .launch o => some (0x15000000 + rgWord o + longBit (rgWord2 o), rgWord2 o)
  | .spawn o => some (0x13000000 + rgWord o + longBit (rgWord2 o), rgWord2 o)
  | .spawnAt o => some (0x13000000 + rgWord o + longBit (rgWord2 o), rgWord2 o)
  | .exit o => some (0x14000000 + rgWord o + longBit (rgWord2 o), rgWord2 o)
  | .exitErr o => some (0x14000000 + rgWord o + longBit (rgWord2 o), rgWord2 o)
  | .bar o => some (0x12000000 + rgWord o + longBit (rgWord2 o), rgWord2 o)
  | .barArrive o => some (0x12000000 + rgWord o + longBit (rgWord2 o), rgWord2 o)
  | .barWait o => some (0x12000000 + rgWord o + longBit (rgWord2 o), rgWord2 o)
  | .tagwait o => some (0x16000000 + rgWord o + longBit (rgWord2 o), rgWord2 o)
  | .cswitch o => some (0x17000000 + rgWord o + longBit (rgWord2 o), rgWord2 o)
  | .park o => some (0x18000000 + rgWord o + longBit (rgWord2 o), rgWord2 o)
  | .wake o => some (0x19000000 + rgWord o + longBit (rgWord2 o), rgWord2 o)
  | .wakeAt o => some (0x19000000 + rgWord o + longBit (rgWord2 o), rgWord2 o)
  | .wakeIn o => some (0x19000000 + rgWord o + longBit (rgWord2 o), rgWord2 o)
  | .estset o => some (0x1A000000 + rgWord o + longBit (rgWord2 o), rgWord2 o)
  | .estsetWake o => some (0x1A000000 + rgWord o + longBit (rgWord2 o), rgWord2 o)
  | .pbar o => some (0x1B000000 + rgWord o + longBit (rgWord2 o), rgWord2 o)
  | .mmMac _ _ _ => none
  | .mmScl _ _ => none
  | .mmClr _ _ _ => none
  | .mmDrn _ _ _ => none
  | .mmLoop _ _ _ => none
  | .mmJmp _ _ _ => none
  | .mmSetp _ _ _ => none
  | .mmEnd _ _ => none
  | .mmNop _ => none
  | .bundleIssue _ => none
  | .strandUnblock _ => none
  | .idleCoreSelect _ => none
  | .forcedYield _ => none
  | .markRetire _ => none
  | .globalLoadArrival _ _ => none
  | .globalStorePerformed _ _ => none
  | .prefAccepted _ _ => none
  | .translationWalkReturn _ => none
  | .atomicEngineAccept _ => none
  | .atomicRecall _ _ => none
  | .tagSetAct _ => none
  | .tagClearAct _ => none
  | .mxEntryBegin _ => none
  | .routineWatermarkResume _ => none
  | .routineComplete _ => none
  | .hodCommandBegin _ _ => none
  | .hodTurn _ => none
  | .hodWriteLand _ _ => none
  | .hodCommandComplete _ _ => none
  | .hstepStageComplete _ _ => none
  | .hmcastAck _ _ _ => none
  | .haddRowStage _ _ => none
  | .ringDrainLand _ => none
  | .epilogueSlot _ => none
  | .launchAnswer _ => none
  | .launchValidate _ => none
  | .launchComplete _ _ => none
  | .dispatchCycle _ => none
  | .bindingJudge _ => none
  | .taskWeightReturn _ _ _ => none
  | .barPhaseComplete _ _ _ => none
  | .wakeRequestArrival _ => none
  | .parkDeadline _ _ _ => none
  | .checkpointSave _ => none
  | .taskReexecute _ _ _ => none
  | .coreHardwareError _ => none
  | .coreParityError _ => none
  | .clusterParityError _ _ => none
  | .teardownComplete _ => none
  | .trowelMigrationDone _ => none
  | .migrationRequest _ => none
  | .migrationCopy _ => none
  | .migrationRestart _ => none
  | .copyFillReturn _ _ => none
  | .writeThroughAck _ _ => none
  | .copySectorAgeout _ _ => none
  | .sliceError _ _ _ => none
  | .hbmSectorRead _ _ _ _ => none
  | .kilnImageAccept _ => none
  | .kilnImageAck _ _ _ => none
  | .kilnImageRefused _ _ => none
  | .kilnDeviceTimeout _ => none
  | .pbarComplete _ => none
  | .coldBoot _ => none
  | .scrubCountPoll _ => none
  | .stackRetire _ _ => none
  | .marginPlan _ => none
  | .powerManagerSample _ => none
  | .gsEnable _ => none
  | .gsDisable _ => none
  | .gsStop _ => none
  | .cqProdWrite _ _ => none
  | .qcfgWrite _ _ => none
  | .hppush _ => none
  | .pppush _ => none
  | .forcev _ => none
  | .klctlGpfWrite _ => none
  | .registerWrite _ _ _ => none
  | .keyload _ _ => none
  | .keyzero _ => none
  | .kdset _ _ _ => none
  | .sigkey _ _ _ => none
  | .spdmAttest _ => none
  | .snpInv _ => none
  | .snpData _ => none
  | .snpCur _ => none
  | .hostMemrd _ _ _ => none
  | .hostMemwr _ _ _ => none
  | .bisnpAnswer _ _ => none
  | .cxlResponse _ _ _ => none
  | .peerInbound _ => none
  | .peerResponse _ _ _ => none
  | .peerTimeout _ => none
  | .fenceNotice _ => none
  | .fenceWrite _ _ => none
  | .hostViralIndication _ => none
  | .hostPortLoss _ => none
  | .dieLoss _ => none
  | .linkCrcFailure _ _ => none
  | .linkDown _ => none
  | .linkTrained _ => none
  | .create => none
  | .destroy => none
  | .resume => none
  | .setwake => none
  | .settok => none
  | .setclass => none
  | .load => none
  | .trowelScan => none
  | .invalidateRange => none
  | .invalidateAsid => none
  | .invalidateAll => none
  | .icacheInvalidate => none
  | .lqLaunch => none
  | .powerLoss => none
  | .warmReset => none
  | .gsAttempt => none
  | .gsWaitRecheck => none
  | .gsCommit => none
  | .gsAbandon => none
  | .hppop => none
  | .pppop => none
  | .viralEntry => none
  | .globalPersistentFlush => none

/-- The word of a micro-op (R186 to R194); none for every other step. -/
def encodeMicro (i : Instr) : Option Nat :=
  match i with
  | .mmMac _ o x => some (mmMacWord o + sclWord x)
  | .mmClr _ o x => some (mmClrWord o + sclWord x)
  | .mmDrn _ o x => some (mmDrnWord o + sclWord x)
  | .mmLoop _ o x => some (mmLoopWord o + sclWord x)
  | .mmJmp _ o x => some (mmJmpWord o + sclWord x)
  | .mmSetp _ o x => some (mmSetpWord o + sclWord x)
  | .mmEnd _ x => some (7 * 2 ^ 60 + sclWord x)
  | .mmScl _ o => some (8 * 2 ^ 60 + sclWord (some o))
  | .mmNop _ => some (8 * 2 ^ 60)
  | _ => none

/-- The header of a bundle that holds one operation in slot `sl`, of `n` words, once (R46). -/
def headerWord (sl : Slot) (n : Nat) : Nat := 0xA0000000 + (n + 1) * 2 ^ 22 + 2 ^ sl.num

/-- The words of a well-formed instruction: for a slot operation the bundle that holds it alone, for a micro-op its word in two
halves, and none for the steps of other agents, which have no words. -/
def encode (i : Instr) : List Nat :=
  match slotOf i, encodeOp i with
  | some sl, some (w, none) => [headerWord sl 1, w]
  | some sl, some (w, some w2) => [headerWord sl 2, w, w2]
  | _, _ => match encodeMicro i with
    | some w => [w % 2 ^ 32, w / 2 ^ 32]
    | none => []

end Sys2Proof
end

