-- ==== Sys2Proof/Machine/Fp.lean ====
section
/-! DEFINITION. Number formats, exact values, rounding and the flags it raises (R108 to R121, R126, R134). -/

namespace Sys2Proof.Machine

/-- A floating-point format (R109): exponent and fraction widths, bias, and how its top exponent is used (R110). -/
structure FFmt where
  eb : Nat
  mb : Nat
  bias : Nat
  /-- 0: IEEE; 1: E4M3, one NaN and no infinity; 2: finite only; 3: E5M2, whose NaNs are all quiet. -/
  kind : Nat
  deriving DecidableEq, Repr

/-- binary64. -/
def f64 : FFmt := ⟨11, 52, 1023, 0⟩
/-- binary32. -/
def f32 : FFmt := ⟨8, 23, 127, 0⟩
/-- binary16. -/
def f16 : FFmt := ⟨5, 10, 15, 0⟩
/-- BF16. -/
def bf16 : FFmt := ⟨8, 7, 127, 0⟩
/-- E4M3. -/
def e4m3 : FFmt := ⟨4, 3, 7, 1⟩
/-- E5M2. -/
def e5m2 : FFmt := ⟨5, 2, 15, 3⟩
/-- E3M2. -/
def e3m2 : FFmt := ⟨3, 2, 3, 2⟩
/-- E2M3. -/
def e2m3 : FFmt := ⟨2, 3, 1, 2⟩
/-- E2M1. -/
def e2m1 : FFmt := ⟨2, 1, 1, 2⟩

/-- Flag values of FSTAT (R106). -/
def flagNV : Nat := 16
/-- Division by zero. -/
def flagDZ : Nat := 8
/-- Overflow. -/
def flagOF : Nat := 4
/-- Underflow. -/
def flagUF : Nat := 2
/-- Inexact. -/
def flagNX : Nat := 1

/-- An exact value: NaN (signalling or quiet), an infinity, or (−1)^neg × m × 2^e. -/
inductive FVal where
  | nan (sig : Bool)
  | inf (neg : Bool)
  | num (neg : Bool) (m : Nat) (e : Int)
  deriving DecidableEq, Repr

/-- Width of a format in bits. -/
def FFmt.width (f : FFmt) : Nat := 1 + f.eb + f.mb
/-- The greatest exponent field of a finite value (R110). -/
def FFmt.topExp (f : FFmt) : Nat := if f.kind = 0 || f.kind = 3 then 2 ^ f.eb - 2 else 2 ^ f.eb - 1
/-- The encoding, sign clear, of the largest finite value (R109). -/
def FFmt.maxCode (f : FFmt) : Nat := f.topExp * 2 ^ f.mb + (if f.kind = 1 then 2 ^ f.mb - 2 else 2 ^ f.mb - 1)
/-- The encoding, sign clear, of infinity where the format has one (R110). -/
def FFmt.infCode (f : FFmt) : Nat := (2 ^ f.eb - 1) * 2 ^ f.mb
/-- The canonical NaN (R110). -/
def FFmt.nanCode (f : FFmt) : Nat := if f.kind = 1 then 0x7F else f.infCode + 2 ^ (f.mb - 1)
/-- Exponent of the least significant bit of a subnormal (R109). -/
def FFmt.qmin (f : FFmt) : Int := 1 - f.bias - f.mb

/-- The value an encoding denotes (R109, R110). -/
def decodeF (f : FFmt) (bits : Nat) : FVal :=
  let neg := bitOf bits (f.eb + f.mb)
  let ex := fld bits f.mb f.eb
  let fr := fld bits 0 f.mb
  if f.kind = 0 && ex = 2 ^ f.eb - 1 then
    if fr = 0 then .inf neg else .nan (!bitOf fr (f.mb - 1))
  else if f.kind = 3 && ex = 2 ^ f.eb - 1 then
    if fr = 0 then .inf neg else .nan false
  else if f.kind = 1 && ex = 2 ^ f.eb - 1 && fr = 2 ^ f.mb - 1 then .nan false
  else if ex = 0 then .num neg fr f.qmin
  else .num neg (2 ^ f.mb + fr) (ex - f.bias - f.mb)

/-- The sign bit of an encoding. -/
def signOf (f : FFmt) (neg : Bool) : Nat := if neg then 2 ^ (f.eb + f.mb) else 0

/-- Round up in magnitude at a quotient `k` with remainder `rem` of `2 ^ sh` and a sticky part below it (R115, R120). `q` is
the word SR draws. -/
def roundUp (rm : Nat) (q : Nat) (neg : Bool) (k rem sh : Nat) (sticky : Bool) : Bool :=
  let inexact := rem ≠ 0 || sticky
  match rm with
  | 0 => if 2 * rem > 2 ^ sh then true else if 2 * rem = 2 ^ sh then sticky || k % 2 = 1 else false
  | 1 => false
  | 2 => neg && inexact
  | 3 => !neg && inexact
  | _ =>
    if neg then
      inexact && !decide (q < ((2 ^ sh - rem) * 2 ^ 32 - b2n sticky) / 2 ^ sh)
    else decide (q < rem * 2 ^ 32 / 2 ^ sh)

/-- A magnitude `m * 2 ^ e` (and a positive part below it when `sticky`) cut at exponent `q0`: quotient, remainder, shift. -/
def cutAt (m : Nat) (e q0 : Int) : Nat × Nat × Nat :=
  if q0 ≤ e then (m * 2 ^ (e - q0).toNat, 0, 0)
  else (m / 2 ^ (q0 - e).toNat, m % 2 ^ (q0 - e).toNat, (q0 - e).toNat)

/-- Floor of the base-2 logarithm. -/
def ilog2 (n : Nat) : Nat := Nat.log2 n

/-- Round an exact magnitude to a format: the encoding and the flags (R115, R116, R118, R119). `sat`: an overflow delivers the
largest finite value in every mode (R119, R126). Under SR into E4M3 the upper neighbour of a value between 448 and 512 is 480.
(DEDUCED, log 82) -/
def roundF (f : FFmt) (sat : Bool) (rm q : Nat) (neg : Bool) (m : Nat) (e : Int) (sticky : Bool) : Nat × Nat :=
  if m = 0 && !sticky then (signOf f neg, 0) else
  let ex : Int := (ilog2 m : Int) + e
  let q0 := if ex - f.mb < f.qmin then f.qmin else ex - f.mb
  let (k, rem, sh) := cutAt m e q0
  let inexact := rem ≠ 0 || sticky
  let k1 := if roundUp rm q neg k rem sh sticky then k + 1 else k
  let tiny := decide (ex < 1 - f.bias)
  -- encoding of k1 * 2 ^ q0: the carry into the exponent field is the addition itself
  let code := if k1 < 2 ^ f.mb then k1 else ((q0 - f.qmin).toNat + 1) * 2 ^ f.mb + (k1 - 2 ^ f.mb)
  if code > f.maxCode then
    let big := if sat then f.maxCode
      else if rm = 1 || (rm = 2 && !neg) || (rm = 3 && neg) then f.maxCode else f.infCode
    (signOf f neg + big, flagOF + flagNX)
  else (signOf f neg + code, if inexact then flagNX + (if tiny then flagUF else 0) else 0)

/-- A signalling NaN operand. -/
def FVal.isSig : FVal → Bool
  | .nan sg => sg
  | _ => false
/-- A NaN operand. -/
def FVal.isNan : FVal → Bool
  | .nan _ => true
  | _ => false
/-- The sign of a value; clear for a NaN. -/
def FVal.neg : FVal → Bool
  | .nan _ => false
  | .inf n => n
  | .num n _ _ => n
/-- A zero of either sign. -/
def FVal.isZero : FVal → Bool
  | .num _ m _ => m = 0
  | _ => false
/-- The value with its sign inverted. -/
def FVal.negate : FVal → FVal
  | .nan sg => .nan sg
  | .inf n => .inf (!n)
  | .num n m e => .num (!n) m e
/-- The value with its sign clear. -/
def FVal.abs : FVal → FVal
  | .nan sg => .nan sg
  | .inf _ => .inf false
  | .num _ m e => .num false m e

/-- Deliver a value in a format, rounding once (R115 to R119). -/
def deliver (f : FFmt) (sat : Bool) (rm q : Nat) (x : FVal) : Nat × Nat :=
  match x with
  | .nan sg => (f.nanCode, if sg then flagNV else 0)
  | .inf n =>
    if f.kind = 1 then (f.nanCode, flagNV) else (signOf f n + f.infCode, 0)
  | .num n m e => roundF f sat rm q n m e false

/-- The signed numerator of a value at exponent `e0`, not above its own. -/
def atExp (neg : Bool) (m : Nat) (e e0 : Int) : Int :=
  if neg then -((m * 2 ^ (e - e0).toNat : Nat) : Int) else ((m * 2 ^ (e - e0).toNat : Nat) : Int)

/-- The exact sum of two finite values, with the sign of an exact zero by R115. -/
def addNum (rm : Nat) (n1 : Bool) (m1 : Nat) (e1 : Int) (n2 : Bool) (m2 : Nat) (e2 : Int) : FVal :=
  let e0 := if e1 ≤ e2 then e1 else e2
  let v := atExp n1 m1 e1 e0 + atExp n2 m2 e2 e0
  if v = 0 then .num (if n1 = n2 then n1 else rm = 2) 0 e0
  else .num (decide (v < 0)) v.natAbs e0

/-- The exact sum with the special values of R117: the value and NV. -/
def addF (rm : Nat) (a b : FVal) : FVal × Nat :=
  let nv := if a.isSig || b.isSig then flagNV else 0
  match a, b with
  | .nan _, _ => (.nan false, nv)
  | _, .nan _ => (.nan false, nv)
  | .inf x, .inf y => if x = y then (.inf x, 0) else (.nan false, flagNV)
  | .inf x, .num _ _ _ => (.inf x, 0)
  | .num _ _ _, .inf y => (.inf y, 0)
  | .num n1 m1 e1, .num n2 m2 e2 => (addNum rm n1 m1 e1 n2 m2 e2, 0)

/-- The exact product with the special values of R117. -/
def mulF (a b : FVal) : FVal × Nat :=
  let nv := if a.isSig || b.isSig then flagNV else 0
  match a, b with
  | .nan _, _ => (.nan false, nv)
  | _, .nan _ => (.nan false, nv)
  | .inf x, y => if y.isZero then (.nan false, flagNV) else (.inf (x != y.neg), 0)
  | x, .inf y => if x.isZero then (.nan false, flagNV) else (.inf (x.neg != y), 0)
  | .num n1 m1 e1, .num n2 m2 e2 => (.num (n1 != n2) (m1 * m2) (e1 + e2), 0)

/-- Add and round once. -/
def fAdd (f : FFmt) (rm q : Nat) (a b : FVal) : Nat × Nat :=
  let (v, nv) := addF rm a b
  let (r, fl) := deliver f false rm q v
  (r, fl ||| nv)
/-- Multiply and round once. -/
def fMul (f : FFmt) (rm q : Nat) (a b : FVal) : Nat × Nat :=
  let (v, nv) := mulF a b
  let (r, fl) := deliver f false rm q v
  (r, fl ||| nv)
/-- Fused multiply-add, rounded once; 0 × ∞ raises NV even beside a quiet NaN addend (R117, R131). -/
def fFma (f : FFmt) (rm q : Nat) (negp : Bool) (a b c : FVal) : Nat × Nat :=
  let (p, nv) := mulF a b
  let p := if negp then p.negate else p
  let (v, nv2) := addF rm p c
  let (r, fl) := deliver f false rm q v
  (r, fl ||| nv ||| nv2)

/-- Divide and round once (R117, R130). -/
def fDiv (f : FFmt) (rm q : Nat) (a b : FVal) : Nat × Nat :=
  let nv := if a.isSig || b.isSig then flagNV else 0
  match a, b with
  | .nan _, _ => (f.nanCode, nv)
  | _, .nan _ => (f.nanCode, nv)
  | .inf _, .inf _ => (f.nanCode, flagNV)
  | .inf x, y => (signOf f (x != y.neg) + f.infCode, 0)
  | x, .inf y => (signOf f (x.neg != y), 0)
  | .num n1 m1 e1, .num n2 m2 e2 =>
    if m2 = 0 then
      if m1 = 0 then (f.nanCode, flagNV) else (signOf f (n1 != n2) + f.infCode, flagDZ)
    else if m1 = 0 then (signOf f (n1 != n2), 0)
    else
      let num := m1 * 2 ^ 256
      roundF f false rm q (n1 != n2) (num / m2) (e1 - e2 - 256) (num % m2 ≠ 0)

/-- Floor of the square root of `n`, built bit by bit from bit `i - 1` down. -/
def isqrtFrom (n : Nat) : Nat → Nat → Nat
  | 0, r => r
  | i + 1, r => isqrtFrom n i (if (r + 2 ^ i) * (r + 2 ^ i) ≤ n then r + 2 ^ i else r)
/-- Floor of the square root. -/
def isqrt (n : Nat) : Nat := isqrtFrom n (ilog2 n / 2 + 1) 0

/-- Square root, rounded once; the square root of −0 is −0 (R117, R130). -/
def fSqrt (f : FFmt) (rm q : Nat) (a : FVal) : Nat × Nat :=
  match a with
  | .nan sg => (f.nanCode, if sg then flagNV else 0)
  | .inf n => if n then (f.nanCode, flagNV) else (f.infCode, 0)
  | .num n m e =>
    if m = 0 then (signOf f n, 0)
    else if n then (f.nanCode, flagNV)
    else
      let e0 : Int := if e % 2 = 0 then e else e - 1
      let m0 := (if e % 2 = 0 then m else 2 * m) * 2 ^ 256
      let r := isqrt m0
      roundF f false rm q false r (e0 / 2 - 128) (r * r ≠ m0)

/-- Reciprocal, rounded once (R155). -/
def fRcp (f : FFmt) (rm q : Nat) (a : FVal) : Nat × Nat := fDiv f rm q (.num false 1 0) a

/-- Reciprocal square root, rounded once (R155). -/
def fRsq (f : FFmt) (rm q : Nat) (a : FVal) : Nat :=
  match a with
  | .nan _ => f.nanCode
  | .inf n => if n then f.nanCode else 0
  | .num n m e =>
    if m = 0 then signOf f n + f.infCode
    else if n then f.nanCode
    else
      let e0 : Int := if e % 2 = 0 then e else e - 1
      let m0 := if e % 2 = 0 then m else 2 * m
      let r := isqrt (2 ^ 512 / m0)
      (roundF f false rm q false r (-(e0 / 2) - 256) (m0 * (r * r) ≠ 2 ^ 512)).1

/-- Order of two values that are not NaN: the sign of a − b; −0 equals +0. -/
def cmpF (a b : FVal) : Int :=
  match a, b with
  | .nan _, _ => 0
  | _, .nan _ => 0
  | .inf x, .inf y => if x = y then 0 else if x then -1 else 1
  | .inf x, .num _ _ _ => if x then -1 else 1
  | .num _ _ _, .inf y => if y then 1 else -1
  | .num n1 m1 e1, .num n2 m2 e2 =>
    let e0 := if e1 ≤ e2 then e1 else e2
    let v := atExp n1 m1 e1 e0 - atExp n2 m2 e2 e0
    if v < 0 then -1 else if v = 0 then 0 else 1

/-- The greater (or lesser) of two values that are not NaN, −0 below +0 (R132). -/
def pickF (max : Bool) (a b : FVal) : Bool :=
  let c := cmpF a b
  let lt := c < 0 || (c = 0 && a.neg && !b.neg)
  if max then !lt else lt || c = 0 && a.neg = b.neg

/-- minimum, maximum, minimumNumber and maximumNumber over encodings (R132). -/
def fMinMax (f : FFmt) (max num : Bool) (x y : Nat) : Nat × Nat :=
  let a := decodeF f x
  let b := decodeF f y
  let nv := if a.isSig || b.isSig then flagNV else 0
  if a.isNan || b.isNan then
    if num && !a.isNan then (x, nv) else if num && !b.isNan then (y, nv) else (f.nanCode, nv)
  else (if pickF max a b then x else y, nv)

/-- Round a value to an integer by a mode (R115, R134): the integer and whether it is inexact. -/
def roundInt (rm q : Nat) (neg : Bool) (m : Nat) (e : Int) : Int × Bool :=
  let (k, rem, sh) := cutAt m e 0
  let k1 := if roundUp rm q neg k rem sh false then k + 1 else k
  (if neg then -(k1 : Int) else k1, rem ≠ 0)

/-- Conversion to an integer in [lo, hi] (R134). -/
def fToInt (rm q : Nat) (lo hi : Int) (a : FVal) : Int × Nat :=
  match a with
  | .nan _ => (0, flagNV)
  | .inf n => (if n then lo else hi, flagNV)
  | .num n m e =>
    let (v, ix) := roundInt rm q n m e
    if v < lo then (lo, flagNV) else if v > hi then (hi, flagNV) else (v, if ix then flagNX else 0)

/-- Conversion of an integer to a format (R134). -/
def fOfInt (f : FFmt) (rm q : Nat) (v : Int) : Nat × Nat := roundF f false rm q (decide (v < 0)) v.natAbs 0 false

/-- Conversion between formats (R119, R134): NV for a signalling NaN, or for an infinity that has no encoding. -/
def fCvt (src dst : FFmt) (rm q : Nat) (x : Nat) : Nat × Nat :=
  deliver dst (dst.kind = 1 || dst.kind = 3) rm q (decodeF src x)

/-- Class mask of a value (R135). -/
def fClass (f : FFmt) (x : Nat) : Nat :=
  match decodeF f x with
  | .nan sg => if sg then 2 ^ 8 else 2 ^ 9
  | .inf n => if n then 2 ^ 0 else 2 ^ 7
  | .num n m _ =>
    if m = 0 then (if n then 2 ^ 3 else 2 ^ 4)
    else if m < 2 ^ f.mb then (if n then 2 ^ 2 else 2 ^ 5)
    else (if n then 2 ^ 1 else 2 ^ 6)

/-! Fixed-point evaluation of the elementary functions: 400 fraction bits, far beyond what any rounding of R155 looks at. -/

/-- Fraction bits of the fixed-point values. -/
def fixBits : Nat := 400

/-- Sum of z^(2k+1) / (2k+1) over `n` terms from `k`, `p` being z^(2k+1) and `z2` z², in fixed point. -/
def atanhSum (z2 : Nat) : Nat → Nat → Nat → Nat
  | 0, _, _ => 0
  | n + 1, k, p => p / (2 * k + 1) + atanhSum z2 n (k + 1) (p * z2 / 2 ^ fixBits)

/-- ln(x / y) for 1 ≤ x / y ≤ 2, in fixed point: 2 · atanh((x − y) / (x + y)). -/
def lnRatio (x y : Nat) : Nat :=
  let z := (x - y) * 2 ^ fixBits / (x + y)
  2 * atanhSum (z * z / 2 ^ fixBits) 132 0 z

/-- ln 2 in fixed point. -/
def ln2Fix : Nat := lnRatio 2 1

/-- Sum of t^k / k! over `n` terms from `k`, `p` being t^k / k!, in fixed point. -/
def expSum (t : Nat) : Nat → Nat → Nat → Nat
  | 0, _, _ => 0
  | n + 1, k, p => p + expSum t n (k + 1) (p * t / 2 ^ fixBits / (k + 1))

/-- 2^a rounded once (R155). -/
def fExp2 (f : FFmt) (rm q : Nat) (a : FVal) : Nat :=
  match a with
  | .nan _ => f.nanCode
  | .inf n => if n then 0 else f.infCode
  | .num n m e =>
    if m = 0 then (roundF f false rm q false 1 0 false).1
    else if (ilog2 m : Int) + e > 12 then
      if n then (roundF f false rm q false 1 (-4000) true).1 else (roundF f false rm q false 1 4000 true).1
    else
      let fix := (cutAt m e (-fixBits)).1
      let v : Int := if n then -(fix : Int) else fix
      let ip := v / (2 ^ fixBits : Nat)
      let fr := (v % (2 ^ fixBits : Nat)).toNat
      if fr = 0 then (roundF f false rm q false 1 ip false).1
      else (roundF f false rm q false (expSum (fr * ln2Fix / 2 ^ fixBits) 96 0 (2 ^ fixBits)) (ip - fixBits) true).1

/-- log2 a rounded once (R155). -/
def fLog2 (f : FFmt) (rm q : Nat) (a : FVal) : Nat :=
  match a with
  | .nan _ => f.nanCode
  | .inf n => if n then f.nanCode else f.infCode
  | .num n m e =>
    if m = 0 then signOf f true + f.infCode
    else if n then f.nanCode
    else
      let l := ilog2 m
      let ex : Int := (l : Int) + e
      if m = 2 ^ l then
        if ex = 0 then 0 else (roundF f false rm q (decide (ex < 0)) ex.natAbs 0 false).1
      else
        let v : Int := ex * (2 ^ fixBits : Nat) + (lnRatio m (2 ^ l) * 2 ^ fixBits / ln2Fix : Nat)
        (roundF f false rm q (decide (v < 0)) v.natAbs (-fixBits) true).1

/-! Random draws. -/

/-- One round of Philox4x32 (R121). -/
def philoxRound (k0 k1 : Nat) (c : Nat × Nat × Nat × Nat) : Nat × Nat × Nat × Nat :=
  let (c0, c1, c2, c3) := c
  let p := 0xD2511F53 * c0
  let r := 0xCD9E8D57 * c2
  ((r / 2 ^ 32) ^^^ c1 ^^^ k0, r % 2 ^ 32, (p / 2 ^ 32) ^^^ c3 ^^^ k1, p % 2 ^ 32)

/-- `n` rounds of Philox4x32, the keys stepped between them (R121). -/
def philoxRounds : Nat → Nat → Nat → Nat × Nat × Nat × Nat → Nat × Nat × Nat × Nat
  | 0, _, _, c => c
  | n + 1, k0, k1, c =>
    philoxRounds n ((k0 + 0x9E3779B9) % 2 ^ 32) ((k1 + 0xBB67AE85) % 2 ^ 32) (philoxRound k0 k1 c)

/-- Word `e mod 4` of PhiloxBlock (R121). -/
def philox (seed c0 c1 c2 c3 e : Nat) : Nat :=
  let (w0, w1, w2, w3) := philoxRounds 10 (seed % 2 ^ 32) (seed / 2 ^ 32 % 2 ^ 32) (c0, c1, c2, c3)
  match e % 4 with | 0 => w0 | 1 => w1 | 2 => w2 | _ => w3

/-- The lane random word of element `e` for slot `sl` at draw position `p` (R121). -/
def drawWord (seed p task launch tl sl e : Nat) : Nat :=
  philox seed (p % 2 ^ 32) task launch (sl * 2 ^ 28 + tl * 2 ^ 27 + fld p 32 20 * 2 ^ 7 + e / 4) e

/-! Element formats by code (R113). -/

/-- Width in bits of an element (R111, R113). -/
def efmtWidth (c : Nat) : Nat :=
  match c with
  | 0 | 1 | 2 | 3 | 7 | 12 | 13 => 8
  | 4 | 5 | 8 => 6
  | 6 | 9 => 4
  | 10 | 11 => 16
  | 14 => 32
  | _ => 64

/-- The value of an element (R111, R113). -/
def elemVal (c x : Nat) : FVal :=
  let int (w fb : Nat) : FVal :=
    let v := sext w x
    .num (decide (v < 0)) v.natAbs (-(fb : Int))
  match c with
  | 0 | 2 => decodeF e4m3 x
  | 1 | 3 => decodeF e5m2 x
  | 4 => decodeF e3m2 x
  | 5 => decodeF e2m3 x
  | 6 => decodeF e2m1 x
  | 7 => int 8 6
  | 8 => int 6 4
  | 9 => int 4 2
  | 10 => decodeF bf16 x
  | 11 => decodeF f16 x
  | 12 => int 8 0
  | 13 => .num false (x % 256) 0
  | 14 => decodeF f32 x
  | _ => decodeF f64 x

/-- A scaled format (R113). -/
def efmtScaled (c : Nat) : Bool := 2 ≤ c && c ≤ 9

/-- emax of a scaled format (R111). -/
def efmtEmax (c : Nat) : Int :=
  match c with | 2 => 8 | 3 => 15 | 4 => 4 | 5 => 2 | 6 => 2 | _ => 0

/-- RoundSat (R126): the element encoding and whether it clamped. -/
def roundSat (c : Nat) (neg : Bool) (m : Nat) (e : Int) : Nat × Bool :=
  let flt (f : FFmt) : Nat × Bool :=
    let (x, fl) := roundF f true 0 0 neg m e false
    (x, bitOf fl 2)
  let int (w fb : Nat) : Nat × Bool :=
    let (v, _) := roundInt 0 0 neg m (e + fb)
    let lo : Int := -(2 ^ (w - 1) : Nat)
    let hi : Int := (2 ^ (w - 1) : Nat) - 1
    if v < lo then (wrap w lo, true) else if v > hi then (wrap w hi, true) else (wrap w v, false)
  match c with
  | 2 => flt e4m3 | 3 => flt e5m2 | 4 => flt e3m2 | 5 => flt e2m3 | 6 => flt e2m1
  | 7 => int 8 6 | 8 => int 6 4 | _ => int 4 2

/-- Quantise 32 F32 values (by index) to one MX block: image, scale byte, clamped elements (R126, R153). -/
def quantBlock (c : Nat) (x : Nat → Nat) : Nat × Nat × Nat :=
  let vals := fun j => decodeF f32 (x j)
  let bad := (firstIdx (fun j => match vals j with | .num _ _ _ => false | _ => true) 32 0).isSome
  if bad then (0, 0xFF, 0)
  else
    -- the largest floor(log2 |x|), none when every value is zero
    let top : Option Int := loop (fun j acc =>
      match vals j with
      | .num _ m e => if m = 0 then acc else
          let l : Int := (ilog2 m : Int) + e
          match acc with | none => some l | some t => some (if l > t then l else t)
      | _ => acc) 32 0 none
    let xs : Int := match top with
      | none => -127
      | some l => if l - efmtEmax c < -127 then -127 else l - efmtEmax c
    let one := fun j => match vals j with
      | .num n m e => roundSat c n m (e - xs)
      | _ => (0, false)
    (pack (efmtWidth c) (fun j => (one j).1) 32 0, (xs + 127).toNat, loop (fun j a => a + b2n (one j).2) 32 0 0)

end Sys2Proof.Machine
end

