-- ==== Sys2Proof/Machine/State.lean ====
section
/-! DEFINITION. The state of the machine as plain data, the state after reset, and the reasons a step can stop. -/

namespace Sys2Proof.Machine

/-! ## A strand -/

/-- A register a slot operation names (R54). -/
inductive Reg where
  | s (n : Nat)
  | v (n : Nat)
  | b (n : Nat)
  | k (n : Nat)
  | m (n : Nat)
  | lc (n : Nat)
  deriving DecidableEq, Repr

/-- A fault mark on a completion (R182, R261, R350, R411): cause, detail, micro-op index, source (0 MX, 1 Hod, 2 PBAR), address. -/
structure Mark where
  cause : Nat
  detail : Nat
  index : Nat
  source : Nat
  addr : Word
  deriving DecidableEq, Repr

/-- A completion in a semaphore's list (R98): the register it names, its mark, the order in which the strand's completions were
appended (R198), and the routine whose ownership ends with it (R181). -/
structure Completion where
  reg : Option Reg
  mark : Option Mark
  order : Nat
  routine : Option Nat
  deriving DecidableEq, Repr

/-- A sticky engine's image: operation and current address (R28). -/
structure Engine where
  op : Instr
  addr : Word
  deriving DecidableEq, Repr

/-- A result in flight, in the pipeline or in a replay register (R31): value, lane mask, the bytes of each lane it writes (all
but for the 8-bit VPACK), strand cycles remaining, trap level, FSTAT flags (R129) and poison. -/
structure Result where
  reg : Reg
  value : Vec
  lanes : Word
  bytes : BitVec 4
  cnt : Nat
  tl : Bool
  flags : BitVec 5
  poison : Bool
  deriving DecidableEq, Repr

/-- Access kinds (R327); an atomic reads and writes. -/
inductive Kind where
  | read | write | fetch | both
  deriving DecidableEq, Repr

/-- Why a strand is BLOCKED (R15). -/
inductive Why where
  /-- no free entry in the load or the store queue (R221) -/
  | loadFull
  | storeFull
  /-- a channel with eight commands (R236) -/
  | hodFull (ch : Nat)
  /-- WAIT: the count of a semaphore must reach a number (R99) -/
  | sem (e n : Nat)
  /-- WAITANY: a selected count must become non-zero (R100) -/
  | semAny (mask : Nat)
  /-- scratchpad bytes above a watermark (R214): address and length of each access -/
  | watermark (parts : List (Nat × Nat))
  /-- a translation has not returned (R223): the address and what it is for -/
  | walk (va : Word) (kind : Kind)
  /-- instruction translation of the next bundle (R48) -/
  | fetchWalk (va : Word)
  /-- a barrier phase must complete (R296) -/
  | phase (ph : BitVec 32)
  /-- TAGWAIT: key and producer (R304) -/
  | tag (key : Word) (prod : BitVec 32)
  /-- the task parks in place: no free save area, or a PERSIST task (R354, R356); true for a fault park -/
  | parked (fault : Bool)
  /-- the task is being saved (R14, R351) -/
  | saving
  /-- the task is being restored -/
  | restoring
  /-- CSWITCH: a read by which the dispatcher chooses a task of a context waits (R355) -/
  | choosing (ctx : Nat)
  /-- the task has ended and its queues and commands drain (R292) -/
  | ending
  /-- the core has stopped for a hardware error, or a task was stopped on the system path -/
  | stopped
  deriving DecidableEq, Repr

/-- States of a strand (R14). -/
inductive Run where
  | free
  | eligible
  | active
  | blocked (why : Why)
  deriving DecidableEq, Repr

/-- Where in its bundle the next iteration stands (R30, R42, R353): a new bundle; an iteration after which `left` follow, the
bundle's first or not; or one resumed by RTE, which is the first when XRPT equals REPEAT. -/
inductive Resume where
  | fresh
  | at (left : Nat) (first : Bool)
  | byHeader (left : Nat)
  deriving DecidableEq, Repr

/-- The pending next bundle while a delay bundle executes (R91): a target, the bundle after it, or RTE's return. -/
inductive Delay where
  | taken (target : Word)
  | notTaken
  | ret
  deriving DecidableEq, Repr

/-- What an entry of a load or store queue asks for (R221). -/
inductive GKind where
  | load
  | acquire
  | pref
  | store
  | release
  | atomic (aop : Nat) (ret : Bool)
  | tagset (fn nm1 : Nat)
  | mark (kind : Nat)
  | pbar
  deriving DecidableEq, Repr

/-- An entry of a strand's queues: its place in commit order over both queues, what it asks, its register and semaphore, its
address, size and active lanes, its data and comparand, its scope, whether it acquires or releases, and how far it has gone. -/
structure GEntry where
  num : Nat
  kind : GKind
  reg : Option Reg
  sem : Nat
  va : Word
  pa : Nat
  size : Nat
  lanes : Word
  data : Vec
  cmp : Word
  scope : Nat
  acq : Bool
  rel : Bool
  dur : Bool
  /-- poison in what peers have answered so far; their bytes gather in `data` -/
  poison : Bool
  /-- 0 queued; 1 performed in the slice of its die only (for a MARK: its acquire is done); 2 performed at its target's scope, its
  completion waiting for older ones (R224, R225); 3 taken by another agent and not yet performed (a peer, a write-through of a
  releasing store, a write held for Kiln, a tag table) -/
  phase : Nat
  deriving DecidableEq, Repr

/-- The answer of a walk that failed, held for the re-attempt (R223): the address, the access and its outcome. -/
structure WalkAnswer where
  va : Word
  kind : Kind
  cause : Nat
  detail : Nat
  deriving DecidableEq, Repr

/-- A LAUNCH whose answer is outstanding (R293). -/
structure LaunchReq where
  record : Word
  reg : Reg
  sem : Nat
  /-- the answer, once the home slice has decided -/
  answer : Option Word
  deriving DecidableEq, Repr

/-- Why a strand's task is being saved (R351): CSWITCH to a chosen task (context, launch, TASK) with its status register, PARK,
NOT_PRESENT, or pre-emption for a task. -/
inductive SaveReq where
  | cswitch (ctx lid task d : Nat)
  | park
  | fault
  | preempt (ctx lid task : Nat)
  deriving DecidableEq, Repr

/-- A strand (R11, R31, R38, R105). -/
structure Strand where
  s : SMap Word := []
  v : SMap Vec := []
  b : BitVec 8 := 1
  k : SMap Word := []
  m : SMap Word := []
  lc : SMap (BitVec 32) := []
  sem : SMap (List Completion) := []
  eng : SMap Engine := []
  xstk : SMap Engine := []
  pipe : List Result := []
  z : SMap Result := []
  pendS : Word := 0
  pendV : Word := 0
  poisS : Word := 0
  poisV : Word := 0
  pc : Word := 0
  res : Resume := .fresh
  delay : Option Delay := none
  words : List (BitVec 32) := []
  run : Run := .free
  swhy : BitVec 8 := 0
  ctxh : BitVec 32 := 0
  launch : BitVec 32 := 0
  task : BitVec 32 := 0
  domain : Word := 0
  course : BitVec 32 := 0
  scyc : Word := 0
  wsem : BitVec 4 := 0
  fstat : BitVec 5 := 0
  xvec : Word := 0
  xmask : Word := 0
  xpc : Word := 0
  xnpc : Word := 0
  xrec : Word := 0
  xrpt : BitVec 8 := 0
  dslot : Bool := false
  tl : Bool := false
  p0 : Word := 0
  p1 : Word := 0
  sat : Bool := false
  est : Word := 0xFFFFFFFFFFFFFFFF
  estBase : Word := 0
  loadQ : List GEntry := []
  storeQ : List GEntry := []
  gnum : Nat := 0
  order : Nat := 0
  answers : List LaunchReq := []
  barPhase : Option (BitVec 32) := none
  /-- the phase the next iteration waits for after a BAR (R296) -/
  barWait : Option (BitVec 32) := none
  /-- BAR arrivals as MARKs of KIND AR: commit number and scope (R297) -/
  arrivals : List (Nat × Nat) := []
  /-- sectors whose local bytes older loads read: a release at .PK waits for their acknowledgements (R320) -/
  seen : List Nat := []
  /-- failed non-volatile images not yet reported to this task: sector numbers (R411) -/
  nvFail : List Nat := []
  /-- the save that waits for the strand to drain (R351) -/
  save : Option SaveReq := none
  /-- the walk answer the re-attempt consumes -/
  walk : Option WalkAnswer := none
  /-- the strand is kept for a task: context, launch, and its TASK, or none for any task of a PERSIST launch that is not placed
  yet (R288, R351, R362) -/
  reserved : Option (Nat × Nat × Option Nat) := none
  /-- it became FREE and no dispatcher has looked since (R288) -/
  freed : Bool := false
  deriving DecidableEq, Repr

/-! ## A core -/

/-- A tag table entry (R216). -/
structure TagEntry where
  key : BitVec 48
  ctxh : BitVec 32
  base : BitVec 12
  len : BitVec 4
  state : BitVec 2
  deriving DecidableEq, Repr

/-- A FREE tag table entry. -/
def TagEntry.free : TagEntry := ⟨0, 0, 0, 0, 0⟩

/-- A watermark channel (R213) and, by sector from WM up, the bytes the Hod has written since the HWM (R252). -/
structure Wm where
  en : Bool
  lo : BitVec 19
  hi : BitVec 19
  wm : BitVec 19
  filled : SMap (BitVec 128)
  deriving DecidableEq, Repr

/-- A disabled channel. -/
def Wm.off : Wm := ⟨false, 0, 0, 0, []⟩

/-- An entry of the MX queue (R177, R178, R197). -/
inductive MxKind where
  | call (start gang own arg : Nat) (m : List Word)
  | ldUc (src first count : Nat)
  | ldRt (src first count : Nat)
  deriving DecidableEq, Repr

/-- An entry of the MX queue: number, issuing strand (0 to 7) with its task, semaphore, and what it does. -/
structure MxEntry where
  id : Nat
  strand : Nat
  /-- the task that issued it still owns the strand -/
  live : Bool
  ctxh : BitVec 32
  launch : BitVec 32
  task : BitVec 32
  sem : Nat
  kind : MxKind
  deriving DecidableEq, Repr

/-- The product steps of an open block (R170): the destination, formats, shape, ZERO and SATM, and for each step its two operand
strings and whether a poisoned byte was read.
(DEDUCED, log 25) -/
structure Block where
  d : BitVec 32
  ea : Nat
  eb : Nat
  shape : Nat
  zero : Bool
  satm : Bool
  sca : Nat
  scb : Nat
  steps : List (Nat × Nat)
  poison : Bool
  deriving DecidableEq, Repr

/-- A running routine (R178, R179). -/
structure Routine where
  entry : MxEntry
  pc : Nat
  mp : SMap (BitVec 32)
  stride : SMap Int
  /-- active loops: count, start, END -/
  ml : SMap (Nat × Nat × Nat)
  kphase : Nat
  block : Option Block
  /-- scale registers, 256 bytes each, and their poison by 32 bytes -/
  sc : SMap (BitVec 2048)
  scP : SMap (BitVec 8)
  /-- scale loads in flight: steps left, register, bytes, value, poison by 32 bytes -/
  flight : List (Nat × Nat × Nat × BitVec 2048 × BitVec 8)
  /-- waits for a watermark or for the ring (R173, R190) -/
  wait : Bool
  /-- MABORT has named it (R199) -/
  abort : Bool
  /-- it has ended, with the mark its completion will carry (R180, R182) -/
  done : Option (Option Mark)
  deriving DecidableEq, Repr

/-- A staged add-on-write row (R258): its HADD (channel and identifier), target row, words, poison, I32 or not, SAT. -/
structure Staged where
  ch : Nat
  id : Nat
  row : Nat
  data : Vec
  poison : Bool
  int : Bool
  sat : Bool
  last : Bool
  deriving DecidableEq, Repr

/-- A translation held in a TLB (R328): physical page base, page size, leaf bits, and the moment of its last use among those of its
TLB. -/
structure TlbEntry where
  base : Nat
  big : Bool
  bits : Nat
  use : Nat
  deriving DecidableEq, Repr

/-- A kernel descriptor as the dispatcher read it (R277), with the context whose address space holds it. -/
structure Kernel where
  ctx : Nat
  desc : Nat
  entry : Word
  foot : Nat
  accb : Nat
  strands : Nat
  micro : Nat
  mfirst : Nat
  mcount : Nat
  rtfirst : Nat
  rtcount : Nat
  rtimg : Nat
  tagin : List Nat
  tagout : List Nat
  deriving DecidableEq, Repr

/-- A core. -/
structure Core where
  last : Nat := 7
  active : Option Nat := none
  count : Nat := 0
  spad : SMap Byte := []
  spadP : SMap Bool := []
  ce : Nat := 0
  ue : Nat := 0
  tags : SMap TagEntry := []
  vptr : BitVec 8 := 0
  wm : SMap Wm := []
  acc : SMap Vec := []
  accP : SMap Bool := []
  ucode : SMap Word := []
  rtab : SMap Word := []
  mxq : List MxEntry := []
  run : Option Routine := none
  mxid : Nat := 0
  /-- completions of ended entries that wait for their semaphore's count to fall, in order, with their marks (R98) -/
  mxheld : List (MxEntry × Option Mark) := []
  /-- banks owned until a completion is consumed (R181): by entry number, the strand and the mask -/
  owned : SMap (Nat × Nat) := []
  seq : BitVec 32 := 0
  staging : List Staged := []
  /-- core TLB: by ASID × 2^41 + page (R328) -/
  tlb : SMap TlbEntry := []
  /-- instruction cache: 128-byte sectors by ASID × 2^50 + virtual sector (R330) -/
  icache : SMap (BitVec 1024) := []
  /-- kernels whose images the dispatcher loaded and did not overwrite since (R285) -/
  images : List Kernel := []
  /-- bindings that arrive (R287): source die, context, launch, TASK -/
  bindings : List (Nat × Nat × Nat × Nat) := []
  retired : Bool := false
  deriving DecidableEq, Repr

/-! ## A cluster -/

/-- A committed Hod command, or a record of a schedule (R238, R239, R253): identifier, issuing strand and task, whether that task
still owns the strand, semaphore, opcode, F, EXT, long form, and the values that stand for s[A], s[B], s[C] and s[D]. -/
structure HodCmd where
  id : Nat
  strand : Nat
  live : Bool
  ctxh : BitVec 32
  launch : BitVec 32
  task : BitVec 32
  sem : Nat
  op : Nat
  f : Nat
  ext : Nat
  long : Bool
  a : Word
  b : Word
  c : Word
  d : Word
  /-- the strand's commit number: it is younger than every access below it (R269) -/
  num : Nat
  deriving DecidableEq, Repr

/-- A tensor descriptor as a command read it (R242). -/
structure Tensor where
  base : Nat
  alt : Nat
  tmap : Nat
  rows : Nat
  cols : Nat
  tbytes : Nat
  trows : Nat
  tcols : Nat
  pad : Nat
  esz : Nat
  gen : Nat
  deriving DecidableEq, Repr

/-- A Hod write on its way to a scratchpad of the cluster: core of the cluster, address, bytes, value, poison (R252). -/
structure HodWrite where
  core : Nat
  addr : Nat
  n : Nat
  value : Nat
  poison : Bool
  deriving DecidableEq, Repr

/-- A channel's command in progress: the command that executes (a record of the schedule under HSTEP), its tensor, bytes or
elements or rows already read, their number, writes not yet landed (for an HADD: the first half of a row that a peer has sent), rows
of HADD added, stages an HSTEP still owes, the records left in the current stage (for a ring-form HPUB: the bytes of its
descriptor), and the moment it has passed. -/
structure HodProg where
  cmd : HodCmd
  tensor : Option Tensor
  pos : Nat
  total : Nat
  writes : List HodWrite
  added : Nat
  stages : Nat
  recs : List Nat
  /-- a record of the stage is executing -/
  inRec : Bool
  /-- its effects are in place; for an HSTEP between records, its stage has been read -/
  ready : Bool
  deriving DecidableEq, Repr

/-- A Hod channel (R236, R253, R256). -/
structure HodChan where
  queue : List HodCmd := []
  halted : Bool := false
  /-- the fault that halts it: cause, detail, address -/
  fault : Option (Nat × Nat × Word) := none
  bound : Option Nat := none
  stage : Nat := 0
  seq : Nat := 0
  last : Option Nat := none
  prog : Option HodProg := none
  /-- multicasts not acknowledged by every receiver: identifier, receivers left -/
  acks : List (Nat × List Nat) := []
  /-- multicast writes on their way, with their command's identifier -/
  mcast : List (Nat × HodWrite) := []
  deriving DecidableEq, Repr

/-- State of a ring slot (R266). -/
inductive SlotState where
  | free
  | opened (core : Nat)
  | submitted
  deriving DecidableEq, Repr

/-- A slot of the result ring (R266): state, rows and their poison. -/
structure RingSlot where
  state : SlotState := .free
  rows : SMap Vec := []
  poison : SMap Bool := []
  deriving DecidableEq, Repr

/-- A sector the atomic engine holds (R263): data, one poison bit per atom, and the non-volatile stores its data includes that have
no image yet (R404; strand, context handle, launch, TASK, commit number). -/
structure AtomSector where
  sector : Nat
  data : BitVec 1024
  poison : BitVec 4
  dirty : Bool
  stores : List (Nat × Nat × Nat × Nat × Nat)
  deriving DecidableEq, Repr

/-- A cluster. -/
structure Cluster where
  chans : SMap HodChan := []
  /-- the channel granted the last turn (R237) -/
  turn : Nat := 63
  /-- least recently used first (R263) -/
  store : List AtomSector := []
  served : Nat := 3
  cycles : Nat := 0
  ring : SMap RingSlot := []
  /-- drained rows on their way to the ring: core, slot, position, words, poison (R266) -/
  drains : List (Nat × Nat × Nat × Vec × Bool) := []
  /-- submitted slots in order: slot and channel (R267) -/
  submitted : List (Nat × Nat) := []
  /-- atoms, by address over 32, that arrive poisoned with the next access of the cluster's engines to them: their flit was lost (R403) -/
  spoilt : List Nat := []
  deriving DecidableEq, Repr

/-! ## A die -/

/-- An entry of a readiness tag table (R298). -/
structure TagRow where
  ctx : Nat
  handle : Nat
  tile : Nat
  gen : Nat
  deriving DecidableEq, Repr

/-- A coarse record (R301). -/
structure Coarse where
  ctx : Nat
  handle : Nat
  gen : Nat
  launch : Nat
  deriving DecidableEq, Repr

/-- A tag operation on its way to the table (R302, R303): its function (0 set, 1 clear tile, 2 clear tensor), context, launch,
key and the next of the tiles it still covers, its scope, and who waits for it: a strand and commit number, or a Hod channel and its
command's identifier. -/
structure TagOp where
  fn : Nat
  ctx : Nat
  launch : Nat
  task : Nat
  key : Nat
  left : Nat
  scope : Nat
  strand : Nat
  num : Nat
  /-- cluster and channel of an HPUB -/
  hod : Option (Nat × Nat)
  command : Nat
  deriving DecidableEq, Repr

/-- A copy sector (R317): data, which bytes are clean and which are local, one poison bit per atom. -/
structure CopySector where
  data : BitVec 1024
  clean : BitVec 128
  loc : BitVec 128
  poison : BitVec 4
  deriving DecidableEq, Repr

/-- A message between a copy slice and a home (R317): a fill, or a write-through with its bytes, mask, poison and the store it
carries (strand and commit number).
(DESIGN CHOICE, log 68) -/
inductive Flight where
  | fill (sector : Nat)
  | through (sector : Nat) (mask : BitVec 128) (data : BitVec 1024) (poison : Bool) (strand num : Nat)
  deriving DecidableEq, Repr

/-- A request of an agent outside the package (R425, R428, R445). -/
inductive Inbound where
  | memrd (port off : Nat) (any : Bool)
  | memwr (port off : Nat) (data : LineData)
  | peer (req : PeerReq)
  deriving DecidableEq, Repr

/-- Who waits in a replay queue (R337, R453): a strand, a Hod channel, a request from outside for a page in transit, an agent of the
die. -/
inductive Held where
  | strand (n : Nat)
  | hod (cluster ch : Nat)
  | outside (req : Inbound)
  | agent
  deriving DecidableEq, Repr

/-- An entry of a replay queue (R337): who waits, the address space and page, and whether the page's migration has released it. -/
structure Replay where
  who : Held
  asid : Nat
  page : Nat
  go : Bool
  deriving DecidableEq, Repr

/-- An image in Kiln's buffer (R406): sector, contents, poison, which halves the device has acknowledged, the non-volatile stores
whose durability rests on it (strand, context handle, launch, TASK, commit number). -/
structure KilnImage where
  sector : Nat
  data : BitVec 1024
  poison : BitVec 4
  ack0 : Bool
  ack1 : Bool
  stores : List (Nat × Nat × Nat × Nat × Nat)
  /-- the images it replaced in the buffer, oldest first, which the sector held at .PK since the device's (R412) -/
  older : List (BitVec 1024 × BitVec 4)
  deriving DecidableEq, Repr

/-- A write held at a home slice because Kiln's buffer is full (R406): address, size, mask of bytes, data, poison, and its
store. -/
structure HeldWrite where
  pa : Nat
  n : Nat
  mask : Nat
  data : Nat
  poison : Bool
  store : Option (Nat × Nat × Nat × Nat × Nat)
  /-- the die whose write-through it was, and its place of origin is freed when it enters -/
  die : Option Nat
  deriving DecidableEq, Repr

/-- A launch on its way to its home slice (R274): from a strand, from an LQ entry at a physical address, or from the sequencer. -/
inductive LaunchSrc where
  | task (strand ctxh launch task : Nat)
  | lq (entry : Nat)
  | gs
  deriving DecidableEq, Repr

/-- A pending launch: its source, the address of its record, the context handle whose address space translates it, for the sequencer
the record itself (R379), and whether an iteration launch or the sequencer made it (R380). -/
structure LaunchMsg where
  src : LaunchSrc
  record : Word
  ctxh : Nat
  made : Option Nat
  iter : Bool
  deriving DecidableEq, Repr

/-- A WAKE on its way to a home slice (R357): context handle, F, time; at issue `rel` lists the strand and its commit number. -/
structure WakeMsg where
  handle : Nat
  f : Nat
  time : Word
  strand : Nat
  num : Nat
  deriving DecidableEq, Repr

/-- A base die and its compute die. -/
structure Die where
  /-- context last bound at each level (R284) -/
  turn : SMap Nat := []
  /-- a CSWITCH has taken the place of the dispatcher's next binding (R355) -/
  spent : Bool := false
  tags : List TagRow := []
  coarse : List Coarse := []
  dropped : Nat := 0
  tagOps : List TagOp := []
  launches : List LaunchMsg := []
  wakes : List WakeMsg := []
  copies : SMap CopySector := []
  flights : List Flight := []
  /-- die TLB, by ASID × 2^41 + page (R328) -/
  tlb : SMap TlbEntry := []
  /-- walker cache: non-leaf and ASID entries, by ASID × 2^52 + physical address, with the moment of their last use (R328) -/
  walker : SMap (Word × Nat) := []
  /-- access counters, least recently used first: key ASID × 2^41 + page, count (R333) -/
  counters : List (Nat × Nat) := []
  notesDropped : Nat := 0
  replay : List Replay := []
  seq : BitVec 32 := 0
  /-- snoop filter, least recently used first: 64-byte line, whether the host may hold it in any state, and the ports through which it
  does, bit by bit (R428, R452) -/
  filter : List (Nat × Bool × Nat) := []
  /-- back-invalidations sent and not answered: line, and whether BISnpInv (R428) -/
  bisnp : List (Nat × Bool) := []
  /-- Kiln's half (dies 2 and 3) -/
  images : List KilnImage := []
  heldWrites : List HeldWrite := []
  /-- sectors whose last image was dropped, so that what the home holds is not durable (R409, R411) -/
  nvLost : List Nat := []
  /-- corrected and uncorrectable errors its slices found (R322, R403) -/
  ce : Nat := 0
  ue : Nat := 0
  deriving DecidableEq, Repr

/-! ## A context -/

/-- States of a task (R282); `offered` while its binding is on its way, `ended` until its weight returns. -/
inductive TaskRun where
  | waiting
  | ready
  | offered
  | bound (strand : Nat)
  | ended (strand : Nat)
  | done
  deriving DecidableEq, Repr

/-- How a task without a strand, or blocked in place, is parked (R351, R354, R356). -/
inductive Parked where
  | no
  | fault
  | park (deadline : Word) (d : Nat)
  deriving DecidableEq, Repr

/-- A task: identifier, index of an initial task or the parent's s[A], s[B] (spawn.at) and s[C] of a child, its weight and die,
its kernel as bound, its checkpoint (save area and core left), and how often hardware errors re-executed it. -/
structure Task where
  id : Nat
  child : Option (Word × Option Word × Word)
  die : Nat
  weight : Nat
  run : TaskRun
  kernel : Option Kernel := none
  area : Option Nat := none
  core : Nat := 0
  parked : Parked := .no
  /-- the reason PARK will write (R356): register and value -/
  wakeReg : Option (Nat × Nat) := none
  errors : Nat := 0
  banned : List Nat := []
  /-- an input was satisfied by a set at .PK or a producer's completion (R319) -/
  acquire : Bool := false
  /-- its kernel descriptor or images faulted at binding (R332, R347) -/
  held : Bool := false
  /-- a pre-emption on its behalf is in progress (R361) -/
  preempting : Bool := false
  /-- its local slot among the tasks of its kernel on the core (R279) -/
  slot : Nat := 0
  /-- failed non-volatile images its next PBAR will report, while it is on no strand (R411) -/
  nvFail : List Nat := []
  /-- it ends its run to be executed again (R364) -/
  again : Bool := false
  /-- the strand a CSWITCH hands to it (R355) -/
  swap : Option Nat := none
  /-- of an ended task: the sectors whose local bytes its loads read (R320) -/
  seen : List Nat := []
  /-- of a checkpoint: RTE's return is pending at its delay bundle (R42), and the bytes each saved replay entry writes of its lanes;
  the image has no place for them -/
  ret : Bool := false
  zbytes : List (BitVec 4) := []
  deriving DecidableEq, Repr

/-- A domain of a PERSIST launch (R295): PHASE, and the strands, commit numbers and tasks of the arrivals of the phase. -/
structure Domain where
  phase : BitVec 32 := 0
  arrived : List (Nat × Nat × Nat) := []
  deriving DecidableEq, Repr

/-- A live launch (R274 to R276, R289, R290). -/
structure Launch where
  id : Nat
  kdesc : Word
  args : Word
  compl : Nat
  ntasks : Nat
  level : Nat
  persist : Bool
  restart : Bool
  dlevel : Nat
  dsize : Nat
  gens : List Nat
  ogens : List Nat
  prods : List Nat
  argw : List Word
  tagin : List Nat
  tagout : List Nat
  returned : Nat
  status : Nat
  errcode : Option Nat
  failed : Nat
  nextChild : Nat
  tasks : List Task
  domains : SMap Domain
  placed : Bool
  /-- a launch of the sequencer's current attempt (R380) -/
  iter : Bool
  deriving DecidableEq, Repr

/-- Life of a context entry (R342). -/
inductive Life where
  | free
  | live
  | dying
  deriving DecidableEq, Repr

/-- A context table entry (R341, R342). -/
structure Ctx where
  life : Life := .free
  gen : BitVec 16 := 0
  asid : Nat := 0
  keydom : Nat := 0
  pclass : Nat := 0
  tokens : Nat := 0
  seed : Word := 0
  ttab : Word := 0
  tcount : Nat := 0
  kvcount : Nat := 0
  kvlist : Word := 0
  fqbase : Nat := 0
  fqsize : Nat := 0
  savecount : Nat := 0
  savebase : Nat := 0
  wake : Word := 0
  pkev : Nat := 0
  pkf : Nat := 0
  wakepend : Bool := false
  allpooled : Bool := false
  savefree : BitVec 512 := 0
  fqtail : Word := 0
  dropped : Nat := 0
  nextId : Nat := 1
  doneIds : List Nat := []
  launches : List Launch := []
  /-- completion records whose write faulted: address and 32-byte record (R332, R347) -/
  owed : List (Nat × Nat) := []
  /-- completion records that are being written, for the first time or again by a RESUME -/
  rewrite : List (Nat × Nat) := []
  /-- address of the DESTROY completion still to be written -/
  destroy : Option Nat := none
  deriving DecidableEq, Repr

/-- An entry for a shadowed tensor (R244): its context and tensor index, generation, base addresses and grid, the physical pages
of copy 0, of copy 1 and of the tile map by virtual page, and the tiles whose shadow is marked written. -/
structure Shadow where
  ctx : Nat
  index : Nat
  gen : Nat
  base : Nat
  alt : Nat
  tmap : Nat
  nt : Nat
  tbytes : Nat
  p0 : SMap Nat
  p1 : SMap Nat
  pm : SMap Nat
  marks : List Nat
  deriving DecidableEq, Repr

/-! ## The package -/

/-- A migration in progress (R336): address space, page, size, old and new physical page, completion, Trowel's context and
object with the pool the new page came from, the step ended (1 stop, 3 copy), and poison or integrity met in the copy. -/
structure Mig where
  asid : Nat
  va : Word
  big : Bool
  old : Nat
  new : Nat
  leaf : Nat
  compl : Nat
  trowel : Option (Nat × Nat × Bool)
  stage : Nat
  status : Nat
  /-- the leaf as step 1 stored it -/
  word : Word
  deriving DecidableEq, Repr

/-- A host queue's registers (R435). -/
structure Queue where
  base : Nat := 0
  en : Bool := false
  log2n : Nat := 0
  prod : BitVec 32 := 0
  cons : BitVec 32 := 0
  dropped : Nat := 0
  err : Bool := false
  deriving DecidableEq, Repr

/-- What is next of an attempt's steps 5 and 6 (R377): the write of ATT, the write of ACC, the submission. -/
inductive GsStage where
  | mark | clear | submit
  deriving DecidableEq, Repr

/-- States of the sequencer (R375). -/
inductive GsState where
  | off
  | run
  | wait
  | halt
  deriving DecidableEq, Repr

/-- The generation sequencer (R374, R375) and its current attempt. -/
structure Gs where
  en : Bool := false
  ctxh : BitVec 32 := 0
  state : GsState := .off
  iter : BitVec 32 := 0
  att : BitVec 8 := 0
  abcnt : BitVec 8 := 0
  lastSlot : Nat := 0
  lastWhy : Nat := 0
  gb : Word := 0
  occlim : List Nat := [1, 2, 4, 8, 16, 32, 64]
  ablim : Nat := 4
  slots : SMap Word := []
  /-- an attempt is in progress: OCC, draft length -/
  attempt : Option (Nat × Nat) := none
  /-- its root launch has been submitted -/
  submitted : Bool := false
  /-- STOP was written since the attempt began -/
  stop : Bool := false
  /-- the first abandonment event of the attempt (R385) -/
  event : Option Nat := none
  /-- a WAKE or a write of GSCTL arrived while WAIT (R377) -/
  recheck : Bool := false
  /-- an access met NOT_PRESENT and waits for RESUME (R386) -/
  parked : Bool := false
  /-- TMPL of the slot that the attempt chose (R378) -/
  tmpl : Word := 0
  /-- what is next of steps 5 and 6 of the attempt (R377) -/
  stage : GsStage := .mark
  deriving DecidableEq, Repr

/-- A key slot (R398). -/
structure KeySlot where
  valid : Bool
  retain : Bool
  deriving DecidableEq, Repr

/-- Registers of a stack (R413). -/
structure Stack where
  ue : Nat := 0
  ce : Nat := 0
  ecs : Nat := 0
  retired : Bool := false
  retiring : Bool := false
  int : Nat := 0
  deriving DecidableEq, Repr

/-- An engine that reads or writes memory for a context, for whom a peer's answer is kept (R443, R444): a strand's fetch, a command of a
Hod channel, a dispatcher, a core's binding, a strand's CSWITCH, a home slice's launch, its completion records, the sequencer, Trowel,
the loader. -/
inductive Asker where
  | fetch (strand : Nat)
  | hod (cluster ch id : Nat)
  | dispatch (die : Nat)
  | binding (core : Nat)
  | choose (strand : Nat)
  | launch (die : Nat)
  | records (ctx : Nat)
  | sequencer
  | trowel
  | loader
  deriving DecidableEq, Repr

/-- What an engine asks a peer for: who asks, for which context, whether it writes, and the virtual address. -/
structure Asked where
  who : Asker
  ctx : Nat
  write : Bool
  va : Nat
  deriving DecidableEq, Repr

/-- A peer's answer that waits for its engine to use it (R444): the request, its sector and the sector's bytes. -/
structure PeerWord where
  req : Asked
  sector : Nat
  data : BitVec 1024
  poison : Bool
  deriving DecidableEq, Repr

/-- A request to a peer that has no answer yet (R444): the peer, the sector it touches, the strand and commit number of its
access.
(DESIGN CHOICE, log 68) -/
structure PeerOut where
  peer : Nat
  sector : Nat
  strand : Nat
  num : Nat
  /-- cluster and channel, for a turn of the Hod (R237) -/
  hod : Option (Nat × Nat)
  /-- the die and the request, for an engine that acts for a context -/
  engine : Option (Nat × Asked)
  deriving DecidableEq, Repr

/-- A write of a device agent that waits for its line, or behind one that waits (R427, R436): address within the line, bytes, value,
the queue whose CONS or PROD passes an entry once this write is performed, and the context it is made for. -/
structure Posted where
  pa : Nat
  n : Nat
  value : Nat
  queue : Option Nat
  ctx : Option Nat
  deriving DecidableEq, Repr

/-- The package's registers and lists that belong to no die. -/
structure Package where
  draint : Nat := 20000
  killt : Nat := 50000
  phor : Nat := 2000000
  dhor : Nat := 50000000
  tscan : Nat := 65536
  hlow : Nat := 4096
  hhigh : Nat := 8192
  /-- the most recently added page first (R439) -/
  hpool : List Nat := []
  ppool : List Nat := []
  /-- page moves Trowel has decided: context, object, page, to HBM4E (R369) -/
  trowel : List (Nat × Nat × Word × Bool) := []
  migs : List Mig := []
  queues : SMap Queue := []
  gs : Gs := {}
  /-- KLCTL.GPF as written, mode in effect, FAILCNT, FAIL, HOLDOK, FLUSHOK (R407) -/
  gpf : Bool := false
  buffered : Bool := false
  failcnt : Nat := 0
  fail : Bool := false
  holdok : Bool := false
  flushok : Bool := false
  hbm : SMap Stack := []
  /-- physical address of the address space table, which the firmware keeps (R323) -/
  asidBase : Nat := 0
  retiredCores : Nat := 0
  replace : Bool := false
  /-- physical remap of retired stacks: 64 KiB page to page (R415) -/
  remap : SMap Nat := []
  /-- the page of a retiring stack that the firmware moves, and its new page: 64 KiB pages (R415, R453) -/
  transit : Option (Nat × Nat) := none
  keys : SMap KeySlot := []
  /-- key-domain map by 64 KiB page (R399) -/
  domains : SMap Nat := []
  signKeys : List Nat := []
  /-- firmware image, repair maps and the device's own key as flash holds them (R419, R420), and the repair maps that the boot
  applied -/
  firmware : Nat := 0
  repair : Nat := 0
  attestKey : Nat := 0
  repaired : Nat := 0
  /-- a secure session of the DOE mailbox is open (R441) -/
  session : Bool := false
  viral : Bool := false
  vreason : Nat := 0
  /-- the viral indication is sent on the CXL ports, and the UALink ports on which fence notices are (R449) -/
  viralSent : Bool := false
  noticed : BitVec 128 := 0
  /-- ports 0 to 3 are trained (R423, R434); ports 0 and 1 lost beyond retraining (R452) -/
  link0 : Bool := false
  link1 : Bool := false
  link2 : Bool := true
  link3 : Bool := true
  lost0 : Bool := false
  lost1 : Bool := false
  fports : BitVec 128 := 0
  pwrlim : Nat := 1000
  clock : Nat := 3000
  pkgnum : Nat := 0
  gvalid : Bool := false
  fences : SMap Word := []
  /-- CXL.cache state of each 64-byte host line by PA / 64 (R427); unlisted: I -/
  lines : SMap Mesi := []
  /-- RdShared (false) and RdOwn (true) not answered: line (R427) -/
  cxlReqs : List (Nat × Bool) := []
  posted : List Posted := []
  /-- trap records that wait for the fault queue's HEAD to be read: context, record (R345) -/
  fqWait : List (Nat × Nat) := []
  /-- integrity failures that a posted write or a queue's read has met and that are still to be acted on: the context they are fatal to,
  none for the device's own (R400) -/
  failed : List (Option Nat) := []
  peers : List PeerOut := []
  /-- what peers have answered for engines that have not used it yet -/
  peerData : List PeerWord := []
  /-- answers to requests that were held for a page in transit (R453), oldest first: the request, status, value -/
  late : List (Inbound × Nat × Nat) := []
  /-- units of 256 MiB of pooled memory and of the non-volatile tier that devices decode (R426) -/
  poolUnits : Nat := 16384
  nvUnits : Nat := 16384
  /-- reads and writes of other key domains by host and peers (R399) -/
  domainRefusals : Nat := 0
  /-- the package is powered and its firmware runs (R419) -/
  powered : Bool := true
  /-- MSI-X signals of vector 0 sent (R438) -/
  msix : Nat := 0
  /-- what the last step that answers the outside answered: status, value -/
  reply : Nat × Nat := (0, 0)
  deriving DecidableEq, Repr

/-! ## Why a step stops -/

/-- The reasons a step faults. -/
inductive Fault where
  /-- HBM_SECTOR_READ of a sector outside local HBM4E, which no stack holds (R314, R392); safe -/
  | noMemory (pa : Nat)
  deriving DecidableEq, Repr

/-- The reasons a step is refused. -/
inductive Refusal where
  /-- exec, for an instruction without a meaning yet; safe -/
  | notModelled (mnemonic : String)
  /-- a step of an agent that the agent cannot take in this state (its work is not there, or waits); safe: the machine has no such
  step -/
  | notEnabled
  /-- a slot operation or a bundle on a core with no ACTIVE strand; safe: the machine has no such step -/
  | noTask
  deriving DecidableEq, Repr

/-! ## The machine -/

/-- Who moves next (the model's own field): a step of another agent, or the next micro-op word of a core's matrix unit.
(DESIGN CHOICE, log 69) -/
inductive Turn where
  | event (i : Instr)
  | routine (core : Nat)
  deriving DecidableEq, Repr

/-- The machine. Maps are sparse: an unlisted strand, core, cluster, die or context is as after reset. `mem` and `memP` hold the
home sectors of every window and the poison of each 32-byte atom; `nvm` and `nvmP` what the non-volatile devices hold; `badTag`
the HBM4E sectors whose stored tag does not verify, `version` their write counts (R395). -/
structure State where
  strands : SMap Strand := []
  cores : SMap Core := []
  clusters : SMap Cluster := []
  dies : SMap Die := []
  contexts : SMap Ctx := []
  shadows : List Shadow := []
  pkg : Package := {}
  mem : SMap Byte := []
  memP : SMap Bool := []
  nvm : SMap Byte := []
  nvmP : SMap Bool := []
  badTag : SMap Bool := []
  version : SMap (BitVec 16) := []
  gtime : Word := 0
  agenda : List (Nat × Turn) := []
  freeN : Nat := 0
  cur : Nat := 0
  deriving DecidableEq, Repr

/-- The machine right after reset: every register at its reset value, memory with nothing listed, no context, no task.
(DESIGN CHOICE, log 3) -/
def State.reset : State := {}

/-- The canonical form of a byte memory: addresses strictly rising, no byte equal to what an unlisted address reads as (0).
(DESIGN CHOICE, log 2) -/
abbrev Memory.wf (m : SMap Byte) : Prop := canon 0 m = true

end Sys2Proof.Machine
end

