-- ==== Sys2Proof/Machine/Operands.lean ====
section
/-! DEFINITION. Registers of a strand, results, the operands of a slot operation and what an operation hands to the issue of
its bundle. -/

namespace Sys2Proof.Machine

/-! ## Registers -/

/-- s[i]; s0 reads as zero (R11). -/
def Strand.getS (st : Strand) (i : Nat) : Word := if i = 0 then 0 else look 0 st.s i
/-- v[i] (R11). -/
def Strand.getV (st : Strand) (i : Nat) : Vec := look 0 st.v i
/-- b[i]; b0 reads as one (R11). -/
def Strand.getB (st : Strand) (i : Nat) : Bool := if i = 0 then true else st.b.getLsbD i
/-- k[i]; k0 reads as all ones (R11). -/
def Strand.getK (st : Strand) (i : Nat) : Word := if i = 0 then 0xFFFFFFFFFFFFFFFF else look 0 st.k i
/-- m[i] (R11). -/
def Strand.getM (st : Strand) (i : Nat) : Word := look 0 st.m i
/-- lc[i] (R11). -/
def Strand.getLc (st : Strand) (i : Nat) : BitVec 32 := look 0 st.lc i
/-- The list of semaphore e[i] (R98). -/
def Strand.getE (st : Strand) (i : Nat) : List Completion := look [] st.sem i
/-- The count of semaphore e[i] (R98). -/
def Strand.count (st : Strand) (i : Nat) : Nat := (st.getE i).length

/-- Set or clear bit `i` of a flag word. -/
def setBit (w : Word) (i : Nat) (b : Bool) : Word :=
  if b then w ||| ((1 : Word) <<< i) else w &&& ~~~((1 : Word) <<< i)

/-- The pending flag of a register (R34). -/
def Strand.pending (st : Strand) : Reg → Bool
  | .s i => i ≠ 0 && st.pendS.getLsbD i
  | .v i => st.pendV.getLsbD i
  | _ => false
/-- The poison flag of a register (R35). -/
def Strand.poisoned (st : Strand) : Reg → Bool
  | .s i => i ≠ 0 && st.poisS.getLsbD i
  | .v i => st.poisV.getLsbD i
  | _ => false
/-- Set or clear a pending flag; s0 has none (R12, R34). -/
def Strand.setPending (st : Strand) (r : Reg) (b : Bool) : Strand :=
  match r with
  | .s i => if i = 0 then st else { st with pendS := setBit st.pendS i b }
  | .v i => { st with pendV := setBit st.pendV i b }
  | _ => st

/-- The bits a lane mask and a byte mask select, as a number (R31). -/
def maskBits (lanes : Word) (bytes : BitVec 4) : Nat :=
  let one := pack 8 (fun i => if bytes.getLsbD i then 0xFF else 0) 4 0
  pack 32 (fun i => if lanes.getLsbD i then one else 0) 64 0

/-- Every bit of the register is written (R13). -/
def wholeWrite (lanes : Word) (bytes : BitVec 4) : Bool := lanes = 0xFFFFFFFFFFFFFFFF && bytes = 15

/-- Replace the bits selected by a lane and a byte mask. -/
def mergeVec (old new : Vec) (lanes : Word) (bytes : BitVec 4) : Vec :=
  if wholeWrite lanes bytes then new
  else
    let m := BitVec.ofNat 2048 (maskBits lanes bytes)
    (old &&& ~~~m) ||| (new &&& m)

/-- Write a register, with the value's poison (R12, R13): s0, b0 and k0 discard the write. -/
def Strand.write (st : Strand) (r : Reg) (val : Vec) (lanes : Word) (bytes : BitVec 4) (poison : Bool) : Strand :=
  match r with
  | .s i =>
    if i = 0 then st
    else { st with s := put 0 st.s i (val.setWidth 64), poisS := setBit st.poisS i poison }
  | .v i =>
    { st with v := put 0 st.v i (mergeVec (st.getV i) val lanes bytes),
              poisV := setBit st.poisV i (poison || (!wholeWrite lanes bytes && st.poisV.getLsbD i)) }
  | .b i => if i = 0 then st else { st with b := if val.getLsbD 0 then st.b ||| ((1 : BitVec 8) <<< i) else st.b &&& ~~~((1 : BitVec 8) <<< i) }
  | .k i => if i = 0 then st else { st with k := put 0 st.k i (val.setWidth 64) }
  | .m i => { st with m := put 0 st.m i (val.setWidth 64) }
  | .lc i => { st with lc := put 0 st.lc i (val.setWidth 32) }

/-- Write a result whose strand cycle has come, with its flags (R21, R129). -/
def Strand.land (st : Strand) (r : Result) : Strand :=
  let st := st.write r.reg r.value r.lanes r.bytes r.poison
  { st with fstat := st.fstat ||| r.flags }

/-- Append a completion, numbered in the order of appending (R98, R198). -/
def Strand.append (st : Strand) (e : Nat) (reg : Option Reg) (mark : Option Mark) (routine : Option Nat) : Strand :=
  { st with sem := put [] st.sem e (st.getE e ++ [⟨reg, mark, st.order, routine⟩]), order := st.order + 1 }

/-! ## The machine's parts -/

/-- A strand of the machine. -/
def State.strand (s : State) (n : Nat) : Strand := look {} s.strands n
/-- A core of the machine. -/
def State.core (s : State) (c : Nat) : Core := look {} s.cores c
/-- A cluster of the machine. -/
def State.cluster (s : State) (cl : Nat) : Cluster := look {} s.clusters cl
/-- Replace a cluster. -/
def State.setCluster (s : State) (cl : Nat) (x : Cluster) : State := { s with clusters := upd s.clusters cl x }
/-- Change a cluster. -/
def State.onCluster (s : State) (cl : Nat) (f : Cluster → Cluster) : State := s.setCluster cl (f (s.cluster cl))
/-- A channel of a cluster. -/
def Cluster.chan (x : Cluster) (ch : Nat) : HodChan := look {} x.chans ch
/-- Replace a channel. -/
def Cluster.setChan (x : Cluster) (ch : Nat) (h : HodChan) : Cluster := { x with chans := upd x.chans ch h }
/-- A slot of the result ring. -/
def Cluster.slot (x : Cluster) (k : Nat) : RingSlot := look {} x.ring k
/-- Replace a slot of the result ring. -/
def Cluster.setSlot (x : Cluster) (k : Nat) (r : RingSlot) : Cluster := { x with ring := upd x.ring k r }
/-- Replace a strand. -/
def State.setStrand (s : State) (n : Nat) (st : Strand) : State := { s with strands := upd s.strands n st }
/-- Replace a core. -/
def State.setCore (s : State) (c : Nat) (co : Core) : State := { s with cores := upd s.cores c co }
/-- Change a strand. -/
def State.onStrand (s : State) (n : Nat) (f : Strand → Strand) : State := s.setStrand n (f (s.strand n))
/-- Change a core. -/
def State.onCore (s : State) (c : Nat) (f : Core → Core) : State := s.setCore c (f (s.core c))

/-! ## A slot operation at issue -/

/-- A trap (R36): cause, DETAIL, fault address, raising slot (0xFF for framing), Hod command. -/
structure Trap where
  cause : Nat
  detail : Nat
  faddr : Word := 0
  slot : Nat := 0xFF
  command : Nat := 0xFFFFFFFF
  deriving DecidableEq, Repr

/-- What a fetch of one code word gives (R48, R330): the word, a trap, or a miss. -/
inductive Fetch where
  | word (w : BitVec 32)
  | trap (cause detail : Nat)
  | miss
  deriving DecidableEq, Repr

/-- What follows the commit of an iteration (R41, R97, R292, R355, R356). -/
inductive Post where
  | trap (code : Nat)
  | yield
  | exit (err : Option Nat)
  | cswitch (d : Nat) (ctx launch task : Nat)
  | park (d : Nat) (deadline : Word)
  deriving DecidableEq, Repr

/-- A control transfer (R91). -/
inductive Ctl where
  | seq
  | jump (taken : Bool) (target : Word)
  | rte
  deriving DecidableEq, Repr

/-- What a slot operation sees: the machine and its strand at the start of the iteration (after CLR, R29), its slot, the address
of a re-issue (R28), the bundle's address, REPEAT and length, the word at the delay bundle, and the context's seed. -/
structure Env where
  s : State
  n : Nat
  st : Strand
  slot : Nat
  addr : Option Word
  pc : Word
  rep : Nat
  len : Nat
  delayW : Fetch
  seed : Nat

/-- What an operation hands to the issue of its bundle: the registers it reads, its exposed-latency destinations and its
variable-latency destination, its own ILLEGAL_OP condition that state decides, its trap of groups 4 and 7 of R37, its blocking
condition, its results, its address after the step, its effect at commit, its control transfer and what follows the commit. -/
structure Act where
  reads : List Reg := []
  vdest : Option Reg := none
  own : Option Nat := none
  early : Option Trap := none
  trap : Option Trap := none
  block : Option Why := none
  results : List Result := []
  dests : List (Reg × Nat) := []
  /-- the accumulator bank an AR or AW operation uses (R205) -/
  bank : Option Nat := none
  /-- entries it takes in the load and the store queue (R221) -/
  loadEnt : Nat := 0
  storeEnt : Nat := 0
  /-- the KIND and SCOPE of an executed MARK (R59) -/
  mark : Option (Nat × Nat) := none
  /-- the current address a sticky engine holds after this execution -/
  next : Word := 0
  commit : State → State := id
  ctl : Ctl := .seq
  post : Option Post := none

/-- The core of the strand. -/
def Env.c (e : Env) : Nat := e.n / 8
/-- s[i] as at the start of the iteration, as a number. -/
def Env.sv (e : Env) (i : BitVec 6) : Nat := (e.st.getS i.toNat).toNat
/-- s[i] as at the start of the iteration. -/
def Env.sw (e : Env) (i : BitVec 6) : Word := e.st.getS i.toNat
/-- v[i] as at the start of the iteration. -/
def Env.vv (e : Env) (i : BitVec 6) : Vec := e.st.getV i.toNat

/-- A trap of a slot operation. -/
def Env.trapOf (e : Env) (cause detail : Nat) (faddr : Word := 0) : Trap := { cause, detail, faddr, slot := e.slot }

/-- The lane random word of element `el` (R121). -/
def Env.draw (e : Env) (el : Nat) : Nat :=
  drawWord e.seed (if e.st.tl then e.st.p1 else e.st.p0).toNat e.st.task.toNat e.st.launch.toNat (b2n e.st.tl) e.slot el

/-- A result of latency `l`. -/
def mkResult (e : Env) (r : Reg) (l : Nat) (v : Nat) (lanes : Word := 0) (bytes : BitVec 4 := 15) (flags : Nat := 0)
    (poison : Bool := false) : Result :=
  ⟨r, BitVec.ofNat 2048 v, lanes, bytes, l, e.st.tl, BitVec.ofNat 5 flags, poison⟩

/-- An operation with one result. -/
def one (e : Env) (reads : List Reg) (d : Reg) (l v : Nat) (flags : Nat := 0) : Act :=
  { reads, dests := [(d, l)], results := [mkResult e d l v (flags := flags)] }

/-- An operation with one vector result under a lane mask. -/
def oneV (e : Env) (reads : List Reg) (d : BitVec 6) (l : Nat) (v : Nat) (lanes : Word) (bytes : BitVec 4 := 15) : Act :=
  { reads, dests := [(.v d.toNat, l)], results := [mkResult e (.v d.toNat) l v lanes bytes] }

end Sys2Proof.Machine
end

