-- ==== Sys2Proof/Machine/Scalar.lean ====
section
/-! DEFINITION. Scalar integer, predicate and compare operations of SA and SB (R77 to R90). -/

namespace Sys2Proof.Machine

/-- The scalar register a field names. -/
def rs (i : BitVec 6) : Reg := .s i.toNat

/-- A two-operand scalar operation of latency `l` (R77). -/
def alu2 (e : Env) (o : RG) (l : Nat) (f : Nat → Nat → Nat) : Act :=
  one e [rs o.a, rs o.b] (rs o.d) l (f (e.sv o.a) (e.sv o.b) % 2 ^ 64)
/-- A one-operand scalar operation of latency 1. -/
def alu1 (e : Env) (o : RG) (f : Nat → Nat) : Act := one e [rs o.a] (rs o.d) 1 (f (e.sv o.a) % 2 ^ 64)
/-- The immediate of format SI, sign-extended to 64 bits (R78). -/
def siImm (o : SI) : Word := match o.x with | some w => sx w | none => sx o.imm
/-- A scalar operation with a sign-extended immediate (R78, R80). -/
def aluI (e : Env) (o : SI) (f : Nat → Nat → Nat) : Act :=
  one e [rs o.a] (rs o.d) 1 (f (e.sv o.a) (siImm o).toNat % 2 ^ 64)
/-- Signed reading of a 64-bit number. -/
def i64 (x : Nat) : Int := sext 64 x

/-- SADD (R80). -/
def opSadd (_u : SUnit) (o : RG) (e : Env) : Act := alu2 e o 1 (· + ·)
/-- SADDI (R80). -/
def opSaddi (_u : SUnit) (o : SI) (e : Env) : Act := aluI e o (· + ·)
/-- SSUB (R80). -/
def opSsub (_u : SUnit) (o : RG) (e : Env) : Act := alu2 e o 1 (fun a b => a + 2 ^ 64 - b)
/-- SAND (R80). -/
def opSand (_u : SUnit) (o : RG) (e : Env) : Act := alu2 e o 1 (· &&& ·)
/-- SOR (R80). -/
def opSor (_u : SUnit) (o : RG) (e : Env) : Act := alu2 e o 1 (· ||| ·)
/-- SXOR (R80). -/
def opSxor (_u : SUnit) (o : RG) (e : Env) : Act := alu2 e o 1 (· ^^^ ·)
/-- SANDI (R80). -/
def opSandi (_u : SUnit) (o : SI) (e : Env) : Act := aluI e o (· &&& ·)
/-- SORI (R80). -/
def opSori (_u : SUnit) (o : SI) (e : Env) : Act := aluI e o (· ||| ·)
/-- SXORI (R80). -/
def opSxori (_u : SUnit) (o : SI) (e : Env) : Act := aluI e o (· ^^^ ·)
/-- SMIN (R80). -/
def opSmin (_u : SUnit) (o : RG) (e : Env) : Act := alu2 e o 1 (fun a b => if a ≤ b then a else b)
/-- SMAX (R80). -/
def opSmax (_u : SUnit) (o : RG) (e : Env) : Act := alu2 e o 1 (fun a b => if a ≤ b then b else a)
/-- SMINS (R80). -/
def opSmins (_u : SUnit) (o : RG) (e : Env) : Act := alu2 e o 1 (fun a b => if i64 a ≤ i64 b then a else b)
/-- SMAXS (R80). -/
def opSmaxs (_u : SUnit) (o : RG) (e : Env) : Act := alu2 e o 1 (fun a b => if i64 a ≤ i64 b then b else a)
/-- Leading zero bits of a 64-bit number. -/
def clz64 (a : Nat) : Nat := if a = 0 then 64 else 63 - ilog2 a
/-- SCLZ (R80). -/
def opSclz (_u : SUnit) (o : RG) (e : Env) : Act := alu1 e o clz64
/-- SPOP (R80). -/
def opSpop (_u : SUnit) (o : RG) (e : Env) : Act := alu1 e o (fun a => popCount a 64 0)
/-- SMUL (R81). -/
def opSmul (_u : SUnit) (o : RG) (e : Env) : Act := alu2 e o 3 (· * ·)
/-- SMULH (R81). -/
def opSmulh (_u : SUnit) (o : RG) (e : Env) : Act := alu2 e o 3 (fun a b => a * b / 2 ^ 64)
/-- SMULHS (R81). -/
def opSmulhs (_u : SUnit) (o : RG) (e : Env) : Act := alu2 e o 3 (fun a b => wrap 64 (i64 a * i64 b / (2 ^ 64 : Nat)))
/-- Unsigned quotient, all ones for a division by zero (R82). -/
def udiv (a b : Nat) : Nat := if b = 0 then 2 ^ 64 - 1 else a / b
/-- Unsigned remainder, the dividend for a division by zero (R82). -/
def urem (a b : Nat) : Nat := if b = 0 then a else a % b
/-- Signed quotient truncated toward zero; −1 for a division by zero (R82). -/
def sdivQ (a b : Nat) : Nat := if i64 b = 0 then wrap 64 (-1) else wrap 64 ((i64 a).tdiv (i64 b))
/-- Signed remainder of the truncated division; the dividend for a division by zero (R82). -/
def sremQ (a b : Nat) : Nat := if i64 b = 0 then wrap 64 (i64 a) else wrap 64 ((i64 a).tmod (i64 b))
/-- SDIV (R82). -/
def opSdiv (_u : SUnit) (o : RG) (e : Env) : Act := alu2 e o 12 udiv
/-- SDIVS (R82). -/
def opSdivs (_u : SUnit) (o : RG) (e : Env) : Act := alu2 e o 12 sdivQ
/-- SREM (R82). -/
def opSrem (_u : SUnit) (o : RG) (e : Env) : Act := alu2 e o 12 urem
/-- SREMS (R82). -/
def opSrems (_u : SUnit) (o : RG) (e : Env) : Act := alu2 e o 12 sremQ
/-- The amount of a shift: s[B][5:0] + F, modulo 64 (R83). -/
def shAmt (o : RG) (b : Nat) : Nat := (b % 64 + o.f.toNat) % 64
/-- SSHL (R83). -/
def opSshl (_u : SUnit) (o : RG) (e : Env) : Act := alu2 e o 1 (fun a b => a * 2 ^ shAmt o b)
/-- SSHR (R83). -/
def opSshr (_u : SUnit) (o : RG) (e : Env) : Act := alu2 e o 1 (fun a b => a / 2 ^ shAmt o b)
/-- SSRA (R83). -/
def opSsra (_u : SUnit) (o : RG) (e : Env) : Act := alu2 e o 1 (fun a b => wrap 64 (i64 a / (2 ^ shAmt o b : Nat)))
/-- SROT (R83). -/
def opSrot (_u : SUnit) (o : RG) (e : Env) : Act :=
  alu2 e o 1 (fun a b => (a * 2 ^ shAmt o b) % 2 ^ 64 ||| a / 2 ^ (64 - shAmt o b))
/-- SBFX (R84). -/
def opSbfx (_u : SUnit) (o : RG) (e : Env) : Act :=
  alu1 e o (fun a =>
    let f := fld a (bfPos o) (bfLen o)
    if bitOf (extOf o) 12 then wrap 64 (sext (bfLen o) f) else f)
/-- SBFI (R84). -/
def opSbfi (_u : SUnit) (o : RG) (e : Env) : Act :=
  alu2 e o 1 (fun a b => a - fld a (bfPos o) (bfLen o) * 2 ^ bfPos o + fld b 0 (bfLen o) * 2 ^ bfPos o)
/-- SADDR (R85). -/
def opSaddr (_u : SUnit) (o : RG) (e : Env) : Act :=
  alu2 e o 1 (fun a b => (canonVa (BitVec.ofNat 64 (a + b * 2 ^ (o.f.toNat % 8)))).toNat)
/-- SMOV (R86). -/
def opSmov (_u : SUnit) (o : RG) (e : Env) : Act := alu1 e o (fun a => a)
/-- SMOVI (R86). -/
def opSmovi (_u : SUnit) (o : SI) (e : Env) : Act := one e [] (rs o.d) 1 (siImm o).toNat
/-- SLUI (R86). -/
def opSlui (_u : SUnit) (o : SI) (e : Env) : Act :=
  one e [rs o.a] (rs o.d) 1 ((o.x.getD 0).toNat * 2 ^ 32 + e.sv o.a % 2 ^ 32)
/-- SSEL (R86). -/
def opSsel (_u : SUnit) (o : RG) (e : Env) : Act :=
  { alu2 e o 1 (fun a b => if e.st.getB (o.f.toNat % 8) then a else b) with
    reads := [.b (o.f.toNat % 8), rs o.a, rs o.b] }

/-- A condition of SCMP and SCMPI (R87). -/
def cond (c x y : Nat) : Bool :=
  match c with
  | 0 => x = y
  | 1 => x ≠ y
  | 2 => i64 x < i64 y
  | 3 => i64 x ≥ i64 y
  | 4 => x < y
  | 5 => x ≥ y
  | 6 => x &&& y ≠ 0
  | _ => x &&& y = 0
/-- SCMP (R87). -/
def opScmp (_u : SUnit) (o : RG) (e : Env) : Act :=
  one e [rs o.a, rs o.b] (.b o.d.toNat) 1 (b2n (cond (o.f.toNat % 16) (e.sv o.a) (e.sv o.b)))
/-- SCMPI (R87). -/
def opScmpi (_u : SUnit) (o : SI) (e : Env) : Act :=
  one e [rs o.a] (.b o.d.toNat) 1 (b2n (cond (o.imm.toNat % 16) (e.sv o.a) (sx (o.x.getD 0)).toNat))
/-- A predicate operation (R88). -/
def pred2 (e : Env) (o : RG) (f : Bool → Bool → Bool) : Act :=
  one e [.b o.a.toNat, .b o.b.toNat] (.b o.d.toNat) 1 (b2n (f (e.st.getB o.a.toNat) (e.st.getB o.b.toNat)))
/-- PAND (R88). -/
def opPand (_u : SUnit) (o : RG) (e : Env) : Act := pred2 e o (· && ·)
/-- POR (R88). -/
def opPor (_u : SUnit) (o : RG) (e : Env) : Act := pred2 e o (· || ·)
/-- PXOR (R88). -/
def opPxor (_u : SUnit) (o : RG) (e : Env) : Act := pred2 e o (· != ·)
/-- PNOT (R88). -/
def opPnot (_u : SUnit) (o : RG) (e : Env) : Act := one e [.b o.a.toNat] (.b o.d.toNat) 1 (b2n !(e.st.getB o.a.toNat))
/-- PMOV between predicates (R88). -/
def opPmovPred (_u : SUnit) (o : RG) (e : Env) : Act := one e [.b o.a.toNat] (.b o.d.toNat) 1 (b2n (e.st.getB o.a.toNat))
/-- PMOV from a scalar (R88). -/
def opPmovFromScalar (_u : SUnit) (o : RG) (e : Env) : Act := one e [rs o.a] (.b o.d.toNat) 1 (b2n (e.sv o.a ≠ 0))
/-- PMOV to a scalar (R88). -/
def opPmovToScalar (_u : SUnit) (o : RG) (e : Env) : Act := one e [.b o.a.toNat] (rs o.d) 1 (b2n (e.st.getB o.a.toNat))
/-- SCHK (R89): SILENT_MISMATCH 0x0000 when the registers differ. -/
def opSchk (_u : SUnit) (o : RG) (e : Env) : Act :=
  { reads := [rs o.a, rs o.b], trap := if e.sv o.a ≠ e.sv o.b then some (e.trapOf 0x08 0) else none }
/-- SCHK.P (R89): SILENT_MISMATCH 0x0001 when the predicates differ. -/
def opSchkP (_u : SUnit) (o : RG) (e : Env) : Act :=
  { reads := [.b o.a.toNat, .b o.b.toNat],
    trap := if e.st.getB o.a.toNat != e.st.getB o.b.toNat then some (e.trapOf 0x08 1) else none }

end Sys2Proof.Machine
end

