-- ==== Sys2Proof/Machine/Flags.lean ====
section
/-! DEFINITION. Scalar floating point with the FSTAT flags it raises (R128 to R135). -/

namespace Sys2Proof.Machine

/-- The precision P of a scalar floating-point operation (R56). -/
def prec (o : RG) : FFmt := if bitOf o.f.toNat 5 then f64 else f32
/-- Latency of a scalar floating-point operation (R128). -/
def fpLat (o : RG) : Nat := if bitOf o.f.toNat 5 then 6 else 4
/-- The encoding an operand register holds in a format (R108). -/
def fbits (f : FFmt) (x : Nat) : Nat := x % 2 ^ f.width
/-- The value an operand register holds in the operation's precision. -/
def fval (o : RG) (x : Nat) : FVal := decodeF (prec o) (fbits (prec o) x)
/-- A floating-point operation with a scalar result and its flags (R129). -/
def fp1 (e : Env) (o : RG) (reads : List Reg) (r : Nat × Nat) : Act := one e reads (rs o.d) (fpLat o) r.1 r.2

/-- SFADD (R130). -/
def opSfadd (_u : SUnit) (o : RG) (e : Env) : Act :=
  fp1 e o [rs o.a, rs o.b] (fAdd (prec o) (fRm o) (e.draw 0) (fval o (e.sv o.a)) (fval o (e.sv o.b)))
/-- SFSUB (R130). -/
def opSfsub (_u : SUnit) (o : RG) (e : Env) : Act :=
  fp1 e o [rs o.a, rs o.b] (fAdd (prec o) (fRm o) (e.draw 0) (fval o (e.sv o.a)) (fval o (e.sv o.b)).negate)
/-- SFMUL (R130). -/
def opSfmul (_u : SUnit) (o : RG) (e : Env) : Act :=
  fp1 e o [rs o.a, rs o.b] (fMul (prec o) (fRm o) (e.draw 0) (fval o (e.sv o.a)) (fval o (e.sv o.b)))
/-- SFDIV (R130). -/
def opSfdiv (_u : SUnit) (o : RG) (e : Env) : Act :=
  fp1 e o [rs o.a, rs o.b] (fDiv (prec o) (fRm o) (e.draw 0) (fval o (e.sv o.a)) (fval o (e.sv o.b)))
/-- SFSQRT (R130). -/
def opSfsqrt (_u : SUnit) (o : RG) (e : Env) : Act :=
  fp1 e o [rs o.a] (fSqrt (prec o) (fRm o) (e.draw 0) (fval o (e.sv o.a)))
/-- SFMA (R131). -/
def opSfma (_u : SUnit) (o : RG) (e : Env) : Act :=
  let c := (o.x.map (fun x => x.c)).getD 0
  let add := fval o (e.sv c)
  fp1 e o [rs o.a, rs o.b, rs c]
    (fFma (prec o) (fRm o) (e.draw 0) (bitOf o.f.toNat 0) (fval o (e.sv o.a)) (fval o (e.sv o.b))
      (if bitOf o.f.toNat 1 then add.negate else add))
/-- SFMIN (R132). -/
def opSfmin (_u : SUnit) (o : RG) (e : Env) : Act :=
  fp1 e o [rs o.a, rs o.b] (fMinMax (prec o) false (fLow o = 1) (fbits (prec o) (e.sv o.a)) (fbits (prec o) (e.sv o.b)))
/-- SFMAX (R132). -/
def opSfmax (_u : SUnit) (o : RG) (e : Env) : Act :=
  fp1 e o [rs o.a, rs o.b] (fMinMax (prec o) true (fLow o = 1) (fbits (prec o) (e.sv o.a)) (fbits (prec o) (e.sv o.b)))
/-- SFCMP (R133). -/
def opSfcmp (_u : SUnit) (o : RG) (e : Env) : Act :=
  let a := fval o (e.sv o.a)
  let b := fval o (e.sv o.b)
  let un := a.isNan || b.isNan
  let r := match fLow o with
    | 0 => !un && cmpF a b = 0
    | 1 => !un && cmpF a b < 0
    | 2 => !un && cmpF a b ≤ 0
    | _ => un
  let nv := if fLow o = 1 || fLow o = 2 then un else a.isSig || b.isSig
  one e [rs o.a, rs o.b] (.b o.d.toNat) (fpLat o) (b2n r) (if nv then flagNV else 0)
/-- SFCLASS (R135). -/
def opSfclass (_u : SUnit) (o : RG) (e : Env) : Act := fp1 e o [rs o.a] (fClass (prec o) (fbits (prec o) (e.sv o.a)), 0)

/-- The integer range of a type: width and signedness. -/
def intRange (w : Nat) (signed : Bool) : Int × Int :=
  if signed then (-(2 ^ (w - 1) : Nat), (2 ^ (w - 1) : Nat) - 1) else (0, (2 ^ w : Nat) - 1)

/-- Floating point to an integer type, placed in 64 bits (R134). -/
def fToReg (o : RG) (q w : Nat) (signed : Bool) (x : Nat) : Nat × Nat :=
  let (lo, hi) := intRange w signed
  let (v, fl) := fToInt (fRm o) q lo hi (fval o x)
  (wrap 64 v, fl)
/-- An integer type, from its place in 64 bits, to floating point (R134). -/
def fOfReg (o : RG) (q w : Nat) (signed : Bool) (x : Nat) : Nat × Nat :=
  fOfInt (prec o) (fRm o) q (if signed then sext w x else (x % 2 ^ w : Nat))

/-- The value and flags of SFCVT (R134). -/
def sfcvt (o : RG) (q x : Nat) : Nat × Nat :=
  let p := prec o
  match fLow o with
  | 0 => if bitOf o.f.toNat 5 then fCvt f64 f32 (fRm o) q (fbits f64 x) else fCvt f32 f64 (fRm o) q (fbits f32 x)
  | 1 => fToReg o q 64 true x
  | 2 => fOfReg o q 64 true x
  | _ =>
    let out := !bitOf (extOf o) 4
    let narrow (f : FFmt) : Nat × Nat := if out then fCvt p f (fRm o) q (fbits p x) else fCvt f p (fRm o) q (fbits f x)
    let int (w : Nat) (sg : Bool) : Nat × Nat := if out then fToReg o q w sg x else fOfReg o q w sg x
    match extOf o % 16 with
    | 0 => int 64 true
    | 1 => int 64 false
    | 2 => int 32 true
    | 3 => int 32 false
    | 4 => narrow f16
    | 5 => narrow bf16
    | 6 => narrow e4m3
    | _ => narrow e5m2
/-- SFCVT (R134). -/
def opSfcvt (_u : SUnit) (o : RG) (e : Env) : Act := fp1 e o [rs o.a] (sfcvt o (e.draw 0) (e.sv o.a))

end Sys2Proof.Machine
end

