-- ==== Sys2Proof/Machine/Vector.lean ====
section
/-! DEFINITION. The vector slots VA and VB (R136 to R166). -/

namespace Sys2Proof.Machine

/-- The vector register a field names. -/
def rv (i : BitVec 6) : Reg := .v i.toNat
/-- Element width of a type code (R55, R136). -/
def tW (t : Nat) : Nat := if t = 3 then 64 else if t ≤ 2 then 32 else 16
/-- Element count of a type code (R136). -/
def tN (t : Nat) : Nat := 2048 / tW t
/-- The floating-point format of a type code. -/
def tF (t : Nat) : FFmt := if t = 3 then f64 else if t = 4 then f16 else if t = 5 then bf16 else f32
/-- A floating-point type code. -/
def tIsF (t : Nat) : Bool := t = 0 || t = 3 || t = 4 || t = 5
/-- A signed integer type code. -/
def tSigned (t : Nat) : Bool := t = 1 || t = 6
/-- Element `i` of a vector. -/
def elem (v : Vec) (t i : Nat) : Nat := fld v.toNat (tW t * i) (tW t)
/-- Element `i` is active under a mask (R137). -/
def actEl (k : Word) (t i : Nat) : Bool := if t = 3 then k.getLsbD (2 * i) else if t ≤ 2 then k.getLsbD i else k.getLsbD (i / 2)
/-- The lanes the active elements write (R137): an F64 element writes both lanes of its pair. -/
def actLanes (k : Word) (t : Nat) : Word :=
  if t = 3 then BitVec.ofNat 64 (pack 2 (fun j => if k.getLsbD (2 * j) then 3 else 0) 32 0) else k
/-- Every lane. -/
def allLanes : Word := 0xFFFFFFFFFFFFFFFF

/-- The mask of the operation. -/
def vk (e : Env) (o : VR) : Word := e.st.getK o.k.toNat
/-- The type code of the operation. -/
def vt (o : VR) : Nat := o.t.toNat
/-- Type code 7 never reaches a meaning. -/
def vC (o : VR) : BitVec 6 := (o.x.map (fun x => x.c)).getD 0

/-- Elementwise under the write mask (R137). -/
def vmap (e : Env) (o : VR) (reads : List Reg) (l t : Nat) (f : Nat → Nat) : Act :=
  let k := vk e o
  oneV e (.k o.k.toNat :: reads) o.d l (pack (tW t) (fun i => if actEl k t i then f i else 0) (tN t) 0) (actLanes k t)
/-- Source-masked: every destination element is written (R137). -/
def vall (e : Env) (o : VR) (reads : List Reg) (l t : Nat) (f : Nat → Nat) : Act :=
  oneV e (.k o.k.toNat :: reads) o.d l (pack (tW t) f (tN t) 0) allLanes

/-- Operand A's element. -/
def eA (e : Env) (o : VR) (i : Nat) : Nat := elem (e.vv o.a) (vt o) i
/-- Operand B's element. -/
def eB (e : Env) (o : VR) (i : Nat) : Nat := elem (e.vv o.b) (vt o) i
/-- Operand C's element. -/
def eC (e : Env) (o : VR) (i : Nat) : Nat := elem (e.vv (vC o)) (vt o) i
/-- An element as a floating-point value. -/
def fv (o : VR) (x : Nat) : FVal := decodeF (tF (vt o)) x

/-- A floating-point operation of two operands, rounded by RM (R142). -/
def vfp2 (e : Env) (o : VR) (f : FFmt → Nat → Nat → FVal → FVal → Nat × Nat) : Act :=
  vmap e o [rv o.a, rv o.b] 4 (vt o) (fun i => (f (tF (vt o)) (vRm o) (e.draw i) (fv o (eA e o i)) (fv o (eB e o i))).1)
/-- VADD (R142). -/
def opVadd (_u : VUnit) (o : VR) (e : Env) : Act := vfp2 e o fAdd
/-- VSUB (R142). -/
def opVsub (_u : VUnit) (o : VR) (e : Env) : Act := vfp2 e o (fun f rm q a b => fAdd f rm q a b.negate)
/-- VMUL (R142). -/
def opVmul (_u : VUnit) (o : VR) (e : Env) : Act := vfp2 e o fMul
/-- VMIN and VMAX (R132, R142). -/
def vminmax (e : Env) (o : VR) (max : Bool) : Act :=
  vmap e o [rv o.a, rv o.b] 2 (vt o) (fun i => (fMinMax (tF (vt o)) max (bitOf (vExt o) 0) (eA e o i) (eB e o i)).1)
/-- VMIN (R142). -/
def opVmin (_u : VUnit) (o : VR) (e : Env) : Act := vminmax e o false
/-- VMAX (R142). -/
def opVmax (_u : VUnit) (o : VR) (e : Env) : Act := vminmax e o true
/-- VFMA (R143). -/
def opVfma (_u : VUnit) (o : VR) (e : Env) : Act :=
  vmap e o [rv o.a, rv o.b, rv (vC o)] 4 (vt o) (fun i =>
    (fFma (tF (vt o)) (vRm o) (e.draw i) false (fv o (eA e o i)) (fv o (eB e o i)) (fv o (eC e o i))).1)
/-- VFMS (R143): the addend minus the product. -/
def opVfms (_u : VUnit) (o : VR) (e : Env) : Act :=
  vmap e o [rv o.a, rv o.b, rv (vC o)] 4 (vt o) (fun i =>
    (fFma (tF (vt o)) (vRm o) (e.draw i) true (fv o (eA e o i)) (fv o (eB e o i)) (fv o (eC e o i))).1)

/-- An integer clamped to a type's range, as bits. -/
def clampT (w : Nat) (signed : Bool) (v : Int) : Nat :=
  let (lo, hi) := intRange w signed
  if v < lo then wrap w lo else if v > hi then wrap w hi else wrap w v
/-- Wrapping or clamping delivery (R146). -/
def deliverT (t : Nat) (sat : Bool) (v : Int) : Nat := if sat then clampT (tW t) (tSigned t) v else wrap (tW t) v
/-- An element read as an integer of its type. -/
def intT (t x : Nat) : Int := if tSigned t then sext (tW t) x else (x : Int)

/-- VABS (R144). -/
def opVabs (_u : VUnit) (o : VR) (e : Env) : Act :=
  vmap e o [rv o.a] 2 (vt o) (fun i =>
    let x := eA e o i
    if tIsF (vt o) then x % 2 ^ (tW (vt o) - 1) else deliverT (vt o) (bitOf (vExt o) 0) ((intT (vt o) x).natAbs : Int))
/-- VNEG (R144). -/
def opVneg (_u : VUnit) (o : VR) (e : Env) : Act :=
  vmap e o [rv o.a] 2 (vt o) (fun i =>
    let x := eA e o i
    if tIsF (vt o) then x ^^^ 2 ^ (tW (vt o) - 1) else deliverT (vt o) (bitOf (vExt o) 0) (-(intT (vt o) x)))

/-- A condition of VCMP (R145). -/
def vcond (t c x y : Nat) : Bool :=
  if tIsF t then
    let a := decodeF (tF t) x
    let b := decodeF (tF t) y
    let un := a.isNan || b.isNan
    let d := cmpF a b
    match c with
    | 0 => !un && d = 0
    | 1 => un || d ≠ 0
    | 2 => !un && d < 0
    | 3 => !un && d ≤ 0
    | 4 => !un && d > 0
    | 5 => !un && d ≥ 0
    | _ => un
  else
    let a := intT t x
    let b := intT t y
    match c with
    | 0 => a = b
    | 1 => a ≠ b
    | 2 => a < b
    | 3 => a ≤ b
    | 4 => a > b
    | _ => a ≥ b
/-- VCMP (R145): bits 2j and 2j+1 take an F64 element's value. -/
def opVcmp (_u : VUnit) (o : VR) (e : Env) : Act :=
  let t := vt o
  let k := vk e o
  let hold := fun i => actEl k t i && vcond t (o.d.toNat / 8) (eA e o i) (eB e o i)
  let r := if t = 3 then pack 2 (fun i => if hold i then 3 else 0) 32 0 else pack 1 (fun i => b2n (hold i)) 64 0
  one e [.k o.k.toNat, rv o.a, rv o.b] (.k (o.d.toNat % 8)) 2 r

/-- An integer operation of two operands (R146). -/
def vint2 (e : Env) (o : VR) (f : Int → Int → Nat) : Act :=
  vmap e o [rv o.a, rv o.b] 2 (vt o) (fun i => f (intT (vt o) (eA e o i)) (intT (vt o) (eB e o i)))
/-- VIADD (R146). -/
def opViadd (_u : VUnit) (o : VR) (e : Env) : Act := vint2 e o (fun a b => deliverT (vt o) (bitOf (vExt o) 0) (a + b))
/-- VISUB (R146). -/
def opVisub (_u : VUnit) (o : VR) (e : Env) : Act := vint2 e o (fun a b => deliverT (vt o) (bitOf (vExt o) 0) (a - b))
/-- VIMUL (R146). -/
def opVimul (_u : VUnit) (o : VR) (e : Env) : Act :=
  vint2 e o (fun a b =>
    match vExt o % 4 with
    | 0 => wrap (tW (vt o)) (a * b)
    | 1 => wrap (tW (vt o)) (a * b / (2 ^ tW (vt o) : Nat))
    | _ => clampT (tW (vt o)) (tSigned (vt o)) (a * b))
/-- VIMAD (R146): one exact sum, clamped once. -/
def opVimad (_u : VUnit) (o : VR) (e : Env) : Act :=
  vmap e o [rv o.a, rv o.b, rv (vC o)] 2 (vt o) (fun i =>
    deliverT (vt o) (bitOf (vExt o) 0)
      (intT (vt o) (eA e o i) * intT (vt o) (eB e o i) + intT (vt o) (eC e o i)))
/-- VIMIN (R146). -/
def opVimin (_u : VUnit) (o : VR) (e : Env) : Act := vint2 e o (fun a b => wrap (tW (vt o)) (if a ≤ b then a else b))
/-- VIMAX (R146). -/
def opVimax (_u : VUnit) (o : VR) (e : Env) : Act := vint2 e o (fun a b => wrap (tW (vt o)) (if a ≤ b then b else a))
/-- A bitwise operation of two operands, lane by lane (R147). -/
def vbit2 (e : Env) (o : VR) (f : Nat → Nat → Nat) : Act :=
  vmap e o [rv o.a, rv o.b] 2 0 (fun i => f (lane (e.vv o.a) i) (lane (e.vv o.b) i))
/-- VAND (R147). -/
def opVand (_u : VUnit) (o : VR) (e : Env) : Act := vbit2 e o (· &&& ·)
/-- VOR (R147). -/
def opVor (_u : VUnit) (o : VR) (e : Env) : Act := vbit2 e o (· ||| ·)
/-- VXOR (R147). -/
def opVxor (_u : VUnit) (o : VR) (e : Env) : Act := vbit2 e o (· ^^^ ·)
/-- VNOT (R147). -/
def opVnot (_u : VUnit) (o : VR) (e : Env) : Act := vmap e o [rv o.a] 2 0 (fun i => 2 ^ 32 - 1 - lane (e.vv o.a) i)

/-- A shift by the register or the immediate amount (R148). -/
def vshift (e : Env) (o : VR) (f : Nat → Nat → Nat) : Act :=
  let w := tW (vt o)
  let imm := bitOf (vExt o) 5
  vmap e o (if imm then [rv o.a] else [rv o.a, rv o.b]) 2 (vt o) (fun i =>
    f (eA e o i) (if imm then vExt o % 32 else eB e o i % w))
/-- VSHL (R148). -/
def opVshl (_u : VUnit) (o : VR) (e : Env) : Act := vshift e o (fun x n => x * 2 ^ n)
/-- VSHR (R148). -/
def opVshr (_u : VUnit) (o : VR) (e : Env) : Act := vshift e o (fun x n => x / 2 ^ n)
/-- VSRA (R148): copies of the sign bit of the element shift in. -/
def opVsra (_u : VUnit) (o : VR) (e : Env) : Act :=
  vshift e o (fun x n => wrap (tW (vt o)) (sext (tW (vt o)) x / (2 ^ n : Nat)))
/-- VROTL (R148). -/
def opVrotl (_u : VUnit) (o : VR) (e : Env) : Act :=
  vshift e o (fun x n => (x * 2 ^ n) % 2 ^ tW (vt o) ||| x / 2 ^ (tW (vt o) - n))

/-- VSEL (R149): K selects, every element is written. -/
def opVsel (_u : VUnit) (o : VR) (e : Env) : Act :=
  vall e o [rv o.a, rv o.b] 2 (vt o) (fun i => if actEl (vk e o) (vt o) i then eA e o i else eB e o i)
/-- VMOV (R149). -/
def opVmov (_u : VUnit) (o : VR) (e : Env) : Act := vmap e o [rv o.a] 2 0 (fun i => lane (e.vv o.a) i)
/-- VBCAST (R149). -/
def opVbcast (_u : VUnit) (o : VR) (e : Env) : Act := vmap e o [rs o.a] 2 (vt o) (fun _ => e.sv o.a)
/-- VEXTR (R149): I32 and I16 are sign-extended, every other type zero-extended (R108). -/
def opVextr (_u : VUnit) (o : VR) (e : Env) : Act :=
  let x := eA e o ((e.sv o.b + vExt o % 128) % tN (vt o))
  one e [rv o.a, rs o.b] (rs o.d) 2 (wrap 64 (intT (vt o) x))
/-- VIDX (R149). -/
def opVidx (_u : VUnit) (o : VR) (e : Env) : Act := vmap e o [rs o.a, rs o.b] 2 (vt o) (fun i => e.sv o.a + i * e.sv o.b)

/-- One element converted between type codes (R134, R150).
(DESIGN CHOICE, log 5) -/
def cvtEl (d s rm q x : Nat) : Nat :=
  if tIsF s then
    if tIsF d then (fCvt (tF s) (tF d) rm q x).1
    else
      let (lo, hi) := intRange (tW d) (tSigned d)
      wrap (tW d) (fToInt rm q lo hi (decodeF (tF s) x)).1
  else if tIsF d then (fOfInt (tF d) rm q (intT s x)).1
  else if x < 2 ^ 31 then x
  else (Config.cvtInt (BitVec.ofNat 32 x) (d = 1)).toNat
/-- VCVT (R150): F64 element j pairs with 32-bit lane 2j; a 32-bit destination writes lane 2j+1 with 0. -/
def opVcvt (_u : VUnit) (o : VR) (e : Env) : Act :=
  let d := vt o
  let s := vExt o % 8
  let k := vk e o
  let v := e.vv o.a
  if d = 3 then vmap e o [rv o.a] 3 3 (fun j => cvtEl d s (vRm o) (e.draw j) (elem v s (2 * j)))
  else if s = 3 then
    oneV e [.k o.k.toNat, rv o.a] o.d 3
      (pack 32 (fun i => if i % 2 = 0 && k.getLsbD i then cvtEl d s (vRm o) (e.draw i) (elem v s (i / 2)) else 0) 64 0)
      (actLanes k 3)
  else vmap e o [rv o.a] 3 d (fun i => cvtEl d s (vRm o) (e.draw i) (elem v s i))

/-- Narrow a 32-bit lane to 16 bits (R151). -/
def narrow16 (t rm q x : Nat) : Nat := if t = 6 then clampT 16 true (sext 32 x) else (fCvt f32 (tF t) rm q x).1
/-- Narrow a 32-bit lane to 8 bits: E4M3, E5M2, INT8, UINT8 (R151). -/
def narrow8 (c rm q x : Nat) : Nat :=
  match c with
  | 0 => (fCvt f32 e4m3 rm q x).1
  | 1 => (fCvt f32 e5m2 rm q x).1
  | 2 => clampT 8 true (sext 32 x)
  | _ => clampT 8 false (sext 32 x)
/-- VPACK (R151). A draw's element number is that of the destination element; the two that an 8-bit form makes of lane i are 2i and 2i + 1
(R121).
(DEDUCED, log 84) -/
def opVpack (_u : VUnit) (o : VR) (e : Env) : Act :=
  let k := vk e o
  let a := e.vv o.a
  let b := e.vv o.b
  let rd : List Reg := [.k o.k.toNat, rv o.a, rv o.b]
  if bitOf (vExt o) 3 then
    let h := b2n (bitOf (vExt o) 4)
    let f := fun i =>
      (narrow8 (vExt o % 8) (vRm o) (e.draw (2 * i)) (lane a i)
        + 2 ^ 8 * narrow8 (vExt o % 8) (vRm o) (e.draw (2 * i + 1)) (lane b i)) * 2 ^ (16 * h)
    oneV e rd o.d 3 (pack 32 (fun i => if k.getLsbD i then f i else 0) 64 0) k (if h = 1 then 12 else 3)
  else
    let f := fun i => narrow16 (vt o) (vRm o) (e.draw (2 * i)) (lane a i)
      + 2 ^ 16 * narrow16 (vt o) (vRm o) (e.draw (2 * i + 1)) (lane b i)
    oneV e rd o.d 3 (pack 32 (fun i => if k.getLsbD i then f i else 0) 64 0) k
/-- VUNPACK (R152). -/
def opVunpack (_u : VUnit) (o : VR) (e : Env) : Act :=
  let v := e.vv o.a
  vmap e o [rv o.a] 3 0 (fun i =>
    let x := lane v i
    if bitOf (vExt o) 3 then
      let y := fld x (8 * fld (vExt o) 4 2) 8
      match vExt o % 8 with
      | 0 => (fCvt e4m3 f32 0 0 y).1
      | 1 => (fCvt e5m2 f32 0 0 y).1
      | 2 => wrap 32 (sext 8 y)
      | _ => y
    else
      let y := if bitOf (vExt o) 0 then fld x 16 16 else fld x 0 16
      if vt o = 6 then wrap 32 (sext 16 y) else (fCvt (tF (vt o)) f32 0 0 y).1)

/-- VQMX (R153). -/
def opVqmx (_u : VUnit) (o : VR) (e : Env) : Act :=
  let c := vExt o % 16
  let w := efmtWidth c
  let k := vk e o
  let v := e.vv o.a
  let x := fun j => if k.getLsbD j then lane v j else 0
  let (i0, s0, t0) := quantBlock c x
  let (i1, s1, t1) := quantBlock c (fun j => x (32 + j))
  { reads := [.k o.k.toNat, rv o.a],
    dests := [(rv o.d, 6), (rs (vC o), 6)],
    results := [mkResult e (rv o.d) 6 (i0 + i1 * 2 ^ (32 * w)) allLanes,
      mkResult e (rs (vC o)) 6 (s0 + s1 * 2 ^ 8 + t0 * 2 ^ 16 + t1 * 2 ^ 24)] }
/-- VDQMX (R154). -/
def opVdqmx (_u : VUnit) (o : VR) (e : Env) : Act :=
  let c := vExt o % 16
  let w := efmtWidth c
  let v := (e.vv o.a).toNat
  let sc := e.sv (vC o)
  vmap e o [rv o.a, rs (vC o)] 4 0 (fun j =>
    let ex := fld sc (8 * (j / 32)) 8
    if ex = 0xFF then f32.nanCode
    else match elemVal c (fld v (w * j) w) with
      | .num n m x => (roundF f32 false (vRm o) (e.draw j) n m (x + ex - 127) false).1
      | x => (deliver f32 false (vRm o) (e.draw j) x).1)

/-- A correctly rounded function of one operand (R155). -/
def vfn1 (e : Env) (o : VR) (f : Nat → Nat → FVal → Nat) : Act :=
  vmap e o [rv o.a] 8 0 (fun i => f (vRm o) (e.draw i) (decodeF f32 (lane (e.vv o.a) i)))
/-- VEXP2 (R155). -/
def opVexp2 (_u : VUnit) (o : VR) (e : Env) : Act := vfn1 e o (fExp2 f32)
/-- VLOG2 (R155). -/
def opVlog2 (_u : VUnit) (o : VR) (e : Env) : Act := vfn1 e o (fLog2 f32)
/-- VRCP (R155). -/
def opVrcp (_u : VUnit) (o : VR) (e : Env) : Act := vfn1 e o (fun rm q a => (fRcp f32 rm q a).1)
/-- VRSQ (R155). -/
def opVrsq (_u : VUnit) (o : VR) (e : Env) : Act := vfn1 e o (fRsq f32)
/-- VSQRT (R155). -/
def opVsqrt (_u : VUnit) (o : VR) (e : Env) : Act := vfn1 e o (fun rm q a => (fSqrt f32 rm q a).1)
/-- VDIV (R155). -/
def opVdiv (_u : VUnit) (o : VR) (e : Env) : Act :=
  vmap e o [rv o.a, rv o.b] 8 0 (fun i =>
    (fDiv f32 (vRm o) (e.draw i) (decodeF f32 (lane (e.vv o.a) i)) (decodeF f32 (lane (e.vv o.b) i))).1)

/-- VPERM (R156). -/
def opVperm (_u : VUnit) (o : VR) (e : Env) : Act :=
  let k := vk e o
  let v := e.vv o.a
  let mode := if o.x.isSome then fld (vExt o) 6 2 else 0
  let m := vExt o % 64
  vall e o (if mode = 0 then [rv o.a, rv o.b] else [rv o.a]) 3 0 (fun i =>
    let ix := lane (e.vv o.b) i
    let j := match mode with | 0 => ix % 64 | 1 => i ^^^ m | 2 => (i + m) % 64 | _ => m
    if (mode = 0 && bitOf ix 7) || !k.getLsbD j then 0 else lane v j)

/-- The source elements of a source-masked operation, an inactive one read as zero (R137). -/
def srcEls (e : Env) (o : VR) : List Nat :=
  (List.range (tN (vt o))).map (fun i => if actEl (vk e o) (vt o) i then eA e o i else 0)
/-- The sum of two elements, rounded by RM or wrapping (R157). -/
def addEl (o : VR) (x y : Nat) : Nat :=
  if tIsF (vt o) then (fAdd (tF (vt o)) (vRm o) 0 (fv o x) (fv o y)).1 else (x + y) % 2 ^ 32
/-- Sums of adjacent pairs. -/
def pairUp (add : Nat → Nat → Nat) : List Nat → List Nat
  | x :: y :: l => add x y :: pairUp add l
  | l => l
/-- The pairwise tree over a list of `2 ^ n` elements (R157). -/
def treeSum (add : Nat → Nat → Nat) : Nat → List Nat → Nat
  | 0, l => l.headD 0
  | n + 1, l => treeSum add n (pairUp add l)
/-- VSUM (R157). -/
def opVsum (_u : VUnit) (o : VR) (e : Env) : Act :=
  let r := treeSum (addEl o) 6 (srcEls e o)
  vall e o [rv o.a] 6 (vt o) (fun _ => r)
/-- VMAXR (R158). -/
def opVmaxr (_u : VUnit) (o : VR) (e : Env) : Act :=
  let t := vt o
  let els := ((List.range (tN t)).filter (actEl (vk e o) t)).map (eA e o)
  let r := match els with
    | [] => if t = 1 then 2 ^ 31 else if t = 2 then 0 else signOf (tF t) true + (tF t).infCode
    | x :: l =>
      if tIsF t then
        l.foldl (fun a b => (fMinMax (tF t) true (bitOf (vExt o) 0) a b).1)
          (if (fv o x).isNan then (tF t).nanCode else x)
      else l.foldl (fun a b => if intT t a ≥ intT t b then a else b) x
  vall e o [rv o.a] 6 t (fun _ => r)
/-- The stages of a prefix sum, distances m, 2m, … (R159). -/
def scanStages (add : Nat → Nat → Nat) : Nat → Nat → List Nat → List Nat
  | 0, _, l => l
  | n + 1, m, l => scanStages add n (2 * m) (l.take m ++ List.zipWith add (l.drop m) l)
/-- VSCAN (R159). -/
def opVscan (_u : VUnit) (o : VR) (e : Env) : Act :=
  let x := scanStages (addEl o) 6 1 (srcEls e o)
  vall e o [rv o.a] 6 (vt o) (fun i => if bitOf (vExt o) 0 then (if i = 0 then 0 else x.getD (i - 1) 0) else x.getD i 0)
/-- Element a comes before b in VARGMAX's order (R160): a is strictly less. -/
def argLess (t x y : Nat) : Bool :=
  if tIsF t then
    let a := decodeF (tF t) x
    let b := decodeF (tF t) y
    if a.isNan then false else if b.isNan then true
    else cmpF a b < 0 || (cmpF a b = 0 && a.neg && !b.neg && a.isZero)
  else intT t x < intT t y
/-- VARGMAX (R160). -/
def opVargmax (_u : VUnit) (o : VR) (e : Env) : Act :=
  let t := vt o
  let best : Option (Nat × Nat) := loop (fun i acc =>
    if actEl (vk e o) t i then
      match acc with
      | none => some (i, eA e o i)
      | some (j, x) => if argLess t x (eA e o i) then some (i, eA e o i) else some (j, x)
    else acc) (tN t) 0 none
  one e [.k o.k.toNat, rv o.a] (rs o.d) 4 (match best with | none => 2 ^ 64 - 1 | some (i, _) => i)
/-- VSRCH (R161). -/
def opVsrch (_u : VUnit) (o : VR) (e : Env) : Act :=
  let t := vt o
  let y := e.sv o.b % 2 ^ 32
  let ok := fun i => actEl (vk e o) t i && vcond t (if bitOf (vExt o) 0 then 5 else 4) (eA e o i) y
  one e [.k o.k.toNat, rv o.a, rs o.b] (rs o.d) 4 ((firstIdx ok (tN t) 0).getD (tN t))
/-- VRNG (R162). -/
def opVrng (_u : VUnit) (o : VR) (e : Env) : Act :=
  vmap e o [] 4 0 (fun i =>
    let q := e.draw i
    if vt o = 2 then q else (roundF f32 false 0 0 false (q / 2 ^ 8) (-24) false).1)
/-- Accepted tokens of a segment from lane `i`, at most `n` (R163). -/
def acceptRun (p : Nat → Bool) : Nat → Nat → Nat
  | 0, _ => 0
  | n + 1, i => if p i then 1 + acceptRun p n (i + 1) else 0
/-- VACPT (R163). -/
def opVacpt (_u : VUnit) (o : VR) (e : Env) : Act :=
  let len := 2 ^ (vExt o % 8)
  let ok := fun i => (vk e o).getLsbD i && eA e o i = eB e o i
  vall e o [rv o.a, rv o.b] 4 0 (fun i => acceptRun ok len (i / len * len))

/-- A lane-mask operation with its scalar forms (R164). -/
def kop (e : Env) (o : VR) (useB : Bool) (f : Word → Word → Word) : Act :=
  let sb := bitOf (vExt o) 0
  let b := if sb then e.sw o.b else e.st.getK o.b.toNat
  let rb : List Reg := if useB then [if sb then rs o.b else .k o.b.toNat] else []
  one e (.k o.a.toNat :: rb) (if bitOf (vExt o) 1 then rs o.d else .k o.d.toNat) 2 (f (e.st.getK o.a.toNat) b).toNat
/-- KAND (R164). -/
def opKand (_u : VUnit) (o : VR) (e : Env) : Act := kop e o true (· &&& ·)
/-- KOR (R164). -/
def opKor (_u : VUnit) (o : VR) (e : Env) : Act := kop e o true (· ||| ·)
/-- KXOR (R164). -/
def opKxor (_u : VUnit) (o : VR) (e : Env) : Act := kop e o true (· ^^^ ·)
/-- KNOT (R164). -/
def opKnot (_u : VUnit) (o : VR) (e : Env) : Act := kop e o false (fun a _ => ~~~a)
/-- KPOP (R165). -/
def opKpop (_u : VUnit) (o : VR) (e : Env) : Act :=
  one e [.k o.a.toNat] (rs o.d) 2 (popCount (e.st.getK o.a.toNat).toNat 64 0)
/-- KFIRST (R165). -/
def opKfirst (_u : VUnit) (o : VR) (e : Env) : Act :=
  one e [.k o.a.toNat] (rs o.d) 2 ((lowBit (e.st.getK o.a.toNat).toNat 64 0).getD 64)
/-- VCHK (R166): SILENT_MISMATCH 0x0002 + 0x100 × the lowest lane with a differing active bit. -/
def opVchk (_u : VUnit) (o : VR) (e : Env) : Act :=
  let k := actLanes (vk e o) (vt o)
  let d := firstIdx (fun i => k.getLsbD i && lane (e.vv o.a) i ≠ lane (e.vv o.b) i) 64 0
  { reads := [.k o.k.toNat, rv o.a, rv o.b], trap := d.map (fun i => e.trapOf 0x08 (2 + 0x100 * i)) }

end Sys2Proof.Machine
end

