-- ==== Sys2Proof/Machine/Spad.lean ====
section
/-! DEFINITION. Scratchpad loads and stores, watermark channels and the tag table (R207 to R220). -/

namespace Sys2Proof.Machine

/-- The last scratchpad address (R207). -/
def spadTop : Nat := 0x5FFFF
/-- `n` bytes of a scratchpad, little-endian (R6, R207). -/
def Core.sp (co : Core) (a n : Nat) : Nat := getBytes co.spad a n
/-- Some atom of the `n` bytes from `a` is poisoned (R208); nothing for n = 0. -/
def Core.spPoison (co : Core) (a n : Nat) : Bool := n ≠ 0 && anyFlag co.spadP (a / 32) ((a + n - 1) / 32 - a / 32 + 1)
/-- Write `n` bytes; whole atoms written take the data's poison, partial ones keep theirs unless the data is poisoned (R208). -/
def Core.spWrite (co : Core) (a n v : Nat) (poison : Bool) : Core :=
  let first := a / 32
  let cnt := if n = 0 then 0 else (a + n - 1) / 32 - first + 1
  { co with
    spad := setBytes co.spad a n v
    spadP := loop (fun k m =>
      if poison then put false m k true
      else if a ≤ 32 * k && 32 * k + 32 ≤ a + n then put false m k false else m) cnt first co.spadP }
/-- Write 32-bit words at their addresses in order; an atom all of whose words are written loses its poison (R208, R211). -/
def Core.spWords (co : Core) (ws : List (Nat × Nat)) : Core :=
  let as := ws.map (fun p => p.1)
  { co with
    spad := ws.foldl (fun m p => setBytes m p.1 4 p.2) co.spad
    spadP := as.foldl (fun m a =>
      if (List.range 8).all (fun j => as.contains (32 * (a / 32) + 4 * j)) then put false m (a / 32) false else m) co.spadP }

/-- A byte is unfilled in some channel (R214). -/
def Core.unfilled (co : Core) (a n : Nat) : Bool :=
  co.wm.any (fun p => p.2.en && decide (p.2.wm.toNat < a + n) && decide (a ≤ p.2.hi.toNat) && decide (p.2.wm.toNat ≤ p.2.hi.toNat))
/-- Some part of an access is unfilled (R214). -/
def Core.unfilledParts (co : Core) (parts : List (Nat × Nat)) : Bool := parts.any (fun p => co.unfilled p.1 p.2)

/-- The unit of an MS operation's address (R57): 256 bytes, 8 bytes or 4 bytes. -/
def msAddr (e : Env) (o : MS) (unit : Nat) : Word :=
  match e.addr with
  | some a => a
  | none => e.sw o.a + BitVec.ofNat 64 (o.off.toNat * unit) + (match o.x with | some x => sx x.disp | none => 0)
/-- The address a step moves to (R57). -/
def stepAddr (a : Word) (stp : BitVec 6) (unit : Nat) : Word := a + BitVec.ofInt 64 (stp.toInt * unit)
/-- The base register is read by an installed operation only (R58). -/
def baseRead (e : Env) (a : BitVec 6) : List Reg := match e.addr with | none => [rs a] | some _ => []
/-- The mask of an MS operation. -/
def msMask (e : Env) (o : MS) : Word := e.st.getK (msK o)

/-- The checks of R212 on the words an access touches: the trap, or the block. -/
def spadCheck (e : Env) (align : Nat) (alignAt parts : List (Nat × Nat)) : Option Trap × Option Why :=
  let bad := (alignAt.filter (fun p => p.1 % align ≠ 0)).map (fun p => p.1)
  let out := (parts.filter (fun p => p.1 + p.2 - 1 > spadTop)).map (fun p => if p.1 > spadTop then p.1 else spadTop + 1)
  let low (l : List Nat) : Option Nat := match l with | [] => none | x :: r => some (r.foldl (fun a b => if b < a then b else a) x)
  match low bad with
  | some a => (some (e.trapOf 0x0A 0x0300 (BitVec.ofNat 64 a)), none)
  | none =>
    match low out with
    | some a => (some (e.trapOf 0x0B 0x0300 (BitVec.ofNat 64 a)), none)
    | none => (none, if (e.s.core e.c).unfilledParts parts then some (.watermark parts) else none)

/-- The words the active lanes of a 256-byte access touch (R211). -/
def laneWords (k : Word) (a : Nat) : List (Nat × Nat) :=
  ((List.range 64).filter (fun i => k.getLsbD i)).map (fun i => (a + 4 * i, 4))
/-- The words the active lanes of a gather or scatter touch (R211, R212): addresses modulo 2^64. -/
def gatherWords (k : Word) (a : Nat) (x : Vec) : List (Nat × Nat) :=
  ((List.range 64).filter (fun i => k.getLsbD i)).map (fun i => ((a + lane x i) % 2 ^ 64, 4))
/-- Some word of an access is poisoned. -/
def Core.partsPoison (co : Core) (parts : List (Nat × Nat)) : Bool := parts.any (fun p => co.spPoison p.1 p.2)

/-- A scratchpad load into a vector register: `src i` is the address of active lane `i` (R209, R211). -/
def spLoadV (e : Env) (o : MS) (unit align : Nat) (rd : List Reg) (alignAt parts : List (Nat × Nat)) (src : Nat → Nat) : Act :=
  let a := msAddr e o unit
  let co := e.s.core e.c
  let k := msMask e o
  let (t, b) := spadCheck e align alignAt parts
  { reads := baseRead e o.a ++ rd ++ [.k (msK o)], trap := t, block := b, next := stepAddr a o.stp unit,
    dests := [(rv o.q, 5)],
    results := [mkResult e (rv o.q) 5 (pack 32 (fun i => if k.getLsbD i then co.sp (src i) 4 else 0) 64 0) k
      (poison := co.partsPoison parts)] }
/-- SPLD (R211). -/
def opSpld (o : MS) (e : Env) : Act :=
  let a := (msAddr e o 256).toNat
  let parts := laneWords (msMask e o) a
  spLoadV e o 256 128 [] (if parts.isEmpty then [] else [(a, 1)]) parts (fun i => a + 4 * i)
/-- SPLDB (R211): every active lane takes the same word. -/
def opSpldb (o : MS) (e : Env) : Act :=
  let a := (msAddr e o 4).toNat
  let parts := if msMask e o = 0 then [] else [(a, 4)]
  spLoadV e o 4 4 [] parts parts (fun _ => a)
/-- SPLDX (R211). -/
def opSpldx (o : MS) (e : Env) : Act :=
  let a := (msAddr e o 256).toNat
  let x := BitVec.ofNat 6 (msX o)
  let parts := gatherWords (msMask e o) a (e.vv x)
  spLoadV e o 256 4 [rv x] parts parts (fun i => (a + lane (e.vv x) i) % 2 ^ 64)
/-- SPLDS (R211). -/
def opSplds (o : MS) (e : Env) : Act :=
  let a := msAddr e o 8
  let (t, b) := spadCheck e 8 [(a.toNat, 8)] [(a.toNat, 8)]
  let co := e.s.core e.c
  { reads := baseRead e o.a, trap := t, block := b, next := stepAddr a o.stp 8, dests := [(rs o.q, 5)],
    results := [mkResult e (rs o.q) 5 (co.sp a.toNat 8) (poison := co.spPoison a.toNat 8)] }

/-- A scratchpad store of the active lanes of a vector register, in ascending lane (R209, R211). -/
def spStoreV (e : Env) (o : MS) (rd : List Reg) (align : Nat) (alignAt parts : List (Nat × Nat)) : Act :=
  let a := msAddr e o 256
  let k := msMask e o
  let (t, b) := spadCheck e align alignAt parts
  let data := ((List.range 64).filter (fun i => k.getLsbD i)).map (fun i => lane (e.vv o.q) i)
  { reads := baseRead e o.a ++ rd ++ [rv o.q, .k (msK o)], trap := t, block := b, next := stepAddr a o.stp 256,
    commit := fun s => s.onCore e.c (fun co => co.spWords (List.zip (parts.map (fun p => p.1)) data)) }
/-- SPST (R211). -/
def opSpst (o : MS) (e : Env) : Act :=
  let a := (msAddr e o 256).toNat
  let parts := laneWords (msMask e o) a
  spStoreV e o [] 128 (if parts.isEmpty then [] else [(a, 1)]) parts
/-- SPSTX (R211): of two lanes that name one word, the higher remains. -/
def opSpstx (o : MS) (e : Env) : Act :=
  let x := BitVec.ofNat 6 (msX o)
  let parts := gatherWords (msMask e o) (msAddr e o 256).toNat (e.vv x)
  spStoreV e o [rv x] 4 parts parts
/-- SPSTS (R211). -/
def opSpsts (o : MS) (e : Env) : Act :=
  let a := msAddr e o 8
  let (t, b) := spadCheck e 8 [(a.toNat, 8)] [(a.toNat, 8)]
  { reads := baseRead e o.a ++ [rs o.q], trap := t, block := b, next := stepAddr a o.stp 8,
    commit := fun s => s.onCore e.c (fun co => co.spWrite a.toNat 8 (e.sv o.q) false) }

/-! ## The tag table -/

/-- Entry `n` of a core's tag table (R216). -/
def Core.tag (co : Core) (n : Nat) : TagEntry := look .free co.tags n
/-- The entry is own to a task (R216). -/
def TagEntry.own (t : TagEntry) (h : BitVec 32) : Bool := t.state ≠ 0 && t.ctxh = h
/-- The index of the own entry that holds a key. -/
def Core.findKey (co : Core) (h : BitVec 32) (key : BitVec 48) : Option Nat :=
  firstIdx (fun n => (co.tag n).own h && (co.tag n).key = key) 256 0
/-- The first own entry of a state at or after VPTR, cyclically (R217). -/
def Core.victim (co : Core) (h : BitVec 32) (st : BitVec 2) : Option Nat :=
  (firstIdx (fun i => (co.tag ((co.vptr.toNat + i) % 256)).own h && (co.tag ((co.vptr.toNat + i) % 256)).state = st) 256 0).map
    (fun i => (co.vptr.toNat + i) % 256)
/-- TLOOK's answer: the word, and the index after which VPTR moves (R217). -/
def Core.tlook (co : Core) (h : BitVec 32) (key : BitVec 48) : Nat × Option Nat :=
  match co.findKey h key with
  | some n =>
    let t := co.tag n
    (t.state.toNat * 2 ^ 56 + t.len.toNat * 2 ^ 52 + n * 2 ^ 40 + t.base.toNat * 2 ^ 7, none)
  | none =>
    let miss (hint n : Nat) : Nat := 2 ^ 63 + hint * 2 ^ 61 + n * 2 ^ 40
    match firstIdx (fun n => !(co.tag n).own h) 256 0 with
    | some n => (miss 1 n, none)
    | none =>
      match co.victim h 2 with
      | some n => (miss 2 n, some n)
      | none =>
        match co.victim h 3 with
        | some n => (miss 3 n, some n)
        | none => (miss 0 0, none)
/-- TLOOK (R217): the table is read before the same iteration's TINS or TDEL. -/
def opTlook (o : RG) (e : Env) : Act :=
  let (w, v) := (e.s.core e.c).tlook e.st.ctxh ((e.sw o.a).setWidth 48)
  { one e [rs o.a] (rs o.d) 3 w with
    commit := fun s => match v with
      | none => s
      | some n => s.onCore e.c (fun co => { co with vptr := BitVec.ofNat 8 (n + 1) }) }
/-- The value of channel register wN (R213). -/
def Core.wmWord (co : Core) (n : Nat) : Nat :=
  let w := look .off co.wm n
  b2n w.en * 2 ^ 63 + w.lo.toNat * 2 ^ 41 + w.hi.toNat * 2 ^ 22 + w.wm.toNat
/-- TLOOK.WM (R215). -/
def opTlookWm (o : RG) (e : Env) : Act := one e [] (rs o.d) 3 ((e.s.core e.c).wmWord o.a.toNat)
/-- TINS (R218).
(DEDUCED, log 27) -/
def opTins (o : RG) (e : Env) : Act :=
  let idx := e.sv o.d % 256
  let key : BitVec 48 := (e.sw o.a).setWidth 48
  let d := e.sv o.b
  let len := fld d 20 4
  let st := fld d 24 2
  let base := fld d 7 12
  let dup := match (e.s.core e.c).findKey e.st.ctxh key with
    | none => false
    | some m => m ≠ idx || (firstIdx (fun n => n ≠ idx && ((e.s.core e.c).tag n).own e.st.ctxh && ((e.s.core e.c).tag n).key = key) 256 0).isSome
  -- the checks in their order: LEN first, then the range, then the key (R218); ILLEGAL_OP ranks before SCRATCH_RANGE (R37)
  let range := st ≠ 0 && base * 128 + 128 * 2 ^ len - 1 > spadTop
  { reads := [rs o.d, rs o.a, rs o.b],
    own := if len > 9 then some 0x0301 else if st ≠ 0 && dup && !range then some 0x0300 else none,
    trap := if range then some (e.trapOf 0x0B 0x0301 (BitVec.ofNat 64 (base * 128))) else none,
    commit := fun s => s.onCore e.c (fun co =>
      { co with tags := put .free co.tags idx ⟨key, e.st.ctxh, BitVec.ofNat 12 base, BitVec.ofNat 4 len, BitVec.ofNat 2 st⟩ }) }
/-- Free an entry. -/
def freeTag (e : Env) (n : Nat) (s : State) : State := s.onCore e.c (fun co => { co with tags := del co.tags n })
/-- TDEL by key (R219). -/
def opTdel (o : RG) (e : Env) : Act :=
  { reads := [rs o.a],
    commit := fun s => match (s.core e.c).findKey e.st.ctxh ((e.sw o.a).setWidth 48) with
      | some n => freeTag e n s
      | none => s }
/-- TDEL by index (R219). -/
def opTdelIdx (o : RG) (e : Env) : Act :=
  let n := e.sv o.a % 256
  { reads := [rs o.a], commit := fun s => if ((s.core e.c).tag n).own e.st.ctxh then freeTag e n s else s }

end Sys2Proof.Machine
end

