-- ==== Sys2Proof/Machine/Acc.lean ====
section
/-! DEFINITION. Accumulator memory, the AR and AW ports and the result ring's acceptance (R174 to R176, R200 to R205, R266). -/

namespace Sys2Proof.Machine

/-- A row of accumulator memory (R174). -/
def Core.row (co : Core) (r : Nat) : Vec := look 0 co.acc (r % 1024)
/-- The poison bit of a row (R174). -/
def Core.rowP (co : Core) (r : Nat) : Bool := look false co.accP (r % 1024)
/-- Write a row; a whole write sets its poison to the data's, a partial one ORs it (R176). -/
def Core.setRow (co : Core) (r : Nat) (v : Vec) (whole poison : Bool) : Core :=
  { co with acc := put 0 co.acc (r % 1024) v,
            accP := put false co.accP (r % 1024) (poison || (!whole && co.rowP r)) }
/-- Clear a row and its poison. -/
def Core.clearRow (co : Core) (r : Nat) : Core := co.setRow r 0 true false
/-- The bank of a row (R174). -/
def bankOf (r : Nat) : Nat := r % 1024 / 64
/-- The banks the core's routines own (R181). -/
def Core.ownedMask (co : Core) : Nat := co.owned.foldl (fun m p => m ||| p.2.2) 0
/-- The banks owned by the routines of one strand (R181, R198). -/
def Core.ownedBy (co : Core) (st : Nat) : Nat := co.owned.foldl (fun m p => if p.2.1 = st then m ||| p.2.2 else m) 0

/-- The row of an AR or AW operation (R57, R58, R200). -/
def acRow (e : Env) (o : AC) : Nat :=
  match e.addr with
  | some a => a.toNat % 1024
  | none => (o.row.toNat + (match o.x with | some x => e.sv x.a | none => 0)) % 1024
/-- The row the engine steps to (R57). -/
def acNext (e : Env) (o : AC) : Word := BitVec.ofNat 64 ((acRow e o : Int) + o.stp.toInt + 1024).toNat % 1024
/-- The base register is read by an installed long form (R58, R200). -/
def acReads (e : Env) (o : AC) : List Reg :=
  match e.addr, o.x with
  | none, some x => [rs x.a]
  | _, _ => []
/-- The mask of an AR or AW operation. -/
def acMask (e : Env) (o : AC) : Word := e.st.getK (acK o)
/-- Check 2 of R205: the bank is owned. -/
def acOwned (e : Env) (o : AC) : Bool := bitOf (e.s.core e.c).ownedMask (bankOf (acRow e o))
/-- The common part of AR and AW operations other than AOW. -/
def acBase (e : Env) (o : AC) (reads : List Reg) : Act :=
  { reads := acReads e o ++ reads ++ [.k (acK o)], bank := some (bankOf (acRow e o)), next := acNext e o,
    early := if acOwned e o then some (e.trapOf 0x03 0x0001) else none }

/-- ARD (R201). -/
def opArd (o : AC) (e : Env) : Act :=
  let co := e.s.core e.c
  let r := acRow e o
  { acBase e o [] with
    dests := [(rv o.v, 4)],
    results := [mkResult e (rv o.v) 4 (co.row r).toNat (acMask e o) (poison := co.rowP r)] }
/-- Write the active words of the operation's row at commit. -/
def acWrite (e : Env) (o : AC) (f : Core → Vec) (poison : Core → Bool) (s : State) : State :=
  let k := acMask e o
  s.onCore e.c (fun co =>
    co.setRow (acRow e o) (mergeVec (co.row (acRow e o)) (f co) k 15) (wholeWrite k 15) (poison co))
/-- ACLR (R202). -/
def opAclr (o : AC) (e : Env) : Act :=
  { acBase e o [] with commit := acWrite e o (fun _ => 0) (fun _ => false) }
/-- AWR (R202). -/
def opAwr (o : AC) (e : Env) : Act :=
  { acBase e o [rv o.v] with commit := acWrite e o (fun _ => e.vv o.v) (fun _ => false) }
/-- The words of AACC before masking (R202): type, rounding and SAT from EXT.
(DEDUCED, log 83) -/
def aaccWords (ext : Nat) (row v : Vec) : Vec :=
  let rm := fld ext 3 3
  match ext % 8 with
  | 1 => ofLanes (fun i =>
      let x := sext 32 (lane row i) + sext 32 (lane v i)
      if bitOf ext 6 then clampT 32 true x else wrap 32 x)
  | 3 => BitVec.ofNat 2048 (pack 64 (fun j =>
      (fAdd f64 rm 0 (decodeF f64 (fld row.toNat (64 * j) 64)) (decodeF f64 (fld v.toNat (64 * j) 64))).1) 32 0)
  | _ => ofLanes (fun i => (fAdd f32 rm 0 (decodeF f32 (lane row i)) (decodeF f32 (lane v i))).1)
/-- Some active word of a saturating AACC clamped (R202). -/
def aaccSat (ext : Nat) (k : Word) (row v : Vec) : Bool :=
  ext % 8 = 1 && bitOf ext 6 && (firstIdx (fun i =>
    let x := sext 32 (lane row i) + sext 32 (lane v i)
    k.getLsbD i && (x < -(2 ^ 31 : Nat) || x > (2 ^ 31 : Nat) - 1)) 64 0).isSome
/-- AACC (R202): F64 works on lane pairs, active by bit 2j. The words written derive from the row, so its poison stays. -/
def opAacc (o : AC) (e : Env) : Act :=
  let ext := acExt o
  let k := if ext % 8 = 3 then actLanes (acMask e o) 3 else acMask e o
  let r := acRow e o
  { acBase e o [rv o.v] with
    commit := fun s =>
      let co := s.core e.c
      let s1 := s.onCore e.c (fun co =>
        co.setRow r (mergeVec (co.row r) (aaccWords ext (co.row r) (e.vv o.v)) k 15) false false)
      if aaccSat ext k (co.row r) (e.vv o.v) then s1.onStrand e.n (fun st => { st with sat := true }) else s1 }
/-- A staged row added into a row (R258): the words, and whether one clamped with SAT. -/
def addStaged (g : Staged) (row : Vec) : Vec × Bool :=
  (aaccWords (if g.int then 1 + 64 * b2n g.sat else 0) row g.data,
   g.int && aaccSat (1 + 64 * b2n g.sat) allLanes row g.data)
/-- Count a row of an HADD as added (R258). -/
def countAdded (g : Staged) (x : Cluster) : Cluster :=
  let h := x.chan g.ch
  match h.prog with
  | some p => if p.cmd.id = g.id then x.setChan g.ch { h with prog := some { p with added := p.added + 1 } } else x
  | none => x
/-- AOW (R203, R258): the oldest staged row for this row of the core, if any, is added at the commit. -/
def opAow (o : AC) (e : Env) : Act :=
  let r := acRow e o
  { reads := acReads e o, bank := some (bankOf r), next := acNext e o,
    trap := if acOwned e o then some (e.trapOf 0x05 0x0000) else none,
    commit := fun s =>
      let co := s.core e.c
      match co.staging.findIdx? (fun g => decide (g.row = r)) with
      | none => s
      | some i =>
        match co.staging[i]? with
        | none => s
        | some g =>
          let (v, sat) := addStaged g (co.row r)
          let s1 := s.setCore e.c { (co.setRow r v true (co.rowP r || g.poison)) with staging := dropNth co.staging i }
          let s2 := s1.onCluster (e.c / 4) (countAdded g)
          if sat then s2.onStrand e.n (fun st => { st with sat := true }) else s2 }

/-! ## The result ring -/

/-- A slot accepts a drain of a core (R266): it is FREE and no other core's drain is on its way to it, or it is OPEN by this core. -/
def Cluster.accepts (x : Cluster) (slot core : Nat) : Bool :=
  match (x.slot slot).state with
  | .free => !x.drains.any (fun d => d.2.1 = slot && d.1 ≠ core)
  | .opened c => c = core
  | .submitted => false
/-- A row leaves for the ring (R266). -/
def Cluster.drain (x : Cluster) (core slot pos : Nat) (v : Vec) (p : Bool) : Cluster :=
  { x with drains := x.drains ++ [(core, slot, pos, v, p)] }
/-- ADRN (R204, R266). -/
def opAdrn (o : AC) (e : Env) : Act :=
  let r := acRow e o
  let slot := o.v.toNat % 16
  { acBase e o [] with
    trap := if (e.s.cluster (e.c / 4)).accepts slot e.c then none else some (e.trapOf 0x05 0x0400),
    commit := fun s =>
      let co := s.core e.c
      let s1 := s.onCluster (e.c / 4) (fun x => x.drain e.c slot (r % 256) (co.row r) (co.rowP r))
      if bitOf o.v.toNat 4 then s1.onCore e.c (fun co => co.clearRow r) else s1 }

end Sys2Proof.Machine
end

