-- ==== Sys2Proof/Machine/Mx.lean ====
section
/-! DEFINITION. The MX slot: MCALL, MLDUC, MLDRT, MSTAT and MABORT (R177, R178, R196 to R199). -/

namespace Sys2Proof.Machine

/-- Entries of a strand that are outstanding: queued, running, or ended without their completion signalled (R177); those of a task that has
ended count no more.
(DESIGN CHOICE, log 87) -/
def Core.outstanding (co : Core) (st : Nat) : Nat :=
  (co.mxq.filter (fun m => m.strand = st && m.live)).length
    + (co.mxheld.filter (fun p => p.1.strand = st && p.1.live)).length
    + (match co.run with | some r => if r.entry.strand = st && r.entry.live then 1 else 0 | none => 0)
/-- Enqueue an MX operation of the strand (R177); an MCALL's banks are owned from here (R181). -/
def mxPush (e : Env) (sem : Nat) (k : MxKind) (own : Nat) (s : State) : State :=
  s.onCore e.c (fun co =>
    { co with
      mxq := co.mxq ++ [⟨co.mxid, e.n % 8, true, e.st.ctxh, e.st.launch, e.st.task, sem, k⟩]
      owned := if own = 0 then co.owned else upd co.owned co.mxid (e.n % 8, own)
      mxid := co.mxid + 1 })
/-- The five-entry limit (R177). -/
def mxFull (e : Env) : Bool := decide ((e.s.core e.c).outstanding (e.n % 8) ≥ 4)
/-- MCALL (R196); R196's conditions on the table's entry come before the limit of R177.
(DEDUCED, log 26) -/
def opMcall (o : XC) (e : Env) : Act :=
  let ent := (look 0 (e.s.core e.c).rtab o.rt.toNat).toNat
  let ow := match o.x with | some w => w.toNat / 2 ^ 16 | none => fld ent 48 16
  let arg := match o.x with | some w => w.toNat % 2 ^ 16 | none => 0
  { own := if !bitOf ent 12 then some 0x0200 else if fld ent 46 2 ≠ o.gang.toNat then some 0x0201
      else if mxFull e then some 0x0202 else none,
    commit := mxPush e o.e.toNat (.call (fld ent 0 12) o.gang.toNat ow arg ((List.range 8).map e.st.getM)) ow }
/-- MLDUC and MLDRT (R197): the fields of s[B] and the size of what is loaded; the range comes before the limit of R177.
(DESIGN CHOICE, log 87) -/
def mxLoad (o : RG) (e : Env) (first count size : Nat) (k : MxKind) : Act :=
  let a := e.sv o.a
  { reads := [rs o.a, rs o.b],
    own := if count = 0 || first + count > size then some 0x0203 else if mxFull e then some 0x0202 else none,
    trap := if a % 8 ≠ 0 then some (e.trapOf 0x0A 0x0201 (e.sw o.a))
      else if a + 8 * count - 1 > spadTop then
        some (e.trapOf 0x0B 0x0201 (BitVec.ofNat 64 (if a > spadTop then a else spadTop + 1)))
      else none,
    commit := mxPush e o.d.toNat k 0 }
/-- MLDUC (R197). -/
def opMlduc (o : RG) (e : Env) : Act :=
  let d := e.sv o.b
  mxLoad o e (fld d 0 12) (fld d 12 13) 4096 (.ldUc (e.sv o.a) (fld d 0 12) (fld d 12 13))
/-- MLDRT (R197). -/
def opMldrt (o : RG) (e : Env) : Act :=
  let d := e.sv o.b
  mxLoad o e (fld d 0 8) (fld d 8 9) 256 (.ldRt (e.sv o.a) (fld d 0 8) (fld d 8 9))

/-- Every unconsumed completion of the strand that carries a mark, with its semaphore (R198). -/
def Strand.marked (st : Strand) : List (Nat × Completion) :=
  st.sem.foldl (fun l p => l ++ (p.2.filter (fun c => c.mark.isSome)).map (fun c => (p.1, c))) []
/-- The earlier of two marked completions. -/
def earlier (a b : Nat × Completion) : Nat × Completion := if b.2.order < a.2.order then b else a
/-- The oldest of a list of completions (R198). -/
def oldest : List (Nat × Completion) → Option (Nat × Completion)
  | [] => none
  | x :: l => some (l.foldl earlier x)
/-- The strand's status word (R198). -/
def mstatWord (e : Env) : Nat :=
  let co := e.s.core e.c
  co.ownedBy (e.n % 8) * 2 ^ 48 + b2n (!e.st.marked.isEmpty) * 16 + b2n e.st.sat * 8 + co.outstanding (e.n % 8)
/-- The fault record of the oldest marked completion, or 0 (R198). -/
def faultWord (st : Strand) : Nat :=
  match oldest st.marked with
  | some (k, c) => match c.mark with
    | some m => m.cause * 2 ^ 56 + m.detail % 2 ^ 16 * 2 ^ 40 + m.index % 2 ^ 12 * 2 ^ 28 + k * 2 ^ 24 + m.addr.toNat % 2 ^ 24
    | none => 0
  | none => 0
/-- Clear the mark of the oldest marked completion (R183, R198). -/
def Strand.takeMark (st : Strand) : Strand :=
  match oldest st.marked with
  | some (k, c) =>
    { st with sem := upd st.sem k ((st.getE k).map (fun x => if x.order = c.order then { x with mark := none } else x)) }
  | none => st
/-- MSTAT (R198). -/
def opMstat (o : RG) (e : Env) : Act := one e [] (rs o.d) 1 (mstatWord e)
/-- MSTAT.FAULT (R198). -/
def opMstatFault (o : RG) (e : Env) : Act := one e [] (rs o.d) 1 (faultWord e.st)
/-- MSTAT.TAKE (R198). -/
def opMstatTake (o : RG) (e : Env) : Act :=
  { one e [] (rs o.d) 1 (faultWord e.st) with commit := fun s => s.onStrand e.n Strand.takeMark }
/-- MSTAT.CSAT (R198). -/
def opMstatCsat (o : RG) (e : Env) : Act :=
  { one e [] (rs o.d) 1 (mstatWord e) with commit := fun s => s.onStrand e.n (fun st => { st with sat := false }) }
/-- MSTAT.SETM (R198). -/
def opMstatSetm (o : RG) (e : Env) : Act := one e [rs o.a] (.m o.d.toNat) 1 (e.sv o.a)
/-- MSTAT.GETM (R198). -/
def opMstatGetm (o : RG) (e : Env) : Act := one e [.m o.a.toNat] (rs o.d) 1 (e.st.getM o.a.toNat).toNat

/-- The semaphore of an ended entry can take its completion now: its count is below 0xFFFF, and no older one of the unit waits for
it (R98).
(DEDUCED, log 75) -/
def State.mxRoom (s : State) (core : Nat) (m : MxEntry) : Bool :=
  !m.live || ((s.strand (8 * core + m.strand)).count m.sem < 0xFFFF
    && !(s.core core).mxheld.any (fun p => p.1.live && p.1.strand = m.strand && p.1.sem = m.sem))
/-- The unit holds an ended entry's completion (R98). -/
def Core.holdMx (co : Core) (m : MxEntry) (mark : Option Mark) : Core := { co with mxheld := co.mxheld ++ [(m, mark)] }
/-- The unmarked completion of a live entry is appended, or held (R98, R199). -/
def mxComplete (m : MxEntry) (c : Nat) (s : State) : State :=
  if s.mxRoom c m then s.onStrand (8 * c + m.strand) (fun st => st.append m.sem none none (some m.id))
  else s.onCore c (fun co => co.holdMx m none)
/-- MABORT (R199): unstarted MCALLs are removed and completed unmarked; a running routine stops after its current word. -/
def opMabort (e : Env) : Act :=
  { commit := fun s =>
      let co := s.core e.c
      let mine (m : MxEntry) : Bool := m.strand = e.n % 8 && m.live && (match m.kind with | .call _ _ _ _ _ => true | _ => false)
      let s1 := s.setCore e.c { co with
        mxq := co.mxq.filter (fun m => !mine m)
        run := co.run.map (fun r => if mine r.entry then { r with abort := true } else r) }
      (co.mxq.filter mine).foldl (fun s m => mxComplete m e.c s) s1 }

end Sys2Proof.Machine
end

