-- ==== Sys2Proof/Machine/Micro.lean ====
section
/-! DEFINITION. The matrix unit: routines, micro-op words and the MX queue (R122 to R125, R168 to R194). -/

namespace Sys2Proof.Machine

/-- A micro-op word's fault: cause, detail, scratchpad address or row (R182). -/
abbrev MmFault := Nat × Nat × Nat

/-- The class of an element format (R168): 0 F8, 1 I8, 2 F4, 3 I4, 4 H, 5 G32, 6 G64. -/
def mmClass (c : Nat) : Nat :=
  if c = 6 then 2 else if c = 9 then 3 else if c ≤ 8 then 0 else if c = 0xA || c = 0xB then 4
  else if c = 0xC || c = 0xD then 1 else if c = 0xE then 5 else 6
/-- M, N, K of a class and SHAPE; none where reserved (R168). -/
def mmShape (cls sh : Nat) : Option (Nat × Nat × Nat) :=
  match cls, sh with
  | 0, 0 => some (128, 128, 8) | 0, 1 => some (128, 64, 8)
  | 1, 0 => some (128, 128, 8) | 1, 1 => some (128, 64, 8)
  | 2, 0 => some (128, 128, 16) | 2, 1 => some (128, 64, 16)
  | 3, 0 => some (256, 256, 8) | 3, 1 => some (128, 128, 8)
  | 4, 0 => some (128, 128, 4) | 4, 1 => some (128, 64, 4)
  | 5, 0 => some (128, 64, 1)
  | 6, 0 => some (64, 32, 1)
  | _, _ => none

/-- A routine pointer (R178). -/
def Routine.ptr (r : Routine) (p : Nat) : BitVec 32 := look 0 r.mp p
/-- A routine stride. -/
def Routine.str (r : Routine) (p : Nat) : Int := look 0 r.stride p
/-- Advance a pointer by its stride, modulo 2^32 (R191). -/
def Routine.adv (r : Routine) (p : Nat) : Routine := { r with mp := put 0 r.mp p (r.ptr p + BitVec.ofInt 32 (r.str p)) }
/-- The MCALL's own values: gang, OWN, ARG and m registers. -/
def Routine.call (r : Routine) : Nat × Nat × Nat × List Word :=
  match r.entry.kind with
  | .call _ g o a m => (g, o, a, m)
  | _ => (0, 0, 0, [])
/-- A scale register; every byte 0x7F when the routine begins (R178). -/
def scInit : BitVec 2048 := BitVec.ofNat 2048 (pack 8 (fun _ => 0x7F) 256 0)
/-- A scale register of the routine. -/
def Routine.scale (r : Routine) (k : Nat) : BitVec 2048 := look scInit r.sc k

/-- A bank group of a scratchpad address (R207). -/
def groupOf (a : Nat) : Nat := a / 0x18000
/-- Check 1 of R172 on an operand: ALIGNMENT. -/
def alignCheck (p : Nat × Nat) : Option MmFault := if p.1 % 128 ≠ 0 then some (0x0A, 0x0200, p.1) else none
/-- Check 2 of R172 on an operand: SCRATCH_RANGE. -/
def rangeCheck (p : Nat × Nat) : Option MmFault := if p.1 + p.2 - 1 > spadTop then some (0x0B, 0x0200, p.1) else none
/-- Check 3 of R172 on an operand: one bank group. -/
def groupCheck (p : Nat × Nat) : Option MmFault := if groupOf p.1 ≠ groupOf (p.1 + p.2 - 1) then some (0x04, 0x0001, p.1) else none
/-- Checks 1 to 3 of R172 on a step's operands (address and bytes), check by check, in the operands' order within a check; the fault
records the address of its operand (R182).
(DEDUCED, log 74) -/
def placeChecks (ops : List (Nat × Nat)) : Option MmFault :=
  (ops.findSome? alignCheck) <|> (ops.findSome? rangeCheck) <|> (ops.findSome? groupCheck)
/-- Checks 1 to 3 of R172 on one operand. -/
def placeCheck (a n : Nat) : Option MmFault := placeChecks [(a, n)]
/-- Some of `n` rows from `d` leaves the routine's banks (R181). -/
def leavesOwn (own d n : Nat) : Bool := (firstIdx (fun i => !bitOf own (bankOf (d + i))) n 0).isSome

/-- The exact product of two elements (R122). -/
def mmProd (ea eb x y : Nat) : FVal := (mulF (elemVal ea x) (elemVal eb y)).1
/-- The products of position (i, j) over the steps of a block, ascending k (R169, R171). -/
def blockProds (b : Block) (k i j : Nat) : List FVal :=
  let wa := efmtWidth b.ea
  let wb := efmtWidth b.eb
  b.steps.flatMap (fun st => (List.range k).map (fun q =>
    mmProd b.ea b.eb (fld st.1 (wa * (i * k + q)) wa) (fld st.2 (wb * (j * k + q)) wb)))
/-- The value of a block with scale exponents: special or the truncated sum; none when every product is zero (R122, R123). -/
def blockValue (ps : List FVal) (nanScale : Bool) (x : Int) : Option FVal :=
  if nanScale || ps.any FVal.isNan then some (.nan false)
  else
    let pinf := ps.any (fun p => decide (p = .inf false))
    let ninf := ps.any (fun p => decide (p = .inf true))
    if pinf && ninf then some (.nan false)
    else if pinf then some (.inf false)
    else if ninf then some (.inf true)
    else
      let top : Option Int := ps.foldl (fun acc p => match p with
        | .num _ m e => if m = 0 then acc else
            let l : Int := (ilog2 m : Int) + e
            match acc with | none => some l | some t => some (if l > t then l else t)
        | _ => acc) none
      match top with
      | none => none
      | some t =>
        let g := t - 30
        let s : Int := ps.foldl (fun acc p => match p with
          | .num n m e => let c : Int := ((cutAt m e g).1 : Nat); if n then acc - c else acc + c
          | _ => acc) 0
        some (.num (decide (s < 0)) s.natAbs (g + x))
/-- The scale exponent of a side, and whether it is NaN (R111, R169). -/
def sideScale (c : Nat) (sc : BitVec 2048) (i : Nat) : Int × Bool :=
  if efmtScaled c then
    let e := fld sc.toNat (8 * i) 8
    ((e : Int) - 127, e = 0xFF)
  else (0, false)
/-- A word of the F32 accumulator after a block (R122, R170). -/
def accF32 (b : Block) (k : Nat) (sca scb : BitVec 2048) (i j old : Nat) : Nat :=
  let acc := if b.zero then 0 else old
  let (xa, na) := sideScale b.ea sca i
  let (xb, nb) := sideScale b.eb scb j
  match blockValue (blockProds b k i j) (na || nb) (xa + xb) with
  | none => acc
  | some v => (deliver f32 false 0 0 (addF 0 (decodeF f32 acc) v).1).1
/-- A word of the INT32 accumulator after a block, and whether it saturated (R125). -/
def accI32 (b : Block) (k i j old : Nat) : Nat × Bool :=
  let acc : Int := if b.zero then 0 else sext 32 old
  let s : Int := (blockProds b k i j).foldl (fun a p => match p with
    | .num n m _ => if n then a - (m : Int) else a + (m : Int)
    | _ => a) 0
  let v := acc + s
  if b.satm then (clampT 32 true v, decide (v > (2 ^ 31 : Nat) - 1) || decide (v < -(2 ^ 31 : Nat)))
  else (wrap 32 v, false)
/-- A word of a ganged accumulator after a step (R124). -/
def accGang (f : FFmt) (b : Block) (i j old : Nat) : Nat :=
  let w := f.width
  match b.steps with
  | st :: _ =>
    (fFma f 0 0 false (decodeF f (fld st.1 (w * i) w)) (decodeF f (fld st.2 (w * j) w))
      (decodeF f (if b.zero then 0 else old))).1
  | [] => old

/-- Some of the first `n` bytes of a scale register are poisoned (R176). -/
def Routine.scaleBad (r : Routine) (k n : Nat) : Bool := fld (look 0 r.scP k).toNat 0 ((n + 31) / 32) ≠ 0
/-- The poison of `n` bytes of the scratchpad at a 128-byte boundary, bit by atom (R208). -/
def Core.spAtoms (co : Core) (a n : Nat) : BitVec 8 := BitVec.ofNat 8 (pack 1 (fun k => b2n (look false co.spadP (a / 32 + k))) (n / 32) 0)
/-- Complete a block into accumulator memory (R170, R175, R176): the core, and whether a word saturated. -/
def completeBlock (b : Block) (r : Routine) (co : Core) : Core × Bool :=
  let cls := mmClass b.ea
  match mmShape cls b.shape with
  | none => (co, false)
  | some (m, n, k) =>
    let wa := if cls = 6 then 2 else 1
    let perRow := n * wa / 64
    let d := b.d.toNat % 1024
    let sca := r.scale b.sca
    let scb := r.scale b.scb
    let poison := b.poison || (efmtScaled b.ea && r.scaleBad b.sca m) || (efmtScaled b.eb && r.scaleBad b.scb n)
    let word (i j old : Nat) : Nat × Bool :=
      if cls = 1 then accI32 b k i j old
      else if cls = 5 then (accGang f32 b i j old, false)
      else if cls = 6 then (accGang f64 b i j old, false)
      else (accF32 b k sca scb i j old, false)
    let bits := 32 * wa
    let perTileRow := 64 / wa
    loop (fun x acc =>
      let (co, sat) := acc
      let row := d + x
      let old := co.row row
      let i := x / perRow
      let j0 := x % perRow * perTileRow
      let res := fun q => word i (j0 + q) (fld old.toNat (bits * q) bits)
      let v := pack bits (fun q => (res q).1) perTileRow 0
      let sat' := cls = 1 && (firstIdx (fun q => (res q).2) perTileRow 0).isSome
      (co.setRow row (BitVec.ofNat 2048 v) true (poison || (!b.zero && co.rowP row)), sat || sat')) (m * perRow) 0 (co, false)

/-- What a main slot asks for: its own fault, the bank groups of its operands, its reads, whether the ring refuses its rows, its
steps, its next index, and its effect on the routine, the core, the cluster and SAT. -/
structure MmWord where
  fault : Option MmFault := none
  groups : List Nat := []
  reads : List (Nat × Nat) := []
  stall : Bool := false
  steps : Nat := 1
  next : Nat
  eff : Routine × Core × Cluster × Bool → Routine × Core × Cluster × Bool := id

/-- The examination of R192 for index `x`, from loop `l - 1` down to 0: the loops and the index jumped to, if any. -/
def examine (x : Nat) : Nat → SMap (Nat × Nat × Nat) → SMap (Nat × Nat × Nat) × Option Nat
  | 0, ml => (ml, none)
  | l + 1, ml =>
    match find? ml l with
    | some (c, start, fin) =>
      if fin = x then
        if c > 1 then (upd ml l (c - 1, start, fin), some start) else examine x l (del ml l)
      else examine x l ml
    | none => examine x l ml
/-- The loops and the next index after a word at `x` that does not jump (R192). -/
def afterWord (x : Nat) (ml : SMap (Nat × Nat × Nat)) : SMap (Nat × Nat × Nat) × Nat :=
  let (ml', j) := examine x 4 ml
  (ml', j.getD (x + 1))
/-- A word that goes on to the next index, with the loops examined. -/
def seqNext (r : Routine) : Nat := (afterWord r.pc r.ml).2
/-- The loop changes of a word that goes on. -/
def seqLoops (r : Routine) : Routine := { r with ml := (afterWord r.pc r.ml).1 }

/-- Land the scale loads whose steps are over (R179). -/
def landScales (n : Nat) (r : Routine) : Routine :=
  r.flight.foldl (fun r f =>
    let (left, d, bytes, v, p) := f
    if left ≤ n then
      let keep := (r.scale d).toNat / 2 ^ (8 * bytes) * 2 ^ (8 * bytes)
      { r with sc := put scInit r.sc d (BitVec.ofNat 2048 (keep + v.toNat % 2 ^ (8 * bytes)))
               scP := put 0 r.scP d (BitVec.ofNat 8 ((look 0 r.scP d).toNat / 2 ^ (bytes / 32) * 2 ^ (bytes / 32) + p.toNat % 2 ^ (bytes / 32))) }
    else { r with flight := r.flight ++ [(left - n, d, bytes, v, p)] }) { r with flight := [] }

/-- The scale slot's checks (R188). -/
def sclCheck (r : Routine) (o : MmScl) (groups : List Nat) : Option MmFault :=
  let a := (r.ptr o.p.toNat).toNat
  let n := if o.w = 1 then 256 else 128
  match placeCheck a n with
  | some f => some f
  | none => if groups.contains (groupOf a) then some (0x04, 0x0002, a) else none

/-- End a routine with a mark (R182). -/
def Routine.fail (r : Routine) (f : MmFault) : Routine :=
  { r with block := none, done := some (some ⟨f.1, f.2.1, r.pc, 0, BitVec.ofNat 64 f.2.2⟩) }

/-- Run one micro-op word of a core's routine: the checks, the wait for a watermark or the ring, the effect, the scale load and the
steps that pass (R173, R179, R186, R188). The next index is judged before the scale slot, and a routine that MABORT has named ends with
the mark of a word that faults (R199).
(DESIGN CHOICE, log 87) -/
def runWord (c : Nat) (scl : Option MmScl) (main : Routine → Core → Cluster → MmWord) (s : State) :
    Host.Outcome State Fault Refusal :=
  let co := s.core c
  let cl := s.cluster (c / 4)
  match co.run with
  | none => .refused .notEnabled
  | some r =>
    if r.wait || r.done.isSome then .refused .notEnabled
    else
      let w := main r co cl
      let fault := match w.fault with
        | some f => some f
        | none => if w.next ≥ 4096 then some (0x02, 0x0216, 0) else
          match scl with
          | some o => sclCheck r o w.groups
          | none => none
      match fault with
      | some f => .next (s.setCore c { co with run := some (r.fail f) })
      | none =>
        let sclRead : List (Nat × Nat) := match scl with
          | some o => [((r.ptr o.p.toNat).toNat, if o.w = 1 then 256 else 128)]
          | none => []
        if w.stall || co.unfilledParts (w.reads ++ sclRead) then
          .next (s.setCore c { co with run := some { r with wait := true } })
        else
          let (r1, co1, cl1, sat) := w.eff (r, co, cl, false)
          let r2 := match scl with
            | none => r1
            | some o =>
              let a := (r.ptr o.p.toNat).toNat
              let n := if o.w = 1 then 256 else 128
              { r1 with flight := r1.flight ++ [(3, o.d.toNat, n, BitVec.ofNat 2048 (co.sp a n), co.spAtoms a n)] }.adv o.p.toNat
          let r3 := landScales w.steps r2
          let r4 := { r3 with pc := w.next }
          let r5 := if r4.abort && r4.done.isNone then { r4 with block := none, done := some none } else r4
          let s1 := (s.setCore c { co1 with run := some r5 }).setCluster (c / 4) cl1
          .next (if sat && r.entry.live then s1.onStrand (8 * c + r.entry.strand) (fun st => { st with sat := true }) else s1)

/-- MM.MAC (R187). -/
def mainMac (o : MmMac) (r : Routine) (_co : Core) (_cl : Cluster) : MmWord :=
  let ea := o.ea.toNat
  let eb := o.eb.toNat
  let cls := mmClass ea
  let (gang, own, _, _) := r.call
  match (if mmClass eb = cls then mmShape cls o.shape.toNat else none) with
  | none => { fault := some (0x02, 0x0211, 0), next := seqNext r }
  | some (m, n, k) =>
    let pa := (r.ptr o.pa.toNat).toNat
    let pb := (r.ptr o.pb.toNat).toNat
    let d := r.ptr o.pd.toNat
    let na := m * k * efmtWidth ea / 8
    let nb := n * k * efmtWidth eb / 8
    let mismatch := match r.block with
      | some b => r.kphase ≠ 0 && (b.d ≠ d || b.ea ≠ ea || b.eb ≠ eb || b.shape ≠ o.shape.toNat)
      | none => false
    let rows := m * n * (if cls = 6 then 2 else 1) / 64
    let fault : Option MmFault :=
      if (cls = 5) != (gang = 1) || (cls = 6) != (gang = 2) then some (0x02, 0x0213, 0)
      else if o.satm = 1 && cls ≠ 1 then some (0x02, 0x0214, 0)
      else if mismatch then some (0x02, 0x0212, 0)
      else match placeChecks [(pa, na), (pb, nb)] with
        | some f => some f
        | none =>
          if groupOf pa = groupOf pb then some (0x04, 0x0000, pb)
          else if leavesOwn own (d.toNat % 1024) rows then some (0x03, 0x0002, d.toNat % 1024)
          else none
    let kp := r.kphase + k
    let complete := cls = 5 || cls = 6 || kp = 32 || o.klast = 1
    { fault, groups := [groupOf pa, groupOf pb], reads := [(pa, na), (pb, nb)], next := seqNext r,
      eff := fun (r, co, cl, sat) =>
        let b0 : Block := match r.block with
          | some b => b
          | none => ⟨d, ea, eb, o.shape.toNat, o.zero = 1, o.satm = 1, 0, 0, [], false⟩
        let b := { b0 with
          sca := o.sca.toNat, scb := o.scb.toNat, steps := b0.steps ++ [(co.sp pa na, co.sp pb nb)],
          poison := b0.poison || co.spPoison pa na || co.spPoison pb nb }
        let ptrs := (if complete then [o.pd.toNat] else []) ++ [o.pa.toNat, o.pb.toNat]
        let r1 := (ptrs.eraseDups).foldl Routine.adv (seqLoops r)
        if complete then
          let (co1, sat1) := completeBlock b r co
          ({ r1 with kphase := 0, block := none }, co1, cl, sat || sat1)
        else ({ r1 with kphase := kp, block := some b }, co, cl, sat) }

/-- MM.CLR (R189): 16 rows a step. -/
def mainClr (o : MmClr) (r : Routine) (_co : Core) (_cl : Cluster) : MmWord :=
  let n := o.nm1.toNat + 1
  let a := (r.ptr o.p.toNat).toNat % 1024
  let (_, own, _, _) := r.call
  { fault := if leavesOwn own a n then some (0x03, 0x0002, a) else none, next := seqNext r, steps := (n + 15) / 16,
    eff := fun (r, co, cl, sat) =>
      ((seqLoops r).adv o.p.toNat, loop (fun i co => co.clearRow (a + i)) n 0 co, cl, sat) }
/-- MM.DRN (R190): 4 rows a step. -/
def mainDrn (core : Nat) (o : MmDrn) (r : Routine) (_co : Core) (cl : Cluster) : MmWord :=
  let n := o.nm1.toNat + 1
  let a := (r.ptr o.p.toNat).toNat % 1024
  let (_, own, _, _) := r.call
  { fault := if o.pos.toNat + n > 256 then some (0x02, 0x0215, 0)
      else if leavesOwn own a n then some (0x03, 0x0002, a) else none,
    stall := !cl.accepts o.slot.toNat core, next := seqNext r, steps := (n + 3) / 4,
    eff := fun (r, co, cl, sat) =>
      let cl1 := loop (fun i cl => cl.drain core o.slot.toNat (o.pos.toNat + i) (co.row (a + i)) (co.rowP (a + i))) n 0 cl
      let co1 := if o.clr = 1 then loop (fun i co => co.clearRow (a + i)) n 0 co else co
      ((seqLoops r).adv o.p.toNat, co1, cl1, sat) }
/-- MM.SETP (R191). -/
def mainSetp (o : MmSetp) (r : Routine) (_co : Core) (_cl : Cluster) : MmWord :=
  let (_, _, arg, m) := r.call
  let src := o.src.toNat
  let v : BitVec 32 :=
    if src < 8 then BitVec.ofNat 32 ((m.getD src 0).toNat / (if o.half = 1 then 2 ^ 32 else 1))
    else if src = 8 then BitVec.ofNat 32 arg else 0
  let p := o.p.toNat
  { fault := if setpRsv o then some (0x02, 0x0210, 0) else none, next := seqNext r,
    eff := fun (r, co, cl, sat) =>
      let r1 := seqLoops r
      let r2 := { r1 with mp := put 0 r1.mp p (if o.add = 1 then r1.ptr p + v else v) }
      (if o.keep = 1 then r2 else { r2 with stride := put 0 r2.stride p o.stride.toInt }, co, cl, sat) }
/-- The count of MM.LOOP (R192). -/
def loopCount (o : MmLoop) (r : Routine) : Nat :=
  let (_, _, arg, m) := r.call
  if o.src.toNat < 8 then (m.getD o.src.toNat 0).toNat % 2 ^ 16 else if o.src.toNat = 8 then arg else o.imm.toNat
/-- The loops and the next index of MM.LOOP (R192). -/
def loopOpen (o : MmLoop) (r : Routine) : SMap (Nat × Nat × Nat) × Nat :=
  let c := loopCount o r
  let fin := o.fin.toNat
  if c = 0 then afterWord fin (del r.ml o.l.toNat)
  else afterWord r.pc (upd r.ml o.l.toNat (c, r.pc + 1, fin))
/-- MM.LOOP (R192). -/
def mainLoop (o : MmLoop) (r : Routine) (_co : Core) (_cl : Cluster) : MmWord :=
  { fault := if mloopRsv o then some (0x02, 0x0210, 0) else if o.fin.toNat ≤ r.pc then some (0x02, 0x0215, 0) else none,
    next := (loopOpen o r).2,
    eff := fun (r, co, cl, sat) => ({ r with ml := (loopOpen o r).1 }, co, cl, sat) }
/-- MM.JMP (R193). -/
def mainJmp (o : MmJmp) (r : Routine) (_co : Core) (_cl : Cluster) : MmWord :=
  let (_, _, arg, _) := r.call
  let taken := o.cond = 0 || bitOf arg o.bit.toNat
  { next := if taken then o.target.toNat else seqNext r,
    eff := fun (r, co, cl, sat) => (if taken then r else seqLoops r, co, cl, sat) }
/-- MM.END (R194). -/
def mainEnd (r : Routine) (_co : Core) (_cl : Cluster) : MmWord :=
  { next := r.pc,
    eff := fun (r, co, cl, sat) =>
      let (co1, sat1) := match r.block with
        | some b => completeBlock b r co
        | none => (co, false)
      ({ r with block := none, kphase := 0, ml := [], done := some none }, co1, cl, sat || sat1) }
/-- MM.NOP and a word that holds only a scale slot (R194, R195). -/
def mainNop (r : Routine) (_co : Core) (_cl : Cluster) : MmWord :=
  { next := seqNext r, eff := fun (r, co, cl, sat) => (seqLoops r, co, cl, sat) }

/-- MM.MAC on a core's matrix unit (R187). -/
def execMmMac (core : Nat) (o : MmMac) (scl : Option MmScl) (s : State) : Host.Outcome State Fault Refusal :=
  runWord core scl (mainMac o) s
/-- MM.SCL alone in its word: an MM.NOP with that scale slot (R188, R195). -/
def execMmScl (core : Nat) (o : MmScl) (s : State) : Host.Outcome State Fault Refusal := runWord core (some o) mainNop s
/-- MM.CLR on a core's matrix unit (R189). -/
def execMmClr (core : Nat) (o : MmClr) (scl : Option MmScl) (s : State) : Host.Outcome State Fault Refusal :=
  runWord core scl (mainClr o) s
/-- MM.DRN on a core's matrix unit (R190). -/
def execMmDrn (core : Nat) (o : MmDrn) (scl : Option MmScl) (s : State) : Host.Outcome State Fault Refusal :=
  runWord core scl (mainDrn core o) s
/-- MM.LOOP on a core's matrix unit (R192). -/
def execMmLoop (core : Nat) (o : MmLoop) (scl : Option MmScl) (s : State) : Host.Outcome State Fault Refusal :=
  runWord core scl (mainLoop o) s
/-- MM.JMP on a core's matrix unit (R193). -/
def execMmJmp (core : Nat) (o : MmJmp) (scl : Option MmScl) (s : State) : Host.Outcome State Fault Refusal :=
  runWord core scl (mainJmp o) s
/-- MM.SETP on a core's matrix unit (R191).
(DEDUCED, log 25) -/
def execMmSetp (core : Nat) (o : MmSetp) (scl : Option MmScl) (s : State) : Host.Outcome State Fault Refusal :=
  runWord core scl (mainSetp o) s
/-- MM.END on a core's matrix unit (R194). -/
def execMmEnd (core : Nat) (scl : Option MmScl) (s : State) : Host.Outcome State Fault Refusal := runWord core scl mainEnd s
/-- MM.NOP on a core's matrix unit (R194). -/
def execMmNop (core : Nat) (s : State) : Host.Outcome State Fault Refusal := runWord core none mainNop s

/-- The word of the micro-op store at an index (R185). -/
def Core.word (co : Core) (i : Nat) : Nat := (look (0x7000000000000000 : Word) co.ucode i).toNat

/-- A routine whose word fails check 1 of R186 ends with ILLEGAL_OP 0x0210. -/
def execBadWord (core : Nat) (s : State) : Host.Outcome State Fault Refusal :=
  runWord core none (fun r _ _ => { fault := some (0x02, 0x0210, 0), next := r.pc }) s

/-- What a waiting word waits for, judged by decoding it again (R173, R190). -/
def stillWaits (core : Nat) (s : State) (r : Routine) : Bool :=
  let co := s.core core
  let cl := s.cluster (core / 4)
  let parts (main : Routine → Core → Cluster → MmWord) (scl : Option MmScl) : Bool :=
    let w := main r co cl
    w.stall || co.unfilledParts (w.reads ++ match scl with
      | some o => [((r.ptr o.p.toNat).toNat, if o.w = 1 then 256 else 128)]
      | none => [])
  match decodeMicro core (co.word r.pc) with
  | some (.mmMac _ o x) => parts (mainMac o) x
  | some (.mmDrn _ o x) => parts (mainDrn core o) x
  | some (.mmScl _ o) => parts mainNop (some o)
  | some (.mmClr _ o x) => parts (mainClr o) x
  | some (.mmLoop _ o x) => parts (mainLoop o) x
  | some (.mmJmp _ o x) => parts (mainJmp o) x
  | some (.mmSetp _ o x) => parts (mainSetp o) x
  | some (.mmEnd _ x) => parts mainEnd x
  | _ => false
/-- ROUTINE_WATERMARK_RESUME (R173). -/
def execRoutineWatermarkResume (core : Nat) (s : State) : Host.Outcome State Fault Refusal :=
  let co := s.core core
  match co.run with
  | some r => if r.wait && !stillWaits core s r then .next (s.setCore core { co with run := some { r with wait := false } })
    else .refused .notEnabled
  | none => .refused .notEnabled

end Sys2Proof.Machine
end

