-- ==== Sys2Proof/Machine/HodIssue.lean ====
section
/-! DEFINITION. The HD slot at issue: the checks made before commit and the commands that enter a channel (R236 to R260). -/

namespace Sys2Proof.Machine

/-- The channel of a cluster that a command of this core names (R236). -/
def chanOf (e : Env) (o : HC) : Nat := e.c % 4 * 16 + o.ch.toNat
/-- The identifier of a channel's next command (R239). -/
def hodId (ch seq : Nat) : Nat := ch / 16 * 2 ^ 30 + ch % 16 * 2 ^ 26 + seq % (2 ^ 26 - 1)
/-- The value of an HC register field of the second word. -/
def hcReg (e : Env) (n : Nat) : Word := e.st.getS n
/-- A command as it commits (R238): opcode, and which of A, B, C, D it reads. -/
def hodCmd (e : Env) (o : HC) (op : Nat) (id : Nat) : HodCmd :=
  ⟨id, e.n, true, e.st.ctxh, e.st.launch, e.st.task, o.e.toNat, op, o.f.toNat, hExt o, o.x.isSome, e.sw o.a, e.sw o.b,
    hcReg e (hC o), hcReg e (hD o), e.st.gnum⟩
/-- A command enters its channel's queue (R236, R239); it takes a place in its strand's commit order (R269). -/
def hodPush (e : Env) (o : HC) (op : Nat) (s : State) : State :=
  let ch := chanOf e o
  (s.onCluster (e.c / 4) (fun x =>
    let h := x.chan ch
    let id := hodId ch h.seq
    x.setChan ch { h with
      queue := h.queue ++ [hodCmd { e with st := s.strand e.n } o op id], seq := (h.seq + 1) % (2 ^ 26 - 1), last := some id })).onStrand
    e.n (fun st => { st with gnum := st.gnum + 1 })
/-- Block while the channel holds eight commands (R236). -/
def hodBlock (e : Env) (o : HC) : Option Why :=
  if ((e.s.cluster (e.c / 4)).chan (chanOf e o)).queue.length ≥ 8 then some (.hodFull o.ch.toNat) else none

/-- ILLEGAL_OP 0x0400 on a length (R241). -/
def lenBad (n limit : Nat) : Bool := n = 0 || n % 128 ≠ 0 || n > limit
/-- The first trap of a list. -/
def firstTrap : List (Option Trap) → Option Trap
  | [] => none
  | some t :: _ => some t
  | none :: l => firstTrap l
/-- A scratchpad operand's alignment check (R241). -/
def spAlign (e : Env) (a : Word) (m : Nat) : Option Trap :=
  if a.toNat % m ≠ 0 then some (e.trapOf 0x0A 0x0400 a) else none
/-- A virtual address is canonical (R223). -/
def isCanon (a : Word) : Bool := canonVa a = a
/-- A global address check (R241). -/
def glAlign (e : Env) (a : Word) : Option Trap :=
  if !isCanon a || a.toNat % 128 ≠ 0 then some (e.trapOf 0x0A 0x0401 a) else none
/-- A scratchpad range check of a length known at issue (R241). -/
def spRange (e : Env) (a : Word) (n : Nat) : Option Trap :=
  if a.toNat + n - 1 > spadTop then
    some (e.trapOf 0x0B 0x0400 (if a.toNat > spadTop then a else BitVec.ofNat 64 (spadTop + 1))) else none
/-- A command that enters its channel: the registers read, its own conditions and its traps. -/
def hodOp (e : Env) (o : HC) (op : Nat) (reads : List Reg) (own : Option Nat) (traps : List (Option Trap)) : Act :=
  { reads, own, trap := firstTrap traps, block := hodBlock e o, commit := hodPush e o op }
/-- The scalar registers of fields C and D. -/
def rc (o : HC) : Reg := .s (hC o)
/-- The scalar register of field D. -/
def rdd (o : HC) : Reg := .s (hD o)

/-- 384 KiB (R248). -/
def spadBytes : Nat := 393216
/-- HCOPY.S2S (R248). -/
def opHcopyS2s (o : HC) (e : Env) : Act :=
  let n := (hcReg e (hC o)).toNat
  hodOp e o 0 [rs o.a, rs o.b, rc o] (own (lenBad n spadBytes) 0x0400)
    [spAlign e (e.sw o.a) 128, spAlign e (e.sw o.b) 128, spRange e (e.sw o.a) n, spRange e (e.sw o.b) n]
/-- HCOPY.G2S (R248). -/
def opHcopyG2s (o : HC) (e : Env) : Act :=
  let n := (hcReg e (hC o)).toNat
  hodOp e o 0 [rs o.a, rs o.b, rc o] (own (lenBad n spadBytes) 0x0400)
    [spAlign e (e.sw o.a) 128, glAlign e (e.sw o.b), spRange e (e.sw o.a) n]
/-- HCOPY.G2T (R248). -/
def opHcopyG2t (o : HC) (e : Env) : Act := hodOp e o 0 [rs o.a, rs o.b, rdd o] none [glAlign e (e.sw o.b)]
/-- HFILL (R249). -/
def opHfill (o : HC) (e : Env) : Act :=
  let n := (hcReg e (hC o)).toNat
  hodOp e o 0xA [rs o.a, rs o.b, rc o] (own (lenBad n spadBytes) 0x0400) [spAlign e (e.sw o.a) 128, spRange e (e.sw o.a) n]
/-- HFILL.T (R249). -/
def opHfillT (o : HC) (e : Env) : Act := hodOp e o 0xA [rs o.a, rs o.b, rdd o] none []
/-- HTILE (R250). -/
def opHtile (o : HC) (e : Env) : Act := hodOp e o 1 [rs o.a, rs o.b, rc o] none [spAlign e (e.sw o.a) 128]
/-- HTWR (R251). -/
def opHtwr (o : HC) (e : Env) : Act := hodOp e o 2 [rs o.a, rs o.b, rc o] none [spAlign e (e.sw o.a) 128]
/-- HSCHED (R254). -/
def opHsched (o : HC) (e : Env) : Act :=
  hodOp e o 3 [rs o.a] none [if e.sw o.a = 0 then none else glAlign e (e.sw o.a)]
/-- HSTEP (R255). -/
def opHstep (o : HC) (e : Env) : Act :=
  hodOp e o 4 [rs o.a] (own ((e.sv o.a + o.f.toNat) % 2 ^ 32 = 0) 0x0402) []
/-- HMCAST (R256): of its own conditions the length comes first, then the empty mask (R241). -/
def opHmcast (o : HC) (e : Env) : Act :=
  let n := (hcReg e (hC o)).toNat
  hodOp e o 5 [rs o.a, rs o.b, rc o] (own (lenBad n 65536) 0x0400 <|> own (hExt o % 16 = 0) 0x0402)
    [spAlign e (e.sw o.a) 128, spAlign e (e.sw o.b) 128, spRange e (e.sw o.a) n, spRange e (e.sw o.b) n]
/-- HMWAIT (R257). -/
def opHmwait (o : HC) (e : Env) : Act := hodOp e o 6 [] none []
/-- HADD (R258). -/
def opHadd (o : HC) (e : Env) : Act :=
  let n := (hcReg e (hC o)).toNat
  hodOp e o 7 [rs o.a, rs o.b, rc o] (own (n = 0 || n > 1024) 0x0402)
    (if bitOf o.f.toNat 0 then [glAlign e (e.sw o.a)] else [spAlign e (e.sw o.a) 128, spRange e (e.sw o.a) (256 * n)])
/-- The tag key register of an HPUB with TAG (R259). -/
def hpubReads (o : HC) : List Reg := if bitOf (hExt o) 0 then [rs o.a, rs o.b, rc o] else [rs o.a, rs o.b]
/-- HPUB of a tile (R259). -/
def opHpub (o : HC) (e : Env) : Act := hodOp e o 8 (hpubReads o) none []
/-- HPUB of a ring slot (R259). -/
def opHpubRing (o : HC) (e : Env) : Act :=
  hodOp e o 8 (hpubReads o) none [spAlign e (e.sw o.a) 64, spRange e (e.sw o.a) 64]

/-- HWM (R252): the channel restarts at the commit. -/
def opHwm (o : HC) (e : Env) : Act :=
  let lo := e.sv o.a
  let hi := e.sv o.b
  let off := if o.x.isSome then (hcReg e (hC o)).toNat else 0
  let bad := lo % 128 ≠ 0 || (hi + 1) % 128 ≠ 0 || lo > hi || hi > spadTop || hi - lo + 1 > 131072
    || off % 128 ≠ 0 || off > hi + 1 - lo
  { reads := [rs o.a, rs o.b] ++ (if o.x.isSome then [rc o] else []),
    own := own bad 0x0401,
    commit :=
      let w : Wm := ⟨true, BitVec.ofNat 19 lo, BitVec.ofNat 19 hi, BitVec.ofNat 19 (lo + off), []⟩
      fun s => s.onCore e.c (fun co => { co with wm := put .off co.wm o.ch.toNat w }) }
/-- HWM.OFF (R252): LO, HI and WM keep their values. -/
def opHwmOff (o : HC) (e : Env) : Act :=
  { commit := fun s => s.onCore e.c (fun co =>
      let w : Wm := { (look .off co.wm o.ch.toNat) with en := false, filled := [] }
      { co with wm := put .off co.wm o.ch.toNat w }) }

/-- HSTAT (R260). -/
def opHstat (o : HC) (e : Env) : Act :=
  let h := (e.s.cluster (e.c / 4)).chan (chanOf e o)
  one e [] (rs o.a) 1 ((match h.queue with | m :: _ => m.id | [] => 0xFFFFFFFF) * 2 ^ 32 + b2n h.halted * 2 ^ 31
    + b2n h.bound.isSome * 2 ^ 30 + h.queue.length)
/-- HSTAT.STAGE (R260). -/
def opHstatStage (o : HC) (e : Env) : Act :=
  one e [] (rs o.a) 1 (((e.s.cluster (e.c / 4)).chan (chanOf e o)).stage % 2 ^ 32)
/-- HSTAT.LAST (R260). -/
def opHstatLast (o : HC) (e : Env) : Act :=
  one e [] (rs o.a) 1 (((e.s.cluster (e.c / 4)).chan (chanOf e o)).last.getD 0xFFFFFFFF)

end Sys2Proof.Machine
end

