-- ==== Sys2Proof/Machine/Mem.lean ====
section
/-! DEFINITION. Physical memory: windows, homes, shadows, copy sectors, Kiln's buffer and the host's lines (R314 to R322, R392
to R409, R427, R428). -/

namespace Sys2Proof.Machine

/-! ## The physical address map -/

/-- The windows of R314. -/
inductive Window where
  | hbm | host | pooled | nv | regs | peer | none
  deriving DecidableEq, Repr

/-- The window of a physical address (R314). -/
def window (pa : Nat) : Window :=
  if pa < 0x18000000000 then .hbm
  else if pa < 0x20000000000 then .none
  else if pa < 0x40000000000 then .host
  else if pa < 0x80000000000 then .pooled
  else if pa < 0xC0000000000 then .nv
  else if pa < 0xF0000000000 then .none
  else if pa < 0x100000000000 then .regs
  else if pa < 0x8000000000000 then .none
  else if pa < 0x10000000000000 then .peer
  else .none
/-- The last address of local HBM4E plus one. -/
def hbmEnd : Nat := 0x18000000000
/-- The stack of an HBM4E address (R392). -/
def stackOf (pa : Nat) : Nat := fld pa 21 4 ^^^ fld pa 25 4
/-- Where an address of local HBM4E lies in its stack (R391, R392): byte in its sector, sector in its line, channel, pseudo-channel,
bank group, bank, line pair, stack, row. -/
structure HbmPlace where
  byte : Nat
  sector : Nat
  channel : Nat
  pseudo : Nat
  group : Nat
  bank : Nat
  pair : Nat
  stack : Nat
  row : Nat
  deriving DecidableEq, Repr
/-- The fixed function that places an address of local HBM4E (R392). -/
def hbmPlace (pa : Nat) : HbmPlace :=
  { byte := fld pa 0 7, sector := fld pa 7 3, channel := fld pa 10 5 ^^^ fld pa 25 5, pseudo := fld pa 15 1 ^^^ fld pa 30 1,
    group := fld pa 16 2 ^^^ fld pa 31 2, bank := fld pa 18 2 ^^^ fld pa 33 2, pair := fld pa 20 1, stack := stackOf pa,
    row := fld pa 25 16 }
/-- The home die of a line (R315). -/
def homeDie (pa : Nat) : Nat :=
  match window pa with
  | .hbm => stackOf pa / 4
  | .host => fld pa 16 1
  | .pooled => 2 + fld pa 16 1
  | .nv => 2 + fld pa 16 1
  | _ => 0
/-- The slice of a line on every die that holds it (R315). -/
def sliceOf (pa : Nat) : Nat :=
  24 * (match window pa with | .hbm => stackOf pa % 4 | _ => fld pa 11 2) + pa / 1024 % 24
/-- 64-byte lines of a die's last-level cache (R4, R315): 96 slices of 2 MiB, which its copy sectors and the host's lines share. -/
def cacheLines : Nat := 96 * 32768
/-- The die of a strand (R3). -/
def dieOfStrand (n : Nat) : Nat := n / 384
/-- The die of a core (R3). -/
def dieOfCore (c : Nat) : Nat := c / 48

/-- A die of the machine. -/
def State.die (s : State) (d : Nat) : Die := look {} s.dies d
/-- Replace a die. -/
def State.setDie (s : State) (d : Nat) (x : Die) : State := { s with dies := upd s.dies d x }
/-- Change a die. -/
def State.onDie (s : State) (d : Nat) (f : Die → Die) : State := s.setDie d (f (s.die d))
/-- Change the package. -/
def State.onPkg (s : State) (f : Package → Package) : State := { s with pkg := f s.pkg }
/-- A context table entry. -/
def State.ctx (s : State) (i : Nat) : Ctx := look {} s.contexts i
/-- Replace a context table entry. -/
def State.setCtx (s : State) (i : Nat) (x : Ctx) : State := { s with contexts := upd s.contexts i x }
/-- Change a context table entry. -/
def State.onCtx (s : State) (i : Nat) (f : Ctx → Ctx) : State := s.setCtx i (f (s.ctx i))
/-- Index of a context handle (R340). -/
def ctxIdx (h : Nat) : Nat := h % 65536
/-- The context of a strand's task. -/
def State.ctxOf (s : State) (n : Nat) : Nat := ctxIdx (s.strand n).ctxh.toNat
/-- A handle is live (R340). -/
def State.liveHandle (s : State) (h : Nat) : Bool :=
  let c := s.ctx (ctxIdx h)
  h < 2 ^ 32 && c.life = .live && c.gen.toNat = h / 65536
/-- The handle of a context. -/
def State.handleOf (s : State) (i : Nat) : Nat := (s.ctx i).gen.toNat * 65536 + i

/-- The registers of a stack. -/
def Package.stack (p : Package) (k : Nat) : Stack := look {} p.hbm k
/-- Change the registers of a stack. -/
def Package.onStack (p : Package) (k : Nat) (f : Stack → Stack) : Package := { p with hbm := upd p.hbm k (f (p.stack k)) }
/-- Change the registers of a stack. -/
def State.onStack (s : State) (k : Nat) (f : Stack → Stack) : State := s.onPkg (fun p => p.onStack k f)
/-- A saturating count of `w` bits. -/
def satAdd (w a n : Nat) : Nat := if a + n < 2 ^ w then a + n else 2 ^ w - 1
/-- A page of a retired stack is redirected by its remap entry (R415). -/
def State.remapped (s : State) (pa : Nat) : Nat :=
  if window pa = .hbm then
    match find? s.pkg.remap (pa / 65536) with
    | some p => p * 65536 + pa % 65536
    | none => pa
  else pa
/-- An HBM4E address whose stack is retired and that no entry remaps (R415). -/
def State.lostStack (s : State) (pa : Nat) : Bool :=
  window pa = .hbm && (s.pkg.stack (stackOf pa)).retired && (find? s.pkg.remap (pa / 65536)).isNone
/-- A pooled or non-volatile address that a device decodes (R426).
(DESIGN CHOICE, log 38) -/
def State.backed (s : State) (pa : Nat) : Bool :=
  match window pa with
  | .pooled => (pa - 0x40000000000) / 0x10000000 < s.pkg.poolUnits
  | .nv => (pa - 0x80000000000) / 0x10000000 < s.pkg.nvUnits
  | _ => true
/-- The key domain of a page (R399); host memory and peer windows have none. -/
def State.domainOf (s : State) (pa : Nat) : Nat :=
  match window pa with
  | .hbm => look 0 s.pkg.domains (pa / 65536)
  | .pooled => look 0 s.pkg.domains (pa / 65536)
  | .nv => look 0 s.pkg.domains (pa / 65536)
  | _ => 0

/-! ## Shadowed tensors -/

/-- The physical address of a virtual one through a page list of an entry. -/
def pageList (m : SMap Nat) (va : Nat) : Nat := look 0 m (va / 65536) * 65536 + va % 65536
/-- The offset of a physical address in a shadowed tensor's primary range (R244). -/
def Shadow.offset (e : Shadow) (pa : Nat) : Option Nat :=
  match e.p0.find? (fun p => p.2 = pa / 65536) with
  | some p =>
    let va := p.1 * 65536 + pa % 65536
    if e.base ≤ va && va < e.base + e.nt * e.tbytes then some (va - e.base) else none
  | none => none
/-- The sector an atomic engine holds (R263). -/
def State.owned? (s : State) (sec : Nat) : Option AtomSector :=
  s.clusters.findSome? (fun p => p.2.store.find? (fun a => a.sector = sec))
/-- Some atomic engine holds a sector. -/
def State.anyOwned (s : State) : Bool := s.clusters.any (fun p => !p.2.store.isEmpty)
/-- The byte at a physical address as every agent sees it: the atomic engine's where one holds the sector, which the home recalls
(R263). -/
def State.cell (s : State) (pa : Nat) : Nat :=
  match s.owned? (pa / 128) with
  | some a => fld a.data.toNat (8 * (pa % 128)) 8
  | none => (look 0 s.mem pa).toNat
/-- The poison bit of a 32-byte atom as every agent sees it (R208, R263). -/
def State.atomP (s : State) (k : Nat) : Bool :=
  match s.owned? (k / 4) with
  | some a => a.poison.getLsbD (k % 4)
  | none => look false s.memP k
/-- The tile-map bit of a tile (R242); 0 where the map's page was never translated. -/
def State.tileBit (s : State) (e : Shadow) (t : Nat) : Bool :=
  let a := e.tmap + t / 8
  (find? e.pm (a / 65536)).isSome && bitOf (s.cell (s.remapped (pageList e.pm a))) (t % 8)
/-- The home die of an address that an agent names (R315), through the remap of retired stacks (R415). -/
def State.homeOf (s : State) (pa : Nat) : Nat := homeDie (s.remapped pa)
/-- Where a byte of copy 1 lies that a current tile's offset names (R244): a page that did not translate has no place, so that the access
fails as one that no device decodes.
(DESIGN CHOICE, log 88) -/
def Shadow.second (e : Shadow) (o pa : Nat) : Nat :=
  if (find? e.p1 ((e.alt + o) / 65536)).isSome then pageList e.p1 (e.alt + o) else 2 ^ 52 + pa
/-- Where an access to a physical address is performed: the current copy of a shadowed tile, or the address itself (R244), both
through the remap of retired stacks (R415). -/
def State.place (s : State) (pa : Nat) : Nat :=
  s.remapped (match s.shadows.findSome? (fun e => (e.offset pa).map (fun o => (e, o))) with
  | some (e, o) => if s.tileBit e (o / e.tbytes) then e.second o pa else pa
  | none => pa)

/-! ## Home sectors -/

/-- The parts of a range by sector: address, length, and the offset in the range. -/
def sectorParts (pa n : Nat) : List (Nat × Nat × Nat) :=
  if n = 0 then []
  else (List.range ((pa + n - 1) / 128 - pa / 128 + 1)).map (fun k =>
    let a := if k = 0 then pa else 128 * (pa / 128 + k)
    let e := 128 * (pa / 128 + k) + 128
    let stop := if e < pa + n then e else pa + n
    (a, stop - a, a - pa))
/-- `n` bytes at the home, little-endian (R6, R317). -/
def State.hGet (s : State) (pa n : Nat) : Nat :=
  if s.shadows.isEmpty && s.pkg.remap.isEmpty && !s.anyOwned then getBytes s.mem pa n
  else pack 8 (fun i => s.cell (s.place (pa + i))) n 0
/-- Some atom of the bytes is poisoned, or its sector's tag does not verify (R396). -/
def State.hPoison (s : State) (pa n : Nat) : Bool :=
  n ≠ 0 && (firstIdx (fun k =>
    let a := s.place (32 * (pa / 32 + k))
    s.atomP (a / 32) || look false s.badTag (a / 128)) ((pa + n - 1) / 32 - pa / 32 + 1) 0).isSome
/-- Some sector of the bytes fails its integrity check (R400). -/
def State.hBad (s : State) (pa n : Nat) : Bool :=
  n ≠ 0 && (firstIdx (fun k => look false s.badTag (s.place (128 * (pa / 128 + k)) / 128)) ((pa + n - 1) / 128 - pa / 128 + 1) 0).isSome
/-- A pooled or non-volatile sector of the bytes holds poison, which its device returns for every atom of the sector (R401).
(DEDUCED, log 78) -/
def State.devPoison (s : State) (pa n : Nat) : Bool :=
  (sectorParts pa n).any (fun p =>
    let q := s.place p.1
    (window q = .pooled || window q = .nv) && (firstIdx (fun k => s.atomP (q / 128 * 4 + k)) 4 0).isSome)
/-- A write of part of a sector at its home meets a tag that does not verify (R397, R400). -/
def State.mergesBad (s : State) (pa n mask : Nat) : Bool :=
  look false s.badTag (s.place pa / 128) && !(decide (n = 128) && decide (mask % 2 ^ 128 = 2 ^ 128 - 1)) && decide (mask % 2 ^ n ≠ 0)
/-- A write of part of a sector in a range meets a tag that does not verify (R397). -/
def State.mergesIn (s : State) (pa n : Nat) : Bool := (sectorParts pa n).any (fun p => s.mergesBad p.1 p.2.1 (2 ^ p.2.1 - 1))
/-- The reads of the failing sectors of a range are counted by their stacks (R396). -/
def State.countInt (s : State) (pa n : Nat) : State :=
  (sectorParts pa n).foldl (fun s p =>
    let q := s.place p.1
    if look false s.badTag (q / 128) then s.onStack (stackOf q) (fun x => { x with int := satAdd 16 x.int 1 }) else s) s
/-- A write of part of a sector at its home whose read fails is counted (R396, R397). -/
def State.countMerge (s : State) (pa n mask : Nat) : State := if s.mergesBad pa n mask then s.countInt pa n else s
/-- The poison bits of the four atoms of a sector. -/
def State.sectorP (s : State) (sec : Nat) : BitVec 4 :=
  BitVec.ofNat 4 (pack 1 (fun a => b2n (look false s.memP (4 * sec + a))) 4 0)

/-- Write masked bytes of one range inside one sector to memory at its very address, with the poison rule of R397 and the version
count of R395. A partial write of a sector whose tag fails leaves it as it is stored (R400).
(DEDUCED, log 39) -/
def State.cellWrite (s : State) (pa n mask value : Nat) (poison : Bool) : State :=
  let sec := pa / 128
  let cover := n = 128 && mask % 2 ^ 128 = 2 ^ 128 - 1
  if look false s.badTag sec && !cover then s
  else
    let mem := loop (fun i m => if bitOf mask i then put 0 m (pa + i) (BitVec.ofNat 8 (fld value (8 * i) 8)) else m) n 0 s.mem
    let memP := loop (fun a m =>
      let k := 4 * sec + a
      let touched := (firstIdx (fun j => 32 * k + j ≥ pa && 32 * k + j < pa + n && bitOf mask (32 * k + j - pa)) 32 0).isSome
      let whole := 32 * k ≥ pa && 32 * k + 32 ≤ pa + n && fld mask (32 * k - pa) 32 = 2 ^ 32 - 1
      if !touched then m else if poison then put false m k true else if whole then put false m k false else m) 4 0 s.memP
    { s with mem, memP, badTag := put false s.badTag sec false,
             version := if window pa = .hbm then put 0 s.version sec (look 0 s.version sec + 1) else s.version }

/-- Kiln's half of a non-volatile address. -/
def kilnDie (pa : Nat) : Nat := 2 + fld pa 16 1
/-- The image of a sector as it stands at the home. -/
def State.imageOf (s : State) (sec : Nat) (stores : List (Nat × Nat × Nat × Nat × Nat)) : KilnImage :=
  ⟨sec, BitVec.ofNat 1024 (getBytes s.mem (128 * sec) 128), s.sectorP sec, false, false, stores, []⟩
/-- The sector's image enters the buffer, in the place of an older one (R406). -/
def Die.enter (x : Die) (im : KilnImage) : Die :=
  let y := { x with nvLost := x.nvLost.filter (fun k => k ≠ im.sector) }
  match x.images.find? (fun j => j.sector = im.sector) with
  | some old =>
    { y with images := x.images.filter (fun j => j.sector ≠ im.sector) ++
        [{ im with stores := old.stores ++ im.stores, older := old.older ++ [(old.data, old.poison)] }] }
  | none => { y with images := x.images ++ [im] }
/-- The buffer of a half has room for a write's image (R406): a full one holds every write until an image leaves. -/
def Die.kilnRoom (x : Die) : Bool := x.images.length < 16384
/-- The store that a write performs: strand, context handle, launch, TASK, commit number. -/
abbrev StoreId := Nat × Nat × Nat × Nat × Nat
/-- A write at a very address must be held: its sector is non-volatile and its image cannot enter (R406), as none does in the viral
state (R449). -/
def State.rawHold (s : State) (q : Nat) : Bool :=
  window q = .nv && (s.pkg.viral || (let x := s.die (kilnDie q); !x.heldWrites.isEmpty || !x.kilnRoom))
/-- A sector can go back to its home now: no engine holds it, or it is clean, or its image can enter (R263, R406). -/
def State.canRecall (s : State) (sec : Nat) : Bool :=
  match s.owned? sec with
  | none => true
  | some a => !a.dirty || !s.rawHold (128 * sec)
/-- A sector an atomic engine holds goes back to its home and is released (R263), with its image where it is non-volatile (R406).
(DEDUCED, log 22) -/
def State.recall (s : State) (sec : Nat) : State :=
  match s.owned? sec with
  | none => s
  | some a =>
    let s1 : State := { s with clusters := s.clusters.map (fun p => (p.1, { p.2 with store := p.2.store.filter (fun b => b.sector ≠ sec) })) }
    if !a.dirty then s1
    else
      let s2 := s1.cellWrite (128 * sec) 128 (2 ^ 128 - 1) a.data.toNat false
      let s3 := { s2 with memP := loop (fun k m => if a.poison.getLsbD k then put false m (4 * sec + k) true else m) 4 0 s2.memP }
      if window (128 * sec) = .nv then s3.onDie (kilnDie (128 * sec)) (fun x => x.enter (s3.imageOf sec a.stores)) else s3
/-- Write a range inside one sector at its very address, with its image where the sector is non-volatile; the caller has found
room. -/
def State.rawWrite (s : State) (q n mask value : Nat) (poison : Bool) (store : Option StoreId) : State :=
  let s1 := (s.recall (q / 128)).cellWrite q n mask value poison
  if window q = .nv then s1.onDie (kilnDie q) (fun x => x.enter (s1.imageOf (q / 128) store.toList)) else s1
/-- Write pieces of one sector at its very address as one write (R397): `ps` are offsets in the sector, lengths, values and poison, which
cover it together, so that no tag is checked; one version and one image.
(DEDUCED, log 39) -/
def State.rawPieces (s : State) (sec : Nat) (ps : List (Nat × Nat × Nat × Bool)) (store : Option StoreId) : State :=
  let s0 := s.recall sec
  let s1 : State := { s0 with badTag := put false s0.badTag sec false }
  let s2 := ps.foldl (fun s p => s.cellWrite (128 * sec + p.1) p.2.1 (2 ^ p.2.1 - 1) p.2.2.1 p.2.2.2) s1
  let s3 : State := { s2 with
    version := if window (128 * sec) = .hbm then put 0 s.version sec (look 0 s.version sec + 1) else s2.version }
  if window (128 * sec) = .nv then s3.onDie (kilnDie (128 * sec)) (fun x => x.enter (s3.imageOf sec store.toList)) else s3
/-- Write at the home a range inside one sector. -/
def State.homeWrite (s : State) (pa n mask value : Nat) (poison : Bool) (store : Option StoreId) : State :=
  s.rawWrite (s.place pa) n mask value poison store
/-- A write of a non-volatile sector must be held (R406). -/
def State.mustHold (s : State) (pa : Nat) : Bool := s.rawHold (s.place pa)

/-- Write a whole range at the home, sector by sector. -/
def State.homeRange (s : State) (pa n value : Nat) (poison : Bool) (store : Option StoreId) : State :=
  (sectorParts pa n).foldl (fun s p => s.homeWrite p.1 p.2.1 (2 ^ p.2.1 - 1) (fld value (8 * p.2.2) (8 * p.2.1)) poison store) s

/-! ## The host's lines -/

/-- The state of a host-memory line (R427). -/
def State.line (s : State) (l : Nat) : Mesi := look .i s.pkg.lines l
/-- The host's lines that a die's home slices hold (R427). -/
def Package.linesOn (p : Package) (d : Nat) : List (Nat × Mesi) := p.lines.filter (fun q => homeDie (64 * q.1) = d)
/-- Room for one more line of the host in a die's home slices (R4, R427): where the lines and `copies` copy sectors fill them, the die's
first line is evicted, M by DirtyEvict and E or S by CleanEvict; the data of an M line is where the host's memory holds it.
(DESIGN CHOICE, log 34) -/
def Package.lineRoom (p : Package) (copies l : Nat) : SMap Mesi :=
  if p.lines.length + 2 * copies < cacheLines || (find? p.lines l).isSome then p.lines
  else
    let mine := p.linesOn (homeDie (64 * l))
    if mine.length + 2 * copies < cacheLines then p.lines
    else match mine with
      | q :: _ => del p.lines q.1
      | [] => p.lines
/-- Set the state of a host-memory line. -/
def State.setLine (s : State) (l : Nat) (x : Mesi) : State :=
  s.onPkg (fun p =>
    { p with lines := put .i (if x = .i then p.lines else p.lineRoom (s.die (homeDie (64 * l))).copies.length l) l x })
/-- Send a RdShared or RdOwn that is not on its way; none leaves in the viral state (R449).
(DEDUCED, log 60) -/
def State.askLine (s : State) (l : Nat) (own : Bool) : State :=
  if s.pkg.viral || s.pkg.cxlReqs.contains (l, own) then s else s.onPkg (fun p => { p with cxlReqs := p.cxlReqs ++ [(l, own)] })
/-- The 64-byte lines of a range. -/
def linesOf (pa n : Nat) : List Nat :=
  if n = 0 then [] else (List.range ((pa + n - 1) / 64 - pa / 64 + 1)).map (fun k => pa / 64 + k)
/-- The snoop filter's entry of a line (R428).
(DEDUCED, log 59) -/
def State.filterOf (s : State) (l : Nat) : Option Bool :=
  ((s.die (homeDie (64 * l))).filter.find? (fun e => e.1 = l)).map (fun e => e.2.1)
/-- Send a back-invalidation that is not on its way (R428); none leaves in the viral state (R449).
(DEDUCED, log 60) -/
def State.askBisnp (s : State) (l : Nat) (inv : Bool) : State :=
  if s.pkg.viral then s
  else s.onDie (homeDie (64 * l)) (fun x => if x.bisnp.contains (l, inv) then x else { x with bisnp := x.bisnp ++ [(l, inv)] })
/-- The port of a host-memory line is lost (R452). -/
def State.portLost (s : State) (pa : Nat) : Bool :=
  if fld pa 16 1 = 0 then s.pkg.lost0 else s.pkg.lost1

/-- What an access to the home meets: it can be performed; it waits for an answer; or it never will (R426, R444, R452): cause and
detail. -/
inductive Gate where
  | ready
  | waits
  | dead (cause detail : Nat)
  deriving DecidableEq, Repr

/-- Why an access at its very address will never be performed: its port is lost, no device decodes it, or it has no home (R316, R426,
R452): cause and detail. -/
def State.deadAt (s : State) (q : Nat) : Option (Nat × Nat) :=
  match window q with
  | .hbm => none
  | .host => if s.portLost q then some (0x16, 0x0A00) else none
  | .pooled => if s.backed q then none else some (0x16, 0x0A02)
  | .nv => if s.backed q then none else some (0x16, 0x0A02)
  | _ => some (0x16, 0x0A02)
/-- Bytes of a range lie in the page of a retiring stack that the firmware moves (R415, R453). -/
def State.inTransit (s : State) (q n : Nat) : Bool :=
  match s.pkg.transit with
  | some (p, _) => decide (q / 65536 ≤ p) && decide (p ≤ (q + n - 1) / 65536)
  | none => false
/-- Whether a range at its very address can be read or written now (R427, R428, R453), and the machine with the requests sent that it
lacks. -/
def State.gateAt (s : State) (q n : Nat) (write : Bool) : State × Gate :=
  match s.deadAt q with
  | some (x, y) => (s, .dead x y)
  | none =>
    if s.inTransit q n then (s, .waits)
    else match window q with
    | .host =>
      let lack := (linesOf q n).filter (fun l => match s.line l with
        | .i => true | .s => write | .e => false | .m => false)
      if lack.isEmpty then ((if write then (linesOf q n).foldl (fun s l => s.setLine l .m) s else s), .ready)
      else (lack.foldl (fun s l => s.askLine l write) s, .waits)
    | .hbm =>
      let lack := (linesOf q n).filter (fun l => match s.filterOf l with | none => false | some any => write || any)
      if lack.isEmpty then (s, .ready) else (lack.foldl (fun s l => s.askBisnp l write) s, .waits)
    | _ => (s, .ready)
/-- The sectors of a range at its very address. -/
def sectorsOf (q n : Nat) : List Nat := (sectorParts q n).map (fun p => p.1 / 128)
/-- The machine with the atomic engines' sectors of a range at its very address back at their homes, where they can go now (R263, R406). -/
def State.recallAt (s : State) (q n : Nat) : Option State :=
  if (sectorsOf q n).all s.canRecall then some ((sectorsOf q n).foldl State.recall s) else none
/-- Whether a range at its very address can be read or written now (R263, R427, R428): an atomic engine's sectors are recalled first. -/
def State.gateRaw (s : State) (q n : Nat) (write : Bool) : State × Gate :=
  match s.gateAt q n write with
  | (s1, .ready) => (match s1.recallAt q n with | some s2 => (s2, .ready) | none => (s1, .waits))
  | r => r
/-- Whether a range can be read or written at its home now (R244). -/
def State.gate (s : State) (pa n : Nat) (write : Bool) : State × Gate := s.gateRaw (s.place pa) n write
/-- The lines of a range in which a mask has a byte (R427), each to be read or written. -/
def linesAt (pa n mask : Nat) (write : Bool) : List (Nat × Nat × Bool) :=
  (linesOf pa n).filterMap (fun l =>
    let a := if 64 * l < pa then pa else 64 * l
    let e := if 64 * l + 64 < pa + n then 64 * l + 64 else pa + n
    if fld mask (a - pa) (e - a) = 0 then none else some (a, e - a, write))
/-- Gate a list of reads and writes: the first that is not ready decides. -/
def State.gates (s : State) : List (Nat × Nat × Bool) → State × Gate
  | [] => (s, .ready)
  | (pa, n, w) :: l =>
    match s.gate pa n w with
    | (s1, .ready) => s1.gates l
    | r => r

/-- The package enters the viral state (R448, R449): a reason is kept once; tasks and the sequencer stop in their own steps. -/
def State.goViral (s : State) (reason : Nat) : State :=
  if s.pkg.viral then s else s.onPkg (fun p => { p with viral := true, vreason := reason, gs := { p.gs with state := .off, attempt := none, submitted := false, event := none } })
/-- A read or a partial write of a structure that belongs to no context fails its integrity check (R396, R400, R448): it is counted, and
the package becomes viral.
(DEDUCED, log 79) -/
def State.structBad (s : State) (pa n : Nat) : State := (s.countInt pa n).goViral 1
/-- CONS of a queue the host fills passes an entry whose result is performed, PROD of one the device fills an entry that is, and an
event of EQ is signalled (R436, R438). -/
def Package.passed (p : Package) : Option Nat → Package
  | none => p
  | some k =>
    let q := look {} p.queues k
    if k < 4 then { p with queues := upd p.queues k { q with cons := q.cons + 1 } }
    else { p with queues := upd p.queues k { q with prod := q.prod + 1 }, msix := if k = 4 then p.msix + 1 else p.msix }
/-- A write of an agent for a context, or for none, meets a tag that does not verify, or so does a read of its queue: it is counted, and what
R400 makes of it follows before the next turn.
(DEDUCED, log 79) -/
def State.failsFor (s : State) (ctx : Option Nat) (pa n : Nat) : State :=
  (s.countInt pa n).onPkg (fun p => { p with failed := p.failed ++ [ctx] })
/-- A device agent's write meets a tag that does not verify (R397). -/
def State.postFails (s : State) (w : Posted) : State := if s.mergesIn w.pa w.n then s.failsFor w.ctx w.pa w.n else s
/-- Perform a device agent's write, where its line allows it now (R436); one that can never be performed is over. -/
def State.performPosted (s : State) (w : Posted) : State × Bool :=
  match s.gate w.pa w.n true with
  | (s1, .ready) => (((s1.postFails w).homeRange w.pa w.n w.value false none).onPkg (fun p => p.passed w.queue), true)
  | (s1, .waits) => (s1, false)
  | (s1, .dead _ _) => (s1.onPkg (fun p => p.passed w.queue), true)
/-- A device agent's write inside a line (R436): at once where nothing is posted before it and its line allows it, otherwise posted.
(DEDUCED, log 36) -/
def State.postOne (s : State) (w : Posted) : State :=
  let later (s : State) : State := s.onPkg (fun p => { p with posted := p.posted ++ [w] })
  if s.pkg.posted.isEmpty then
    match s.performPosted w with
    | (s1, true) => s1
    | (s1, false) => later s1
  else later s
/-- The parts of a device agent's write by line, the last with the queue whose entry ends there; `ctx` is the context it acts for. -/
def postParts (pa n value : Nat) (queue ctx : Option Nat) : List Posted :=
  (linesOf pa n).map (fun l =>
    let a := if 64 * l < pa then pa else 64 * l
    let e := if 64 * l + 64 < pa + n then 64 * l + 64 else pa + n
    ⟨a, e - a, fld value (8 * (a - pa)) (8 * (e - a)), if e = pa + n then queue else none, ctx⟩)
/-- A device agent's write to host memory or HBM4E with release at .SY, line by line, in the order of such writes (R334, R436).
(DEDUCED, log 36) -/
def State.post (s : State) (pa n value : Nat) (queue : Option Nat := none) (ctx : Option Nat := none) : State :=
  (postParts pa n value queue ctx).foldl State.postOne s
/-- Perform posted writes, oldest first, up to one whose line is not there.
(DEDUCED, log 36) -/
def State.flushSome : Nat → State → State
  | 0, s => s
  | f + 1, s =>
    match s.pkg.posted with
    | [] => s
    | w :: l =>
      match s.performPosted w with
      | (s1, true) => State.flushSome f (s1.onPkg (fun p => { p with posted := l }))
      | (s1, false) => s1
/-- Perform the posted writes that can be performed now, in their order. -/
def State.flushPosted (s : State) : State := s.flushSome s.pkg.posted.length

/-! ## The viral state, and peers -/

/-- The peer of an address (R443). -/
def peerOf (pa : Nat) : Nat := fld pa 41 10
/-- The offset in a peer's window. -/
def peerOff (pa : Nat) : Nat := pa % 2 ^ 41
/-- The fence bit of a peer (R450). -/
def Package.fenced (p : Package) (k : Nat) : Bool := (look 0 p.fences (k / 64)).getLsbD (k % 64)
/-- What becomes of a request to a peer's window: a failure, the package's own inbound path at an address, or a request sent. -/
inductive PeerWay where
  | dead (cause detail : Nat)
  | own (pa : Nat)
  | send (peer : Nat)
  deriving DecidableEq, Repr
/-- The way of a request to a peer's window (R443, R444, R450). -/
def State.peerWay (s : State) (pa : Nat) : PeerWay :=
  if !s.pkg.gvalid then .dead 0x16 0x0A02
  else if peerOff pa ≥ hbmEnd then .dead 0x16 0x0A02
  else if s.pkg.fenced (peerOf pa) then .dead 0x18 0x0A01
  else if peerOf pa = s.pkg.pkgnum then .own (peerOff pa)
  else .send (peerOf pa)
/-- An agent outside the package, or one on the inbound path, may reach a page (R399): key domain 0. -/
def State.outsider (s : State) (pa : Nat) : Bool := s.domainOf pa = 0
/-- A refused access of another key domain is counted (R399). -/
def State.countRefusal (s : State) (pa : Nat) : State :=
  if s.outsider pa then s else s.onPkg (fun p => { p with domainRefusals := p.domainRefusals + 1 })
/-- An engine's request to a peer for a sector leaves, unless it is on its way or the package is viral (R444, R449). -/
def State.askPeer (s : State) (q : PeerOut) : State :=
  if s.pkg.viral || s.pkg.peers.contains q then s else s.onPkg (fun p => { p with peers := p.peers ++ [q] })

/-! ## Copy sectors -/

/-- A copy sector of a die (R317); none held has no clean and no local byte. -/
def Die.copy (x : Die) (sec : Nat) : CopySector := look ⟨0, 0, 0, 0⟩ x.copies sec
/-- Copies with room for one more sector (R4) beside `lines` lines of the host: the first with no local byte gives way where the cache is
full.
(DESIGN CHOICE, log 34) -/
def copyRoom (m : SMap CopySector) (lines sec : Nat) : SMap CopySector :=
  if 2 * m.length + lines < cacheLines || (find? m sec).isSome then m
  else match m.find? (fun p => p.2.loc = 0) with
    | some p => del m p.1
    | none => m
/-- Replace a copy sector, beside `lines` lines of the host; one with no byte left is not held. -/
def Die.setCopy (x : Die) (lines sec : Nat) (c : CopySector) : Die :=
  if c.clean = 0 && c.loc = 0 then { x with copies := del x.copies sec } else { x with copies := upd (copyRoom x.copies lines sec) sec c }
/-- Change a copy sector of a die (R317), within what its slices hold (R4). -/
def State.onCopy (s : State) (d sec : Nat) (f : CopySector → CopySector) : State :=
  s.onDie d (fun x => x.setCopy (s.pkg.linesOn d).length sec (f (x.copy sec)))
/-- The bytes of a range as a mask of its sector. -/
def rangeMask (pa n : Nat) : BitVec 128 := BitVec.ofNat 128 ((2 ^ n - 1) * 2 ^ (pa % 128))
/-- A copy sector serves a range inside it (R317). -/
def CopySector.serves (c : CopySector) (pa n : Nat) : Bool :=
  (rangeMask pa n &&& ~~~(c.clean ||| c.loc)) = 0
/-- The bytes of a range of a copy sector. -/
def CopySector.get (c : CopySector) (pa n : Nat) : Nat := fld c.data.toNat (8 * (pa % 128)) (8 * n)
/-- Some atom with a byte of a mask of the sector is poisoned in the copy. -/
def CopySector.bad (c : CopySector) (m : BitVec 128) : Bool :=
  (firstIdx (fun k => c.poison.getLsbD k && decide (fld m.toNat (32 * k) 32 ≠ 0)) 4 0).isSome
/-- Expand a byte mask to bits. -/
def byteBits (m : BitVec 128) : BitVec 1024 := BitVec.ofNat 1024 (pack 8 (fun i => if m.getLsbD i then 0xFF else 0) 128 0)
/-- The poison bits after bytes of a mask are written with or without poison: an atom all of whose bytes are written takes the
data's, any other keeps its own unless the data is poisoned. -/
def mixPoison (old : BitVec 4) (m : BitVec 128) (poison : Bool) : BitVec 4 :=
  BitVec.ofNat 4 (pack 1 (fun a =>
    let w := fld m.toNat (32 * a) 32
    b2n (if w = 0 then old.getLsbD a else if poison then true else if w = 2 ^ 32 - 1 then false else old.getLsbD a)) 4 0)
/-- A store of this die into the copy sector (R317): the clean bytes go, its own become local. -/
def CopySector.store (c : CopySector) (m : BitVec 128) (data : BitVec 1024) (poison : Bool) : CopySector :=
  let keep := byteBits m
  { data := (c.data &&& ~~~keep) ||| (data &&& keep), clean := 0, loc := c.loc ||| m, poison := mixPoison c.poison m poison }
/-- A fill merges without overwriting local bytes (R317). -/
def CopySector.fill (c : CopySector) (data : BitVec 1024) (poison : BitVec 4) : CopySector :=
  let keep := byteBits c.loc
  { data := (c.data &&& keep) ||| (data &&& ~~~keep), clean := ~~~c.loc, loc := c.loc,
    poison := BitVec.ofNat 4 (pack 1 (fun a =>
      b2n (poison.getLsbD a || (c.poison.getLsbD a && fld c.loc.toNat (32 * a) 32 ≠ 0))) 4 0) }
/-- Bytes of an acknowledged write-through become clean where no younger local write to them is outstanding (R317). -/
def CopySector.ack (c : CopySector) (m : BitVec 128) : CopySector :=
  { c with loc := c.loc &&& ~~~m, clean := c.clean ||| (c.loc &&& m) }
/-- Drop every clean byte of a die's copy sectors and every fill on its way (R319).
(DEDUCED, log 43) -/
def Die.dropClean (x : Die) : Die :=
  { x with
    copies := x.copies.filterMap (fun p => if p.2.loc = 0 then none else some (p.1, { p.2 with clean := 0 })),
    flights := x.flights.filter (fun f => match f with | .fill _ => false | .through _ _ _ _ _ _ => true) }
/-- The bytes of a sector that write-throughs still on their way carry. -/
def Die.flying (x : Die) (sec : Nat) : BitVec 128 :=
  x.flights.foldl (fun m f => match f with
    | .through s' m' _ _ _ _ => if s' = sec then m ||| m' else m
    | .fill _ => m) 0
/-- A write of an agent of a die to bytes of a sector homed elsewhere, performed at its home at once: the copy's clean bytes go, and
its own are clean unless a younger local write of them is on its way (R317). -/
def CopySector.through (c : CopySector) (m : BitVec 128) (data : BitVec 1024) (poison : Bool) : CopySector :=
  let d := c.store m data poison
  { d with loc := c.loc, clean := m &&& ~~~c.loc }
/-- A write-through of the sectors of a range is on its way from a die: a later write of an agent there must not overtake it (R317). -/
def State.agentBusy (s : State) (d pa n : Nat) : Bool :=
  (s.die d).flights.any (fun f => match f with
    | .through k _ _ _ _ _ => (sectorParts pa n).any (fun p => p.1 / 128 = k)
    | .fill _ => false)
/-- An engine of a die writes a range (R317, R318): at the homes, and where another die is the home the die's own copy sector takes the
bytes as an acknowledged write. -/
def State.agentWrite (s : State) (d pa n value : Nat) (poison : Bool) (store : Option StoreId) : State :=
  (sectorParts pa n).foldl (fun s p =>
    let v := fld value (8 * p.2.2) (8 * p.2.1)
    let s1 := s.homeWrite p.1 p.2.1 (2 ^ p.2.1 - 1) v poison store
    if s.homeOf p.1 = d then s1
    else s1.onCopy d (p.1 / 128) (fun c => c.through (rangeMask p.1 p.2.1) (BitVec.ofNat 1024 (v * 2 ^ (8 * (p.1 % 128)))) poison)) s
/-- Ask the home for a fill unless one is on its way. -/
def Die.askFill (x : Die) (sec : Nat) : Die :=
  if x.flights.contains (.fill sec) then x else { x with flights := x.flights ++ [.fill sec] }

end Sys2Proof.Machine
end

