-- ==== Sys2Proof/Machine/Translate.lean ====
section
/-! DEFINITION. Address spaces, walks, TLBs, access counters and the reads of engines (R323 to R329, R333, R399). -/

namespace Sys2Proof.Machine

/-- Index of a virtual address at a level of the walk (R324). -/
def walkIndex (va lvl : Nat) : Nat :=
  match lvl with
  | 1 => fld va 48 9
  | 2 => fld va 39 9
  | 3 => fld va 30 9
  | 4 => fld va 21 9
  | _ => fld va 16 5
/-- Bytes of a table (R324). -/
def tableSize (lvl : Nat) : Nat := if lvl = 5 then 256 else 4096
/-- A leaf as a successful walk returns it: page base, 2 MiB or 64 KiB, and bits R, W, X, CNT from bit 0 up. -/
structure Leaf where
  base : Nat
  big : Bool
  bits : Nat
  deriving DecidableEq, Repr
/-- The outcome of a walk (R326), with the non-leaf entries it read and the address of the entry it ended at; an entry whose sector
fails its integrity check; or the machine with what the walk waits for asked. -/
inductive Walk where
  | leaf (l : Leaf) (seen : List (Nat × Word)) (entry : Nat)
  | fault (cause detail : Nat)
  | replay (big : Bool)
  | bad (pa : Nat)
  | wait (s : State)

/-- What reading a table entry gives. -/
inductive Entry where
  | ok (w : Word) (poison : Bool)
  | bad
  | wait (s : State)
/-- An agent's read of a range that an atomic engine holds recalls it first (R263). -/
def State.heldByEngine (s : State) (pa n : Nat) : Bool := (sectorsOf (s.place pa) n).any (fun k => (s.owned? k).isSome)
/-- A table entry through a die's walker cache (R328), or at its home, which the host's own copy of the line reaches first (R428). -/
def State.walkRead (s : State) (d asid pa : Nat) : Entry :=
  match find? (s.die d).walker (asid * 2 ^ 52 + pa) with
  | some w => .ok w.1 false
  | none =>
    match s.gate pa 8 false with
    | (s1, .waits) => .wait s1
    | (s1, _) =>
      if s.heldByEngine pa 8 then .wait s1
      else if s.hBad pa 8 then .bad
      else .ok (BitVec.ofNat 64 (s.hGet pa 8)) (s.hPoison pa 8)
/-- Reserved bits of a valid entry are set, or L is illegal at its level (R325). -/
def badEntry (p lvl : Nat) : Bool :=
  let l := bitOf p 1
  bitOf p 63 || bitOf p 6 || bitOf p 5
    || (if l then lvl ≤ 3 || fld p 8 (if lvl = 5 then 8 else 13) ≠ 0
        else lvl = 5 || bitOf p 7 || fld p 2 3 ≠ 0 || (lvl ≤ 3 && fld p 8 4 ≠ 0))
/-- The walk from a level on (R326). -/
def State.walkFrom (s : State) (d asid va : Nat) : Nat → Nat → Nat → List (Nat × Word) → Walk
  | 0, _, _, _ => .fault 0x11 0x0613
  | f + 1, lvl, t, seen =>
    if t + tableSize lvl > hbmEnd then .fault 0x11 0x0614
    else
      let a := t + 8 * walkIndex va lvl
      if s.domainOf a ≠ 0 then .fault 0x11 0x0901
      else
        match s.walkRead d asid a with
        | .wait s1 => .wait s1
        | .bad => .bad a
        | .ok w poison =>
          let p := w.toNat
          if poison then .fault 0x16 0x0600
          else if !bitOf p 0 then
            if lvl ≥ 4 && bitOf p 1 && bitOf p 6 then .replay (lvl = 4) else .fault 0x10 (0x0600 + lvl)
          else if badEntry p lvl then .fault 0x11 0x0613
          else if bitOf p 1 then
            let base := fld p 8 44 * 256
            .leaf ⟨base, lvl = 4, b2n (bitOf p 2) + 2 * b2n (bitOf p 3) + 4 * b2n (bitOf p 4) + 8 * b2n (bitOf p 7)⟩ seen a
          else State.walkFrom s d asid va f (lvl + 1) (fld p 8 44 * 256) (seen ++ [(a, w)])
/-- The walk of R326 by the walker of a die. An address space table in a page outside domain 0, or whose sector fails its integrity
check, makes the package viral (R399, R400, R448).
(DESIGN CHOICE, log 35; DEDUCED, log 79) -/
def State.walk (s : State) (d asid va : Nat) : Walk :=
  let e := s.pkg.asidBase + 16 * asid
  if s.domainOf e ≠ 0 then .wait (s.goViral 2)
  else
    match s.walkRead d asid e, s.walkRead d asid (e + 8) with
    | .bad, _ => .wait ((s.countInt e 8).goViral 1)
    | _, .bad => .wait ((s.countInt (e + 8) 8).goViral 1)
    | .wait s1, _ => .wait s1
    | _, .wait s1 => .wait s1
    | .ok r p1, .ok q p2 =>
      let root := r.toNat
      if p1 || p2 then .fault 0x16 0x0600
      else if !bitOf root 0 || fld root 1 11 ≠ 0 || fld root 52 12 ≠ 0 || q.toNat / 65536 ≠ 0 then .fault 0x11 0x0616
      else s.walkFrom d asid va 5 1 (fld root 12 40 * 4096) [(e, r), (e + 8, q)]
/-- Access-counter threshold of an ASID (R323): as a die's walker caches the entry, or as it stands where the cache has let it go. -/
def State.threshold (s : State) (d asid : Nat) : Nat :=
  let e := s.pkg.asidBase + 16 * asid + 8
  match find? (s.die d).walker (asid * 2 ^ 52 + e) with
  | some w => w.1.toNat % 65536
  | none => s.hGet e 2

/-- Physical address of a virtual one in a leaf. -/
def Leaf.pa (l : Leaf) (va : Nat) : Nat := l.base + va % (if l.big then 0x200000 else 0x10000)
/-- The permission a leaf denies for a kind, read before write (R326, R327). -/
def denied (bits : Nat) : Kind → Option Nat
  | .read => if bitOf bits 0 then none else some 0x0610
  | .write => if bitOf bits 1 then none else some 0x0611
  | .fetch => if bitOf bits 2 then none else some 0x0612
  | .both => if !bitOf bits 0 then some 0x0610 else if !bitOf bits 1 then some 0x0611 else none
/-- A context may reach a page (R399). -/
def State.domainOk (s : State) (keydom pa : Nat) : Bool := s.domainOf pa = 0 || s.domainOf pa = keydom
/-- A translation's address lies where no translation may (R314, R415). -/
def State.outside (s : State) (pa : Nat) : Bool := window pa = .regs || window pa = .none || s.lostStack pa
/-- The outcome of a translation. -/
inductive Tr where
  | ok (pa : Nat) (l : Leaf)
  | fault (cause detail : Nat)
  | replay
  | wait (s : State)
/-- Judge a leaf for an access (R326, R399). -/
def State.judgeLeaf (s : State) (keydom : Nat) (l : Leaf) (va : Nat) (k : Kind) : Tr :=
  let pa := l.pa va
  if s.outside pa then .fault 0x11 0x0615
  else match denied l.bits k with
    | some d => .fault 0x11 d
    | none => if s.domainOk keydom pa then .ok pa l else .fault 0x11 0x0900
/-- Translate for an engine acting for a context, by the walker of a die (R326, R327). -/
def State.translate (s : State) (d c va : Nat) (k : Kind) : Tr :=
  match s.walk d (s.ctx c).asid va with
  | .fault x y => .fault x y
  | .replay _ => .replay
  | .bad _ => .fault 0x15 0x0900
  | .wait s1 => .wait s1
  | .leaf l _ _ => s.judgeLeaf (s.ctx c).keydom l va k
/-- The stack whose read of an address's translation or data failed its integrity check counts it (R396). -/
def State.countVa (s : State) (d c va : Nat) : State :=
  match s.walk d (s.ctx c).asid (va % 2 ^ 57) with
  | .bad pa => s.countInt pa 8
  | .leaf l _ _ => s.countInt (l.pa (va % 2 ^ 57)) 1
  | _ => s

/-! ## TLBs -/

/-- The TLB key of a page (R328). -/
def tlbKey (asid va : Nat) : Nat := asid * 2 ^ 41 + fld va 16 41
/-- The entry of the least stamp gives way to a new key in a full map of `cap` entries (R328). -/
def lruRoom {α : Type} (stamp : α → Nat) (m : SMap α) (cap key : Nat) : SMap α :=
  if m.length < cap || (find? m key).isSome then m
  else match m with
    | [] => m
    | p :: l => del m (l.foldl (fun a b => if stamp b.2 < stamp a.2 then b else a) p).1
/-- The stamp after every one of a map. -/
def lruNext {α : Type} (stamp : α → Nat) (m : SMap α) : Nat := m.foldl (fun k p => if stamp p.2 ≥ k then stamp p.2 + 1 else k) 0
/-- Install a translation in a TLB of `cap` entries, its least recently used giving way where it is full (R328). -/
def tlbPut (m : SMap TlbEntry) (cap key : Nat) (e : TlbEntry) : SMap TlbEntry :=
  upd (lruRoom TlbEntry.use m cap key) key { e with use := lruNext TlbEntry.use m }
/-- A use of a TLB's entry (R328). -/
def tlbUse (m : SMap TlbEntry) (key : Nat) : SMap TlbEntry :=
  match find? m key with
  | some e => upd m key { e with use := lruNext TlbEntry.use m }
  | none => m
/-- A TLB entry for a leaf. -/
def Leaf.tlb (l : Leaf) : TlbEntry := ⟨l.base, l.big, l.bits, 0⟩
/-- The leaf of a TLB entry. -/
def TlbEntry.leaf (e : TlbEntry) : Leaf := ⟨e.base, e.big, e.bits⟩
/-- The core TLB's entry for a strand's address. -/
def State.coreTlb (s : State) (n va : Nat) : Option TlbEntry :=
  find? (s.core (n / 8)).tlb (tlbKey (s.ctx (s.ctxOf n)).asid va)
/-- Translate a strand's access through its core TLB and, where the page's walk has returned a fault, by its answer (R223). -/
inductive StrandTr where
  | ok (pa : Nat) (l : Leaf)
  | fault (cause detail : Nat)
  | miss
  deriving DecidableEq, Repr
/-- Translation of a strand's access of a kind (R223, R326). -/
def State.strandTr (s : State) (n va : Nat) (k : Kind) : StrandTr :=
  match (s.strand n).walk.filter (fun a => a.va.toNat = va && a.kind = k) with
  | some a => .fault a.cause a.detail
  | none =>
    match s.coreTlb n va with
    | none => .miss
    | some e =>
      match s.judgeLeaf (s.ctx (s.ctxOf n)).keydom e.leaf va k with
      | .ok pa l => .ok pa l
      | .fault x y => .fault x y
      | _ => .miss
/-- A strand's access uses its core TLB's entry (R328). -/
def State.tlbUsed (s : State) (n va : Nat) : State :=
  s.onCore (n / 8) (fun co => { co with tlb := tlbUse co.tlb (tlbKey (s.ctx (s.ctxOf n)).asid va) })

/-! ## Access counters -/

/-- Count an access whose leaf has CNT set at a die (R333): the machine's counters, and whether a notification is due. -/
def Die.count (x : Die) (key thr : Nat) : Die × Bool :=
  let old := (x.counters.find? (fun p => p.1 = key)).map (fun p => p.2)
  let rest := x.counters.filter (fun p => p.1 ≠ key)
  let kept := if old.isNone && rest.length ≥ 4096 then rest.drop 1 else rest
  let v := old.getD 0 + 1
  if thr ≠ 0 && v ≥ thr then ({ x with counters := kept ++ [(key, 0)] }, true)
  else ({ x with counters := kept ++ [(key, if v > 65535 then 65535 else v)] }, false)

/-! ## Reads and writes of engines -/

/-- What an engine's read of its own structure gives: the bytes and whether some were poisoned (a read that fails gives poison, R426,
R443); a fault with its address; an integrity failure with its address; held by a migration; or waiting for the host's lines, an atomic
engine or a peer, the requests sent. -/
inductive Rd where
  | ok (v : Nat) (poison : Bool)
  | fault (cause detail va : Nat)
  | bad (va : Nat)
  | replay
  | wait (s : State)

/-- Read bytes at physical addresses as an agent of the device, sector by sector (R436); a sector may fail its integrity check (R396). -/
def State.readPa (s : State) (pa n : Nat) : Rd :=
  match s.gate pa n false with
  | (s1, .ready) =>
    if s.heldByEngine pa n then .wait s1 else if s.hBad pa n then .bad pa else .ok (s.hGet pa n) (s.hPoison pa n || s.devPoison pa n)
  | (s1, .waits) => .wait s1
  | (_, .dead _ _) => .ok 0 true
/-- What a peer has answered an engine and the engine has not used yet. -/
def State.peerWord (s : State) (who : Asker) (c sector : Nat) (write : Bool) : Option PeerWord :=
  s.pkg.peerData.find? (fun w => decide (w.req.who = who) && decide (w.req.ctx = c) && decide (w.req.write = write) && decide (w.sector = sector))
/-- The step of an engine is over: what peers answered for it is used (R444: their data is not kept), unless it still waits for one.
(DESIGN CHOICE, log 80) -/
def State.used (s : State) (who : Asker) : State :=
  if s.pkg.peers.any (fun q => q.engine.any (fun e => decide (e.2.who = who))) then s
  else s.onPkg (fun p => { p with peerData := p.peerData.filter (fun w => w.req.who ≠ who) })
/-- A step of an engine, with what peers answered for it used where it is over. -/
def serving (who : Asker) : Host.Outcome State Fault Refusal → Host.Outcome State Fault Refusal
  | .next t => .next (t.used who)
  | r => r
/-- A read inside one sector of a peer's window by an engine of a die that acts for a context (R443 to R445): by the package's own
inbound path, or by a request, whose answer serves the step that asked.
(DESIGN CHOICE, log 80) -/
def State.readPeer (s : State) (who : Asker) (d c pa n va : Nat) : Rd :=
  match s.peerWay pa with
  | .dead _ _ => .ok 0 true
  | .own q =>
    match s.gate q n false with
    | (_, .ready) => if s.outsider q then .ok (s.hGet q n) (s.hPoison q n) else .ok 0 true
    | (s1, .waits) => .wait s1
    | (_, .dead _ _) => .ok 0 true
  | .send p =>
    match s.peerWord who c (pa / 128) false with
    | some w => .ok (fld w.data.toNat (8 * (pa % 128)) (8 * n)) w.poison
    | none => .wait (s.askPeer ⟨p, pa / 128, 0, 0, none, some (d, ⟨who, c, false, va⟩)⟩)
/-- Read bytes inside one sector as an engine of a die acting for a context (R317, R400, R443): what the die's copy sector holds of
another die's line, and the rest from the home, whose fill is not kept. -/
def State.readAs (s : State) (who : Asker) (d c pa n va : Nat) : Rd :=
  let k := (s.die d).copy (pa / 128)
  let own := rangeMask pa n &&& (k.clean ||| k.loc)
  if window (s.place pa) = .peer then s.readPeer who d c pa n va
  else if s.homeOf pa ≠ d && k.serves pa n then .ok (k.get pa n) (k.bad (rangeMask pa n))
  else
    match s.gate pa n false with
    | (s1, .ready) =>
      if s.heldByEngine pa n then .wait s1
      else if s.hBad pa n then .bad va
      else if s.homeOf pa = d then .ok (s.hGet pa n) (s.hPoison pa n || s.devPoison pa n)
      else .ok (pack 8 (fun i => if own.getLsbD (pa % 128 + i) then k.get (pa + i) 1 else s.hGet (pa + i) 1) n 0)
        (s.hPoison pa n || s.devPoison pa n || k.bad own)
    | (s1, .waits) => .wait s1
    | (_, .dead _ _) => .ok 0 true
/-- Read the parts of a virtual range through a context's address space. -/
def State.readParts (s : State) (who : Asker) (d c va : Nat) : List (Nat × Nat × Nat) → Nat → Bool → Rd
  | [], v, p => .ok v p
  | (a, n, o) :: l, v, p =>
    match s.translate d c (a % 2 ^ 57) .read with
    | .fault x y => if x = 0x15 then .bad a else .fault x y a
    | .replay => .replay
    | .wait s1 => .wait s1
    | .ok pa _ =>
      match s.readAs who d c pa n a with
      | .ok w q => s.readParts who d c va l (v + w * 2 ^ (8 * o)) (p || q)
      | r => r
/-- Read `n` bytes at a virtual address as an engine acting for a context on a die (R327). -/
def State.readVa (s : State) (who : Asker) (d c va n : Nat) : Rd := s.readParts who d c va (sectorParts va n) 0 false
/-- Why the read of a part inside one sector gave poison that is reported for its reader: no device decodes the line, its port is lost, a
fence refuses the request, or a device returned poison (R401, R426, R443, R450, R452). An answer of a peer is reported as it comes. -/
def State.failsAt (s : State) (d pa n : Nat) : Option (Nat × Nat) :=
  let q := s.place pa
  let k := (s.die d).copy (pa / 128)
  if window q = .peer then (match s.peerWay pa with | .dead x y => some (x, y) | _ => none)
  else if s.homeOf pa ≠ d && k.serves pa n then none
  else match s.deadAt q with
    | some r => some r
    | none => if s.devPoison pa n then some (0x16, 0x0901) else none
/-- What is reported of a read of a virtual range by an engine: cause, detail and address. -/
def State.failsIn (s : State) (d c va n : Nat) : List (Nat × Nat × Nat) :=
  (sectorParts va n).filterMap (fun p => match s.translate d c (p.1 % 2 ^ 57) .read with
    | .ok pa _ => (s.failsAt d pa p.2.1).map (fun r => (r.1, r.2, p.1))
    | _ => none)
/-- The sectors of a read by the package's own inbound path that fail their integrity check are counted, and the pages of other key
domains (R399, R400, R443). -/
def State.countOwn (s : State) (d c va n : Nat) : State :=
  (sectorParts va n).foldl (fun s p => match s.translate d c (p.1 % 2 ^ 57) .read with
    | .ok pa _ => if window (s.place pa) = .peer then
        (match s.peerWay pa with | .own q => if s.outsider q then s.countInt q p.2.1 else s.countRefusal q | _ => s) else s
    | _ => s) s

/-- What reading a structure that an engine interprets gives: its bytes, the machine with requests sent, a page under migration, a
fault, or an integrity failure. -/
inductive Read where
  | ok (v : Nat)
  | wait (s : State)
  | held (va : Nat)
  | fault (cause detail va : Nat)
  | bad (va : Nat)
/-- Read a structure for a context (R327, R400): poison in it is MEDIA_UNCORRECTABLE with a DETAIL of its reader. -/
def State.readStruct (s : State) (who : Asker) (d c va n detail : Nat) : Read :=
  match s.readVa who d c va n with
  | .ok v false => .ok v
  | .ok _ true => .fault 0x16 detail va
  | .bad a => .bad a
  | .fault x y a => .fault x y a
  | .replay => .held va
  | .wait s1 => .wait s1
/-- The pages of a virtual range translate for a kind: the pages by virtual page, or the first fault. -/
def State.pages (s : State) (d c va : Nat) (k : Kind) : Nat → Nat → SMap Nat → Except Tr (SMap Nat)
  | 0, _, m => .ok m
  | n + 1, i, m =>
    let p := va / 65536 + i
    match s.translate d c (p * 65536 % 2 ^ 57) k with
    | .ok pa _ => State.pages s d c va k n (i + 1) (upd m p (pa / 65536))
    | t => .error t
/-- Number of 64 KiB pages a virtual range touches. -/
def pageCount (va n : Nat) : Nat := if n = 0 then 0 else (va + n - 1) / 65536 - va / 65536 + 1

end Sys2Proof.Machine
end

