-- ==== Sys2Proof/Machine/Report.lean ====
section
/-! DEFINITION. Trap records, fault queues and host events; tasks and launches; how a task ends, is parked or is torn down (R43 to
R45, R281 to R292, R340 to R347, R371, R436 to R438, R456). -/

namespace Sys2Proof.Machine

/-! ## Host queues the device fills -/

/-- Queues by number: 0 LQ, 1 CQ, 2 MQ, 3 IQ, 4 EQ, 5 NQ (R433). -/
def Package.queue (p : Package) (k : Nat) : Queue := look {} p.queues k
/-- Replace a queue. -/
def Package.setQueue (p : Package) (k : Nat) (q : Queue) : Package := { p with queues := upd p.queues k q }
/-- Change a queue. -/
def State.onQueue (s : State) (k : Nat) (f : Queue → Queue) : State := s.onPkg (fun p => p.setQueue k (f (p.queue k)))
/-- Bytes of an entry of a queue (R437, R438, R334). -/
def entrySize (k : Nat) : Nat := match k with | 0 => 32 | 1 => 64 | 2 => 64 | 3 => 32 | 4 => 16 | _ => 32
/-- Address of entry `n` of a queue (R435). -/
def Queue.entry (q : Queue) (k n : Nat) : Nat := q.base + entrySize k * (n % 2 ^ q.log2n)
/-- The entries a queue holds. -/
def Queue.held (q : Queue) : Nat := (q.prod - q.cons).toNat
/-- Entries of a queue the device fills whose writes are posted and not yet performed. -/
def Package.unposted (p : Package) (k : Nat) : Nat := (p.posted.filter (fun w => w.queue = some k)).length
/-- The device writes an entry into EQ or NQ, or drops it (R436): PROD passes it once its write is performed. -/
def State.deviceEntry (s : State) (k value : Nat) : State × Bool :=
  let q := s.pkg.queue k
  let more := s.pkg.unposted k
  if !q.en || q.held + more ≥ 2 ^ q.log2n then (s.onQueue k (fun q => { q with dropped := q.dropped + 1 }), false)
  else (s.post (q.entry k ((q.prod.toNat + more) % 2 ^ 32)) (entrySize k) value (some k), true)
/-- An event for the host (R438), whose MSI-X signal follows its write; none in the viral state. -/
def State.event (s : State) (kind die arg : Nat) : State :=
  if s.pkg.viral then s
  else (s.deviceEntry 4 (kind + die * 2 ^ 8 + arg * 2 ^ 32 + s.gtime.toNat * 2 ^ 64)).1
/-- A counted access of a die through a leaf (R333, R334, R438): where its count reaches THR, a notification and its event. -/
def State.touch (s : State) (d asid va : Nat) (l : Leaf) : State :=
  if !bitOf l.bits 3 then s
  else
    let thr := s.threshold d asid
    let (x, due) := (s.die d).count (tlbKey asid va) thr
    let s1 := s.setDie d x
    if !due then s1
    else
      let region := (canonVa (BitVec.ofNat 64 (va / 65536 * 65536))).toNat
      let (s2, ok) := s1.deviceEntry 5
        (asid + d * 2 ^ 16 + thr * 2 ^ 32 + region * 2 ^ 64 + s.gtime.toNat * 2 ^ 128)
      if ok then s2.event 2 d 1 else s2.onDie d (fun x => { x with notesDropped := x.notesDropped + 1 })
/-- Offset of a queue in the HQ block, as QERR carries it (R433, R435, R438).
(DEDUCED, log 62) -/
def queueOffset (k : Nat) : Nat := 0x40 * k
/-- Set ERR of a queue and report it (R436). -/
def State.queueErr (s : State) (k : Nat) : State :=
  (s.onQueue k (fun q => { q with err := true })).event 6 0 (queueOffset k)

/-! ## Launches and tasks -/

/-- A live launch of a context. -/
def Ctx.launch? (x : Ctx) (lid : Nat) : Option Launch := x.launches.find? (fun l => l.id = lid)
/-- Change a live launch. -/
def Ctx.onLaunch (x : Ctx) (lid : Nat) (f : Launch → Launch) : Ctx :=
  { x with launches := x.launches.map (fun l => if l.id = lid then f l else l) }
/-- A task of a launch. -/
def Launch.task? (l : Launch) (t : Nat) : Option Task := l.tasks.find? (fun k => k.id = t)
/-- Change a task of a launch. -/
def Launch.onTask (l : Launch) (t : Nat) (f : Task → Task) : Launch :=
  { l with tasks := l.tasks.map (fun k => if k.id = t then f k else k) }
/-- Change a launch of a context. -/
def State.onLaunch (s : State) (c lid : Nat) (f : Launch → Launch) : State := s.onCtx c (fun x => x.onLaunch lid f)
/-- Change a task. -/
def State.onTask (s : State) (c lid t : Nat) (f : Task → Task) : State := s.onLaunch c lid (fun l => l.onTask t f)
/-- A task of the machine. -/
def State.task? (s : State) (c lid t : Nat) : Option (Launch × Task) :=
  match (s.ctx c).launch? lid with
  | none => none
  | some l => (l.task? t).map (fun k => (l, k))
/-- The launch and task bound on a strand. -/
def State.taskOf (s : State) (n : Nat) : Option (Launch × Task) :=
  let st := s.strand n
  s.task? (s.ctxOf n) st.launch.toNat st.task.toNat
/-- Change the task bound on a strand. -/
def State.onTaskOf (s : State) (n : Nat) (f : Task → Task) : State :=
  let st := s.strand n
  s.onTask (s.ctxOf n) st.launch.toNat st.task.toNat f
/-- Tasks of a context that are bound on strands (NBOUND, R342). -/
def Ctx.nbound (x : Ctx) : Nat :=
  (x.launches.map (fun l => (l.tasks.filter (fun t => match t.run with | .bound _ => true | _ => false)).length)).sum
/-- A task that is READY exists in the context. -/
def Ctx.hasReady (x : Ctx) : Bool := x.launches.any (fun l => l.tasks.any (fun t => t.run = .ready))
/-- STATE of a context (R343): 0 READY, 1 RUNNING, 2 PARKED, 3 SWAPPED. -/
def Ctx.state (x : Ctx) : Nat :=
  if x.pkev + x.pkf > 0 then 2 else if x.allpooled && x.nbound = 0 then 3 else if x.nbound > 0 then 1 else 0
/-- A launch identifier counts as complete (R274). -/
def Ctx.complete (x : Ctx) (p : Nat) : Bool :=
  x.doneIds.contains p || (x.nextId + 2 ^ 32 - p % 2 ^ 32) % 2 ^ 32 > 1024
/-- Return weight to a launch (R290). -/
def Launch.giveBack (l : Launch) (w : Nat) : Launch := { l with returned := l.returned + w }
/-- Raise a launch's STATUS (R281). -/
def Launch.raise (l : Launch) (st : Nat) : Launch := { l with status := if st > l.status then st else l.status }

/-- The first abandonment event of the sequencer's attempt (R385). -/
def State.gsEvent (s : State) (code : Nat) : State :=
  s.onPkg (fun p =>
    if p.gs.attempt.isSome && p.gs.event.isNone then { p with gs := { p.gs with event := some code } } else p)
/-- An abandonment event of a task's launch, when it is an iteration launch (R380, R385). -/
def State.gsTaskEvent (s : State) (c lid code : Nat) : State :=
  match (s.ctx c).launch? lid with
  | some l => if l.iter then s.gsEvent code else s
  | none => s

/-! ## Trap records -/

/-- A trap record (R43). -/
structure Rec where
  gtime : Word
  pc : Word
  faddr : Word
  target : Word
  seq : BitVec 32
  ctxh : BitVec 32
  launch : BitVec 32
  task : BitVec 32
  command : Nat
  cause : Nat
  die : Nat
  cluster : Nat
  core : Nat
  strand : Nat
  remain : Nat
  slot : Nat
  flags : Nat
  detail : Nat
  deriving DecidableEq, Repr
/-- The 64 bytes of a record (R43). -/
def Rec.bytes (r : Rec) : Nat :=
  pack 64 (fun i => match i with
    | 0 => r.gtime.toNat
    | 1 => r.pc.toNat
    | 2 => r.faddr.toNat
    | 3 => r.target.toNat
    | 4 => r.seq.toNat + r.ctxh.toNat * 2 ^ 32
    | 5 => r.launch.toNat + r.task.toNat * 2 ^ 32
    | 6 => r.command % 2 ^ 32 + (r.cause % 256) * 2 ^ 32 + (r.die % 256) * 2 ^ 40 + (r.cluster % 256) * 2 ^ 48
        + (r.core % 256) * 2 ^ 56
    | _ => r.strand % 256 + (r.remain % 256) * 2 ^ 8 + (r.slot % 256) * 2 ^ 16 + (r.flags % 256) * 2 ^ 24
        + (r.detail % 2 ^ 32) * 2 ^ 32) 8 0
/-- The record's SEQ of a core, and the counter advanced (R44). -/
def State.coreSeq (s : State) (c : Nat) : State × BitVec 32 :=
  (s.onCore c (fun co => { co with seq := co.seq + 1 }), (s.core c).seq)
/-- The record's SEQ of a die's agents (R456). -/
def State.dieSeq (s : State) (d : Nat) : State × BitVec 32 :=
  (s.onDie d (fun x => { x with seq := x.seq + 1 }), (s.die d).seq)
/-- Append records to a context's fault queue: the first of those waiting, once HEAD can be read (R345). -/
def State.appendNow (s : State) (c r : Nat) : State × Bool :=
  let x := s.ctx c
  if x.life = .free || (s.pkg.viral && window x.fqbase = .host) then (s, true)
  else
    -- a read that only recalled an atomic engine's sector can be made at once
    let s0 := match s.readPa (x.fqbase + 8) 8 with | .wait s1 => s1 | _ => s
    let drop (s : State) : State :=
      (s.onCtx c (fun x => { x with dropped := x.dropped + 1 })).post (x.fqbase + 16) 8 (x.dropped + 1) none (some c)
    match s0.readPa (x.fqbase + 8) 8 with
    | .wait s1 => (s1, false)
    | .bad _ => (drop (s0.failsFor (some c) (x.fqbase + 8) 8), true)
    | .ok head _ =>
      let used := (x.fqtail - BitVec.ofNat 64 head).toNat
      if used < x.fqsize then
        let s1 := s0.post (x.fqbase + 64 + 64 * (x.fqtail.toNat % x.fqsize)) 64 r none (some c)
        let s2 := s1.onCtx c (fun x => { x with fqtail := x.fqtail + 1 })
        let s3 := s2.post x.fqbase 8 (x.fqtail + 1).toNat none (some c)
        (s3.event 1 (c % 4) (s3.handleOf c), true)
      else (drop s0, true)
    | _ => (s0, true)
/-- Try the records that wait for HEAD, oldest first. -/
def State.drainRecords (s : State) : State :=
  s.pkg.fqWait.foldl (fun s r =>
    if s.pkg.fqWait.any (fun q => q.1 = r.1) then s.onPkg (fun p => { p with fqWait := p.fqWait ++ [r] })
    else match s.appendNow r.1 r.2 with
      | (s1, true) => s1
      | (s1, false) => s1.onPkg (fun p => { p with fqWait := p.fqWait ++ [r] }))
    (s.onPkg (fun p => { p with fqWait := [] }))
/-- Append a record to a context's fault queue, after those that wait (R345). -/
def State.append (s : State) (c : Nat) (r : Rec) : State :=
  if s.pkg.fqWait.any (fun q => q.1 = c) then s.onPkg (fun p => { p with fqWait := p.fqWait ++ [(c, r.bytes)] })
  else match s.appendNow c r.bytes with
    | (s1, true) => s1
    | (s1, false) => s1.onPkg (fun p => { p with fqWait := p.fqWait ++ [(c, r.bytes)] })

/-- An asynchronous record of a core: of a Hod command, a routine, or a strand's access (R43, R346). Its PC, REMAIN and TARGET are 0.
(DESIGN CHOICE, log 77) -/
def State.coreRecord (s : State) (core : Nat) (ctxh launch task : BitVec 32) (command cause detail : Nat) (faddr : Word)
    (slot : Nat := 0xFF) : State :=
  let (s1, q) := s.coreSeq core
  let r : Rec := ⟨s.gtime, 0, faddr, 0, q, ctxh, launch, task, command, cause, core / 48, core / 4 % 12, core % 4, 0xFF, 0, slot,
    0x12, detail⟩
  (s1.append (ctxIdx ctxh.toNat) r).gsTaskEvent (ctxIdx ctxh.toNat) launch.toNat 1
/-- Perform the posted writes, and then the records that wait for their queue's HEAD, that can be performed now (R345, R436). -/
def State.settleWrites (s : State) : State := s.flushPosted.drainRecords
/-- A record of an agent of a die (R456).
(DEDUCED, log 48, 64, 66) -/
def State.dieRecord (s : State) (d c : Nat) (launch task : Nat) (cause detail : Nat) (faddr : Word)
    (command : Nat := 0xFFFFFFFF) : State :=
  let (s1, q) := s.dieSeq d
  let r : Rec := ⟨s.gtime, 0, faddr, 0, q, BitVec.ofNat 32 (s.handleOf c), BitVec.ofNat 32 launch, BitVec.ofNat 32 task,
    command, cause, d, 0xFF, 0xFF, 0xFF, 0, 0xFF, 0x12, detail⟩
  (s1.append c r).gsTaskEvent c launch 1

/-! ## Completions of global accesses in commit order (R224, R225) -/

/-- An access that loads, for the ordering rules (R221). -/
def GEntry.loads (g : GEntry) : Bool := match g.kind with | .load => true | .acquire => true | .atomic _ r => r | _ => false
/-- An access that stores, for the ordering rules (R221). -/
def GEntry.stores (g : GEntry) : Bool :=
  match g.kind with | .store => true | .release => true | .atomic _ _ => true | .tagset _ _ => true | _ => false
/-- Every entry of a strand's queues. -/
def Strand.entries (st : Strand) : List GEntry := st.loadQ ++ st.storeQ
/-- The entry of a list with the least number. -/
def firstNum (l : List GEntry) : Option GEntry :=
  match l with
  | [] => none
  | g :: l => some (l.foldl (fun a b => if b.num < a.num then b else a) g)
/-- Remove an entry. -/
def Strand.dropEntry (st : Strand) (num : Nat) : Strand :=
  { st with loadQ := st.loadQ.filter (fun g => g.num ≠ num), storeQ := st.storeQ.filter (fun g => g.num ≠ num) }
/-- The strand's task has ended: data and completions are discarded (R227). -/
def Strand.over (st : Strand) : Bool := st.run = .blocked .ending
/-- The entry whose completion is next among the loads, or among the stores; a full semaphore holds it (R98). -/
def Strand.nextDone (st : Strand) : Option GEntry :=
  let ready (g : GEntry) : Bool := g.phase = 2 && (st.over || st.count g.sem < 0xFFFF)
  let loads := firstNum (st.entries.filter GEntry.loads)
  let stores := firstNum (st.storeQ.filter (fun g => g.stores && !g.loads))
  match loads.filter ready with
  | some g => some g
  | none => stores.filter ready
/-- Append the completions that are due, freeing their entries. -/
def Strand.drain : Nat → Strand → Strand
  | 0, st => st
  | f + 1, st =>
    match st.nextDone with
    | none => st
    | some g =>
      let st1 := st.dropEntry g.num
      Strand.drain f (if st.over then st1 else st1.append g.sem g.reg none none)
/-- Change an entry's phase. -/
def Strand.phase (st : Strand) (num p : Nat) : Strand :=
  let f (g : GEntry) : GEntry := if g.num = num then { g with phase := p } else g
  { st with loadQ := st.loadQ.map f, storeQ := st.storeQ.map f }

/-! ## The end of a task -/

/-- Commands of a channel that a strand issued (R240). -/
def HodChan.hasOf (h : HodChan) (n : Nat) : Bool := h.queue.any (fun m => m.strand = n)
/-- Every Hod command of a strand has finished. -/
def State.hodDone (s : State) (n : Nat) : Bool :=
  !(s.cluster (n / 32)).chans.any (fun p => p.2.hasOf n)
/-- Every MX entry of a task has completed (R184, R292). -/
def State.mxDone (s : State) (core : Nat) (ctxh launch task : BitVec 32) : Bool :=
  let mine (m : MxEntry) : Bool := m.ctxh = ctxh && m.launch = launch && m.task = task
  let co := s.core core
  !(co.mxq.any mine) && !(co.mxheld.any (fun p => mine p.1)) && !(match co.run with | some r => mine r.entry | none => false)
/-- The strand's two queues are empty (R227). -/
def Strand.drained (st : Strand) : Bool := st.loadQ.isEmpty && st.storeQ.isEmpty
/-- Reservation of a strand that becomes FREE for the PERSIST launch that waits for strands (R288): filled in by the dispatcher's
own step; the strand keeps a reservation it has. -/
def State.freeStrand (s : State) (n : Nat) : State :=
  s.setStrand n { ({} : Strand) with reserved := (s.strand n).reserved, run := .free, freed := true }
/-- A strand whose task has ended becomes FREE once its queues are empty and its Hod commands have finished (R292); where its launch is
gone, by a tear-down or with its iteration, once its MX entries have completed too (R371, R387). -/
def State.settle (s : State) (n : Nat) : State :=
  let st := s.strand n
  let mx := (s.taskOf n).isSome || s.mxDone (n / 8) st.ctxh st.launch st.task
  if st.run = .blocked .ending && st.drained && s.hodDone n && mx then s.freeStrand n else s
/-- A strand has an entry in its die's replay queue (R337). -/
def State.inReplay (s : State) (n : Nat) : Bool := (s.die (dieOfStrand n)).replay.any (fun r => decide (r.who = .strand n))
/-- An entry of who waits leaves a replay queue. -/
def Die.leaveReplay (x : Die) (h : Held) : Die := { x with replay := x.replay.filter (fun r => r.who ≠ h) }
/-- The task of a strand is over for it: no further bundle issues, results in flight are dropped, completions of its commands and
entries will be discarded (R292, R238, R184). With `saving`, a checkpoint in progress goes on (R372). -/
def State.dropStrand (s : State) (n : Nat) (saving : Bool := false) : State :=
  let c := n / 8
  let old := s.strand n
  let sa := match old.save with
    | some (.cswitch x y z _) => if saving then s else s.onTask x y z (fun t => { t with run := .ready })
    | _ => s
  let s0 := (old.marked.filterMap (fun m => m.2.mark)).foldl (fun s m =>
    if m.source = 0 then
      s.coreRecord c old.ctxh old.launch old.task 0xFFFFFFFF m.cause (m.index * 2 ^ 20 + 2 ^ 16 + m.detail) m.addr 7
    else s) sa
  let s1 := s0.onStrand n (fun st =>
    { st with
      run := .blocked (if saving then .saving else .ending), pipe := [], z := [], delay := none, res := .fresh, words := [],
      save := if saving then st.save else none })
  let kill (m : MxEntry) : MxEntry := if m.strand = n % 8 then { m with live := false } else m
  let running (co : Core) (k : Nat) : Bool := co.mxq.any (fun m => m.id = k) || co.mxheld.any (fun p => p.1.id = k) || (match co.run with | some r => r.entry.id = k | none => false)
  let s2 := s1.onCore c (fun co =>
    { co with
      active := if co.active = some (n % 8) then none else co.active,
      mxq := co.mxq.map kill,
      mxheld := co.mxheld.map (fun p => (kill p.1, p.2)),
      run := co.run.map (fun r => { r with entry := kill r.entry }),
      owned := co.owned.filter (fun p => p.2.1 ≠ n % 8 || running co p.1) })
  let gone (m : HodCmd) : HodCmd := if m.strand = n then { m with live := false } else m
  let s3 := s2.onCluster (n / 32) (fun x =>
    { x with chans := x.chans.map (fun p => (p.1, { p.2 with queue := p.2.queue.map gone })) })
  (s3.onDie (dieOfStrand n) (fun x => x.leaveReplay (.strand n))).settle n
/-- A task parked by PARK leaves the park without a wake. -/
def State.unpark (s : State) (c : Nat) (t : Task) : State :=
  match t.parked with | .park _ _ => s.onCtx c (fun x => { x with pkev := x.pkev - 1 }) | _ => s
/-- A bound task ends with a STATUS (R281, R290): 0 an EXIT. One that PARK had blocked in place is parked no more. -/
def State.endTask (s : State) (n status : Nat) (err : Option Nat) : State :=
  let st := s.strand n
  let c := s.ctxOf n
  let s0 := match s.taskOf n with | some (_, t) => s.unpark c t | none => s
  let s1 := s0.onLaunch c st.launch.toNat (fun l =>
    let l1 := (l.raise status).onTask st.task.toNat (fun t => { t with
      run := .ended n, core := n / 8, seen := st.seen, nvFail := t.nvFail ++ st.nvFail, parked := .no })
    { l1 with failed := if status ≥ 2 then l1.failed + 1 else l1.failed, errcode := l1.errcode <|> err })
  s1.dropStrand n
/-- A task that is not on a strand ends (R283, R332, R365); its weight returns. -/
def State.endLoose (s : State) (c lid t status : Nat) : State :=
  s.onLaunch c lid (fun l =>
    match l.task? t with
    | none => l
    | some k =>
      let l1 := ((l.raise status).giveBack k.weight).onTask t (fun k => { k with run := .done, weight := 0 })
      { l1 with failed := if status ≥ 2 then l1.failed + 1 else l1.failed })
/-- An `exit.err` commits in an iteration (R292): the launch's STATUS is at least ERROR, and the first of the launch gives ERRCODE. -/
def State.exitErr (s : State) (n err : Nat) : State :=
  s.onLaunch (s.ctxOf n) (s.strand n).launch.toNat (fun l => { l.raise 1 with errcode := l.errcode <|> some err })
/-- Release the save area of a checkpointed task (R353, R371). -/
def Ctx.releaseArea (x : Ctx) (a : Option Nat) : Ctx :=
  match a with
  | some a => { x with savefree := x.savefree ||| ((1 : BitVec 512) <<< a) }
  | none => x
/-- The lowest-numbered free save area (R351). -/
def Ctx.freeArea (x : Ctx) : Option Nat := firstIdx (fun a => x.savefree.getLsbD a) 512 0

/-! ## Hod channels of a context -/

/-- The channel's halted command belongs to a context. -/
def HodChan.haltedBy (h : HodChan) (c : Nat) : Bool :=
  h.halted && (match h.queue with | m :: _ => ctxIdx m.ctxh.toNat = c | [] => false)
/-- Clear the written mark of a tile (R246, R247). -/
def State.unmark (s : State) (c index tile : Nat) : State :=
  { s with shadows := s.shadows.map (fun e =>
      if e.ctx = c && e.index = index then { e with marks := e.marks.filter (fun t => t ≠ tile) } else e) }
/-- Append a completion of a command or entry to a strand's semaphore; the 65th mark goes to the fault queue instead (R350). -/
def State.complete (s : State) (core n e : Nat) (live : Bool) (ctxh launch task : BitVec 32) (command : Nat) (mark : Option Mark)
    (routine : Option Nat) : State :=
  if !live then s
  else
    let st := s.strand n
    let marks := (st.sem.map (fun p => (p.2.filter (fun c => c.mark.isSome)).length)).sum
    match mark with
    | some m =>
      if marks ≥ 64 then
        (s.setStrand n (st.append e none none routine)).coreRecord core ctxh launch task command m.cause m.detail m.addr
          (match m.source with | 0 => 7 | 1 => 10 | _ => 0)
      else s.setStrand n (st.append e none (some m) routine)
    | none => s.setStrand n (st.append e none none routine)

end Sys2Proof.Machine
end

