-- ==== Sys2Proof/Machine/Fetch.lean ====
section
/-! DEFINITION. Records of the reads of engines, and instruction fetch (R48, R330, R401, R426, R443, R456). -/

namespace Sys2Proof.Machine

/-! ## Records of the reads of engines -/

/-- A record of a failed read by an engine (R456): the core's for a strand's fetch and for a Hod command that is still queued, otherwise
its die's.
(DEDUCED, log 66) -/
def State.askerRecord (s : State) (who : Asker) (d c cause detail va : Nat) : State :=
  match who with
  | .fetch n =>
    let st := s.strand n
    s.coreRecord (n / 8) st.ctxh st.launch st.task 0xFFFFFFFF cause detail (BitVec.ofNat 64 va)
  | .hod cl ch id =>
    match ((s.cluster cl).chan ch).queue.find? (fun m => m.id = id) with
    | some m => s.coreRecord (m.strand / 8) m.ctxh m.launch m.task id cause detail (BitVec.ofNat 64 va) 0x0A
    | none => s.dieRecord d c 0 0 cause detail (BitVec.ofNat 64 va)
  | _ => s.dieRecord d c 0 0 cause detail (BitVec.ofNat 64 va)
/-- An engine has read a virtual range: what failed is recorded, and the own path's integrity failures and refusals are counted (R399 to
R401, R426, R443, R450, R452). -/
def State.recordReads (s : State) (who : Asker) (d c va n : Nat) : State :=
  (s.failsIn d c va n).foldl (fun s f => s.askerRecord who d c f.1 f.2.1 f.2.2) (s.countOwn d c va n)

/-- Read a structure as readStruct does, with the failures that gave poison recorded. -/
def State.structRead (s : State) (who : Asker) (d c va n detail : Nat) : State × Read :=
  match s.readVa who d c va n with
  | .ok _ true => (s.recordReads who d c va n, .fault 0x16 detail va)
  | _ => (s, s.readStruct who d c va n detail)

/-- An access enters a die's replay queue, once, where it has room (R337). -/
def Die.hold (x : Die) (h : Held) (asid page : Nat) : Option Die :=
  if x.replay.contains ⟨h, asid, page, false⟩ || x.replay.length ≥ 256 then none
  else some { x with replay := x.replay ++ [⟨h, asid, page, false⟩] }
/-- An engine's access waits in the replay queue of its die (R337); nothing where it waits there already. -/
def State.agentHold (s : State) (d c va : Nat) : Option State :=
  ((s.die d).hold .agent (s.ctx c).asid (fld va 16 41)).map (fun x => s.setDie d x)

/-! ## Instruction fetch -/

/-- The instruction cache's key of a sector (R330). -/
def icacheKey (asid va : Nat) : Nat := asid * 2 ^ 50 + fld va 7 50
/-- Sectors of an instruction cache of 128 KiB (R330). -/
def icacheCap : Nat := 1024
/-- A sector enters an instruction cache; where it is full, its lowest key gives way.
(DESIGN CHOICE, log 34) -/
def icachePut (m : SMap (BitVec 1024)) (key : Nat) (w : BitVec 1024) : SMap (BitVec 1024) :=
  upd (if m.length < icacheCap || (find? m key).isSome then m else m.drop 1) key w
/-- What a fetch's fill from the home of its sector gives: past every copy sector (R330, R400, R443). -/
def State.readCode (s : State) (n c base va : Nat) : Rd :=
  if window (s.place base) = .peer then s.readPeer (.fetch n) (dieOfStrand n) c base 128 va
  else match s.gate base 128 false with
    | (s1, .ready) =>
      if s.heldByEngine base 128 then .wait s1
      else if s.hBad base 128 then .bad va
      else .ok (s.hGet base 128) (s.hPoison base 128 || s.devPoison base 128)
    | (s1, .waits) => .wait s1
    | (_, .dead _ _) => .ok 0 true
/-- What is recorded and counted where a fetch's fill from an address comes with poison (R400, R401, R426, R443, R452). -/
def State.codeFails (s : State) (n base va : Nat) : State :=
  let q := s.place base
  let fails : Option (Nat × Nat) :=
    if window q = .peer then (match s.peerWay base with | .dead x y => some (x, y) | _ => none)
    else match s.deadAt q with
      | some r => some r
      | none => if s.devPoison base 128 then some (0x16, 0x0901) else none
  let s1 := if window q = .peer then (match s.peerWay base with | .own a => s.countInt a 128 | _ => s) else s
  match fails with
  | some (x, y) => s1.askerRecord (.fetch n) (dieOfStrand n) (s.ctxOf n) x y va
  | none => s1
/-- Fetch one word for a strand (R48, R330): the word or what stops it, and the machine with the sector filled.
(DEDUCED, log 37) -/
def State.fetchWord (s : State) (n : Nat) (va : Word) : State × Fetch :=
  let c := n / 8
  let x := s.ctx (s.ctxOf n)
  let key := icacheKey x.asid va.toNat
  let off := va.toNat % 128
  match find? (s.core c).icache key with
  | some w => (s, .word (BitVec.ofNat 32 (fld w.toNat (8 * off) 32)))
  | none =>
    match s.strandTr n (va.toNat % 2 ^ 57) .fetch with
    | .fault x y => (s, .trap x y)
    | .miss => (s, .miss)
    | .ok pa _ =>
      let base := pa / 128 * 128
      match s.readCode n (s.ctxOf n) base va.toNat with
      | .wait s1 => (s1, .miss)
      | .replay => (s, .miss)
      | .fault x y _ => (s, .trap x y)
      | .bad _ => (s.countInt base 128, .trap 0x15 0x0900)
      | .ok _ true => ((s.codeFails n base va.toNat).used (.fetch n), .trap 0x14 0)
      | .ok v false =>
        (((s.onCore c (fun co => { co with icache := icachePut co.icache key (BitVec.ofNat 1024 v) })).tlbUsed n
            (va.toNat % 2 ^ 57)).used (.fetch n),
          .word (BitVec.ofNat 32 (fld v (8 * off) 32)))

end Sys2Proof.Machine
end

