-- ==== Sys2Proof/Machine/Switch.lean ====
section
/-! DEFINITION. Results in flight and replay registers, and switching between strands (R14 to R19, R21, R22, R31, R32). -/

namespace Sys2Proof.Machine

/-! ## Results in flight and replay registers -/

/-- The lowest-numbered free replay register. -/
def freeZ (z : SMap Result) : Nat := (firstIdx (fun i => (find? z i).isNone) 16 0).getD 16
/-- Results move into replay registers from z0 up, by due strand cycle and then issue order (R31). -/
def Strand.toReplay (st : Strand) : Strand :=
  { st with pipe := [], z := (sortBy (fun (r : Result) => r.cnt) st.pipe).foldl (fun z r => upd z (freeZ z) r) st.z }
/-- The replay entries of the current trap level are re-injected (R32). -/
def Strand.reinject (st : Strand) : Strand :=
  { st with
    pipe := st.pipe ++ (st.z.filter (fun p => p.2.tl = st.tl)).map (fun p => p.2)
    z := st.z.filter (fun p => p.2.tl ≠ st.tl) }
/-- A strand cycle ends: every result counts down, those that reach 0 are written, older ones first (R21, R22, R32); SCYC and the
draw position of the trap level advance (R105, R121).
(DESIGN CHOICE, log 67; DEDUCED, log 85) -/
def Strand.cycle (st : Strand) : Strand :=
  let counted := st.pipe.map (fun r => { r with cnt := r.cnt - 1 })
  (counted.filter (fun r => r.cnt = 0)).foldl Strand.land
    { st with
      pipe := counted.filter (fun r => r.cnt ≠ 0), scyc := st.scyc + 1,
      p0 := if st.tl then st.p0 else st.p0 + 1, p1 := if st.tl then st.p1 + 1 else st.p1 }
/-- Results in flight after the commit of an iteration that issues `new` (R23). -/
def Strand.inFlight (st : Strand) (new : List Result) : Nat :=
  ((st.pipe ++ new).filter (fun r => r.cnt > 1)).length + st.z.length

/-! ## Switching -/

/-- The first ELIGIBLE strand after the one that was ACTIVE last (R16). -/
def State.nextEligible (s : State) (c : Nat) : Option Nat :=
  (firstIdx (fun k => (s.strand (8 * c + ((s.core c).last + k) % 8)).run = .eligible) 8 1).map (fun k => ((s.core c).last + k) % 8)
/-- The core selects a strand where one is ELIGIBLE (R16): it becomes ACTIVE and its replay entries return (R32). -/
def State.select (s : State) (c : Nat) : State :=
  if (s.core c).active.isSome then s
  else match s.nextEligible c with
    | none => s
    | some a =>
      (s.onStrand (8 * c + a) (fun st => { st.reinject with run := .active })).onCore c
        (fun co => { co with active := some a, last := a, count := 0 })
/-- The strand leaves its core with a state and a reason, its results in replay registers (R19, R31); the core selects (R16). -/
def State.leave (s : State) (n : Nat) (run : Run) (why : BitVec 8) : State :=
  let s1 := s.onStrand n (fun st => { st.toReplay with run, swhy := why })
  let s2 := s1.onCore (n / 8) (fun co =>
    if co.active = some (n % 8) then { co with active := none, last := n % 8, count := 0 } else co)
  s2.select (n / 8)
/-- The iteration cannot issue: the strand is BLOCKED and the core selects another (R15, R19). -/
def State.block (s : State) (n : Nat) (why : Why) : State := s.leave n (.blocked why) 0xF1
/-- The strand's next iteration can issue again (R15). -/
def State.unblock (s : State) (n : Nat) : State := s.onStrand n (fun st => { st with run := .eligible })
/-- Another strand of the core is ELIGIBLE. -/
def State.others (s : State) (n : Nat) : Bool :=
  (firstIdx (fun k => k ≠ n % 8 && decide ((s.strand (n / 8 * 8 + k)).run = .eligible)) 8 0).isSome

end Sys2Proof.Machine
end

