-- ==== Sys2Proof/Machine/Sched.lean ====
section
/-! DEFINITION. Kernel and tensor descriptors, tag keys, eligibility of a core and the order of READY tasks (R242, R243, R277,
R278, R283 to R288, R299, R343, R352). -/

namespace Sys2Proof.Machine

/-! ## Descriptors -/

/-- `n` bytes of a structure from byte `o`. -/
def byts (v o n : Nat) : Nat := fld v (8 * o) (8 * n)
/-- A kernel descriptor from its 128 bytes (R277). -/
def parseKernel (c desc v : Nat) : Kernel :=
  { ctx := c, desc, entry := BitVec.ofNat 64 (byts v 0 8), foot := byts v 8 12, accb := byts v 20 2, strands := byts v 22 1,
    micro := byts v 24 8, mfirst := byts v 32 2, mcount := byts v 34 2, rtfirst := byts v 36 2, rtcount := byts v 38 2,
    rtimg := byts v 40 8, tagin := (List.range 4).map (fun i => byts v (64 + 8 * i) 8),
    tagout := (List.range 2).map (fun i => byts v (96 + 8 * i) 8) }
/-- A tag declaration word breaks R278. -/
def badDecl (w : Nat) : Bool := !bitOf w 63 && w ≠ 0
/-- A kernel descriptor fails R277. -/
def badKernel (v : Nat) : Bool :=
  let k := parseKernel 0 0 v
  k.entry.toNat % 4 ≠ 0 || canonVa k.entry ≠ k.entry || k.strands = 0 || k.strands > 8 || byts v 23 1 ≠ 0
    || k.micro % 8 ≠ 0 || (k.mcount = 0 && k.micro ≠ 0) || k.mfirst > 4095 || k.mcount > 4096 || k.mfirst + k.mcount > 4096
    || k.rtfirst > 255 || k.rtcount > 256 || k.rtfirst + k.rtcount > 256 || k.rtimg % 8 ≠ 0 || (k.rtcount = 0 && k.rtimg ≠ 0)
    || byts v 48 16 ≠ 0 || byts v 112 16 ≠ 0 || k.tagin.any badDecl || k.tagout.any badDecl
/-- A tensor descriptor from its 64 bytes (R242). -/
def parseTensor (v : Nat) : Tensor :=
  { base := byts v 0 8, alt := byts v 8 8, tmap := byts v 16 8, rows := byts v 24 4, cols := byts v 28 4, tbytes := byts v 32 4,
    trows := byts v 36 2, tcols := byts v 38 2, pad := byts v 40 4, esz := fld v 352 3, gen := fld v 360 4 }
/-- VALID of a tensor descriptor, and whether a reserved field is not zero (R242, R243). -/
def tensorInvalid (v : Nat) : Bool :=
  !bitOf v 368 || fld v 369 7 ≠ 0 || fld v 364 4 ≠ 0 || fld v 355 5 ≠ 0 || byts v 47 17 ≠ 0
/-- Tile columns of a tensor (R242). -/
def Tensor.ntc (t : Tensor) : Nat := (t.cols + t.tcols - 1) / t.tcols
/-- Tiles of a tensor (R242). -/
def Tensor.nt (t : Tensor) : Nat := (t.rows + t.trows - 1) / t.trows * t.ntc
/-- The fields of a tensor lie within the limits of R242. -/
def Tensor.fits (t : Tensor) : Bool :=
  t.base % 128 = 0 && t.tmap % 8 = 0 && t.rows ≠ 0 && t.cols ≠ 0 && t.trows ≠ 0 && t.tcols ≠ 0
    && t.tbytes % 128 = 0 && 128 ≤ t.tbytes && t.tbytes ≤ 0x100000
    && (t.esz = 7 || (t.esz ≤ 3 && t.tbytes = t.trows * t.tcols * 2 ^ t.esz))
/-- Address of a context's tensor descriptor, if the table has the index (R242, R341). -/
def State.tensorAddr (s : State) (c handle : Nat) : Option Nat :=
  let x := s.ctx c
  if handle % 65536 < x.tcount then some (x.ttab.toNat + 64 * (handle % 65536)) else none

/-! ## Tags -/

/-- The handle of a tag key (R278). -/
def keyHandle (k : Nat) : Nat := fld k 44 20
/-- The generation of a tag key. -/
def keyGen (k : Nat) : Nat := fld k 36 8
/-- The tile of a tag key. -/
def keyTile (k : Nat) : Nat := fld k 0 36
/-- Generation `a` is newer than `b` (R299). -/
def genNewer (a b : Nat) : Bool := let d := (a + 256 - b % 256) % 256; 1 ≤ d && d ≤ 127
/-- Generation `a` is older than `b` (R299). -/
def genOlder (a b : Nat) : Bool := let d := (a + 256 - b % 256) % 256; 129 ≤ d
/-- The entry of a context's tag table for a key's handle and tile (R298). -/
def State.tagRow (s : State) (c k : Nat) : Option TagRow :=
  (s.die (c % 4)).tags.find? (fun t => t.ctx = c && t.handle = keyHandle k && t.tile = keyTile k)
/-- The judgement of a key (R283). -/
inductive Judged where
  | satisfied (acquire : Bool)
  | stale
  | waits
  deriving DecidableEq, Repr
/-- Judge a key with its producer, 0 for none (R283). -/
def State.judgeKey (s : State) (c k prod : Nat) : Judged :=
  let g := keyGen k
  match s.tagRow c k with
  | some t =>
    if t.gen = g then .satisfied true
    else if !genOlder t.gen g then .stale
    else if prod ≠ 0 && (s.ctx c).complete prod then .satisfied true else .waits
  | none => if prod ≠ 0 && (s.ctx c).complete prod then .satisfied true else .waits
/-- The key of a declared slot for a task index (R278); 0 when undeclared. -/
def slotKey (w gen : Nat) (args : List Word) (i : Nat) : Nat :=
  if !bitOf w 63 then 0
  else
    let h := ((args.getD (fld w 59 4) 0).toNat) % 2 ^ 20
    let stride := sext 23 (fld w 0 23)
    let tile := wrap 36 ((fld w 23 36 : Int) + stride * (i : Int))
    h * 2 ^ 44 + gen * 2 ^ 36 + tile
/-- The keys of a launch's input slots for a task index, undeclared ones as none. -/
def Launch.inputs (l : Launch) (i : Nat) : List (Option Nat) :=
  (List.range 4).map (fun n =>
    let w := l.tagin.getD n 0
    if bitOf w 63 then some (slotKey w (l.gens.getD n 0) l.argw i) else none)
/-- Judge a waiting task's inputs in slot order: READY, ended by a stale slot, or still waiting (R282, R283). -/
def State.judgeTask (s : State) (c : Nat) (l : Launch) (t : Task) : Option (Option Nat) :=
  let js := (l.inputs t.id).mapIdx (fun n k => match k with
    | none => Judged.satisfied false
    | some k => s.judgeKey c k (l.prods.getD n 0))
  match js.findIdx? (fun j => decide (j = .stale)) with
  | some n => some (some n)
  | none => if js.any (fun j => decide (j = .waits)) then none else some none
/-- Judge every waiting task of a context again (R283): READY ones leave, stale ones end with a record of the home die. -/
def State.rejudge (s : State) (c : Nat) : State :=
  (s.ctx c).launches.foldl (fun s l =>
    l.tasks.foldl (fun s t =>
      if t.run ≠ .waiting then s
      else match s.judgeTask c l t with
        | none => s
        | some none => s.onTask c l.id t.id (fun t => { t with run := .ready, acquire := (l.inputs t.id).any Option.isSome })
        | some (some n) => (s.dieRecord (c % 4) c l.id t.id 0x12 (0x0500 + n) 0).endLoose c l.id t.id 2) s) s

/-! ## Eligibility -/

/-- Two kernels are the same descriptor. -/
def Kernel.same (a b : Kernel) : Bool := a.ctx = b.ctx && a.desc = b.desc
/-- A checkpointed task of this kernel is pinned to its core (R352). -/
def Kernel.pins (k : Kernel) : Bool := k.foot ≠ 0 || k.accb ≠ 0
/-- Ranges of `n` from `a` and of `m` from `b` share a number. -/
def overlap (a n b m : Nat) : Bool := n ≠ 0 && m ≠ 0 && a < b + m && b < a + n
/-- The images of two kernels overlap in the micro-op store or the routine table (R285). -/
def Kernel.clash (a b : Kernel) : Bool :=
  overlap a.mfirst a.mcount b.mfirst b.mcount || overlap a.rtfirst a.rtcount b.rtfirst b.rtcount
/-- The kernels of tasks bound on a core, one for each task, but for the strand left out. -/
def State.boundKernels (s : State) (core : Nat) (out : Option Nat) : List Kernel :=
  (List.range 8).filterMap (fun k =>
    if out = some (8 * core + k) || (s.strand (8 * core + k)).run = .free then none
    else (s.taskOf (8 * core + k)).bind (fun p => p.2.kernel))
/-- The kernels of tasks pinned to a core (R352). -/
def State.pinnedKernels (s : State) (core : Nat) (but : Nat × Nat × Nat) : List Kernel :=
  s.contexts.flatMap (fun p => p.2.launches.flatMap (fun l => l.tasks.filterMap (fun t =>
    if t.area.isSome && t.core = core && (p.1, l.id, t.id) ≠ but then t.kernel.filter Kernel.pins else none)))
/-- A core can take a task of a kernel, its FREE strand aside (R285): `others` are the kernels of the tasks bound or pinned there. -/
def Core.admits (co : Core) (k : Kernel) (others : List Kernel) : Bool :=
  !co.retired && (others.filter (fun o => o.same k)).length < k.strands
    && others.all (fun o => o.same k || (o.foot &&& k.foot = 0 && o.accb &&& k.accb = 0))
    && (co.images.contains k || others.all (fun o => o.same k || !o.clash k))
/-- A FREE strand may be used for a task (R287, R288, R351, R362). -/
def Strand.freeFor (st : Strand) (c lid t : Nat) : Bool :=
  st.run = .free && (match st.reserved with | none => true | some (c', l', t') => c' = c && l' = lid && (t' = none || t' = some t))
/-- The lowest-numbered FREE strand of a core that is not reserved for another task (R287). -/
def State.strandFor (s : State) (core c lid t : Nat) : Option Nat :=
  (firstIdx (fun k => (s.strand (8 * core + k)).freeFor c lid t) 8 0).map (fun k => 8 * core + k)
/-- The strand kept for a task alone: by the placement of its PERSIST launch (R288), or by the CSWITCH that chose it (R355). -/
def State.keptStrand (s : State) (core c : Nat) (l : Launch) (t : Task) : Option Nat :=
  if l.persist then
    (firstIdx (fun k => let st := s.strand (8 * core + k); st.run = .free && st.reserved = some (c, l.id, some t.id)) 8 0).map
      (fun k => 8 * core + k)
  else t.swap.filter (fun n => n / 8 = core && (s.strand n).freeFor c l.id t.id)
/-- A core is eligible for a task of a kernel (R285, R352, R364). -/
def State.eligible (s : State) (core c lid : Nat) (t : Task) (k : Kernel) : Bool :=
  let pin := t.area.isSome && k.pins
  (!pin || t.core = core) && !t.banned.contains core && (s.strandFor core c lid t.id).isSome
    && (s.core core).admits k (s.boundKernels core none ++ s.pinnedKernels core (c, lid, t.id))
/-- The number of bound strands of a core. -/
def State.load (s : State) (core : Nat) : Nat :=
  ((List.range 8).filter (fun k => (s.strand (8 * core + k)).run ≠ .free)).length
/-- The first of the cores with the fewest bound strands, lowest number on a tie (R286). -/
def State.leastLoaded (s : State) : List Nat → Option Nat
  | [] => none
  | c :: l =>
    match s.leastLoaded l with
    | none => some c
    | some b => if s.load b < s.load c then some b else some c
/-- What a hint comes to (R286): none, a die and its first cluster of three, or a read that waits: for a page under migration (R337) or
for what it has asked. -/
inductive Hint where
  | none
  | near (die cluster : Nat)
  | held (va : Nat)
  | wait (s : State)
/-- A hint goes on at the physical address of a byte of local HBM4E, and is none where a step faults or leaves it (R286). -/
def State.hintAt (s : State) (d c va : Nat) (k : Nat → Hint) : Hint :=
  match s.translate d c (va % 2 ^ 57) .read with
  | .ok pa _ => if window pa = .hbm then k (s.remapped pa) else .none
  | .fault _ _ => .none
  | .replay => .held va
  | .wait s1 => .wait s1
/-- A hint goes on with bytes it reads in local HBM4E. -/
def State.hintRead (s : State) (d c va n : Nat) (k : Nat → Hint) : Hint :=
  s.hintAt d c va (fun _ => match s.readVa (.dispatch d) d c va n with
    | .ok v false => k v
    | .replay => .held va
    | .wait s1 => .wait s1
    | _ => .none)
/-- The hint of R286: the die and its three clusters that hold the first byte of the current copy of a task's first input tile, by a
descriptor that meets the checks of R243. -/
def State.hint (s : State) (d c : Nat) (l : Launch) (t : Task) : Hint :=
  if t.child.isSome then .none
  else match (l.inputs t.id).findSome? id with
    | .none => .none
    | some k =>
      match s.tensorAddr c (keyHandle k) with
      | .none => .none
      | some a =>
        s.hintRead d c a 64 (fun v =>
          let x := parseTensor v
          let tile := keyTile k
          if tensorInvalid v || x.gen ≠ keyHandle k / 65536 || !x.fits || tile ≥ x.nt then .none
          else
            let at' (copy : Nat) : Hint := s.hintAt d c (copy + tile * x.tbytes) (fun pa => .near (stackOf pa / 4) (3 * (stackOf pa % 4)))
            if x.alt = 0 then at' x.base
            else s.hintRead d c (x.tmap + tile / 8) 1 (fun b => at' (if bitOf b (tile % 8) then x.alt else x.base)))
/-- The cores R286 searches for a task, in the groups it takes one after another. -/
def State.searchCores (s : State) (d c : Nat) (l : Launch) (t : Task) : List (List Nat) :=
  let all (x : Nat) := (List.range 48).map (fun i => 48 * x + i)
  match s.hint d c l t with
  | .near x q => [(List.range 12).map (fun i => 48 * x + 4 * q + i), all x]
  | _ => [all (if t.child.isSome then t.die else c % 4)]
/-- The core R286 chooses for a task of a kernel. -/
def State.chooseCore (s : State) (d c : Nat) (l : Launch) (t : Task) (k : Kernel) : Option Nat :=
  (s.searchCores d c l t).findSome? (fun g => s.leastLoaded (g.filter (fun core => s.eligible core c l.id t k)))

/-- The READY candidates of a die in the order of R284: level, context, launch and task; an unplaced PERSIST launch stands as its
first task, and only when every task of it is READY (R288).
(DEDUCED, log 45) -/
def State.candidates (s : State) (d : Nat) : List (Nat × Nat × Launch × Task) :=
  let ctxs := (s.contexts.filter (fun p => p.1 % 4 = d && p.2.life = .live && p.2.state ≠ 2)).map (fun p => p.1)
  (List.range 8).flatMap (fun i =>
    let lv := 7 - i
    let last := look 65535 (s.die d).turn lv
    (ctxs.filter (fun c => c > last) ++ ctxs.filter (fun c => c ≤ last)).flatMap (fun c =>
      ((s.ctx c).launches.filter (fun l => l.level = lv)).flatMap (fun (l : Launch) =>
        let ts : List Task := l.tasks.filter (fun t => t.run = .ready && !t.held)
        if l.persist && !l.placed then
          (if ts.length = l.tasks.length then (ts.take 1).map (fun t => (lv, c, l, t)) else [])
        else ts.map (fun t => (lv, c, l, t)))))
/-- The READY tasks of a context in the order of R284: level first, then launch, then task. -/
def Ctx.readyTasks (x : Ctx) : List (Launch × Task) :=
  (List.range 8).flatMap (fun i => (x.launches.filter (fun l => l.level = 7 - i)).flatMap (fun l =>
    (l.tasks.filter (fun t => t.run = .ready && !t.held)).map (fun t => (l, t))))
/-- The kernel a task is bound with: its descriptor as read now (R277). -/
def State.readKernel (s : State) (who : Asker) (d c : Nat) (l : Launch) : Rd := s.readVa who d c l.kdesc.toNat 128

end Sys2Proof.Machine
end

