-- ==== Sys2Proof/Machine/Teardown.lean ====
section
/-! DEFINITION. Abandoning Hod commands and tearing a context down (R247, R371, R372, R400). -/

namespace Sys2Proof.Machine

/-- The tensor index and tile a command writes (R248, R249, R251). -/
def HodCmd.tile (m : HodCmd) : Option (Nat × Nat) :=
  if (m.op = 0 && m.f % 4 = 2) || (m.op = 0xA && m.f % 2 = 1) then some (m.a.toNat % 65536, m.d.toNat)
  else if m.op = 2 then some (m.b.toNat % 65536, m.c.toNat) else none
/-- The tensor index and tile a command in progress writes, a ring slot's from its descriptor (R267). -/
def HodProg.tile (p : HodProg) : Option (Nat × Nat) :=
  if p.cmd.op = 8 && bitOf p.cmd.f 3 then some (fld (p.recs.headD 0) 128 16, fld (p.recs.headD 0) 192 36) else p.cmd.tile
/-- The written mark of the tile a command wrote is cleared (R247). -/
def State.unmarkCmd (s : State) (p : HodProg) : State :=
  if p.pos = 0 then s
  else match p.tile with
    | some (i, t) => s.unmark (ctxIdx p.cmd.ctxh.toNat) i t
    | none => s
/-- What a command in progress that stops has placed in the cluster goes (R247, R258, R266): its tile's written mark where it wrote
the tile, its rows still staged, its tag set that has not acted, its submitted ring slot, which becomes `slot`. -/
def State.undo (s : State) (cl ch : Nat) (p : HodProg) (slot : SlotState) : State :=
  let s1 := s.unmarkCmd p
  let s2 := if p.cmd.op = 7 then
      s1.onCore (4 * cl + p.cmd.ext % 4) (fun co => { co with staging := co.staging.filter (fun g => g.ch ≠ ch || g.id ≠ p.cmd.id) })
    else if p.cmd.op = 8 then
      s1.onDie (ctxIdx p.cmd.ctxh.toNat % 4) (fun x => { x with
        tagOps := x.tagOps.filter (fun o => !(o.hod = some (cl, ch) && o.command = p.cmd.id)) })
    else s1
  if p.cmd.op = 8 && (s2.cluster cl).submitted.any (fun q => q.2 = ch) then
    let k := p.cmd.b.toNat % 16
    s2.onCluster cl (fun x => { (x.setSlot k { (x.slot k) with state := slot }) with submitted := x.submitted.filter (fun q => q.2 ≠ ch) })
  else s2
/-- The head of a channel is abandoned: what it placed goes, its entry frees, the channel runs on. -/
def State.abandonHead (s : State) (cl ch : Nat) : State :=
  let h := (s.cluster cl).chan ch
  let s1 := match h.prog with | some p => s.undo cl ch p .free | none => s
  (s1.onCluster cl (fun x => let h := x.chan ch
    x.setChan ch { h with queue := h.queue.drop 1, halted := false, fault := none, prog := none })).onDie (cl / 12) (fun x =>
      x.leaveReplay (.hod cl ch))
/-- The commands of a strand that have not finished are abandoned without publication (R364, R371). -/
def State.abandonOf (s : State) (n : Nat) : State :=
  let cl := n / 32
  ((s.cluster cl).chans.map (fun p => p.1)).foldl (fun s ch =>
    let h := (s.cluster cl).chan ch
    let s1 := match h.queue with
      | m :: _ => if m.strand = n then s.abandonHead cl ch else s
      | [] => s
    s1.onCluster cl (fun x => let h := x.chan ch
      x.setChan ch { h with queue := h.queue.filter (fun m => m.strand ≠ n) })) s
/-- Every halted channel of a context is released and its command abandoned (R371). -/
def State.releaseHalted (s : State) (c : Nat) : State :=
  (s.clusters.map (fun p => p.1)).foldl (fun s cl =>
    ((s.cluster cl).chans.map (fun p => p.1)).foldl (fun s ch =>
      if ((s.cluster cl).chan ch).haltedBy c then s.abandonHead cl ch else s) s) s
/-- The strands on which tasks of a context are bound. -/
def State.strandsOf (s : State) (c : Nat) : List Nat :=
  (s.strands.filter (fun p => p.2.run ≠ .free && ctxIdx p.2.ctxh.toNat = c)).map (fun p => p.1)
/-- The strands of other contexts whose CSWITCH has chosen a task of a context and not yet left, with their status registers. -/
def State.switchers (s : State) (c : Nat) : List (Nat × Nat) :=
  s.strands.filterMap (fun p => match p.2.save with
    | some (.cswitch x _ _ d) => if x = c && ctxIdx p.2.ctxh.toNat ≠ c then some (p.1, d) else none
    | _ => none)
/-- A CSWITCH whose choice met a tear-down finds no task (R355, R372): s[D] := 1, and its own task goes on.
(DEDUCED, log 47) -/
def State.switchNone (s : State) (n d : Nat) : State :=
  (s.onStrand n (fun st => { st.write (.s d) 1 allLanes 15 false with save := none })).unblock n
/-- A strand's task stops for the tear-down of its context (R371, R372), or the end of its iteration (R387): its commands are abandoned,
those of a task that has ended and still drains too, and a checkpoint in progress goes on without the answers of its launches (R294). -/
def State.stopBound (s : State) (n : Nat) : State :=
  match (s.strand n).run with
  | .blocked .ending => (s.abandonOf n).settle n
  | .blocked .saving => ((s.abandonOf n).dropStrand n true).onStrand n (fun st => { st with answers := [] })
  | _ => ((s.abandonOf n).dropStrand n).select (n / 8)
/-- Free every reservation that satisfies a test. -/
def State.unreserve (s : State) (p : Nat × Nat × Option Nat → Bool) : State :=
  { s with strands := s.strands.map (fun q => match q.2.reserved with
      | some r => if p r then (q.1, { q.2 with reserved := none, freed := true }) else q
      | none => q) }
/-- Change the sequencer. -/
def State.onGs (s : State) (f : Gs → Gs) : State := s.onPkg (fun p => { p with gs := f p.gs })
/-- The strand on which a task of a launch is bound, or drains after its end (R14). -/
def State.boundOn (s : State) (c lid : Nat) (t : Task) : Option Nat :=
  match t.run with
  | .bound n => some n
  | .ended n =>
    let st := s.strand n
    if st.run ≠ .free && ctxIdx st.ctxh.toNat = c && st.launch.toNat = lid && st.task.toNat = t.id then some n else none
  | _ => none
/-- An iteration launch ends without a completion record (R387): as step 3 of R371 for its bound tasks. -/
def State.endIteration (s : State) (c : Nat) (l : Launch) : State :=
  let strands := l.tasks.filterMap (s.boundOn c l.id)
  let s1 := l.tasks.foldl (fun s t => (s.unpark c t).onCtx c (fun x => x.releaseArea t.area)) s
  let s2 := strands.foldl State.stopBound s1
  let s3 := s2.onCtx c (fun x => { x with launches := x.launches.filter (fun k => k.id ≠ l.id) })
  let s4 := (s3.unreserve (fun r => r.1 = c && r.2.1 = l.id)).onDie (c % 4) (fun x =>
    { x with coarse := x.coarse.filter (fun r => !(r.ctx = c && r.launch = l.id)) })
  { s4 with
    cores := s4.cores.map (fun p => (p.1, { p.2 with bindings := p.2.bindings.filter (fun b => !(b.2.1 = c && b.2.2.1 = l.id)) })) }
/-- Every iteration launch ends, and those on their way are discarded. -/
def State.endIterations (s : State) : State :=
  let ls := s.contexts.flatMap (fun p => (p.2.launches.filter (fun l => l.iter)).map (fun l => (p.1, l)))
  let s1 := ls.foldl (fun s q => s.endIteration q.1 q.2) s
  { s1 with dies := s1.dies.map (fun p => (p.1, { p.2 with launches := p.2.launches.filter (fun m => !m.iter) })) }
/-- The sequencer after an abandonment (R387, steps 5 and 6): off where EN has been written 0, whatever the first event.
(DEDUCED, log 54) -/
def Gs.abandon (g : Gs) (code : Nat) : Gs :=
  let g1 := { g with lastWhy := code, attempt := none, submitted := false, event := none, parked := false, recheck := false }
  let n := if code = 8 then g.abcnt else g.abcnt + 1
  { g1 with abcnt := n,
            state := if code = 8 || !g.en then .off else if n.toNat ≥ (if g.ablim = 0 then 1 else g.ablim) then .halt else .run }
/-- The sequencer as its context is torn down (R388): its iteration launches end, an attempt in progress is abandoned, by code 8 where no
event has come, and it is off.
(DEDUCED, log 54) -/
def State.gsTorn (s : State) : State :=
  let code := (s.pkg.gs.event).getD 8
  s.endIterations.onGs (fun g =>
    { (if g.attempt.isSome then ({ g with en := false } : Gs).abandon code else g) with
      en := false, state := .off, event := none, stop := false, recheck := false, parked := false })
/-- What an engine has asked of peers for a context that is torn down, and what they have answered, is used by nothing. -/
def Package.forget (p : Package) (c : Nat) : Package :=
  { p with
    peers := p.peers.map (fun q => if q.engine.any (fun e => decide (e.2.ctx = c)) then { q with engine := none, num := 2 ^ 64 } else q)
    peerData := p.peerData.filter (fun w => w.req.ctx ≠ c) }
/-- Tear-down of a context begins (R371): steps 1 to 6 in one operation. Iteration launches of the sequencer that it ends abandon the
attempt (R380, R385, R388).
(DEDUCED, log 54, 64) -/
def State.teardown (s : State) (c : Nat) : State :=
  let iter := (s.ctx c).launches.any (fun l => l.iter)
  let s0 := (s.switchers c).foldl (fun s p => s.switchNone p.1 p.2) s
  let s1 := s0.onCtx c (fun x => { x with
    life := .dying, gen := x.gen + 1, launches := [], owed := [], rewrite := [], wakepend := false, pkev := 0, pkf := 0,
    savefree := BitVec.ofNat 512 (2 ^ x.savecount - 1) })
  let s2 := (s1.strandsOf c).foldl State.stopBound s1
  let s3 := s2.releaseHalted c
  let s4 := s3.onDie (c % 4) (fun x => { x with
    tags := x.tags.filter (fun t => t.ctx ≠ c), coarse := x.coarse.filter (fun t => t.ctx ≠ c) })
  let served := s.pkg.gs.ctxh.toNat = s.handleOf c
  let s5 := (if served then s4.gsTorn else if iter then s4.gsEvent 3 else s4).unreserve (fun r => r.1 = c)
  { s5 with
    pkg := s5.pkg.forget c
    shadows := s5.shadows.filter (fun e => e.ctx ≠ c)
    cores := s5.cores.map (fun p => (p.1, { p.2 with
      bindings := p.2.bindings.filter (fun b => b.2.1 ≠ c), images := p.2.images.filter (fun k => k.ctx ≠ c) })) }

/-- An integrity failure met by an agent of a core acting for a context, a command of the Hod's with its identifier (R43, R346, R400): a
record, and the context is torn down. -/
def State.integrity (s : State) (core c : Nat) (launch task : BitVec 32) (faddr : Word) (slot : Nat) (command : Nat := 0xFFFFFFFF) : State :=
  let x := s.ctx c
  if x.life = .live then
    (s.coreRecord core (BitVec.ofNat 32 (s.handleOf c)) launch task command 0x15 0x0900 faddr slot).teardown c
  else s
/-- An integrity failure met by an agent of a die acting for a context whose failing read is counted (R400): a record, and the context is
torn down. -/
def State.dieLost (s : State) (d c launch task va : Nat) : State :=
  if (s.ctx c).life = .live then (s.dieRecord d c launch task 0x15 0x0900 (BitVec.ofNat 64 va)).teardown c else s
/-- An integrity failure met by an agent of a die acting for a context (R396, R400). -/
def State.dieFatal (s : State) (d c launch task va : Nat) : State :=
  if (s.ctx c).life = .live then (s.countVa d c va).dieLost d c launch task va else s
/-- What integrity failures of posted writes and of queues' reads lead to (R400), before the next turn.
(DEDUCED, log 79) -/
def State.settleFailed (s : State) : State :=
  match s.pkg.failed with
  | [] => s
  | l => l.foldl (fun s f => match f with
    | some c => s.dieLost (c % 4) c 0 0 0
    | none => s.goViral 1) (s.onPkg (fun p => { p with failed := [] }))

end Sys2Proof.Machine
end

