-- ==== Sys2Proof/Machine/Ops.lean ====
section
/-! DEFINITION. The named operations of a trap: taking one, the system path, and returning from one (R36 to R44). -/

namespace Sys2Proof.Machine

/-! ## Taking a trap -/

/-- Causes a handler may take (R36): 0x01 to 0x0C by their own bit of XMASK, 0x20 by bit 32 (R38). -/
def delivered (xmask : Word) (cause : Nat) : Bool :=
  (1 ≤ cause && cause ≤ 0x0C && xmask.getLsbD cause) || (cause = 0x20 && xmask.getLsbD 32)
/-- Scratchpad address of the record buffer (R38). -/
def recAddr (xrec : Word) : Nat := fld xrec.toNat 6 13 * 64
/-- The pc that names an address: sign-extended from bit 56, bits [1:0] zero (R11). -/
def pcOf (a : Word) : Word := canonVa a &&& ~~~3
/-- The pending next bundle of a delay bundle: the target, or the bundle after it (R91). -/
def Strand.pendingNext (st : Strand) (after : Word) : Word :=
  match st.delay with
  | some (.taken t) => t
  | some .notTaken => after
  | some .ret => pcOf st.xpc
  | none => 0
/-- The task stops on the system path (R36, R290, R331, R354, R400): NOT_PRESENT saves the task, whose context parks once it is saved,
or blocks it in place and parks the context at once; an integrity failure is fatal to the context; a stale tag ends the task with
STATUS 2; any other cause with STATUS 3. -/
def State.systemStop (s : State) (n cause : Nat) : State :=
  let c := s.ctxOf n
  let lid := (s.strand n).launch.toNat
  if cause = 0x10 then
    let s2 := (s.onTaskOf n (fun t => { t with parked := .fault })).gsTaskEvent c lid 2
    if (s.ctx c).freeArea.isSome then
      (s2.leave n (.blocked .saving) 0xF1).onStrand n (fun st => { st with save := some .fault })
    else (s2.onCtx c (fun x => { x with pkf := x.pkf + 1 })).leave n (.blocked (.parked true)) 0xF1
  else if cause = 0x15 then s.teardown c
  else (s.endTask n (if cause = 0x12 then 2 else 3) none).select (n / 8)
/-- Take a trap of a strand (R39, R40): `after` is the address behind the bundle, `left` the iterations that would follow the one
named by the strand's own pc. Results go to replay registers, a record is built with the core's next SEQ, and the trap is delivered
to the handler or sent to the system path. With DSLOT 0, XNPC keeps what it held and TARGET is 0.
(DEDUCED, log 15; DESIGN CHOICE, log 77) -/
def State.takeTrap (s : State) (n : Nat) (t : Trap) (after : Word) (left : Nat) : State :=
  let c := n / 8
  let (s0, seq) := s.coreSeq c
  let st := (s0.strand n).toReplay
  let dslot := st.delay.isSome
  let target := st.pendingNext after
  let wanted := !st.tl && delivered st.xmask t.cause
  let fits := recAddr st.xrec ≤ 0x5FFC0
  let direct := wanted && fits
  let r : Rec := ⟨s.gtime, st.pc, t.faddr, if dslot then target else 0, seq, st.ctxh, st.launch, st.task, t.command, t.cause,
    c / 48, c / 4 % 12, c % 4, n % 8, left, t.slot,
    b2n dslot + 4 * b2n (st.tl || (wanted && !fits)) + 8 * b2n st.tl + 16 * b2n (!direct), t.detail⟩
  if direct then
    let s1 := (s0.onCore c (fun co => co.spWrite (recAddr st.xrec) 64 r.bytes false)).gsTaskEvent (s.ctxOf n) st.launch.toNat 1
    s1.setStrand n { st with
      xstk := st.eng, eng := [], xpc := st.pc, xnpc := if dslot then target else st.xnpc, dslot, xrpt := BitVec.ofNat 8 left,
      tl := true, p1 := 0, pc := pcOf st.xvec, res := .fresh, delay := none, words := [], walk := none }
  else
    let s1 := (s0.setStrand n { st with walk := none, words := [] }).append (s.ctxOf n) r
    (s1.gsTaskEvent (s.ctxOf n) st.launch.toNat 1).systemStop n t.cause

/-! ## Returning from a trap -/

/-- The end of RTE's delay bundle (R42): level-1 results are written in due order, TL becomes 0, the engines are reloaded and XSTK is left
empty, the level-0 entries resume and the strand goes on at XPC. XPC and XNPC count as they stand then: what an SWR of the delay bundle
wrote after RTE's check is taken with the bits a pc does not hold dropped.
(DEDUCED, log 76; DESIGN CHOICE, log 86) -/
def Strand.rte (st : Strand) : Strand :=
  let rest := sortBy (fun (r : Result) => r.cnt) (st.pipe ++ (st.z.filter (fun p => p.2.tl)).map (fun p => p.2))
  let st1 := rest.foldl Strand.land { st with pipe := [], z := st.z.filter (fun p => !p.2.tl) }
  { st1 with
    tl := false, eng := st1.xstk, xstk := [], pc := pcOf st1.xpc, res := .byHeader st1.xrpt.toNat, words := [],
    delay := if st1.dslot then some (.taken (pcOf st1.xnpc)) else none }.reinject
/-- The checks of a register target (R92): ALIGNMENT 0x0100, then 0x0101. -/
def targetTrap (e : Env) (a : Word) : Option Trap :=
  if a.toNat % 4 ≠ 0 then some (e.trapOf 0x0A 0x0100 a)
  else if canonVa a ≠ a then some (e.trapOf 0x0A 0x0101 a) else none

end Sys2Proof.Machine
end

