-- ==== Sys2Proof/Machine/Control.lean ====
section
/-! DEFINITION. The CT slot of R91 to R106: control transfers, YIELD, semaphores, TRAP, RTE and the status registers. -/

namespace Sys2Proof.Machine

/-! ## Control transfers -/

/-- The address of the delay bundle: the bundle after this one (R91). -/
def Env.delayAt (e : Env) : Word := canonVa (e.pc + BitVec.ofNat 64 (4 * e.len))
/-- A relative target (R91), as the pc holds it (R11). -/
def relTarget {w : Nat} (e : Env) (off : BitVec w) : Word := canonVa (e.pc + (sx off <<< 2))
/-- A transfer that reads registers (R91). -/
def jump (reads : List Reg) (taken : Bool) (target : Word) : Act := { reads, ctl := .jump taken target }

/-- BR (R93). -/
def opBr (o : CJ) (e : Env) : Act := jump [] true (relTarget e o.off)
/-- BRC (R93). -/
def opBrc (o : CC) (e : Env) : Act :=
  jump [.b o.p.toNat, .b o.q.toNat] ((e.st.getB o.p.toNat && e.st.getB o.q.toNat) = decide (o.sense = 1)) (relTarget e o.off)
/-- BRV (R94): the active lanes must agree. -/
def opBrv (o : CC) (e : Env) : Act :=
  let act := e.st.getK o.q.toNat
  let x := e.st.getK o.p.toNat &&& act
  let c := act ≠ 0 && x = act
  let odd : Option Nat :=
    match lowBit act.toNat 64 0 with
    | none => none
    | some j => firstIdx (fun i => act.getLsbD i && x.getLsbD i != x.getLsbD j) 64 0
  { jump [.k o.p.toNat, .k o.q.toNat] (c = decide (o.sense = 1)) (relTarget e o.off) with
    trap := odd.map (fun i => e.trapOf 0x06 i) }
/-- BRI (R95). -/
def opBri (o : RG) (e : Env) : Act :=
  { jump [rs o.a] true (e.sw o.a) with trap := targetTrap e (e.sw o.a) }
/-- The return address of a call: behind the delay bundle, by W of the word at it (R95). -/
def retAddr (e : Env) : Word :=
  match e.delayW with
  | .word w => canonVa (e.delayAt + BitVec.ofNat 64 (4 * fld w.toNat 22 6))
  | _ => e.delayAt
/-- A call: the word at the delay bundle is read before commit, after the checks of the target (R95). -/
def callOp (e : Env) (reads : List Reg) (first : Option Trap) (target : Word) : Act :=
  let t := match first, e.delayW with
    | some t, _ => some t
    | none, .trap c d => some (e.trapOf c d e.delayAt)
    | none, _ => none
  { one e reads (.s 63) 1 (retAddr e).toNat with
    trap := t, ctl := .jump true target,
    block := match e.delayW with | .miss => some (.fetchWalk e.delayAt) | _ => none }
/-- CALL (R95). -/
def opCall (o : CJ) (e : Env) : Act := callOp e [] none (relTarget e o.off)
/-- CALLI (R95). -/
def opCalli (o : RG) (e : Env) : Act := callOp e [rs o.a] (targetTrap e (e.sw o.a)) (e.sw o.a)
/-- RET (R95). -/
def opRet (e : Env) : Act :=
  { jump [.s 63] true (e.st.getS 63) with trap := targetTrap e (e.st.getS 63) }
/-- The count LOOPI sets (R96). -/
def loopiCount (o : CL) (e : Env) : BitVec 32 := (e.sw o.a).setWidth 32 + o.x.getD 0
/-- Write a loop counter at commit. -/
def setLc (e : Env) (l : Nat) (v : BitVec 32) (s : State) : State :=
  s.onStrand e.n (fun st => { st with lc := put 0 st.lc l v })
/-- LOOPI (R96). -/
def opLoopi (o : CL) (e : Env) : Act :=
  let c := loopiCount o e
  { jump [rs o.a] (c = 0) (relTarget e o.off) with commit := setLc e o.l.toNat c }
/-- LOOP (R96). -/
def opLoop (o : CL) (e : Env) : Act :=
  let c := e.st.getLc o.l.toNat
  { jump [] (decide (c.toNat > 1)) (relTarget e o.off) with
    commit := setLc e o.l.toNat (if c.toNat > 1 then c - 1 else 0) }
/-- RTE (R42, R104): only while TL is 1, and XPC and a pending XNPC must be targets. -/
def opRte (e : Env) : Act :=
  { own := own (!e.st.tl) 0x0006,
    trap := match targetTrap e e.st.xpc with
      | some t => some t
      | none => if e.st.dslot then targetTrap e e.st.xnpc else none,
    ctl := .rte }
/-- YIELD (R97). -/
def opYield (_e : Env) : Act := { post := some .yield }
/-- TRAP (R102). -/
def opTrap (o : CE) (_e : Env) : Act := { post := some (.trap o.imm.toNat) }

/-! ## Semaphores -/

/-- The first `n` completions of a semaphore are consumed: pending flags clear (R34, R99). -/
def Strand.consume (st : Strand) (k n : Nat) : Strand :=
  let st1 := ((st.getE k).take n).foldl (fun (st : Strand) c => match c.reg with | some r => st.setPending r false | none => st) st
  { st1 with sem := put [] st1.sem k ((st.getE k).drop n) }
/-- Consumption at commit: ownership ends with the completions of routines (R181), and completions of global accesses that the full count
held are appended (R98). -/
def consumeAt (e : Env) (k n : Nat) (s : State) : State :=
  let ids := (((s.strand e.n).getE k).take n).filterMap (fun c => c.routine)
  (s.onStrand e.n (fun st => (st.consume k n).drain 128)).onCore e.c (fun co =>
    { co with owned := co.owned.filter (fun p => !ids.contains p.1) })
/-- The trap of the oldest marked completion among those consumed (R183, R262). -/
def markTrap (e : Env) (k n : Nat) : Option Trap :=
  match oldest ((((e.st.getE k).take n).filter (fun c => c.mark.isSome)).map (fun c => (k, c))) with
  | some (_, c) => c.mark.map (fun m => e.trapOf m.cause (m.index * 2 ^ 20 + 2 ^ 16 + m.detail) m.addr)
  | none => none
/-- WAIT (R99). -/
def opWait (o : CE) (e : Env) : Act :=
  let k := o.e.toNat
  let n := o.imm.toNat
  let enough := decide (n ≤ e.st.count k)
  { trap := if enough then markTrap e k n else none,
    block := if enough then none else some (.sem k n),
    commit := consumeAt e k n }
/-- WAITANY (R100): the lowest selected semaphore that holds a completion. -/
def opWaitany (o : CE) (e : Env) : Act :=
  match firstIdx (fun i => o.imm.getLsbD i && decide (1 ≤ e.st.count i)) 16 0 with
  | none => { block := some (.semAny o.imm.toNat) }
  | some k =>
    { trap := markTrap e k 1,
      commit := fun s => (consumeAt e k 1 s).onStrand e.n (fun st => { st with wsem := BitVec.ofNat 4 k }) }
/-- Append `n` completions that name no register. -/
def appendN (k : Nat) : Nat → Strand → Strand
  | 0, st => st
  | n + 1, st => appendN k n (st.append k none none none)
/-- SIGNAL (R101). -/
def opSignal (o : CE) (e : Env) : Act :=
  let k := o.e.toNat
  { own := own (decide (e.st.count k + o.imm.toNat > 0xFFFF)) 0x0104,
    commit := fun s => s.onStrand e.n (appendN k o.imm.toNat) }

/-! ## Status registers -/

/-- SID (R106). -/
def sidOf (s : State) (n : Nat) : Nat := (if s.pkg.gvalid then s.pkg.pkgnum % 1024 else 0) * 2 ^ 16 + n % 2048
/-- XSTATE (R38). -/
def xstateOf (st : Strand) : Nat := st.xrpt.toNat * 256 + b2n st.dslot * 2 + b2n st.tl
/-- The value of a status register (R105). -/
def statusValue (e : Env) (r : Nat) : Nat :=
  let st := e.st
  match r with
  | 0x000 => st.swhy.toNat
  | 0x001 => sidOf e.s e.n
  | 0x002 => st.ctxh.toNat
  | 0x003 => st.launch.toNat
  | 0x004 => st.task.toNat
  | 0x005 => st.domain.toNat
  | 0x006 => st.course.toNat
  | 0x007 => st.scyc.toNat
  | 0x008 => e.s.gtime.toNat
  | 0x009 => st.wsem.toNat
  | 0x00A => st.fstat.toNat
  | 0x030 => st.pendS.toNat
  | 0x031 => st.pendV.toNat
  | 0x032 => st.poisS.toNat
  | 0x033 => st.poisV.toNat
  | 0x040 => st.xvec.toNat
  | 0x041 => st.xmask.toNat
  | 0x042 => st.xpc.toNat
  | 0x043 => st.xnpc.toNat
  | 0x044 => xstateOf st
  | 0x045 => st.xrec.toNat
  | r => if r / 16 = 1 then (st.getLc (r % 4)).toNat else if r / 16 = 2 then st.count (r % 16) else 0
/-- Bits of XMASK that hold a cause (R38). -/
def xmaskBits : Word := 0x100001FFE
/-- The write of a status register: reserved and read-only fields keep what they hold (R8, R103). XVEC keeps bits [63:57] as they are
written; the pc takes the address sign-extended from bit 56 (R11).
(DEDUCED, log 76) -/
def statusWrite (r : Nat) (w : Word) (st : Strand) : Strand :=
  match r with
  | 0x00A => { st with fstat := w.setWidth 5 }
  | 0x040 => { st with xvec := w &&& ~~~3 }
  | 0x041 => { st with xmask := w &&& xmaskBits }
  | 0x042 => { st with xpc := w }
  | 0x043 => { st with xnpc := w }
  | 0x044 => { st with xrpt := BitVec.ofNat 8 (fld w.toNat 8 8), dslot := w.getLsbD 1 }
  | 0x045 => { st with xrec := w &&& 0x7FFC0 }
  | r => if r / 16 = 1 then { st with lc := put 0 st.lc (r % 4) (w.setWidth 32) } else st
/-- PERMISSION 0x0100 on a register of the system (R33, R103). -/
def systemTrap (e : Env) (r : Nat) : Option Trap :=
  if srnAccess r = .system then some (e.trapOf 0x11 0x0100) else none
/-- SRD (R103). -/
def opSrd (o : CS) (e : Env) : Act :=
  { one e [] (rs o.d) 1 (statusValue e o.srn.toNat) with trap := systemTrap e o.srn.toNat }
/-- SWR (R103). -/
def opSwr (o : CS) (e : Env) : Act :=
  { reads := [rs o.a], trap := systemTrap e o.srn.toNat,
    commit := fun s => s.onStrand e.n (statusWrite o.srn.toNat (e.sw o.a)) }

end Sys2Proof.Machine
end

