-- ==== Sys2Proof/Machine/GlobalMem.lean ====
section
/-! DEFINITION. Global accesses at issue: the checks of R223 and the entries of the two queues (R221 to R226, R233, R265, R302). -/

namespace Sys2Proof.Machine

/-- The address of an MG operation (R57). -/
def mgAddr (e : Env) (o : MG) : Word :=
  match e.addr with
  | some a => a
  | none => e.sw o.a + (match o.x with | some x => sx x.disp | none => 0)
/-- The context index of the strand's task. -/
def Env.ctx (e : Env) : Nat := ctxIdx e.st.ctxh.toNat
/-- The address space of the strand's task. -/
def Env.asid (e : Env) : Nat := (e.s.ctx e.ctx).asid

/-- What the checks of R223 find. -/
inductive Judgement where
  | trap (t : Trap)
  | block (w : Why)
  | ok (pa : Nat) (l : Leaf)
  deriving DecidableEq, Repr
/-- The checks of R223 on an address, in order. -/
def judge (e : Env) (a : Word) (align : Nat) (k : Kind) (dur : Bool) : Judgement :=
  if !isCanon a then .trap (e.trapOf 0x0A 0x0302 a)
  else if a.toNat % align ≠ 0 then .trap (e.trapOf 0x0A 0x0301 a)
  else match e.s.strandTr e.n (a.toNat % 2 ^ 57) k with
    | .fault c d => .trap (e.trapOf c d a)
    | .miss => .block (.walk a k)
    | .ok pa l => if dur && window (e.s.place pa) ≠ .nv then .trap (e.trapOf 0x11 0x0300 a) else .ok pa l
/-- Append an entry to the load queue or the store queue, numbered in commit order (R221); a load's register becomes pending
(R224). -/
def Strand.queue (st : Strand) (load : Bool) (g : GEntry) (pend : Option Reg) : Strand :=
  let st1 := match pend with | some r => st.setPending r true | none => st
  let g1 := { g with num := st1.gnum }
  if load then { st1 with loadQ := st1.loadQ ++ [g1], gnum := st1.gnum + 1 }
  else { st1 with storeQ := st1.storeQ ++ [g1], gnum := st1.gnum + 1 }
/-- An entry with every field at its plain value. -/
def gEntry (kind : GKind) (sem : Nat) (va : Word) (pa size : Nat) : GEntry :=
  ⟨0, kind, none, sem, va, pa, size, 0xFFFFFFFFFFFFFFFF, 0, 0, 0, false, false, false, false, 0⟩
/-- A global access that is checked before commit (R223) and enters a queue at its commit, counted where its leaf asks it (R333). -/
def access (e : Env) (load : Bool) (a : Word) (align : Nat) (k : Kind) (reads : List Reg) (pend : Option Reg) (next : Word)
    (g : GEntry) : Act :=
  let a0 : Act := { reads, vdest := pend, next, loadEnt := b2n load, storeEnt := b2n (!load) }
  match judge e a align k g.dur with
  | .trap t => { a0 with trap := some t }
  | .block w => { a0 with block := some w }
  | .ok pa l =>
    { a0 with commit := fun s =>
        let va := a.toNat % 2 ^ 57
        let s1 := (s.onStrand e.n (fun st => st.queue load { g with va := a, pa } pend)).tlbUsed e.n va
        s1.touch (dieOfStrand e.n) e.asid va l }
/-- The mask of an MG operation. -/
def mgMask (e : Env) (o : MG) : Word := e.st.getK (mgK o)

/-- GLD (R222, R224). -/
def opGld (o : MG) (e : Env) : Act :=
  let a := mgAddr e o
  access e true a 256 .read (baseRead e o.a ++ [.k (mgK o)]) (some (rv o.q)) (stepAddr a o.stp 256)
    { gEntry .load o.e.toNat a 0 256 with reg := some (rv o.q), lanes := mgMask e o }
/-- GLDS (R222, R224). -/
def opGlds (o : MG) (e : Env) : Act :=
  let a := mgAddr e o
  access e true a 8 .read (baseRead e o.a) (some (rs o.q)) (stepAddr a o.stp 8)
    { gEntry .load o.e.toNat a 0 8 with reg := some (rs o.q) }
/-- GLDA (R222, R224, R234). -/
def opGlda (o : MG) (e : Env) : Act :=
  let a := mgAddr e o
  access e true a 8 .read (baseRead e o.a) (some (rs o.q)) (stepAddr a o.stp 8)
    { gEntry .acquire o.e.toNat a 0 8 with reg := some (rs o.q), scope := mgScope o, acq := true }
/-- GST (R222, R225). -/
def opGst (o : MG) (e : Env) : Act :=
  let a := mgAddr e o
  access e false a 256 .write (baseRead e o.a ++ [rv o.q, .k (mgK o)]) none (stepAddr a o.stp 256)
    { gEntry .store o.e.toNat a 0 256 with lanes := mgMask e o, data := e.vv o.q, dur := decide (mgScope o = 7) }
/-- GSTS (R222, R225). -/
def opGsts (o : MG) (e : Env) : Act :=
  let a := mgAddr e o
  access e false a 8 .write (baseRead e o.a ++ [rs o.q]) none (stepAddr a o.stp 8)
    { gEntry .store o.e.toNat a 0 8 with data := (e.sw o.q).setWidth 2048, dur := decide (mgScope o = 7) }
/-- GSTL (R222, R225, R234). -/
def opGstl (o : MG) (e : Env) : Act :=
  let a := mgAddr e o
  access e false a 8 .write (baseRead e o.a ++ [rs o.q]) none (stepAddr a o.stp 8)
    { gEntry .release o.e.toNat a 0 8 with data := (e.sw o.q).setWidth 2048, scope := mgScope o, rel := true }

/-- The translation of a PREF: its core TLB's, or a walk of its own (R226). -/
def prefTr (e : Env) (a : Word) : Option (Nat × Leaf) :=
  if !isCanon a then none
  else
    let va := a.toNat % 2 ^ 57
    let t := match e.s.coreTlb e.n va with
      | some t => e.s.judgeLeaf (e.s.ctx e.ctx).keydom t.leaf va .read
      | none => e.s.translate (dieOfStrand e.n) e.ctx va .read
    match t with
    | .ok pa l => if window (e.s.place pa) = .peer then none else some (pa, l)
    | _ => none
/-- PREF (R226): discarded at commit where a check would fail (R223) or the target is a peer's (R444). -/
def opPref (o : MG) (e : Env) : Act :=
  let a := mgAddr e o
  let a0 : Act := { reads := baseRead e o.a, next := stepAddr a o.stp 1024 }
  match prefTr e a with
  | none => a0
  | some (pa, l) =>
    let key := tlbKey e.asid (a.toNat % 2 ^ 57)
    { a0 with
      loadEnt := 1,
      commit := fun s =>
        ((s.onStrand e.n (fun st => st.queue true (gEntry .pref 0 a pa 1) none)).onCore e.c (fun co =>
          { co with tlb := tlbPut co.tlb 256 key l.tlb })).onDie (dieOfStrand e.n) (fun x =>
          { x with tlb := tlbPut x.tlb 16384 key l.tlb }) }

/-- MARK (R59, R233): one half enters the queue of its side. -/
def opMark (h : MemSide) (o : MK) (e : Env) : Act :=
  let load := decide (h = .ld)
  { mark := some (o.kind.toNat, o.scope.toNat), loadEnt := b2n load, storeEnt := b2n (!load),
    commit := fun s => s.onStrand e.n (fun st =>
      st.queue load { gEntry (.mark o.kind.toNat) 0 0 0 0 with scope := o.scope.toNat } none) }

/-- The size of an atomic (R265). -/
def atomSize (o : RG) : Nat := if fld (extOf o) 4 2 = 0 then 4 else 8
/-- The comparand register of an atomic. -/
def atomC (o : RG) : BitVec 6 := (o.x.map (fun x => x.c)).getD 0
/-- An atomic (R265): read and write access, aligned to its size; ORD says whether it acquires and releases. -/
def atomic (e : Env) (o : RG) (ret : Bool) : Act :=
  let a := e.sw o.a
  let n := atomSize o
  let aop := extOf o % 16
  let ord := fld (extOf o) 9 2
  access e false a n .both ([rs o.a, rs o.b] ++ (if aop = 9 then [rs (atomC o)] else [])) (if ret then some (rs o.d) else none) 0
    { gEntry (.atomic aop ret) (fld (extOf o) 11 4) a 0 n with
      reg := if ret then some (rs o.d) else none, data := (e.sw o.b).setWidth 2048, cmp := e.sw (atomC o),
      scope := fld (extOf o) 6 3, acq := bitOf ord 0, rel := bitOf ord 1 }
/-- ATOM (R265). -/
def opAtom (o : RG) (e : Env) : Act := atomic e o false
/-- ATOMR (R265). -/
def opAtomr (o : RG) (e : Env) : Act := atomic e o true

/-- A TAGPUB (R302): it enters the store queue, and its operation the list of the table of its context's home die (R298). -/
def tagpub (e : Env) (o : RG) (fn : Nat) : Act :=
  let key := e.sv o.a
  let nm1 := extOf o % 4096
  { reads := [rs o.a], storeEnt := 1,
    own := own (decide (keyTile key + nm1 > 2 ^ 36 - 1)) 0x0502,
    commit := fun s =>
      let num := (s.strand e.n).gnum
      (s.onStrand e.n (fun st =>
        st.queue false { gEntry (.tagset fn nm1) o.d.toNat (BitVec.ofNat 64 key) 0 0 with
          scope := o.f.toNat % 8, rel := fn = 0 } none)).onDie (e.ctx % 4) (fun x =>
        { x with tagOps := x.tagOps ++
            [⟨fn, e.ctx, e.st.launch.toNat, e.st.task.toNat, key, nm1 + 1, o.f.toNat % 8, e.n, num, none, 0xFFFFFFFF⟩] }) }
/-- TAGPUB, set (R302). -/
def opTagpubSet (o : RG) (e : Env) : Act := tagpub e o 0
/-- TAGPUB, clear tile (R302). -/
def opTagpubClearTile (o : RG) (e : Env) : Act := tagpub e o 1
/-- TAGPUB, clear tensor (R302). -/
def opTagpubClearTensor (o : RG) (e : Env) : Act := tagpub e o 2

end Sys2Proof.Machine
end

