-- ==== Sys2Proof/Machine/TaskOps.lean ====
section
/-! DEFINITION. The CT slot of R291 to R304, R355 to R358 and R405: tasks, barriers, tags, contexts and the persist barrier. -/

namespace Sys2Proof.Machine

/-- NOP (R60): in a sticky slot the issue clears the engine. -/
def opNop (_e : Env) : Act := {}

/-! ## Barriers -/

/-- LEVEL of a DOMAIN register (R280). -/
def domLevel (d : Word) : Nat := fld d.toNat 61 3
/-- MEMBERS of a DOMAIN register (R280). -/
def domMembers (d : Word) : Nat := fld d.toNat 40 21
/-- DIDX of a DOMAIN register (R280). -/
def domIdx (d : Word) : Nat := fld d.toNat 21 19
/-- The scope of a domain level (R295). -/
def levelScope (l : Nat) : Nat := match l with | 1 => 1 | 2 => 2 | 3 => 3 | 4 => 4 | _ => 6
/-- A domain of a launch; a fresh one has PHASE 0 (R295). -/
def Launch.domain (l : Launch) (d : Nat) : Domain := look {} l.domains d
/-- The PHASE of the domain of a strand's task. -/
def State.phaseOf (s : State) (n : Nat) : BitVec 32 :=
  match s.taskOf n with
  | some (l, _) => (l.domain (domIdx (s.strand n).domain)).phase
  | none => 0
/-- A phase in which a strand arrived has not completed (R295). -/
def State.phaseOpen (s : State) (n : Nat) (ph : Option (BitVec 32)) : Bool := decide (ph = some (s.phaseOf n))
/-- A strand arrives (R296, R297): a MARK of KIND AR at its domain's scope. -/
def State.arrive (s : State) (n : Nat) (wait : Bool) : State :=
  let st := s.strand n
  let ph := s.phaseOf n
  let s1 := s.setStrand n { st with
    barPhase := some ph, barWait := if wait then some ph else st.barWait,
    arrivals := st.arrivals ++ [(st.gnum, levelScope (domLevel st.domain))], gnum := st.gnum + 1 }
  s1.onLaunch (s.ctxOf n) st.launch.toNat (fun l =>
    let d := l.domain (domIdx st.domain)
    { l with domains := upd l.domains (domIdx st.domain) { d with arrived := d.arrived ++ [(n, st.gnum, st.task.toNat)] } })
/-- A member observes the completion of its phase: the copies of its die go in a domain of level 4 or 5 (R319). -/
def State.observePhase (s : State) (n : Nat) : State :=
  if domLevel (s.strand n).domain ≥ 4 then s.onDie (dieOfStrand n) Die.dropClean else s
/-- BAR outside a domain (R296). -/
def noDomain (e : Env) : Option Nat := own (domLevel e.st.domain = 0) 0x0500
/-- BAR (R296). -/
def opBar (_o : RG) (e : Env) : Act := { own := noDomain e, commit := fun s => s.arrive e.n true }
/-- BAR.ARRIVE (R296). -/
def opBarArrive (_o : RG) (e : Env) : Act :=
  { own := noDomain e,
    block := match e.st.barPhase with | some ph => if e.s.phaseOpen e.n (some ph) then some (.phase ph) else none | none => none,
    commit := fun s => s.arrive e.n false }
/-- BAR.WAIT (R296). -/
def opBarWait (_o : RG) (e : Env) : Act :=
  { own := noDomain e <|> own e.st.barPhase.isNone 0x0501,
    block := match e.st.barPhase with | some ph => if e.s.phaseOpen e.n (some ph) then some (.phase ph) else none | none => none,
    commit := fun s => s.observePhase e.n }

/-! ## SPAWN and EXIT -/

/-- The READY children of a die (R291). -/
def State.childQueue (s : State) (d : Nat) : Nat :=
  (s.contexts.map (fun p => (p.2.launches.map (fun l =>
    (l.tasks.filter (fun t => t.child.isSome && t.run = .ready && t.die = d)).length)).sum)).sum
/-- SPAWN (R291): `at` is the entry of `spawn.at`. -/
def spawn (e : Env) (o : RG) (target : Option (BitVec 6)) : Act :=
  let w := match e.s.taskOf e.n with | some (_, t) => t.weight | none => 0
  let id := match e.s.taskOf e.n with | some (l, _) => l.nextChild | none => 0
  let d := dieOfStrand e.n
  let full := decide (e.s.childQueue d ≥ 65536)
  let c4 := o.x.map (fun x => x.c)
  { one e ([rs o.a] ++ (match target with | some b => [rs b] | none => []) ++ (match c4 with | some c => [rs c] | none => []))
      (rs o.d) 1 (if full then 2 ^ 56 else id % 2 ^ 32) with
    trap := if w < 2 then some (e.trapOf 0x0C 0) else match target with | some b => targetTrap e (e.sw b) | none => none,
    commit := fun s =>
      if full then s
      else s.onLaunch e.ctx e.st.launch.toNat (fun l =>
        let l1 := l.onTask e.st.task.toNat (fun t => { t with weight := t.weight - w / 2 })
        let arg4 : Word := match c4 with | some c => e.sw c | none => 0
        let parent := some (e.sw o.a, target.map e.sw, arg4)
        let kid : Task := { id := id % 2 ^ 32, die := d, weight := w / 2, run := .ready, child := parent }
        { l1 with nextChild := (l1.nextChild + 1) % 2 ^ 32, tasks := l1.tasks ++ [kid] }) }
/-- SPAWN (R291). -/
def opSpawn (o : RG) (e : Env) : Act := spawn e o none
/-- SPAWN.AT (R291). -/
def opSpawnAt (o : RG) (e : Env) : Act := spawn e o (some o.b)
/-- EXIT (R292). -/
def opExit (_o : RG) (_e : Env) : Act := { post := some (.exit none) }
/-- EXIT.ERR (R292). -/
def opExitErr (o : RG) (e : Env) : Act := { reads := [rs o.a], post := some (.exit (some (e.sv o.a % 65536))) }

/-! ## LAUNCH and TAGWAIT -/

/-- The die a launch goes to: the home die of the record's CONTEXT, or of the issuer's where the record cannot be read (R274,
R293). -/
def launchDie (s : State) (d c va : Nat) : Nat :=
  match s.readVa (.launch d) d c va 64 with
  | .ok v false => byts v 24 4 % 4
  | _ => c % 4
/-- LAUNCH (R293). -/
def opLaunch (o : RG) (e : Env) : Act :=
  let a := e.sw o.a
  { reads := [rs o.a], vdest := some (rs o.d),
    trap := if !isCanon a then some (e.trapOf 0x0A 0x0501 a)
      else if a.toNat % 64 ≠ 0 then some (e.trapOf 0x0A 0x0500 a) else none,
    commit := fun s =>
      let s1 := s.onStrand e.n (fun st =>
        { st.setPending (rs o.d) true with answers := st.answers ++ [⟨a, rs o.d, extOf o % 16, none⟩] })
      let iter := match s.taskOf e.n with | some (l, _) => l.iter | none => false
      s1.onDie (launchDie s (dieOfStrand e.n) e.ctx a.toNat) (fun x =>
        { x with launches := x.launches ++
            [⟨.task e.n e.st.ctxh.toNat e.st.launch.toNat e.st.task.toNat, a, e.st.ctxh.toNat, none, iter⟩] }) }
/-- TAGWAIT (R304). -/
def opTagwait (o : RG) (e : Env) : Act :=
  let key := e.sw o.a
  let prod : BitVec 32 := match o.x with | some x => (e.sw x.c).setWidth 32 | none => 0
  let reads := [rs o.a] ++ (match o.x with | some x => [rs x.c] | none => [])
  match e.s.judgeKey e.ctx key.toNat prod.toNat with
  | .stale => { reads, trap := some (e.trapOf 0x12 0x0504) }
  | .waits => { reads, block := some (.tag key prod) }
  | .satisfied _ =>
    { reads, commit := fun s => if o.f.toNat % 8 = 4 then s.onDie (dieOfStrand e.n) Die.dropClean else s }

/-! ## Contexts -/

/-- The traps of a handle (R355, R357): stale, then another key domain. -/
def handleTrap (e : Env) (h : Nat) : Option Trap :=
  if !e.s.liveHandle h then some (e.trapOf 0x13 0x0700)
  else if (e.s.ctx (ctxIdx h)).keydom ≠ (e.s.ctx e.ctx).keydom then some (e.trapOf 0x11 0x0700) else none
/-- What CSWITCH's choice comes to (R355): a task, none, or a read of a task's kernel descriptor that waits, with what it has asked. -/
inductive Pick where
  | task (l : Launch) (t : Task)
  | none
  | wait (s : State)
/-- The core could take a task of a kernel descriptor on the CSWITCHing strand: that strand counted FREE, and not reserved for another task
(R285, R362), and the current task pinned (R355). -/
def State.takesOn (s : State) (n : Nat) (own : Option Kernel) (c : Nat) (l : Launch) (t : Task) (v : Nat) : Bool :=
  let k := parseKernel c l.kdesc.toNat v
  let core := n / 8
  !badKernel v && (!(t.area.isSome && k.pins) || t.core = core) && !t.banned.contains core
    && (match (s.strand n).reserved with | none => true | some r => r = (c, l.id, some t.id))
    && (s.core core).admits k (s.boundKernels core (some n) ++ (own.filter Kernel.pins).toList
      ++ s.pinnedKernels core (c, l.id, t.id))
/-- The first of some READY tasks that the core of a strand could take (R355): a read of a descriptor that waits is waited for, in its die's
replay queue where its page is under migration (R337). -/
def State.pickFrom (s : State) (n : Nat) (own : Option Kernel) (c : Nat) : List (Launch × Task) → Pick
  | [] => .none
  | (l, t) :: rest =>
    match s.readKernel (.choose n) (c % 4) c l with
    | .ok v false => if s.takesOn n own c l t v then .task l t else s.pickFrom n own c rest
    | .wait s1 => .wait s1
    | .replay => .wait ((s.agentHold (c % 4) c l.kdesc.toNat).getD s)
    | _ => s.pickFrom n own c rest
/-- The task CSWITCH chooses among the READY ones of a context (R355). -/
def State.cswitchPick (s : State) (n c : Nat) : Pick :=
  let st := s.strand n
  let kernel := (s.taskOf n).bind (fun p => p.2.kernel)
  if (s.ctx c).state = 2 then .none
  else s.pickFrom n kernel c ((s.ctx c).readyTasks.filter (fun p =>
    !(p.1.persist) && !(decide (c = s.ctxOf n) && decide (p.1.id = st.launch.toNat) && decide (p.2.id = st.task.toNat))))
/-- CSWITCH (R355). -/
def opCswitch (o : RG) (e : Env) : Act :=
  let h := e.sv o.a % 2 ^ 32
  let persist := match e.s.taskOf e.n with | some (l, _) => l.persist | none => false
  let base (v : Nat) : Act :=
    { one e [rs o.a] (rs o.d) 1 v with
      own := own e.st.tl 0x0700 <|> own (decide (e.rep ≠ 0)) 0x0702 <|> own persist 0x0701, trap := handleTrap e h }
  if (e.s.ctx e.ctx).freeArea.isNone then base 2
  else match e.s.cswitchPick e.n (ctxIdx h) with
    | .none => { base 1 with commit := fun s => s.used (.choose e.n) }
    | .wait _ => { base 0 with results := [], block := some (.choosing (ctxIdx h)) }
    | .task l t =>
      { base 0 with
        results := [], commit := fun s => s.used (.choose e.n), post := some (.cswitch o.d.toNat (ctxIdx h) l.id t.id) }
/-- PARK (R356). -/
def opPark (o : RG) (e : Env) : Act :=
  let base (v : Nat) : Act :=
    { one e [rs o.a] (rs o.d) 1 v with own := own e.st.tl 0x0700 <|> own (decide (e.rep ≠ 0)) 0x0702 }
  if (e.s.ctx e.ctx).wakepend then { base 1 with commit := fun s => s.onCtx e.ctx (fun x => { x with wakepend := false }) }
  else if e.sw o.a ≠ 0 && decide (e.sv o.a ≤ e.s.gtime.toNat) then base 2
  else { base 0 with results := [], post := some (.park o.d.toNat (e.sw o.a)) }
/-- A WAKE to the home slice of its context (R357). -/
def wake (e : Env) (o : RG) (f : Nat) (time : Word) (reads : List Reg) : Act :=
  let h := e.sv o.a % 2 ^ 32
  { reads := rs o.a :: reads, trap := handleTrap e h,
    commit := fun s =>
      let num := (s.strand e.n).gnum
      (s.onStrand e.n (fun st => { st with gnum := st.gnum + 1 })).onDie (h % 4) (fun x =>
        { x with wakes := x.wakes ++ [⟨h, f, time, e.n, num⟩] }) }
/-- WAKE (R357). -/
def opWake (o : RG) (e : Env) : Act := wake e o 0 0 []
/-- WAKE.AT (R357). -/
def opWakeAt (o : RG) (e : Env) : Act := wake e o 1 (e.sw o.b) [rs o.b]
/-- WAKE.IN (R357). -/
def opWakeIn (o : RG) (e : Env) : Act := wake e o 2 (e.sw o.b + BitVec.ofNat 64 (1000 * extOf o)) [rs o.b]
/-- ESTSET (R358): the estimate saturates. -/
def opEstset (o : RG) (e : Env) : Act :=
  let v := e.sv o.a + extOf o
  { reads := [rs o.a],
    commit := fun s => s.onStrand e.n (fun st =>
      { st with est := BitVec.ofNat 64 (if v ≥ 2 ^ 64 then 2 ^ 64 - 1 else v), estBase := e.st.scyc }) }
/-- ESTSET.WAKE (R358). -/
def opEstsetWake (o : RG) (e : Env) : Act :=
  { reads := [rs o.a],
    commit := fun s => s.onCtx e.ctx (fun x => { x with wake := s.gtime + e.sw o.a + BitVec.ofNat 64 (1000 * extOf o) }) }
/-- PBAR (R405). -/
def opPbar (o : RG) (e : Env) : Act :=
  { storeEnt := 1, commit := fun s => s.onStrand e.n (fun st => st.queue false (gEntry .pbar o.d.toNat 0 0 0) none) }

end Sys2Proof.Machine
end

