-- ==== Sys2Proof/Machine/OpTable.lean ====
section
/-! DEFINITION. What each slot operation hands to the issue of its bundle, by instruction. -/

namespace Sys2Proof.Machine

/-- The action of a slot operation; the micro-ops and the steps of other agents stand in no slot. -/
def opOf (i : Instr) : Env → Act :=
  match i with
  | .nop _ => opNop
  | .br o => opBr o
  | .brc o => opBrc o
  | .brv o => opBrv o
  | .bri o => opBri o
  | .call o => opCall o
  | .calli o => opCalli o
  | .ret => opRet
  | .loopi o => opLoopi o
  | .loop o => opLoop o
  | .yield => opYield
  | .wait o => opWait o
  | .waitany o => opWaitany o
  | .signal o => opSignal o
  | .trap o => opTrap o
  | .rte => opRte
  | .srd o => opSrd o
  | .swr o => opSwr o
  | .sadd u o => opSadd u o
  | .saddi u o => opSaddi u o
  | .ssub u o => opSsub u o
  | .sand u o => opSand u o
  | .sor u o => opSor u o
  | .sxor u o => opSxor u o
  | .sandi u o => opSandi u o
  | .sori u o => opSori u o
  | .sxori u o => opSxori u o
  | .smin u o => opSmin u o
  | .smins u o => opSmins u o
  | .smax u o => opSmax u o
  | .smaxs u o => opSmaxs u o
  | .sclz u o => opSclz u o
  | .spop u o => opSpop u o
  | .smul u o => opSmul u o
  | .smulh u o => opSmulh u o
  | .smulhs u o => opSmulhs u o
  | .sdiv u o => opSdiv u o
  | .sdivs u o => opSdivs u o
  | .srem u o => opSrem u o
  | .srems u o => opSrems u o
  | .sshl u o => opSshl u o
  | .sshr u o => opSshr u o
  | .ssra u o => opSsra u o
  | .srot u o => opSrot u o
  | .sbfx u o => opSbfx u o
  | .sbfi u o => opSbfi u o
  | .saddr u o => opSaddr u o
  | .smov u o => opSmov u o
  | .smovi u o => opSmovi u o
  | .slui u o => opSlui u o
  | .ssel u o => opSsel u o
  | .scmp u o => opScmp u o
  | .scmpi u o => opScmpi u o
  | .pand u o => opPand u o
  | .por u o => opPor u o
  | .pxor u o => opPxor u o
  | .pnot u o => opPnot u o
  | .pmovPred u o => opPmovPred u o
  | .pmovFromScalar u o => opPmovFromScalar u o
  | .pmovToScalar u o => opPmovToScalar u o
  | .schk u o => opSchk u o
  | .schkP u o => opSchkP u o
  | .sfadd u o => opSfadd u o
  | .sfsub u o => opSfsub u o
  | .sfmul u o => opSfmul u o
  | .sfdiv u o => opSfdiv u o
  | .sfsqrt u o => opSfsqrt u o
  | .sfma u o => opSfma u o
  | .sfmin u o => opSfmin u o
  | .sfmax u o => opSfmax u o
  | .sfcmp u o => opSfcmp u o
  | .sfcvt u o => opSfcvt u o
  | .sfclass u o => opSfclass u o
  | .vadd u o => opVadd u o
  | .vsub u o => opVsub u o
  | .vmul u o => opVmul u o
  | .vmin u o => opVmin u o
  | .vmax u o => opVmax u o
  | .vfma u o => opVfma u o
  | .vfms u o => opVfms u o
  | .vabs u o => opVabs u o
  | .vneg u o => opVneg u o
  | .vcmp u o => opVcmp u o
  | .viadd u o => opViadd u o
  | .visub u o => opVisub u o
  | .vimul u o => opVimul u o
  | .vimad u o => opVimad u o
  | .vimin u o => opVimin u o
  | .vimax u o => opVimax u o
  | .vand u o => opVand u o
  | .vor u o => opVor u o
  | .vxor u o => opVxor u o
  | .vnot u o => opVnot u o
  | .vshl u o => opVshl u o
  | .vshr u o => opVshr u o
  | .vsra u o => opVsra u o
  | .vrotl u o => opVrotl u o
  | .vsel u o => opVsel u o
  | .vmov u o => opVmov u o
  | .vbcast u o => opVbcast u o
  | .vextr u o => opVextr u o
  | .vidx u o => opVidx u o
  | .vcvt u o => opVcvt u o
  | .vpack u o => opVpack u o
  | .vunpack u o => opVunpack u o
  | .vqmx u o => opVqmx u o
  | .vdqmx u o => opVdqmx u o
  | .vexp2 u o => opVexp2 u o
  | .vlog2 u o => opVlog2 u o
  | .vrcp u o => opVrcp u o
  | .vrsq u o => opVrsq u o
  | .vsqrt u o => opVsqrt u o
  | .vdiv u o => opVdiv u o
  | .vperm u o => opVperm u o
  | .vsum u o => opVsum u o
  | .vmaxr u o => opVmaxr u o
  | .vscan u o => opVscan u o
  | .vargmax u o => opVargmax u o
  | .vsrch u o => opVsrch u o
  | .vrng u o => opVrng u o
  | .vacpt u o => opVacpt u o
  | .kand u o => opKand u o
  | .kor u o => opKor u o
  | .kxor u o => opKxor u o
  | .knot u o => opKnot u o
  | .kpop u o => opKpop u o
  | .kfirst u o => opKfirst u o
  | .vchk u o => opVchk u o
  | .spld o => opSpld o
  | .splds o => opSplds o
  | .spldb o => opSpldb o
  | .spldx o => opSpldx o
  | .spst o => opSpst o
  | .spsts o => opSpsts o
  | .spstx o => opSpstx o
  | .tlook o => opTlook o
  | .tlookWm o => opTlookWm o
  | .tins o => opTins o
  | .tdel o => opTdel o
  | .tdelIdx o => opTdelIdx o
  | .gld o => opGld o
  | .glds o => opGlds o
  | .glda o => opGlda o
  | .pref o => opPref o
  | .gst o => opGst o
  | .gsts o => opGsts o
  | .gstl o => opGstl o
  | .mark h o => opMark h o
  | .atom o => opAtom o
  | .atomr o => opAtomr o
  | .tagpubSet o => opTagpubSet o
  | .tagpubClearTile o => opTagpubClearTile o
  | .tagpubClearTensor o => opTagpubClearTensor o
  | .mcall o => opMcall o
  | .mlduc o => opMlduc o
  | .mldrt o => opMldrt o
  | .mstat o => opMstat o
  | .mstatFault o => opMstatFault o
  | .mstatTake o => opMstatTake o
  | .mstatCsat o => opMstatCsat o
  | .mstatSetm o => opMstatSetm o
  | .mstatGetm o => opMstatGetm o
  | .mabort => opMabort
  | .ard o => opArd o
  | .aclr o => opAclr o
  | .awr o => opAwr o
  | .aacc o => opAacc o
  | .aow o => opAow o
  | .adrn o => opAdrn o
  | .hcopyS2s o => opHcopyS2s o
  | .hcopyG2s o => opHcopyG2s o
  | .hcopyG2t o => opHcopyG2t o
  | .hfill o => opHfill o
  | .hfillT o => opHfillT o
  | .htile o => opHtile o
  | .htwr o => opHtwr o
  | .hwm o => opHwm o
  | .hwmOff o => opHwmOff o
  | .hsched o => opHsched o
  | .hstep o => opHstep o
  | .hmcast o => opHmcast o
  | .hmwait o => opHmwait o
  | .hadd o => opHadd o
  | .hpub o => opHpub o
  | .hpubRing o => opHpubRing o
  | .hstat o => opHstat o
  | .hstatStage o => opHstatStage o
  | .hstatLast o => opHstatLast o
  | .launch o => opLaunch o
  | .spawn o => opSpawn o
  | .spawnAt o => opSpawnAt o
  | .exit o => opExit o
  | .exitErr o => opExitErr o
  | .bar o => opBar o
  | .barArrive o => opBarArrive o
  | .barWait o => opBarWait o
  | .tagwait o => opTagwait o
  | .cswitch o => opCswitch o
  | .park o => opPark o
  | .wake o => opWake o
  | .wakeAt o => opWakeAt o
  | .wakeIn o => opWakeIn o
  | .estset o => opEstset o
  | .estsetWake o => opEstsetWake o
  | .pbar o => opPbar o
  | .mmMac _ _ _ => opNop
  | .mmScl _ _ => opNop
  | .mmClr _ _ _ => opNop
  | .mmDrn _ _ _ => opNop
  | .mmLoop _ _ _ => opNop
  | .mmJmp _ _ _ => opNop
  | .mmSetp _ _ _ => opNop
  | .mmEnd _ _ => opNop
  | .mmNop _ => opNop
  | .bundleIssue _ => opNop
  | .strandUnblock _ => opNop
  | .idleCoreSelect _ => opNop
  | .forcedYield _ => opNop
  | .markRetire _ => opNop
  | .globalLoadArrival _ _ => opNop
  | .globalStorePerformed _ _ => opNop
  | .prefAccepted _ _ => opNop
  | .translationWalkReturn _ => opNop
  | .atomicEngineAccept _ => opNop
  | .atomicRecall _ _ => opNop
  | .tagSetAct _ => opNop
  | .tagClearAct _ => opNop
  | .mxEntryBegin _ => opNop
  | .routineWatermarkResume _ => opNop
  | .routineComplete _ => opNop
  | .hodCommandBegin _ _ => opNop
  | .hodTurn _ => opNop
  | .hodWriteLand _ _ => opNop
  | .hodCommandComplete _ _ => opNop
  | .hstepStageComplete _ _ => opNop
  | .hmcastAck _ _ _ => opNop
  | .haddRowStage _ _ => opNop
  | .ringDrainLand _ => opNop
  | .epilogueSlot _ => opNop
  | .launchAnswer _ => opNop
  | .launchValidate _ => opNop
  | .launchComplete _ _ => opNop
  | .dispatchCycle _ => opNop
  | .bindingJudge _ => opNop
  | .taskWeightReturn _ _ _ => opNop
  | .barPhaseComplete _ _ _ => opNop
  | .wakeRequestArrival _ => opNop
  | .parkDeadline _ _ _ => opNop
  | .checkpointSave _ => opNop
  | .taskReexecute _ _ _ => opNop
  | .coreHardwareError _ => opNop
  | .coreParityError _ => opNop
  | .clusterParityError _ _ => opNop
  | .teardownComplete _ => opNop
  | .trowelMigrationDone _ => opNop
  | .migrationRequest _ => opNop
  | .migrationCopy _ => opNop
  | .migrationRestart _ => opNop
  | .copyFillReturn _ _ => opNop
  | .writeThroughAck _ _ => opNop
  | .copySectorAgeout _ _ => opNop
  | .sliceError _ _ _ => opNop
  | .hbmSectorRead _ _ _ _ => opNop
  | .kilnImageAccept _ => opNop
  | .kilnImageAck _ _ _ => opNop
  | .kilnImageRefused _ _ => opNop
  | .kilnDeviceTimeout _ => opNop
  | .pbarComplete _ => opNop
  | .coldBoot _ => opNop
  | .scrubCountPoll _ => opNop
  | .stackRetire _ _ => opNop
  | .marginPlan _ => opNop
  | .powerManagerSample _ => opNop
  | .gsEnable _ => opNop
  | .gsDisable _ => opNop
  | .gsStop _ => opNop
  | .cqProdWrite _ _ => opNop
  | .qcfgWrite _ _ => opNop
  | .hppush _ => opNop
  | .pppush _ => opNop
  | .forcev _ => opNop
  | .klctlGpfWrite _ => opNop
  | .registerWrite _ _ _ => opNop
  | .keyload _ _ => opNop
  | .keyzero _ => opNop
  | .kdset _ _ _ => opNop
  | .sigkey _ _ _ => opNop
  | .spdmAttest _ => opNop
  | .snpInv _ => opNop
  | .snpData _ => opNop
  | .snpCur _ => opNop
  | .hostMemrd _ _ _ => opNop
  | .hostMemwr _ _ _ => opNop
  | .bisnpAnswer _ _ => opNop
  | .cxlResponse _ _ _ => opNop
  | .peerInbound _ => opNop
  | .peerResponse _ _ _ => opNop
  | .peerTimeout _ => opNop
  | .fenceNotice _ => opNop
  | .fenceWrite _ _ => opNop
  | .hostViralIndication _ => opNop
  | .hostPortLoss _ => opNop
  | .dieLoss _ => opNop
  | .linkCrcFailure _ _ => opNop
  | .linkDown _ => opNop
  | .linkTrained _ => opNop
  | .create => opNop
  | .destroy => opNop
  | .resume => opNop
  | .setwake => opNop
  | .settok => opNop
  | .setclass => opNop
  | .load => opNop
  | .trowelScan => opNop
  | .invalidateRange => opNop
  | .invalidateAsid => opNop
  | .invalidateAll => opNop
  | .icacheInvalidate => opNop
  | .lqLaunch => opNop
  | .powerLoss => opNop
  | .warmReset => opNop
  | .gsAttempt => opNop
  | .gsWaitRecheck => opNop
  | .gsCommit => opNop
  | .gsAbandon => opNop
  | .hppop => opNop
  | .pppop => opNop
  | .viralEntry => opNop
  | .globalPersistentFlush => opNop

end Sys2Proof.Machine
end

