-- ==== Sys2Proof/Machine/Issue.lean ====
section
/-! DEFINITION. The issue of a bundle iteration: what executes in each slot, the checks in the order of R37, blocking, commit and
what follows it (R15, R22 to R30, R34, R35, R41, R42, R91, R97, R205, R292, R296, R355, R356). -/

namespace Sys2Proof.Machine

/-- The slots with a sticky engine (R47). -/
def sticky (sl : Slot) : Bool := sl = .ld || sl = .st || sl = .ar || sl = .aw
/-- A slot operation as framed: the instruction, or the DETAIL of its ILLEGAL_OP (R455). -/
abbrev SlotOp := Slot × Except Nat Instr
/-- A slot operation that executes in an iteration, with the address of a re-issue (R28). -/
structure Exec where
  sl : Slot
  op : Except Nat Instr
  addr : Option Word

/-- What a slot executes (R28, R30, R42): present operations in their slots; a sticky engine re-issues where its slot is absent, and,
unless a NOP is present, in every iteration but the first. -/
def slotExec (eng : SMap Engine) (first : Bool) (ops : List SlotOp) (sl : Slot) : Option Exec :=
  let re : Option Exec := (find? eng sl.num).map (fun g => ⟨sl, .ok g.op, some g.addr⟩)
  match ops.find? (fun p => p.1 = sl) with
  | none => if sticky sl then re else none
  | some p =>
    if sticky sl && !first then
      match p.2 with
      | .error d => some ⟨sl, .error d, none⟩
      | .ok (.nop x) => some ⟨sl, .ok (.nop x), none⟩
      | .ok _ => re
    else some ⟨sl, p.2, none⟩
/-- Everything that executes in an iteration, in slot order. -/
def executing (eng : SMap Engine) (first : Bool) (ops : List SlotOp) : List Exec :=
  slots.filterMap (slotExec eng first ops)

/-- An iteration to be issued: its strand, its bundle's REPEAT and length, the iterations that follow it, whether it is the first,
and its operations. -/
structure Iter where
  n : Nat
  rep : Nat
  len : Nat
  left : Nat
  first : Bool
  clr : Bool
  ops : List SlotOp

/-- The address behind the bundle (R91). -/
def Iter.after (it : Iter) (s : State) : Word := canonVa ((s.strand it.n).pc + BitVec.ofNat 64 (4 * it.len))
/-- The strand as its operations see it: with CLR applied in the first iteration (R29). -/
def Iter.seen (it : Iter) (s : State) : Strand :=
  let st := s.strand it.n
  if it.first && it.clr then { st with eng := [] } else st
/-- What executes in the iteration. -/
def Iter.execs (it : Iter) (s : State) : List Exec := executing (it.seen s).eng it.first it.ops
/-- What an operation sees. -/
def Iter.env (it : Iter) (s : State) (w : Fetch) (x : Exec) : Env :=
  ⟨s, it.n, it.seen s, x.sl.num, x.addr, (s.strand it.n).pc, it.rep, it.len, w, (s.ctx (s.ctxOf it.n)).seed.toNat⟩
/-- An operation in its slot with what it hands over. -/
structure Acted where
  sl : Slot
  i : Instr
  act : Act

/-- The operations of an iteration with their actions; those that fail their encoding checks are left out. -/
def Iter.acts (it : Iter) (s : State) (w : Fetch) : List Acted :=
  (it.execs s).filterMap (fun x => match x.op with
    | .ok i => some ⟨x.sl, i, opOf i (it.env s w x)⟩
    | .error _ => none)

/-! ## Traps in the order of R37 -/

/-- A SIGNAL beside an MABORT, whose completions come before it (R98, R199), would take the count above 0xFFFF (R101).
(DEDUCED, log 75) -/
def abortClash (it : Iter) (s : State) (xs : List Exec) (i : Instr) : Option Nat :=
  match i with
  | .signal o =>
    let k := o.e.toNat
    let calls := ((s.core (it.n / 8)).mxq.filter (fun m => m.strand = it.n % 8 && m.live && decide (m.sem = k) && (match m.kind with | .call _ _ _ _ _ => true | _ => false))).length
    let count := (s.strand it.n).count k
    let after := if count + calls > 0xFFFF then 0xFFFF else count + calls
    if xs.any (fun x => match x.op with | .ok .mabort => true | _ => false) && after + o.imm.toNat > 0xFFFF then some 0x0104 else none
  | _ => none
/-- Group 2: the first ILLEGAL_OP in slot order (R37, R455).
(DEDUCED, log 14) -/
def illegal (it : Iter) (s : State) (w : Fetch) : Option Trap :=
  (it.execs s).findSome? (fun x =>
    match x.op with
    | .error d => some { cause := 2, detail := d, slot := x.sl.num }
    | .ok i => ((opOf i (it.env s w x)).own <|> abortClash it s (it.execs s) i).map (fun d => { cause := 2, detail := d, slot := x.sl.num }))
/-- Writes to s0, b0 and k0 are exempt from the check of R22. -/
def exempt : Reg → Bool
  | .s i => i = 0
  | .b i => i = 0
  | .k i => i = 0
  | _ => false
/-- Two destinations of equal latency on one register (R22). -/
def twice : List (Reg × Nat) → Bool
  | [] => false
  | d :: l => (!exempt d.1 && l.contains d) || twice l
/-- The control transfers of R24. -/
def isTransfer (a : Act) : Bool := match a.ctl with | .seq => false | _ => true
/-- Group 3: the rules of the strand on the whole iteration (R22, R23, R24), in the order of their details. -/
def bundleRule (it : Iter) (s : State) (as : List Acted) : Option Trap :=
  let st := s.strand it.n
  let bad (d : Nat) : Option Trap := some { cause := 1, detail := d }
  let transfer := as.any (fun a => isTransfer a.act)
  if st.inFlight (as.flatMap (fun a => a.act.results)) > 16 then bad 0x0004
  else if twice (as.flatMap (fun a => a.act.dests)) then bad 0x0005
  else if transfer && it.rep ≠ 0 then bad 0x0006
  else if transfer && st.delay.isSome then bad 0x0007
  else none
/-- The action in a slot. -/
def actIn (as : List Acted) (sl : Slot) : Option Act := (as.find? (fun a => a.sl = sl)).map (fun a => a.act)
/-- MARK_UNPAIRED (R59).
(DEDUCED, log 14) -/
def unpaired (as : List Acted) : Option Trap :=
  match (actIn as .ld).bind (fun a => a.mark), (actIn as .st).bind (fun a => a.mark) with
  | none, none => none
  | some a, some b => if a = b then none else some { cause := 9, detail := 1, slot := 5 }
  | some _, none => some { cause := 9, detail := 0, slot := 5 }
  | none, some _ => some { cause := 9, detail := 0, slot := 6 }
/-- PORT_CLASH (R205): one bank by both ports, then a bank that is owned.
(DEDUCED, log 14) -/
def portClash (as : List Acted) : Option Trap :=
  let same := match (actIn as .ar).bind (fun a => a.bank), (actIn as .aw).bind (fun a => a.bank) with
    | some a, some b => decide (a = b)
    | _, _ => false
  if same then some { cause := 3, detail := 0, slot := 8 } else as.findSome? (fun a => a.act.early)
/-- Group 5: the first pending register in slot order (R34); of one operation, what it reads before what it writes.
(DESIGN CHOICE, log 86) -/
def pendingTrap (st : Strand) (as : List Acted) : Option Trap :=
  as.findSome? (fun a =>
    if a.act.reads.any st.pending then some { cause := 7, detail := 0, slot := a.sl.num }
    else if (a.act.vdest.toList ++ a.act.dests.map (fun d => d.1)).any st.pending then
      some { cause := 7, detail := 1, slot := a.sl.num }
    else none)
/-- Group 6: the first poisoned register read in slot order (R35). -/
def poisonTrap (st : Strand) (as : List Acted) : Option Trap :=
  as.findSome? (fun a => if a.act.reads.any st.poisoned then some { cause := 0x14, detail := 0, slot := a.sl.num } else none)
/-- The trap an iteration takes, the first in the order of R37 that applies. -/
def Iter.trap (it : Iter) (s : State) (w : Fetch) : Option Trap :=
  match illegal it s w with
  | some t => some t
  | none =>
    let as := it.acts s w
    let st := s.strand it.n
    bundleRule it s as <|> unpaired as <|> portClash as <|> pendingTrap st as <|> poisonTrap st as
      <|> as.findSome? (fun a => a.act.trap)

/-! ## Blocking (R15) -/

/-- Why an iteration that meets no trap blocks: its BAR's phase is open (R296), an operation waits, or a queue is full (R221). -/
def Iter.blocked (it : Iter) (s : State) (as : List Acted) : Option Why :=
  let st := s.strand it.n
  let phase : Option Why := match st.barWait with
    | some ph => if s.phaseOpen it.n (some ph) then some (.phase ph) else none
    | none => none
  let loads := (as.map (fun a => a.act.loadEnt)).sum
  let stores := (as.map (fun a => a.act.storeEnt)).sum
  phase <|> as.findSome? (fun a => a.act.block)
    <|> (if loads ≠ 0 && st.loadQ.length + loads > 64 then some .loadFull
         else if stores ≠ 0 && st.storeQ.length + stores > 64 then some .storeFull else none)

/-! ## Commit -/

/-- The engines after the iteration: a NOP clears, any other operation stays with its next address (R28, R60). -/
def engines (eng : SMap Engine) (as : List Acted) : SMap Engine :=
  as.foldl (fun m a =>
    if !sticky a.sl then m
    else match a.i with
      | .nop _ => del m a.sl.num
      | i => upd m a.sl.num ⟨i, a.act.next⟩) eng
/-- The operation is a SIGNAL, whose completions come after those of the same cycle's other slots (R98). -/
def Acted.signals (a : Acted) : Bool := match a.i with | .signal _ => true | _ => false
/-- The operations in the order in which they commit: slot order, a SIGNAL last (R98). -/
def commitOrder (as : List Acted) : List Acted := as.filter (fun a => !a.signals) ++ as.filter Acted.signals
/-- The effects of an iteration, then its results and the end of its strand cycle (R21, R25). -/
def Iter.effects (it : Iter) (s : State) (as : List Acted) : State :=
  let st := it.seen s
  let s0 := if st.barWait.isSome then s.observePhase it.n else s
  let s1 := s0.setStrand it.n { st with eng := engines st.eng as, walk := none, barWait := none }
  let s2 := (commitOrder as).foldl (fun s a => a.act.commit s) s1
  s2.onStrand it.n (fun st => { st with pipe := st.pipe ++ as.flatMap (fun (a : Acted) => a.act.results) : Strand }.cycle)
/-- The control transfer of an iteration. -/
def ctlOf (as : List Acted) : Ctl := (as.map (fun a => a.act.ctl)).headD .seq
/-- Where the strand goes after the iteration (R30, R42, R91). With `hold`, an RTE whose delay bundle ends does not return yet. -/
def Strand.advance (st : Strand) (it : Iter) (ctl : Ctl) (words : List (BitVec 32)) (hold : Bool) : Strand :=
  if it.left ≠ 0 then { st with res := .at (it.left - 1) false, words }
  else
    let next := canonVa (st.pc + BitVec.ofNat 64 (4 * it.len))
    let st1 := { st with res := .fresh, words := [] }
    match st.delay with
    | some (.taken t) => { st1 with pc := t, delay := none }
    | some .notTaken => { st1 with pc := next, delay := none }
    | some .ret => if hold then { st1 with pc := pcOf st1.xpc, delay := none } else st1.rte
    | none =>
      match ctl with
      | .seq => { st1 with pc := next }
      | .jump taken t => { st1 with pc := next, delay := some (if taken then .taken t else .notTaken) }
      | .rte => { st1 with pc := next, delay := some .ret }
/-- The strand's task parks by PARK (R354, R356). -/
def State.parkTask (s : State) (n d : Nat) (deadline : Word) : State :=
  let c := s.ctxOf n
  let persist := match s.taskOf n with | some (l, _) => l.persist | none => false
  let s1 := (s.onCtx c (fun x => { x with pkev := x.pkev + 1 })).onTaskOf n (fun t => { t with parked := .park deadline d })
  if persist || (s.ctx c).freeArea.isNone then (s1.gsTaskEvent c (s.strand n).launch.toNat 2).leave n (.blocked (.parked false)) 0xF1
  else (s1.leave n (.blocked .saving) 0xF1).onStrand n (fun st => { st with save := some .park })
/-- CSWITCH leaves the strand to a chosen task (R355): the current task is saved with s[D] = 0, and the dispatcher of the chosen task's
home die makes no binding of its own for it. -/
def State.switchTo (s : State) (n d c lid t : Nat) : State :=
  let s1 := s.onStrand n (fun st => st.write (.s d) 0 0 15 false)
  let s2 := (s1.onTask c lid t (fun t => { t with run := .offered })).onDie (c % 4) (fun x => { x with spent := true })
  (s2.leave n (.blocked .saving) 0xF1).onStrand n (fun st => { st with save := some (.cswitch c lid t d) })
/-- A YIELD takes effect (R97). -/
def State.doYield (s : State) (n : Nat) : State :=
  let s1 := s.onStrand n (fun st => { st with course := st.course + 1 })
  if s1.others n then s1.leave n .eligible 0xF0 else s1
/-- What follows a commit (R41, R97, R292, R355, R356). -/
def Iter.follow (it : Iter) (s : State) : Option Post → State
  | none => s
  | some (.trap code) =>
    let left := match (s.strand it.n).res with | .at k _ => k | _ => 0
    s.takeTrap it.n { cause := 0x20, detail := code, slot := 0 } (it.after s) left
  | some .yield => if it.left = 0 then s.doYield it.n else s
  | some (.exit err) =>
    let s1 := match err with | some e => s.exitErr it.n e | none => s
    if it.left = 0 then (s1.endTask it.n (if err.isSome then 1 else 0) err).select (it.n / 8) else s1
  | some (.cswitch d c lid t) => s.switchTo it.n d c lid t
  | some (.park d deadline) => s.parkTask it.n d deadline
/-- What follows the commit, as the CT slot asks. -/
def postOf (as : List Acted) : Option Post := as.findSome? (fun a => a.act.post)
/-- An RTE's return waits for a TRAP that follows the commit (R41, R42). -/
def holds : Option Post → Bool
  | some (.trap _) => true
  | _ => false
/-- An iteration commits. -/
def Iter.commit (it : Iter) (s : State) (as : List Acted) (words : List (BitVec 32)) : State :=
  let post := postOf as
  let s1 := it.effects s as
  it.follow (s1.onStrand it.n (fun st => st.advance it (ctlOf as) words (holds post))) post

/-! ## An iteration -/

/-- A call reads the word at its delay bundle before commit (R95). -/
def callsIn (ops : List SlotOp) : Bool :=
  ops.any (fun p => match p.2 with | .ok (.call _) => true | .ok (.calli _) => true | _ => false)
/-- One attempt at an iteration: it traps, blocks or commits (R15, R25, R37); in the viral state the task stops before it (R449).
(DESIGN CHOICE, log 13; DEDUCED, log 60) -/
def Iter.attempt (it : Iter) (s : State) (words : List (BitVec 32)) : State :=
  if s.pkg.viral then s.takeTrap it.n { cause := 0x18, detail := 0x0A00, slot := 0xFF } (it.after s) it.left else
  let (s0, w) := if callsIn it.ops then s.fetchWord it.n (it.after s) else (s, .miss)
  let s1 := s0.onCore (it.n / 8) (fun co => { co with count := co.count + 1 })
  match it.trap s1 w with
  | some t => s1.takeTrap it.n t (it.after s1) it.left
  | none =>
    let as := it.acts s1 w
    match it.blocked s1 as with
    | some why => s1.block it.n why
    | none => it.commit s1 as words

/-- The ACTIVE strand of a core. -/
def State.activeOf (s : State) (c : Nat) : Option Nat := (s.core c).active.map (fun k => 8 * c + k)
/-- Words of the bundle that holds one instruction alone. -/
def bundleLen (i : Instr) : Nat := (encode i).length
/-- A slot operation alone in its bundle, issued once by the ACTIVE strand of the core whose turn it is.
(DESIGN CHOICE, log 13, 73) -/
def issueOne (i : Instr) (s : State) : Host.Outcome State Fault Refusal :=
  match s.activeOf s.cur, slotOf i with
  | some n, some sl =>
    let op : Except Nat Instr := match check i with | some d => .error d | none => .ok i
    let it : Iter := ⟨n, 0, bundleLen i, 0, true, false, [(sl, op)]⟩
    .next (it.attempt s [])
  | _, _ => .refused .noTask

end Sys2Proof.Machine
end

