-- ==== Sys2Proof/Machine/SlotExec.lean ====
section
/-! DEFINITION. The meaning of each slot operation, alone in its bundle, on the ACTIVE strand of the core whose turn it is: each is
its action of its own family file, issued, checked and committed by the shared issue. -/

namespace Sys2Proof.Machine

/-- NOP (R60). -/
def execNop (sl : Slot) (s : State) : Host.Outcome State Fault Refusal := issueOne (.nop sl) s
/-- BR (R93). -/
def execBr (o : CJ) (s : State) : Host.Outcome State Fault Refusal := issueOne (.br o) s
/-- BRC (R93). -/
def execBrc (o : CC) (s : State) : Host.Outcome State Fault Refusal := issueOne (.brc o) s
/-- BRV (R94). -/
def execBrv (o : CC) (s : State) : Host.Outcome State Fault Refusal := issueOne (.brv o) s
/-- BRI (R95). -/
def execBri (o : RG) (s : State) : Host.Outcome State Fault Refusal := issueOne (.bri o) s
/-- CALL (R95). -/
def execCall (o : CJ) (s : State) : Host.Outcome State Fault Refusal := issueOne (.call o) s
/-- CALLI (R95). -/
def execCalli (o : RG) (s : State) : Host.Outcome State Fault Refusal := issueOne (.calli o) s
/-- RET (R95). -/
def execRet (s : State) : Host.Outcome State Fault Refusal := issueOne (.ret) s
/-- LOOPI (R96). -/
def execLoopi (o : CL) (s : State) : Host.Outcome State Fault Refusal := issueOne (.loopi o) s
/-- LOOP (R96). -/
def execLoop (o : CL) (s : State) : Host.Outcome State Fault Refusal := issueOne (.loop o) s
/-- YIELD (R97). -/
def execYield (s : State) : Host.Outcome State Fault Refusal := issueOne (.yield) s
/-- WAIT (R99). -/
def execWait (o : CE) (s : State) : Host.Outcome State Fault Refusal := issueOne (.wait o) s
/-- WAITANY (R100). -/
def execWaitany (o : CE) (s : State) : Host.Outcome State Fault Refusal := issueOne (.waitany o) s
/-- SIGNAL (R101). -/
def execSignal (o : CE) (s : State) : Host.Outcome State Fault Refusal := issueOne (.signal o) s
/-- TRAP (R102). -/
def execTrap (o : CE) (s : State) : Host.Outcome State Fault Refusal := issueOne (.trap o) s
/-- RTE (R42). -/
def execRte (s : State) : Host.Outcome State Fault Refusal := issueOne (.rte) s
/-- SRD (R103). -/
def execSrd (o : CS) (s : State) : Host.Outcome State Fault Refusal := issueOne (.srd o) s
/-- SWR (R103). -/
def execSwr (o : CS) (s : State) : Host.Outcome State Fault Refusal := issueOne (.swr o) s
/-- SADD (R80). -/
def execSadd (u : SUnit) (o : RG) (s : State) : Host.Outcome State Fault Refusal := issueOne (.sadd u o) s
/-- SADDI (R80). -/
def execSaddi (u : SUnit) (o : SI) (s : State) : Host.Outcome State Fault Refusal := issueOne (.saddi u o) s
/-- SSUB (R80). -/
def execSsub (u : SUnit) (o : RG) (s : State) : Host.Outcome State Fault Refusal := issueOne (.ssub u o) s
/-- SAND (R80). -/
def execSand (u : SUnit) (o : RG) (s : State) : Host.Outcome State Fault Refusal := issueOne (.sand u o) s
/-- SOR (R80). -/
def execSor (u : SUnit) (o : RG) (s : State) : Host.Outcome State Fault Refusal := issueOne (.sor u o) s
/-- SXOR (R80). -/
def execSxor (u : SUnit) (o : RG) (s : State) : Host.Outcome State Fault Refusal := issueOne (.sxor u o) s
/-- SANDI (R80). -/
def execSandi (u : SUnit) (o : SI) (s : State) : Host.Outcome State Fault Refusal := issueOne (.sandi u o) s
/-- SORI (R80). -/
def execSori (u : SUnit) (o : SI) (s : State) : Host.Outcome State Fault Refusal := issueOne (.sori u o) s
/-- SXORI (R80). -/
def execSxori (u : SUnit) (o : SI) (s : State) : Host.Outcome State Fault Refusal := issueOne (.sxori u o) s
/-- SMIN (R80). -/
def execSmin (u : SUnit) (o : RG) (s : State) : Host.Outcome State Fault Refusal := issueOne (.smin u o) s
/-- SMINS (R80). -/
def execSmins (u : SUnit) (o : RG) (s : State) : Host.Outcome State Fault Refusal := issueOne (.smins u o) s
/-- SMAX (R80). -/
def execSmax (u : SUnit) (o : RG) (s : State) : Host.Outcome State Fault Refusal := issueOne (.smax u o) s
/-- SMAXS (R80). -/
def execSmaxs (u : SUnit) (o : RG) (s : State) : Host.Outcome State Fault Refusal := issueOne (.smaxs u o) s
/-- SCLZ (R80). -/
def execSclz (u : SUnit) (o : RG) (s : State) : Host.Outcome State Fault Refusal := issueOne (.sclz u o) s
/-- SPOP (R80). -/
def execSpop (u : SUnit) (o : RG) (s : State) : Host.Outcome State Fault Refusal := issueOne (.spop u o) s
/-- SMUL (R81). -/
def execSmul (u : SUnit) (o : RG) (s : State) : Host.Outcome State Fault Refusal := issueOne (.smul u o) s
/-- SMULH (R81). -/
def execSmulh (u : SUnit) (o : RG) (s : State) : Host.Outcome State Fault Refusal := issueOne (.smulh u o) s
/-- SMULHS (R81). -/
def execSmulhs (u : SUnit) (o : RG) (s : State) : Host.Outcome State Fault Refusal := issueOne (.smulhs u o) s
/-- SDIV (R82). -/
def execSdiv (u : SUnit) (o : RG) (s : State) : Host.Outcome State Fault Refusal := issueOne (.sdiv u o) s
/-- SDIVS (R82). -/
def execSdivs (u : SUnit) (o : RG) (s : State) : Host.Outcome State Fault Refusal := issueOne (.sdivs u o) s
/-- SREM (R82). -/
def execSrem (u : SUnit) (o : RG) (s : State) : Host.Outcome State Fault Refusal := issueOne (.srem u o) s
/-- SREMS (R82). -/
def execSrems (u : SUnit) (o : RG) (s : State) : Host.Outcome State Fault Refusal := issueOne (.srems u o) s
/-- SSHL (R83). -/
def execSshl (u : SUnit) (o : RG) (s : State) : Host.Outcome State Fault Refusal := issueOne (.sshl u o) s
/-- SSHR (R83). -/
def execSshr (u : SUnit) (o : RG) (s : State) : Host.Outcome State Fault Refusal := issueOne (.sshr u o) s
/-- SSRA (R83). -/
def execSsra (u : SUnit) (o : RG) (s : State) : Host.Outcome State Fault Refusal := issueOne (.ssra u o) s
/-- SROT (R83). -/
def execSrot (u : SUnit) (o : RG) (s : State) : Host.Outcome State Fault Refusal := issueOne (.srot u o) s
/-- SBFX (R84). -/
def execSbfx (u : SUnit) (o : RG) (s : State) : Host.Outcome State Fault Refusal := issueOne (.sbfx u o) s
/-- SBFI (R84). -/
def execSbfi (u : SUnit) (o : RG) (s : State) : Host.Outcome State Fault Refusal := issueOne (.sbfi u o) s
/-- SADDR (R85). -/
def execSaddr (u : SUnit) (o : RG) (s : State) : Host.Outcome State Fault Refusal := issueOne (.saddr u o) s
/-- SMOV (R86). -/
def execSmov (u : SUnit) (o : RG) (s : State) : Host.Outcome State Fault Refusal := issueOne (.smov u o) s
/-- SMOVI (R86). -/
def execSmovi (u : SUnit) (o : SI) (s : State) : Host.Outcome State Fault Refusal := issueOne (.smovi u o) s
/-- SLUI (R86). -/
def execSlui (u : SUnit) (o : SI) (s : State) : Host.Outcome State Fault Refusal := issueOne (.slui u o) s
/-- SSEL (R86). -/
def execSsel (u : SUnit) (o : RG) (s : State) : Host.Outcome State Fault Refusal := issueOne (.ssel u o) s
/-- SCMP (R87). -/
def execScmp (u : SUnit) (o : RG) (s : State) : Host.Outcome State Fault Refusal := issueOne (.scmp u o) s
/-- SCMPI (R87). -/
def execScmpi (u : SUnit) (o : SI) (s : State) : Host.Outcome State Fault Refusal := issueOne (.scmpi u o) s
/-- PAND (R88). -/
def execPand (u : SUnit) (o : RG) (s : State) : Host.Outcome State Fault Refusal := issueOne (.pand u o) s
/-- POR (R88). -/
def execPor (u : SUnit) (o : RG) (s : State) : Host.Outcome State Fault Refusal := issueOne (.por u o) s
/-- PXOR (R88). -/
def execPxor (u : SUnit) (o : RG) (s : State) : Host.Outcome State Fault Refusal := issueOne (.pxor u o) s
/-- PNOT (R88). -/
def execPnot (u : SUnit) (o : RG) (s : State) : Host.Outcome State Fault Refusal := issueOne (.pnot u o) s
/-- PMOV_PRED (R88). -/
def execPmovPred (u : SUnit) (o : RG) (s : State) : Host.Outcome State Fault Refusal := issueOne (.pmovPred u o) s
/-- PMOV_FROM_SCALAR (R88). -/
def execPmovFromScalar (u : SUnit) (o : RG) (s : State) : Host.Outcome State Fault Refusal := issueOne (.pmovFromScalar u o) s
/-- PMOV_TO_SCALAR (R88). -/
def execPmovToScalar (u : SUnit) (o : RG) (s : State) : Host.Outcome State Fault Refusal := issueOne (.pmovToScalar u o) s
/-- SCHK (R89). -/
def execSchk (u : SUnit) (o : RG) (s : State) : Host.Outcome State Fault Refusal := issueOne (.schk u o) s
/-- SCHK_P (R89). -/
def execSchkP (u : SUnit) (o : RG) (s : State) : Host.Outcome State Fault Refusal := issueOne (.schkP u o) s
/-- SFADD (R130). -/
def execSfadd (u : SUnit) (o : RG) (s : State) : Host.Outcome State Fault Refusal := issueOne (.sfadd u o) s
/-- SFSUB (R130). -/
def execSfsub (u : SUnit) (o : RG) (s : State) : Host.Outcome State Fault Refusal := issueOne (.sfsub u o) s
/-- SFMUL (R130). -/
def execSfmul (u : SUnit) (o : RG) (s : State) : Host.Outcome State Fault Refusal := issueOne (.sfmul u o) s
/-- SFDIV (R130). -/
def execSfdiv (u : SUnit) (o : RG) (s : State) : Host.Outcome State Fault Refusal := issueOne (.sfdiv u o) s
/-- SFSQRT (R130). -/
def execSfsqrt (u : SUnit) (o : RG) (s : State) : Host.Outcome State Fault Refusal := issueOne (.sfsqrt u o) s
/-- SFMA (R131). -/
def execSfma (u : SUnit) (o : RG) (s : State) : Host.Outcome State Fault Refusal := issueOne (.sfma u o) s
/-- SFMIN (R132). -/
def execSfmin (u : SUnit) (o : RG) (s : State) : Host.Outcome State Fault Refusal := issueOne (.sfmin u o) s
/-- SFMAX (R132). -/
def execSfmax (u : SUnit) (o : RG) (s : State) : Host.Outcome State Fault Refusal := issueOne (.sfmax u o) s
/-- SFCMP (R133). -/
def execSfcmp (u : SUnit) (o : RG) (s : State) : Host.Outcome State Fault Refusal := issueOne (.sfcmp u o) s
/-- SFCVT (R134). -/
def execSfcvt (u : SUnit) (o : RG) (s : State) : Host.Outcome State Fault Refusal := issueOne (.sfcvt u o) s
/-- SFCLASS (R135). -/
def execSfclass (u : SUnit) (o : RG) (s : State) : Host.Outcome State Fault Refusal := issueOne (.sfclass u o) s
/-- VADD (R142). -/
def execVadd (u : VUnit) (o : VR) (s : State) : Host.Outcome State Fault Refusal := issueOne (.vadd u o) s
/-- VSUB (R142). -/
def execVsub (u : VUnit) (o : VR) (s : State) : Host.Outcome State Fault Refusal := issueOne (.vsub u o) s
/-- VMUL (R142). -/
def execVmul (u : VUnit) (o : VR) (s : State) : Host.Outcome State Fault Refusal := issueOne (.vmul u o) s
/-- VMIN (R142). -/
def execVmin (u : VUnit) (o : VR) (s : State) : Host.Outcome State Fault Refusal := issueOne (.vmin u o) s
/-- VMAX (R142). -/
def execVmax (u : VUnit) (o : VR) (s : State) : Host.Outcome State Fault Refusal := issueOne (.vmax u o) s
/-- VFMA (R143). -/
def execVfma (u : VUnit) (o : VR) (s : State) : Host.Outcome State Fault Refusal := issueOne (.vfma u o) s
/-- VFMS (R143). -/
def execVfms (u : VUnit) (o : VR) (s : State) : Host.Outcome State Fault Refusal := issueOne (.vfms u o) s
/-- VABS (R144). -/
def execVabs (u : VUnit) (o : VR) (s : State) : Host.Outcome State Fault Refusal := issueOne (.vabs u o) s
/-- VNEG (R144). -/
def execVneg (u : VUnit) (o : VR) (s : State) : Host.Outcome State Fault Refusal := issueOne (.vneg u o) s
/-- VCMP (R145). -/
def execVcmp (u : VUnit) (o : VR) (s : State) : Host.Outcome State Fault Refusal := issueOne (.vcmp u o) s
/-- VIADD (R146). -/
def execViadd (u : VUnit) (o : VR) (s : State) : Host.Outcome State Fault Refusal := issueOne (.viadd u o) s
/-- VISUB (R146). -/
def execVisub (u : VUnit) (o : VR) (s : State) : Host.Outcome State Fault Refusal := issueOne (.visub u o) s
/-- VIMUL (R146). -/
def execVimul (u : VUnit) (o : VR) (s : State) : Host.Outcome State Fault Refusal := issueOne (.vimul u o) s
/-- VIMAD (R146). -/
def execVimad (u : VUnit) (o : VR) (s : State) : Host.Outcome State Fault Refusal := issueOne (.vimad u o) s
/-- VIMIN (R146). -/
def execVimin (u : VUnit) (o : VR) (s : State) : Host.Outcome State Fault Refusal := issueOne (.vimin u o) s
/-- VIMAX (R146). -/
def execVimax (u : VUnit) (o : VR) (s : State) : Host.Outcome State Fault Refusal := issueOne (.vimax u o) s
/-- VAND (R147). -/
def execVand (u : VUnit) (o : VR) (s : State) : Host.Outcome State Fault Refusal := issueOne (.vand u o) s
/-- VOR (R147). -/
def execVor (u : VUnit) (o : VR) (s : State) : Host.Outcome State Fault Refusal := issueOne (.vor u o) s
/-- VXOR (R147). -/
def execVxor (u : VUnit) (o : VR) (s : State) : Host.Outcome State Fault Refusal := issueOne (.vxor u o) s
/-- VNOT (R147). -/
def execVnot (u : VUnit) (o : VR) (s : State) : Host.Outcome State Fault Refusal := issueOne (.vnot u o) s
/-- VSHL (R148). -/
def execVshl (u : VUnit) (o : VR) (s : State) : Host.Outcome State Fault Refusal := issueOne (.vshl u o) s
/-- VSHR (R148). -/
def execVshr (u : VUnit) (o : VR) (s : State) : Host.Outcome State Fault Refusal := issueOne (.vshr u o) s
/-- VSRA (R148). -/
def execVsra (u : VUnit) (o : VR) (s : State) : Host.Outcome State Fault Refusal := issueOne (.vsra u o) s
/-- VROTL (R148). -/
def execVrotl (u : VUnit) (o : VR) (s : State) : Host.Outcome State Fault Refusal := issueOne (.vrotl u o) s
/-- VSEL (R149). -/
def execVsel (u : VUnit) (o : VR) (s : State) : Host.Outcome State Fault Refusal := issueOne (.vsel u o) s
/-- VMOV (R149). -/
def execVmov (u : VUnit) (o : VR) (s : State) : Host.Outcome State Fault Refusal := issueOne (.vmov u o) s
/-- VBCAST (R149). -/
def execVbcast (u : VUnit) (o : VR) (s : State) : Host.Outcome State Fault Refusal := issueOne (.vbcast u o) s
/-- VEXTR (R149). -/
def execVextr (u : VUnit) (o : VR) (s : State) : Host.Outcome State Fault Refusal := issueOne (.vextr u o) s
/-- VIDX (R149). -/
def execVidx (u : VUnit) (o : VR) (s : State) : Host.Outcome State Fault Refusal := issueOne (.vidx u o) s
/-- VCVT (R150). -/
def execVcvt (u : VUnit) (o : VR) (s : State) : Host.Outcome State Fault Refusal := issueOne (.vcvt u o) s
/-- VPACK (R151). -/
def execVpack (u : VUnit) (o : VR) (s : State) : Host.Outcome State Fault Refusal := issueOne (.vpack u o) s
/-- VUNPACK (R152). -/
def execVunpack (u : VUnit) (o : VR) (s : State) : Host.Outcome State Fault Refusal := issueOne (.vunpack u o) s
/-- VQMX (R153). -/
def execVqmx (u : VUnit) (o : VR) (s : State) : Host.Outcome State Fault Refusal := issueOne (.vqmx u o) s
/-- VDQMX (R154). -/
def execVdqmx (u : VUnit) (o : VR) (s : State) : Host.Outcome State Fault Refusal := issueOne (.vdqmx u o) s
/-- VEXP2 (R155). -/
def execVexp2 (u : VUnit) (o : VR) (s : State) : Host.Outcome State Fault Refusal := issueOne (.vexp2 u o) s
/-- VLOG2 (R155). -/
def execVlog2 (u : VUnit) (o : VR) (s : State) : Host.Outcome State Fault Refusal := issueOne (.vlog2 u o) s
/-- VRCP (R155). -/
def execVrcp (u : VUnit) (o : VR) (s : State) : Host.Outcome State Fault Refusal := issueOne (.vrcp u o) s
/-- VRSQ (R155). -/
def execVrsq (u : VUnit) (o : VR) (s : State) : Host.Outcome State Fault Refusal := issueOne (.vrsq u o) s
/-- VSQRT (R155). -/
def execVsqrt (u : VUnit) (o : VR) (s : State) : Host.Outcome State Fault Refusal := issueOne (.vsqrt u o) s
/-- VDIV (R155). -/
def execVdiv (u : VUnit) (o : VR) (s : State) : Host.Outcome State Fault Refusal := issueOne (.vdiv u o) s
/-- VPERM (R156). -/
def execVperm (u : VUnit) (o : VR) (s : State) : Host.Outcome State Fault Refusal := issueOne (.vperm u o) s
/-- VSUM (R157). -/
def execVsum (u : VUnit) (o : VR) (s : State) : Host.Outcome State Fault Refusal := issueOne (.vsum u o) s
/-- VMAXR (R158).
(DEDUCED, log 27) -/
def execVmaxr (u : VUnit) (o : VR) (s : State) : Host.Outcome State Fault Refusal := issueOne (.vmaxr u o) s
/-- VSCAN (R159). -/
def execVscan (u : VUnit) (o : VR) (s : State) : Host.Outcome State Fault Refusal := issueOne (.vscan u o) s
/-- VARGMAX (R160). -/
def execVargmax (u : VUnit) (o : VR) (s : State) : Host.Outcome State Fault Refusal := issueOne (.vargmax u o) s
/-- VSRCH (R161). -/
def execVsrch (u : VUnit) (o : VR) (s : State) : Host.Outcome State Fault Refusal := issueOne (.vsrch u o) s
/-- VRNG (R162). -/
def execVrng (u : VUnit) (o : VR) (s : State) : Host.Outcome State Fault Refusal := issueOne (.vrng u o) s
/-- VACPT (R163). -/
def execVacpt (u : VUnit) (o : VR) (s : State) : Host.Outcome State Fault Refusal := issueOne (.vacpt u o) s
/-- KAND (R164). -/
def execKand (u : VUnit) (o : VR) (s : State) : Host.Outcome State Fault Refusal := issueOne (.kand u o) s
/-- KOR (R164). -/
def execKor (u : VUnit) (o : VR) (s : State) : Host.Outcome State Fault Refusal := issueOne (.kor u o) s
/-- KXOR (R164). -/
def execKxor (u : VUnit) (o : VR) (s : State) : Host.Outcome State Fault Refusal := issueOne (.kxor u o) s
/-- KNOT (R164). -/
def execKnot (u : VUnit) (o : VR) (s : State) : Host.Outcome State Fault Refusal := issueOne (.knot u o) s
/-- KPOP (R165). -/
def execKpop (u : VUnit) (o : VR) (s : State) : Host.Outcome State Fault Refusal := issueOne (.kpop u o) s
/-- KFIRST (R165). -/
def execKfirst (u : VUnit) (o : VR) (s : State) : Host.Outcome State Fault Refusal := issueOne (.kfirst u o) s
/-- VCHK (R166). -/
def execVchk (u : VUnit) (o : VR) (s : State) : Host.Outcome State Fault Refusal := issueOne (.vchk u o) s
/-- SPLD (R211). -/
def execSpld (o : MS) (s : State) : Host.Outcome State Fault Refusal := issueOne (.spld o) s
/-- SPLDS (R211). -/
def execSplds (o : MS) (s : State) : Host.Outcome State Fault Refusal := issueOne (.splds o) s
/-- SPLDB (R211). -/
def execSpldb (o : MS) (s : State) : Host.Outcome State Fault Refusal := issueOne (.spldb o) s
/-- SPLDX (R211). -/
def execSpldx (o : MS) (s : State) : Host.Outcome State Fault Refusal := issueOne (.spldx o) s
/-- SPST (R211). -/
def execSpst (o : MS) (s : State) : Host.Outcome State Fault Refusal := issueOne (.spst o) s
/-- SPSTS (R211). -/
def execSpsts (o : MS) (s : State) : Host.Outcome State Fault Refusal := issueOne (.spsts o) s
/-- SPSTX (R211). -/
def execSpstx (o : MS) (s : State) : Host.Outcome State Fault Refusal := issueOne (.spstx o) s
/-- TLOOK (R217). -/
def execTlook (o : RG) (s : State) : Host.Outcome State Fault Refusal := issueOne (.tlook o) s
/-- TLOOK_WM (R215). -/
def execTlookWm (o : RG) (s : State) : Host.Outcome State Fault Refusal := issueOne (.tlookWm o) s
/-- TINS (R218). -/
def execTins (o : RG) (s : State) : Host.Outcome State Fault Refusal := issueOne (.tins o) s
/-- TDEL (R219). -/
def execTdel (o : RG) (s : State) : Host.Outcome State Fault Refusal := issueOne (.tdel o) s
/-- TDEL_IDX (R219). -/
def execTdelIdx (o : RG) (s : State) : Host.Outcome State Fault Refusal := issueOne (.tdelIdx o) s
/-- GLD (R222). -/
def execGld (o : MG) (s : State) : Host.Outcome State Fault Refusal := issueOne (.gld o) s
/-- GLDS (R222). -/
def execGlds (o : MG) (s : State) : Host.Outcome State Fault Refusal := issueOne (.glds o) s
/-- GLDA (R234). -/
def execGlda (o : MG) (s : State) : Host.Outcome State Fault Refusal := issueOne (.glda o) s
/-- PREF (R226). -/
def execPref (o : MG) (s : State) : Host.Outcome State Fault Refusal := issueOne (.pref o) s
/-- GST (R222). -/
def execGst (o : MG) (s : State) : Host.Outcome State Fault Refusal := issueOne (.gst o) s
/-- GSTS (R222). -/
def execGsts (o : MG) (s : State) : Host.Outcome State Fault Refusal := issueOne (.gsts o) s
/-- GSTL (R234). -/
def execGstl (o : MG) (s : State) : Host.Outcome State Fault Refusal := issueOne (.gstl o) s
/-- MARK (R233). -/
def execMark (h : MemSide) (o : MK) (s : State) : Host.Outcome State Fault Refusal := issueOne (.mark h o) s
/-- ATOM (R265). -/
def execAtom (o : RG) (s : State) : Host.Outcome State Fault Refusal := issueOne (.atom o) s
/-- ATOMR (R265). -/
def execAtomr (o : RG) (s : State) : Host.Outcome State Fault Refusal := issueOne (.atomr o) s
/-- TAGPUB_SET (R302). -/
def execTagpubSet (o : RG) (s : State) : Host.Outcome State Fault Refusal := issueOne (.tagpubSet o) s
/-- TAGPUB_CLEAR_TILE (R302). -/
def execTagpubClearTile (o : RG) (s : State) : Host.Outcome State Fault Refusal := issueOne (.tagpubClearTile o) s
/-- TAGPUB_CLEAR_TENSOR (R302). -/
def execTagpubClearTensor (o : RG) (s : State) : Host.Outcome State Fault Refusal := issueOne (.tagpubClearTensor o) s
/-- MCALL (R196). -/
def execMcall (o : XC) (s : State) : Host.Outcome State Fault Refusal := issueOne (.mcall o) s
/-- MLDUC (R197).
(DEDUCED, log 26) -/
def execMlduc (o : RG) (s : State) : Host.Outcome State Fault Refusal := issueOne (.mlduc o) s
/-- MLDRT (R197).
(DEDUCED, log 26) -/
def execMldrt (o : RG) (s : State) : Host.Outcome State Fault Refusal := issueOne (.mldrt o) s
/-- MSTAT (R198). -/
def execMstat (o : RG) (s : State) : Host.Outcome State Fault Refusal := issueOne (.mstat o) s
/-- MSTAT_FAULT (R198). -/
def execMstatFault (o : RG) (s : State) : Host.Outcome State Fault Refusal := issueOne (.mstatFault o) s
/-- MSTAT_TAKE (R198). -/
def execMstatTake (o : RG) (s : State) : Host.Outcome State Fault Refusal := issueOne (.mstatTake o) s
/-- MSTAT_CSAT (R198). -/
def execMstatCsat (o : RG) (s : State) : Host.Outcome State Fault Refusal := issueOne (.mstatCsat o) s
/-- MSTAT_SETM (R198). -/
def execMstatSetm (o : RG) (s : State) : Host.Outcome State Fault Refusal := issueOne (.mstatSetm o) s
/-- MSTAT_GETM (R198). -/
def execMstatGetm (o : RG) (s : State) : Host.Outcome State Fault Refusal := issueOne (.mstatGetm o) s
/-- MABORT (R199). -/
def execMabort (s : State) : Host.Outcome State Fault Refusal := issueOne (.mabort) s
/-- ARD (R201). -/
def execArd (o : AC) (s : State) : Host.Outcome State Fault Refusal := issueOne (.ard o) s
/-- ACLR (R202). -/
def execAclr (o : AC) (s : State) : Host.Outcome State Fault Refusal := issueOne (.aclr o) s
/-- AWR (R202). -/
def execAwr (o : AC) (s : State) : Host.Outcome State Fault Refusal := issueOne (.awr o) s
/-- AACC (R202).
(DEDUCED, log 25) -/
def execAacc (o : AC) (s : State) : Host.Outcome State Fault Refusal := issueOne (.aacc o) s
/-- AOW (R203). -/
def execAow (o : AC) (s : State) : Host.Outcome State Fault Refusal := issueOne (.aow o) s
/-- ADRN (R204). -/
def execAdrn (o : AC) (s : State) : Host.Outcome State Fault Refusal := issueOne (.adrn o) s
/-- HCOPY_S2S (R248). -/
def execHcopyS2s (o : HC) (s : State) : Host.Outcome State Fault Refusal := issueOne (.hcopyS2s o) s
/-- HCOPY_G2S (R248). -/
def execHcopyG2s (o : HC) (s : State) : Host.Outcome State Fault Refusal := issueOne (.hcopyG2s o) s
/-- HCOPY_G2T (R248). -/
def execHcopyG2t (o : HC) (s : State) : Host.Outcome State Fault Refusal := issueOne (.hcopyG2t o) s
/-- HFILL (R249). -/
def execHfill (o : HC) (s : State) : Host.Outcome State Fault Refusal := issueOne (.hfill o) s
/-- HFILL_T (R249). -/
def execHfillT (o : HC) (s : State) : Host.Outcome State Fault Refusal := issueOne (.hfillT o) s
/-- HTILE (R250).
(DEDUCED, log 27) -/
def execHtile (o : HC) (s : State) : Host.Outcome State Fault Refusal := issueOne (.htile o) s
/-- HTWR (R251). -/
def execHtwr (o : HC) (s : State) : Host.Outcome State Fault Refusal := issueOne (.htwr o) s
/-- HWM (R252). -/
def execHwm (o : HC) (s : State) : Host.Outcome State Fault Refusal := issueOne (.hwm o) s
/-- HWM_OFF (R252). -/
def execHwmOff (o : HC) (s : State) : Host.Outcome State Fault Refusal := issueOne (.hwmOff o) s
/-- HSCHED (R254). -/
def execHsched (o : HC) (s : State) : Host.Outcome State Fault Refusal := issueOne (.hsched o) s
/-- HSTEP (R255). -/
def execHstep (o : HC) (s : State) : Host.Outcome State Fault Refusal := issueOne (.hstep o) s
/-- HMCAST (R256). -/
def execHmcast (o : HC) (s : State) : Host.Outcome State Fault Refusal := issueOne (.hmcast o) s
/-- HMWAIT (R257). -/
def execHmwait (o : HC) (s : State) : Host.Outcome State Fault Refusal := issueOne (.hmwait o) s
/-- HADD (R258). -/
def execHadd (o : HC) (s : State) : Host.Outcome State Fault Refusal := issueOne (.hadd o) s
/-- HPUB (R259). -/
def execHpub (o : HC) (s : State) : Host.Outcome State Fault Refusal := issueOne (.hpub o) s
/-- HPUB_RING (R267). -/
def execHpubRing (o : HC) (s : State) : Host.Outcome State Fault Refusal := issueOne (.hpubRing o) s
/-- HSTAT (R260). -/
def execHstat (o : HC) (s : State) : Host.Outcome State Fault Refusal := issueOne (.hstat o) s
/-- HSTAT_STAGE (R260). -/
def execHstatStage (o : HC) (s : State) : Host.Outcome State Fault Refusal := issueOne (.hstatStage o) s
/-- HSTAT_LAST (R260). -/
def execHstatLast (o : HC) (s : State) : Host.Outcome State Fault Refusal := issueOne (.hstatLast o) s
/-- LAUNCH (R293). -/
def execLaunch (o : RG) (s : State) : Host.Outcome State Fault Refusal := issueOne (.launch o) s
/-- SPAWN (R291). -/
def execSpawn (o : RG) (s : State) : Host.Outcome State Fault Refusal := issueOne (.spawn o) s
/-- SPAWN_AT (R291). -/
def execSpawnAt (o : RG) (s : State) : Host.Outcome State Fault Refusal := issueOne (.spawnAt o) s
/-- EXIT (R292). -/
def execExit (o : RG) (s : State) : Host.Outcome State Fault Refusal := issueOne (.exit o) s
/-- EXIT_ERR (R292). -/
def execExitErr (o : RG) (s : State) : Host.Outcome State Fault Refusal := issueOne (.exitErr o) s
/-- BAR (R296).
(DEDUCED, log 18) -/
def execBar (o : RG) (s : State) : Host.Outcome State Fault Refusal := issueOne (.bar o) s
/-- BAR_ARRIVE (R296). -/
def execBarArrive (o : RG) (s : State) : Host.Outcome State Fault Refusal := issueOne (.barArrive o) s
/-- BAR_WAIT (R296). -/
def execBarWait (o : RG) (s : State) : Host.Outcome State Fault Refusal := issueOne (.barWait o) s
/-- TAGWAIT (R304). -/
def execTagwait (o : RG) (s : State) : Host.Outcome State Fault Refusal := issueOne (.tagwait o) s
/-- CSWITCH (R355).
(DEDUCED, log 47) -/
def execCswitch (o : RG) (s : State) : Host.Outcome State Fault Refusal := issueOne (.cswitch o) s
/-- PARK (R356). -/
def execPark (o : RG) (s : State) : Host.Outcome State Fault Refusal := issueOne (.park o) s
/-- WAKE (R357). -/
def execWake (o : RG) (s : State) : Host.Outcome State Fault Refusal := issueOne (.wake o) s
/-- WAKE_AT (R357). -/
def execWakeAt (o : RG) (s : State) : Host.Outcome State Fault Refusal := issueOne (.wakeAt o) s
/-- WAKE_IN (R357). -/
def execWakeIn (o : RG) (s : State) : Host.Outcome State Fault Refusal := issueOne (.wakeIn o) s
/-- ESTSET (R358). -/
def execEstset (o : RG) (s : State) : Host.Outcome State Fault Refusal := issueOne (.estset o) s
/-- ESTSET_WAKE (R358). -/
def execEstsetWake (o : RG) (s : State) : Host.Outcome State Fault Refusal := issueOne (.estsetWake o) s
/-- PBAR (R405).
(DEDUCED, log 18) -/
def execPbar (o : RG) (s : State) : Host.Outcome State Fault Refusal := issueOne (.pbar o) s

end Sys2Proof.Machine
end

