-- ==== Sys2Proof/Machine/Strands.lean ====
section
/-! DEFINITION. A core's own steps: fetching and framing a bundle, its iterations, switching, unblocking and the return of walks (R15
to R18, R25, R48, R223, R326, R328, R330, R337). -/

namespace Sys2Proof.Machine

/-! ## Fetching and framing (R48) -/

/-- What fetching a bundle gives: its words; a trap with the iterations that would follow and the words to the bundle after it, which are
those its LEN names where its first word could be read (R95); or a word whose translation is missing. -/
inductive Fetched where
  | words (ws : List (BitVec 32))
  | trap (t : Trap) (left len : Nat)
  | miss (va : Word)
  deriving DecidableEq, Repr
/-- Fetch `k` words of a bundle of `len` from an address, after those already fetched; the first that fails decides. -/
def State.fetchMany (s : State) (n : Nat) (left len : Nat) (va : Word) : Nat → List (BitVec 32) → State × Fetched
  | 0, ws => (s, .words ws)
  | k + 1, ws =>
    match s.fetchWord n va with
    | (s1, .word w) => State.fetchMany s1 n left len (canonVa (va + 4)) k (ws ++ [w])
    | (s1, .trap c d) => (s1, .trap { cause := c, detail := d, faddr := va } left len)
    | (s1, .miss) => (s1, .miss va)
/-- The iterations that would follow the one about to issue, by its strand's place in the bundle and the header's REPEAT.
(DEDUCED, log 15) -/
def leftOf (r : Resume) (rep : Nat) : Nat :=
  match r with
  | .fresh => rep
  | .at k _ => k
  | .byHeader k => k
/-- The iteration about to issue is its bundle's first (R28, R42). -/
def firstOf (r : Resume) (rep : Nat) : Bool :=
  match r with
  | .fresh => true
  | .at _ f => f
  | .byHeader k => decide (k = rep)
/-- Fetch the bundle at a strand's pc (R48).
(DEDUCED, log 15) -/
def State.fetchBundle (s : State) (n : Nat) : State × Fetched :=
  let st := s.strand n
  match s.fetchWord n st.pc with
  | (s1, .trap c d) => (s1, .trap { cause := c, detail := d, faddr := st.pc } (leftOf st.res 0) 1)
  | (s1, .miss) => (s1, .miss st.pc)
  | (s1, .word h) =>
    let left := leftOf st.res (fld h.toNat 11 8)
    match decodeHeader h.toNat with
    | .error d => (s1, .trap { cause := 1, detail := d } left (fld h.toNat 22 6))
    | .ok hd => s1.fetchMany n left hd.len (canonVa (st.pc + 4)) (hd.len - 1) [h]
/-- Frame the words of a bundle: its header and slot operations, or the DETAIL of ILLEGAL_BUNDLE (R48).
(DEDUCED, log 14) -/
def frame (ws : List (BitVec 32)) : Except Nat (Header × List SlotOp) :=
  match ws with
  | [] => .error 0x0001
  | h :: l =>
    match decodeHeader h.toNat with
    | .error d => .error d
    | .ok hd =>
      match frameOps hd.present slots (l.map BitVec.toNat) with
      | none => .error 0x0001
      | some ops => .ok (hd, ops.map (fun o => (o.1, decodeOp o.1 o.2.1 o.2.2)))
/-- The iteration of framed words that the strand is about to issue. -/
def iterOf (n : Nat) (r : Resume) (hd : Header) (ops : List SlotOp) : Iter :=
  ⟨n, hd.repeats, hd.len, leftOf r hd.repeats, firstOf r hd.repeats, hd.clr, ops⟩
/-- Issue the words of a bundle. -/
def State.issueWords (s : State) (n : Nat) (ws : List (BitVec 32)) : State :=
  let st := s.strand n
  match frame ws with
  | .error d =>
    let rep := fld (ws.headD 0).toNat 11 8
    s.takeTrap n { cause := 1, detail := d } (canonVa (st.pc + BitVec.ofNat 64 (4 * ws.length))) (leftOf st.res rep)
  | .ok (hd, ops) => (iterOf n st.res hd ops).attempt s ws
/-- BUNDLE_ISSUE (R25): one iteration of the ACTIVE strand; a forced yield that is due comes first (R18).
(DESIGN CHOICE, log 13) -/
def execBundleIssue (core : Nat) (s : State) : Host.Outcome State Fault Refusal :=
  match s.activeOf core with
  | none => .refused .noTask
  | some n =>
    if (s.core core).count ≥ 65536 then .refused .notEnabled
    else
      let st := s.strand n
      let (s1, f) := if st.words = [] then ({ s with cur := core } : State).fetchBundle n
        else (({ s with cur := core } : State), Fetched.words st.words)
      .next (match f with
        | .words ws => s1.issueWords n ws
        | .trap t left len => s1.takeTrap n t (canonVa (st.pc + BitVec.ofNat 64 (4 * len))) left
        | .miss va => s1.block n (.fetchWalk va))

/-! ## Switching -/

/-- A condition that blocks a strand is satisfied (R15). -/
def State.cleared (s : State) (n : Nat) : Why → Bool
  | .loadFull => decide ((s.strand n).loadQ.length < 64)
  | .storeFull => decide ((s.strand n).storeQ.length < 64)
  | .hodFull ch => decide (((s.cluster (n / 32)).chan (n / 8 % 4 * 16 + ch)).queue.length < 8)
  | .sem k m => decide (m ≤ (s.strand n).count k)
  | .semAny mask => (firstIdx (fun i => bitOf mask i && decide (1 ≤ (s.strand n).count i)) 16 0).isSome
  | .watermark parts => !(s.core (n / 8)).unfilledParts parts
  | .walk va k => decide (s.strandTr n (va.toNat % 2 ^ 57) k ≠ .miss) && !s.inReplay n
  | .fetchWalk va => decide ((s.fetchWord n va).2 ≠ .miss) && !s.inReplay n
  | .phase ph => !s.phaseOpen n (some ph)
  | .tag key prod => decide (s.judgeKey (s.ctxOf n) key.toNat prod.toNat ≠ .waits)
  | .parked _ => false
  | .saving => false
  | .restoring => false
  | .choosing c => (match s.cswitchPick n c with | .wait _ => false | _ => true)
  | .ending => false
  | .stopped => false
/-- What a blocked strand's condition still waits for is asked for: a bundle's words, what CSWITCH's choice reads. -/
def State.askAgain (s : State) (n : Nat) : Why → State
  | .fetchWalk va => (s.fetchWord n va).1
  | .choosing c => (match s.cswitchPick n c with | .wait s1 => s1 | _ => s)
  | _ => s
/-- STRAND_UNBLOCK (R15): the strand's condition is satisfied, or what it waits for is asked for. -/
def execStrandUnblock (strand : Nat) (s : State) : Host.Outcome State Fault Refusal :=
  match (s.strand strand).run with
  | .blocked why =>
    if s.cleared strand why then .next (s.unblock strand)
    else
      let t := s.askAgain strand why
      if t = s then .refused .notEnabled else .next t
  | _ => .refused .notEnabled
/-- IDLE_CORE_SELECT (R16). -/
def execIdleCoreSelect (core : Nat) (s : State) : Host.Outcome State Fault Refusal :=
  if (s.core core).active.isSome || (s.nextEligible core).isNone then .refused .notEnabled else .next (s.select core)
/-- FORCED_YIELD (R18). -/
def execForcedYield (core : Nat) (s : State) : Host.Outcome State Fault Refusal :=
  match s.activeOf core with
  | none => .refused .notEnabled
  | some n =>
    if (s.core core).count < 65536 then .refused .notEnabled
    else if s.others n then .next (s.leave n .eligible 0x17)
    else .next (s.onCore core (fun co => { co with count := 0 }))

/-! ## Walks -/

/-- Keep the non-leaf entries a walk read, the least recently used giving way (R328). -/
def Die.keepWalk (x : Die) (asid : Nat) (seen : List (Nat × Word)) : Die :=
  { x with walker := seen.foldl (fun (m : SMap (Word × Nat)) p =>
      let key := asid * 2 ^ 52 + p.1
      upd (lruRoom (fun w : Word × Nat => w.2) m 1024 key) key (p.2, lruNext (fun w : Word × Nat => w.2) m)) x.walker }

/-- A walk's leaf enters the TLBs of a core and its die, with the non-leaf entries read (R328). -/
def State.keepLeaf (s : State) (core asid va : Nat) (l : Leaf) (seen : List (Nat × Word)) : State :=
  let key := tlbKey asid va
  (s.onCore core (fun co => { co with tlb := tlbPut co.tlb 256 key l.tlb })).onDie (dieOfCore core) (fun x =>
    { x.keepWalk asid seen with tlb := tlbPut x.tlb 16384 key l.tlb })
/-- A translation that the die's TLB holds enters a core's (R328). -/
def State.fromDie (s : State) (core key : Nat) (t : TlbEntry) : State :=
  (s.onCore core (fun co => { co with tlb := tlbPut co.tlb 256 key t })).onDie (dieOfCore core) (fun x => { x with tlb := tlbUse x.tlb key })
/-- Held accesses of the pages of a test are released (R337); they walk in the order of their entry. -/
def Die.release (x : Die) (p : Nat → Nat → Bool) : Die :=
  { x with replay := x.replay.map (fun r => if p r.asid r.page then { r with go := true } else r) }
/-- What the walk of a strand's access comes to: it is over; requests were sent; the page is under migration. -/
inductive Walked where
  | over (s : State)
  | asked (s : State)
  | moving
/-- The walk of a strand's blocked access (R223, R326, R328): by the die TLB, or by a walk, kept where it succeeds. -/
def State.walkFor (s : State) (n : Nat) (va : Word) (k : Kind) : Walked :=
  let d := dieOfStrand n
  let x := s.ctx (s.ctxOf n)
  let v := va.toNat % 2 ^ 57
  let key := tlbKey x.asid v
  let fails (s : State) (c dt : Nat) : Walked := .over (s.onStrand n (fun st => { st with walk := some ⟨BitVec.ofNat 64 v, k, c, dt⟩ }))
  if (find? (s.core (n / 8)).tlb key).isSome then .over s
  else match find? (s.die d).tlb key with
    | some t => .over (s.fromDie (n / 8) key t)
    | none =>
      match s.walk d x.asid v with
      | .leaf l seen _ =>
        (match s.judgeLeaf x.keydom l v k with
          | .fault c dt => fails s c dt
          | _ => .over (s.keepLeaf (n / 8) x.asid v l seen))
      | .fault c dt => fails s c dt
      | .bad pa => fails (s.countInt pa 8) 0x15 0x0900
      | .wait s1 => .asked s1
      | .replay _ => .moving
/-- What a blocked strand's walk is for. -/
def State.walking (s : State) (n : Nat) : Option (Word × Kind) :=
  match (s.strand n).run with
  | .blocked (.walk va k) => some (va, k)
  | .blocked (.fetchWalk va) => some (va, .fetch)
  | _ => none
/-- A released access of a replay queue walks again (R337): a strand's; a Hod command's, whose translation its die then holds. An access
of a strand that is being saved is over. -/
def State.walkHeld (s : State) (d : Nat) (r : Replay) : Walked :=
  match r.who with
  | .strand n => (match s.walking n with | some (va, k) => s.walkFor n va k | none => .over s)
  | .hod cl ch =>
    (match ((s.cluster cl).chan ch).queue with
      | m :: _ => (match s.walk d r.asid (r.page * 65536) with
        | .leaf l seen _ => if (denied l.bits .read).isNone then .over (s.keepLeaf (m.strand / 8) r.asid (r.page * 65536) l seen) else .over s
        | .replay _ => .moving
        | .wait s1 => .asked s1
        | _ => .over s)
      | [] => .over s)
  | _ => .over s
/-- The released accesses of a die's replay queue walk again in the order of their entry (R337), as far as they can. Requests from
outside are performed by their ports (R453). -/
def State.walkReleased (s : State) (d : Nat) : Nat → State
  | 0 => s
  | f + 1 =>
    match (s.die d).replay.find? (fun r => r.go && !(r.who matches .outside _)) with
    | none => s
    | some r =>
      match s.walkHeld d r with
      | .over t => State.walkReleased (t.onDie d (fun x => { x with replay := x.replay.filter (fun q => q ≠ r) })) d f
      | .asked t => t
      | .moving => State.walkReleased (s.onDie d (fun x =>
          { x with replay := x.replay.map (fun q => if q = r then { r with go := false } else q) })) d f
/-- Accesses released on every die walk again. -/
def State.walkAll (s : State) : State := [0, 1, 2, 3].foldl (fun s d => s.walkReleased d (s.die d).replay.length) s
/-- TRANSLATION_WALK_RETURN (R326): the walk of a strand's blocked access returns; one that a migration held walks in its turn (R337). -/
def execTranslationWalkReturn (strand : Nat) (s : State) : Host.Outcome State Fault Refusal :=
  let d := dieOfStrand strand
  let out : Option State :=
    if (s.strand strand).walk.isSome then none
    else if s.inReplay strand then some (s.walkReleased d (s.die d).replay.length)
    else match s.walking strand with
      | none => none
      | some (va, k) => match s.walkFor strand va k with
        | .over t => some t
        | .asked t => some t
        | .moving => ((s.die d).hold (.strand strand) (s.ctx (s.ctxOf strand)).asid (fld va.toNat 16 41)).map (fun x => s.setDie d x)
  match out with
  | some t => if t = s then .refused .notEnabled else .next t
  | none => .refused .notEnabled

end Sys2Proof.Machine
end

