-- ==== Sys2Proof/Machine/Access.lean ====
section
/-! DEFINITION. Global accesses after commit: when an entry may be performed, reading and writing through copy and home sectors,
completions in commit order, atomics and the answers of peers (R224, R225, R227, R230 to R235, R263 to R265, R269, R317 to R320,
R443, R444, R450). -/

namespace Sys2Proof.Machine

/-! ## Order (R230 to R235) -/

/-- The slot that raised an access (R43, R47): LD for what loads only, ST otherwise. -/
def GEntry.slot (g : GEntry) : Nat := match g.kind with | .load => 5 | .acquire => 5 | .pref => 5 | _ => 6
/-- An access is performed at a scope (R230, R318). -/
def GEntry.doneAt (g : GEntry) (sc : Nat) : Bool := g.phase = 2 || (g.phase = 1 && sc ≤ 3)
/-- The bytes an entry's active lanes touch (R224, R225), as a mask of its bytes. -/
def GEntry.mask (g : GEntry) : Nat :=
  if g.size = 256 then pack 4 (fun i => if g.lanes.getLsbD i then 15 else 0) 64 0 else 2 ^ g.size - 1
/-- The sectors an entry touches. -/
def GEntry.sectors (g : GEntry) : List Nat := (sectorParts g.pa g.size).map (fun p => p.1 / 128)
/-- A Hod command that reads or writes global memory (R269). -/
def HodCmd.isGlobal (m : HodCmd) : Bool :=
  (m.op = 0 && m.f % 4 ≠ 0) || m.op = 1 || m.op = 2 || m.op = 3 || m.op = 4 || (m.op = 7 && m.f % 2 = 1) || m.op = 8
    || (m.op = 0xA && m.f % 2 = 1)
/-- A strand's Hod commands committed before its access `num` have not all finished (R269). -/
def State.hodBefore (s : State) (n num : Nat) : Bool :=
  (s.cluster (n / 32)).chans.any (fun p => p.2.queue.any (fun m => m.strand = n && m.isGlobal && decide (m.num < num)))
/-- The loads of a strand older than `num` are performed. -/
def State.loadsDone (s : State) (n num : Nat) : Bool :=
  !((s.strand n).entries.any (fun g => g.num < num && g.loads && decide (g.phase ≠ 2))) && !s.hodBefore n num
/-- The stores of a strand older than `num` are performed at a scope. -/
def State.storesDone (s : State) (n num sc : Nat) : Bool :=
  !((s.strand n).entries.any (fun g => g.num < num && g.stores && !g.doneAt sc)) && !s.hodBefore n num
/-- The local bytes that a strand's loads read are acknowledged (R320). -/
def State.seenAcked (s : State) (n : Nat) : Bool :=
  (s.strand n).seen.all (fun sec => decide (((s.die (dieOfStrand n)).copy sec).loc = 0))
/-- Everything a release of a strand at `num` and a scope orders is performed there (R234, R235, R320). -/
def State.releaseOk (s : State) (n num sc : Nat) : Bool :=
  s.loadsDone n num && s.storesDone n num sc && (sc < 4 || s.seenAcked n)
/-- A MARK of the strand holds an entry back (R233).
(DEDUCED, log 24) -/
def markHolds (g m : GEntry) : Bool :=
  match m.kind with
  | .mark k => m.scope ≠ 0 && m.num < g.num &&
      (match k with | 0 => true | 1 => g.stores | 2 => g.stores || m.phase = 0 | _ => true)
  | _ => false
/-- An older access of the same sector holds an entry back (R231). -/
def sectorHolds (g o : GEntry) : Bool :=
  o.num < g.num && (o.loads || o.stores) && g.sectors.any (fun k => o.sectors.contains k)
    && (match g.kind with | .atomic _ _ => decide (o.phase ≠ 2) | _ => o.phase = 0 || o.phase = 3)
/-- An older acquire, an older release before an acquire, or an older PBAR holds an entry back (R234, R405). At .ST an access is performed
as it leaves its queue (R230), so that nothing waits for more.
(DEDUCED, log 24) -/
def orderHolds (nv : Bool) (g o : GEntry) : Bool :=
  o.num < g.num &&
    ((o.acq && o.scope ≠ 0 && decide (o.phase ≠ 2))
      || (g.acq && o.rel && g.scope ≠ 0 && o.scope ≠ 0 && (o.kind matches .release || o.kind matches .atomic _ _)
        && !o.doneAt (if g.scope < o.scope then g.scope else o.scope))
      || (decide (o.kind = .pbar) && nv && g.stores))
/-- An entry may be performed now (R231 to R235, R297, R405). -/
def State.mayPerform (s : State) (n : Nat) (g : GEntry) : Bool :=
  let st := s.strand n
  let nv := decide (window (s.place g.pa) = .nv) && decide (g.size ≠ 0)
  !st.entries.any (fun o => markHolds g o || sectorHolds g o || orderHolds nv g o)
    && st.arrivals.all (fun a => a.1 > g.num || (s.loadsDone n a.1 && (!g.stores || s.releaseOk n a.1 a.2)))
    && (!g.rel || g.scope = 0 || s.releaseOk n g.num g.scope)

/-! ## Completions in commit order (R224, R225) -/

/-- An entry is performed: its completion follows in commit order, and a strand whose task has ended may become FREE (R224, R225,
R292). -/
def State.performed (s : State) (n num : Nat) : State :=
  (s.onStrand n (fun st => (st.phase num 2).drain 128)).settle n
/-- Data of a load arrives (R224): to its register, unless its task has ended. -/
def Strand.data (st : Strand) (g : GEntry) (v : Nat) (poison : Bool) : Strand :=
  if st.over then st
  else match g.reg with | some r => st.write r (BitVec.ofNat 2048 v) g.lanes 15 poison | none => st
/-- What an acquire does to the copies of its die once it is performed (R319). -/
def State.acquired (s : State) (n : Nat) (g : GEntry) : State :=
  if g.acq && g.scope ≥ 4 then s.onDie (dieOfStrand n) Die.dropClean else s
/-- A strand's access failed after its commit (R227): an asynchronous record.
(DEDUCED, log 33) -/
def State.accessRecord (s : State) (n : Nat) (g : GEntry) (cause detail : Nat) : State :=
  let st := s.strand n
  s.coreRecord (n / 8) st.ctxh st.launch st.task 0xFFFFFFFF cause detail g.va g.slot
/-- A load completes with data; a load that failed has poison (R227).
(DEDUCED, log 37) -/
def State.loaded (s : State) (n : Nat) (g : GEntry) (v : Nat) (poison : Bool) : State :=
  ((s.onStrand n (fun st => st.data g v poison)).acquired n g).performed n g.num

/-! ## Reading and writing -/

/-- Some atom with a byte of the mask is poisoned at the home. -/
def State.maskPoison (s : State) (pa n mask : Nat) : Bool :=
  (firstIdx (fun k =>
    let a := 32 * (pa / 32 + k)
    let lo := if a < pa then 0 else a - pa
    let hi := if pa + n < a + 32 then n else a + 32 - pa
    decide (fld mask lo (hi - lo) ≠ 0) && s.hPoison a 32) ((pa + n - 1) / 32 - pa / 32 + 1) 0).isSome
/-- The home sectors of this die that a read took its bytes from, which an atomic engine that held one has given back (R263). -/
def State.recallRead (s : State) (d pa n mask : Nat) : State :=
  (sectorParts pa n).foldl (fun s p =>
    if s.homeOf p.1 = d && decide (fld mask p.2.2 p.2.1 ≠ 0) then s.recall (s.place p.1 / 128) else s) s
/-- What a read through a die gives: bytes with poison and the sectors whose local bytes it took; requests sent and nothing yet; a
failure; or an integrity failure. -/
inductive Got where
  | data (v : Nat) (poison : Bool) (seen : List Nat)
  | wait (s : State)
  | dead (cause detail : Nat)
  | bad
/-- Read the parts of a range through the slices of a die (R317, R318, R400): a home is read where it stands; another die's line by
the bytes the copy sector of the named address holds, else by a fill, which fails where the home cannot be read. -/
def State.readDie (s : State) (d mask : Nat) : List (Nat × Nat × Nat) → Nat → Bool → List Nat → Got
  | [], v, p, l => .data v p l
  | (a, n, o) :: rest, v, p, l =>
    let m := fld mask o n
    if m = 0 then s.readDie d mask rest v p l
    else if s.homeOf a = d then
      match s.gates (linesAt a n m false) with
      | (_, .ready) =>
        if s.hBad a n then .bad
        else s.readDie d mask rest (v + s.hGet a n * 2 ^ (8 * o)) (p || s.maskPoison a n m || s.devPoison a n) l
      | (s1, .waits) => .wait s1
      | (_, .dead x y) => .dead x y
    else
      let c := (s.die d).copy (a / 128)
      let m' := BitVec.ofNat 128 (m * 2 ^ (a % 128))
      if m' &&& ~~~(c.clean ||| c.loc) = 0 then
        s.readDie d mask rest (v + c.get a n * 2 ^ (8 * o)) (p || c.bad m') (if m' &&& c.loc = 0 then l else l ++ [a / 128])
      else match s.deadAt (s.place a) with
        | some (x, y) => .dead x y
        | none => if s.hBad a n then .bad else .wait (s.onDie d (fun x => x.askFill (a / 128)))
/-- Which of a write's parts go where: at the home at once, held for Kiln, or to a copy sector with a write-through. -/
structure Wrote where
  s : State
  held : Bool
  remote : Bool
/-- Write one part of a range inside a sector for a strand of a die (R317, R406): `direct` writes the copy sector only at the
acknowledgement (R320). -/
def Wrote.part (w : Wrote) (d mask value : Nat) (poison direct : Bool) (id : StoreId) (p : Nat × Nat × Nat) : Wrote :=
  let (a, n, o) := p
  let m := fld mask o n
  let v := fld value (8 * o) (8 * n)
  let s := w.s
  if m = 0 then w
  else if s.homeOf a = d then
    let q := s.place a
    if s.mustHold a then
      { w with s := s.onDie (kilnDie q) (fun x => { x with heldWrites := x.heldWrites ++ [⟨a, n, m, v, poison, some id, none⟩] }), held := true }
    else { w with s := s.homeWrite a n m v poison (some id) }
  else
    let mb := BitVec.ofNat 128 (m * 2 ^ (a % 128))
    let db := BitVec.ofNat 1024 (v * 2 ^ (8 * (a % 128)))
    let s1 := if direct then s else s.onCopy d (a / 128) (fun c => c.store mb db poison)
    let s2 := s1.onDie d (fun x => { x with flights := x.flights ++ [.through (a / 128) mb db poison id.1 id.2.2.2.2] })
    { w with s := s2, remote := true }
/-- The identity of a strand's store. -/
def State.storeId (s : State) (n num : Nat) : StoreId :=
  let st := s.strand n
  (n, st.ctxh.toNat, st.launch.toNat, st.task.toNat, num)
/-- No write-through and no held write of a store is left. -/
def State.storeClear (s : State) (n num : Nat) : Bool :=
  !(s.dies.any (fun p =>
    p.2.flights.any (fun f => match f with | .through _ _ _ _ m k => m = n && k = num | .fill _ => false)
      || p.2.heldWrites.any (fun h => match h.store with | some i => i.1 = n && i.2.2.2.2 = num | none => false)))
/-- A store whose last part has reached its home is performed (R225, R318). -/
def State.storeArrived (s : State) (n num : Nat) : State :=
  if s.storeClear n num && (s.strand n).entries.any (fun g => g.num = num && (g.phase = 1 || g.phase = 3)) then s.performed n num
  else s

/-! ## Peers (R443, R444, R450) -/


/-- The parts of an access by sector that its active lanes touch: a request each, to a peer (R444). -/
def GEntry.parts (g : GEntry) : List (Nat × Nat × Nat) := (sectorParts g.pa g.size).filter (fun p => fld g.mask p.2.2 p.2.1 ≠ 0)
/-- The records of a failed access to a peer's window (R443, R450): one for each request that a fence refuses, else one. -/
def State.peerFailed (s : State) (n : Nat) (g : GEntry) (cause detail : Nat) : State :=
  if cause = 0x18 then g.parts.foldl (fun s _ => s.accessRecord n g cause detail) s else s.accessRecord n g cause detail
/-- Send the requests of an access to a peer, one for each sector it touches; its entry waits for the answers (R444). -/
def State.sendPeer (s : State) (n : Nat) (g : GEntry) (peer : Nat) : State :=
  let parts := g.parts
  if parts.isEmpty then s.performed n g.num
  else (s.onStrand n (fun st => st.phase g.num 3)).onPkg (fun p =>
    { p with peers := p.peers ++ parts.map (fun q => ⟨peer, q.1 / 128, n, g.num, none, none⟩) })

/-! ## Loads -/


/-- An access of a strand met a sector whose tag fails (R400): it is counted, and the context is torn down with a record. -/
def State.accessBad (s : State) (n : Nat) (g : GEntry) : State :=
  let st := s.strand n
  (s.countInt g.pa g.size).integrity (n / 8) (ctxIdx st.ctxh.toNat) st.launch st.task g.va g.slot
/-- A device returns poison for an access of a strand (R401), which is recorded for each sector. -/
def State.devRecord (s : State) (n : Nat) (g : GEntry) : State :=
  (g.parts.filter (fun p => s.devPoison p.1 p.2.1)).foldl (fun s _ => s.accessRecord n g 0x16 0x0901) s
/-- An access by the package's own inbound path reads sectors whose tags fail (R400, R443): they are counted. -/
def State.countOwnPath (s : State) (g : GEntry) (pa : Nat) : State := g.parts.foldl (fun s p => s.countInt (pa + p.2.2) p.2.1) s
/-- A load is performed, or its requests go out (R224, R227, R317, R401, R444).
(DESIGN CHOICE, log 70) -/
def State.performLoad (s : State) (n : Nat) (g : GEntry) : Option State :=
  let d := dieOfStrand n
  if window (s.place g.pa) = .peer then
    match s.peerWay g.pa with
    | .dead x y => some ((s.peerFailed n g x y).loaded n g 0 true)
    | .send p => if s.pkg.viral then none else some (s.sendPeer n g p)
    | .own pa =>
      match s.gate pa g.size false with
      | (s1, .ready) =>
        if s.outsider pa then some ((s1.countOwnPath g pa).loaded n g (s.hGet pa g.size) (s.maskPoison pa g.size g.mask))
        else some ((s.onPkg (fun p => { p with domainRefusals := p.domainRefusals + 1 })).loaded n g 0 true)
      | (s1, .waits) => if s1 = s then none else some s1
      | (_, .dead x y) => some ((s.accessRecord n g x y).loaded n g 0 true)
  else
    match s.readDie d g.mask (sectorParts g.pa g.size) 0 false [] with
    | .data v p l =>
      let s1 := s.recallRead d g.pa g.size g.mask
      let s2 := s1.devRecord n g
      some ((s2.onStrand n (fun st => { st with seen := st.seen ++ l.filter (fun k => !st.seen.contains k) })).loaded n g v p)
    | .wait s1 => if s1 = s then none else some s1
    | .dead x y => some ((s.accessRecord n g x y).loaded n g 0 true)
    | .bad => some ((s.loaded n g 0 true).accessBad n g)
/-- GLOBAL_LOAD_ARRIVAL (R224): the load at a place of the strand's load queue.
(DESIGN CHOICE, log 21) -/
def execGlobalLoadArrival (strand idx : Nat) (s : State) : Host.Outcome State Fault Refusal :=
  match (s.strand strand).loadQ[idx]? with
  | some g =>
    if g.phase = 0 && g.loads && s.mayPerform strand g then
      match s.performLoad strand g with
      | some t => .next t
      | none => .refused .notEnabled
    else .refused .notEnabled
  | none => .refused .notEnabled
/-- PREF_ACCEPTED (R221, R226): the line's sectors are asked for, and the entry frees.
(DEDUCED, log 20) -/
def execPrefAccepted (strand idx : Nat) (s : State) : Host.Outcome State Fault Refusal :=
  match (s.strand strand).loadQ[idx]? with
  | some g =>
    if g.kind = .pref then
      let d := dieOfStrand strand
      let line := g.pa / 1024 * 8
      let s1 := (List.range 8).foldl (fun s k =>
        let sec := line + k
        if s.homeOf (128 * sec) = d then
          (if window (128 * sec) = .host then (s.gate (128 * sec) 128 false).1 else s)
        else if ((s.die d).copy sec).clean = 0 then s.onDie d (fun x => x.askFill sec) else s) s
      .next ((s1.onStrand strand (fun st => st.dropEntry g.num)).settle strand)
    else .refused .notEnabled
  | none => .refused .notEnabled

/-! ## Stores -/

/-- A store is performed, or its write-throughs go out (R225, R227, R317, R320, R397, R406, R444).
(DESIGN CHOICE, log 70) -/
def State.performStore (s : State) (n : Nat) (g : GEntry) : Option State :=
  let d := dieOfStrand n
  let v := g.data.toNat
  if window (s.place g.pa) = .peer then
    match s.peerWay g.pa with
    | .dead x y => some ((s.peerFailed n g x y).performed n g.num)
    | .send p => if s.pkg.viral then none else some (s.sendPeer n g p)
    | .own pa =>
      match s.gate pa g.size true with
      | (s1, .ready) =>
        if s.outsider pa then
          some (((sectorParts pa g.size).foldl (fun s p =>
            let m := fld g.mask p.2.2 p.2.1
            (s.countMerge p.1 p.2.1 m).homeWrite p.1 p.2.1 m (fld v (8 * p.2.2) (8 * p.2.1)) false none)
            s1).performed n g.num)
        else some ((s.onPkg (fun p => { p with domainRefusals := p.domainRefusals + 1 })).performed n g.num)
      | (s1, .waits) => if s1 = s then none else some s1
      | (_, .dead x y) => some ((s.accessRecord n g x y).performed n g.num)
  else
    let parts := g.parts
    let here := parts.filter (fun p => s.homeOf p.1 = d)
    match s.gates (here.flatMap (fun p => linesAt p.1 p.2.1 (fld g.mask p.2.2 p.2.1) true)) with
    | (s1, .waits) => if s1 = s then none else some s1
    | (_, .dead x y) => some ((s.accessRecord n g x y).performed n g.num)
    | (s1, .ready) =>
      let w := parts.foldl (fun (w : Wrote) p => w.part d g.mask v false g.rel (s.storeId n g.num) p) ⟨s1, false, false⟩
      let t := if w.held || (w.remote && g.rel) then w.s.onStrand n (fun st => st.phase g.num 3)
        else if w.remote then w.s.onStrand n (fun st => st.phase g.num 1)
        else w.s.performed n g.num
      some (if here.any (fun p => s1.mergesBad p.1 p.2.1 (fld g.mask p.2.2 p.2.1)) then t.accessBad n g else t)
/-- GLOBAL_STORE_PERFORMED (R225): the store at a place of the strand's store queue.
(DESIGN CHOICE, log 21) -/
def execGlobalStorePerformed (strand idx : Nat) (s : State) : Host.Outcome State Fault Refusal :=
  match (s.strand strand).storeQ[idx]? with
  | some g =>
    if g.phase = 0 && (g.kind = .store || g.kind = .release) && s.mayPerform strand g then
      match s.performStore strand g with
      | some t => .next t
      | none => .refused .notEnabled
    else .refused .notEnabled
  | none => .refused .notEnabled
/-- What a MARK orders before it is performed (R233): for its acquire, and whole. -/
def State.markDone (s : State) (n : Nat) (g : GEntry) (k : Nat) : Bool × Bool :=
  let acq := k ≠ 1
  let loads := s.loadsDone n g.num
  let all := s.releaseOk n g.num g.scope
  (acq && loads, if k = 0 then loads else all)
/-- The acquire of a MARK takes effect on the copies of the die (R319). -/
def State.markAcquire (s : State) (n : Nat) (g : GEntry) : State :=
  if g.scope ≥ 4 then s.onDie (dieOfStrand n) Die.dropClean else s
/-- MARK_RETIRE (R233): the strand's oldest MARK that can go on does: the acquire of an AR or SC first, then the pair retires. At .ST
a pair orders nothing more.
(DEDUCED, log 24) -/
def execMarkRetire (strand : Nat) (s : State) : Host.Outcome State Fault Refusal :=
  let st := s.strand strand
  let out := st.loadQ.findSome? (fun g =>
    match g.kind with
    | .mark k =>
      let retire (s : State) : State := (s.onStrand strand (fun st => (st.dropEntry g.num).dropEntry (g.num + 1))).settle strand
      if g.scope = 0 then some (retire s)
      else
        let (acq, all) := s.markDone strand g k
        if all then some (retire (if k ≠ 1 && g.phase = 0 then s.markAcquire strand g else s))
        else if acq && g.phase = 0 && k = 2 then
          some ((s.markAcquire strand g).onStrand strand (fun st => (st.phase g.num 1).phase (g.num + 1) 1))
        else none
    | _ => none)
  match out with
  | some t => .next t
  | none => .refused .notEnabled

/-! ## Atomics (R263 to R265) -/

/-- The new value of an atomic (R265). -/
def atomNew (aop n old x y : Nat) : Nat :=
  let w := 8 * n
  let f : FFmt := if n = 4 then f32 else f64
  match aop with
  | 0 => (old + x) % 2 ^ w
  | 1 => old &&& x
  | 2 => old ||| x
  | 3 => old ^^^ x
  | 4 => if sext w old ≤ sext w x then old else x
  | 5 => if sext w old ≤ sext w x then x else old
  | 6 => if old ≤ x then old else x
  | 7 => if old ≤ x then x else old
  | 8 => x
  | 9 => if old = y then x else old
  | _ => (fAdd f 0 0 (decodeF f old) (decodeF f x)).1 % 2 ^ w
/-- An atomic at the home (R263): the machine, the old value, and whether a target byte was poisoned, when nothing is written. -/
def State.atomHome (s : State) (pa n aop x y : Nat) (id : Option StoreId) : State × Nat × Bool :=
  let old := s.hGet pa n
  if s.hPoison pa n || s.devPoison pa n then (s, old, true)
  else (s.homeWrite pa n (2 ^ n - 1) (atomNew aop n old x y) false id, old, false)
/-- A sector can be brought into an engine now: whatever must go back to its home for it can (R263, R406). -/
def State.canBring (s : State) (cl sec : Nat) : Bool :=
  let x := s.cluster cl
  x.store.any (fun a => a.sector = sec) || (s.canRecall sec && (match x.store with
    | a :: _ => decide (x.store.length < 64) || s.canRecall a.sector
    | [] => true))
/-- The engine's entry of a sector becomes the most recent, brought in if it is not there; the least recent of 64 goes back (R263). -/
def State.bringIn (s : State) (cl sec : Nat) : State :=
  let x := s.cluster cl
  match x.store.find? (fun a => a.sector = sec) with
  | some a => s.setCluster cl { x with store := x.store.filter (fun b => b.sector ≠ sec) ++ [a] }
  | none =>
    let s0 := s.recall sec
    let s1 := match (s0.cluster cl).store with
      | a :: _ => if (s0.cluster cl).store.length ≥ 64 then s0.recall a.sector else s0
      | [] => s0
    let entry : AtomSector := ⟨sec, BitVec.ofNat 1024 (getBytes s1.mem (128 * sec) 128),
      if s1.devPoison (128 * sec) 128 then 15 else s1.sectorP sec, false, []⟩
    s1.onCluster cl (fun x => { x with store := x.store ++ [entry] })
/-- An atomic in the engine's store (R263); one of a non-volatile sector waits there for its image (R404). -/
def State.atomLocal (s : State) (cl pa n aop x y : Nat) (id : Option StoreId) : State × Nat × Bool :=
  let q := s.place pa
  let s1 := s.bringIn cl (q / 128)
  let old := s1.hGet pa n
  if s1.hPoison pa n then (s1, old, true)
  else
    let k := 8 * (q % 128)
    let s2 := s1.onCluster cl (fun c => { c with store := c.store.map (fun a =>
      if a.sector = q / 128 then
        { a with data := BitVec.ofNat 1024 (a.data.toNat - fld a.data.toNat k (8 * n) * 2 ^ k + atomNew aop n old x y * 2 ^ k), dirty := true,
                 stores := if window q = .nv then a.stores ++ id.toList else [] }
      else a) })
    (s2, old, false)
/-- The end of an atomic (R265, R319): ATOMR's data, ATOM's record of poison, the copies of its die, its completion. -/
def State.atomEnd (s : State) (n : Nat) (g : GEntry) (old : Nat) (poison ret : Bool) : State :=
  let s1 := if ret then s.onStrand n (fun st => st.data g old poison)
    else if poison then s.accessRecord n g 0x14 0 else s
  let s2 := if s1.homeOf g.pa = dieOfStrand n then s1
    else s1.onCopy (dieOfStrand n) (g.pa / 128) (fun c => { c with clean := 0 })
  (s2.acquired n g).performed n g.num
/-- What an attempt at an atomic does: it is performed or its request to a peer goes out; it waits, requests for lines sent or none. -/
inductive Tried where
  | served (s : State)
  | waits (s : State)
/-- An atomic is attempted (R263, R265, R443, R444): in its engine's store where its own die is its home and it is no host memory,
else at the far-atomic port of its home, or by a request to a peer. One whose request was damaged on the way (R403) writes nothing and
takes poison.
(DESIGN CHOICE, log 68) -/
def State.performAtomic (s : State) (n : Nat) (g : GEntry) (aop : Nat) (ret : Bool) : Tried :=
  let x := g.data.toNat % 2 ^ (8 * g.size)
  let y := g.cmp.toNat % 2 ^ (8 * g.size)
  let ended (s : State) : State := (((if ret then s.onStrand n (fun st => st.data g 0 true) else s).acquired n g).performed n g.num)
  let fail (c d : Nat) : State := ended (s.accessRecord n g c d)
  let far (pa : Nat) (id : Option StoreId) (own : Bool) : Tried :=
    match s.gate pa g.size true with
    | (s1, .waits) => .waits s1
    | (_, .dead c d) => .served (fail c d)
    | (s1, .ready) =>
      if s1.hBad pa g.size then
        .served (if own then (s1.countInt pa g.size).atomEnd n g 0 true ret else (s1.atomEnd n g 0 true ret).accessBad n g)
      else if s1.mustHold pa then .waits s1
      else if g.poison then .served (s1.atomEnd n g 0 true ret)
      else
        let r := s1.atomHome pa g.size aop x y id
        .served ((if own then r.1 else if s1.devPoison pa g.size then r.1.accessRecord n g 0x16 0x0901 else r.1).atomEnd n g r.2.1 r.2.2 ret)
  let near : Tried :=
    let q := s.place g.pa
    match s.gateAt q g.size true with
    | (s1, .waits) => .waits s1
    | (_, .dead c d) => .served (fail c d)
    | (s1, .ready) =>
      if s1.hBad g.pa g.size then .served ((s1.atomEnd n g 0 true ret).accessBad n g)
      else if !s1.canBring (n / 32) (q / 128) then .waits s1
      else
        let r := s1.atomLocal (n / 32) g.pa g.size aop x y (some (s.storeId n g.num))
        let brought := s1.devPoison g.pa g.size && !(s1.cluster (n / 32)).store.any (fun a => a.sector = q / 128)
        .served ((if brought then r.1.accessRecord n g 0x16 0x0901 else r.1).atomEnd n g r.2.1 r.2.2 ret)
  match window (s.place g.pa) with
  | .peer =>
    match s.peerWay g.pa with
    | .dead c d => .served (ended (s.peerFailed n g c d))
    | .send p => if s.pkg.viral then .waits s else .served (s.sendPeer n g p)
    | .own pa => if s.outsider pa then far pa none true else
        .served ((s.onPkg (fun p => { p with domainRefusals := p.domainRefusals + 1 })).atomEnd n g 0 ret ret)
  | .host => far g.pa (some (s.storeId n g.num)) false
  | _ => if s.homeOf g.pa = dieOfStrand n then near else far g.pa (some (s.storeId n g.num)) false
/-- The first atomic of a core that may be performed: its strands in order, each in store-queue order. -/
def State.waitingAtomic (s : State) (core : Nat) : Option (Nat × GEntry × Nat × Bool) :=
  (List.range 8).findSome? (fun k =>
    let n := 8 * core + k
    match (s.strand n).storeQ.find? (fun g => g.phase = 0 && (g.kind matches .atomic _ _)) with
    | some g => match g.kind with
      | .atomic aop ret => if s.mayPerform n g then some (n, g, aop, ret) else none
      | _ => none
    | none => none)
/-- The attempt of a core's first waiting atomic. -/
def State.tryCore (s : State) (core : Nat) : Option Tried :=
  (s.waitingAtomic core).map (fun p => s.performAtomic p.1 p.2.1 p.2.2.1 p.2.2.2)
/-- The cores of a cluster in the order in which its engine looks at them (R264). -/
def Cluster.serveOrder (x : Cluster) : List Nat := (List.range 4).map (fun i => (x.served + 1 + i) % 4)
/-- ATOMIC_ENGINE_ACCEPT (R264): one cycle of a cluster's engine: of the cores after the one served last, the first whose waiting
atomic can be performed; where none can, the requests that the first lacks are sent. -/
def execAtomicEngineAccept (cluster : Nat) (s : State) : Host.Outcome State Fault Refusal :=
  if s.pkg.viral then .refused .notEnabled else
  let order := (s.cluster cluster).serveOrder
  match order.findSome? (fun k => match s.tryCore (4 * cluster + k) with | some (.served t) => some (k, t) | _ => none) with
  | some (k, t) => .next (t.onCluster cluster (fun c => { c with served := k, cycles := c.cycles + 1 }))
  | none =>
    match order.findSome? (fun k => match s.tryCore (4 * cluster + k) with | some (.waits t) => if t = s then none else some t | _ => none) with
    | some t => .next t
    | none => .refused .notEnabled
/-- ATOMIC_RECALL (R263): a sector that a cluster's engine holds goes back to its home.
(DEDUCED, log 22) -/
def execAtomicRecall (cluster sector : Nat) (s : State) : Host.Outcome State Fault Refusal :=
  if (s.cluster cluster).store.any (fun a => a.sector = sector) && s.canRecall sector then .next (s.recall sector)
  else .refused .notEnabled

/-! ## Copy sectors (R317 to R320) -/

/-- Remove a message on its way. -/
def Die.dropFlight (x : Die) (idx : Nat) : Die := { x with flights := dropNth x.flights idx }
/-- The sector of a message. -/
def Flight.sector : Flight → Nat
  | .fill k => k
  | .through k _ _ _ _ _ => k
/-- No older message of the same sector is before a place in the list (R317). -/
def Die.firstOf (x : Die) (idx : Nat) : Bool :=
  match x.flights[idx]? with
  | some f => !((x.flights.take idx).any (fun g => decide (g.sector = f.sector)))
  | none => false
/-- COPY_FILL_RETURN (R317, R396): the home is read, and its bytes merge. A fill whose home can no longer be read brings nothing: the load
that waits meets the failure itself (R227, R400), and the read whose tag fails is counted.
(DEDUCED, log 36) -/
def execCopyFillReturn (die idx : Nat) (s : State) : Host.Outcome State Fault Refusal :=
  let x := s.die die
  match x.flights[idx]? with
  | some (.fill sec) =>
    if !x.firstOf idx then .refused .notEnabled
    else
      let a := 128 * sec
      let put (s : State) (data : BitVec 1024) (poison : BitVec 4) : State :=
        (s.onDie die (fun x => x.dropFlight idx)).onCopy die sec (fun c => c.fill data poison)
      match s.gate a 128 false with
      | (s1, .waits) => if s1 = s then .refused .notEnabled else .next s1
      | (_, .dead _ _) => .next (s.onDie die (fun x => x.dropFlight idx))
      | (s1, .ready) =>
        if s1.hBad a 128 then .next ((s1.countInt a 128).onDie die (fun x => x.dropFlight idx))
        else
          let p := if s1.devPoison a 128 then 15 else BitVec.ofNat 4 (pack 1 (fun k => b2n (s1.hPoison (a + 32 * k) 32)) 4 0)
          .next (put s1 (BitVec.ofNat 1024 (s1.hGet a 128)) p)
  | _ => .refused .notEnabled
/-- The copy sector at the acknowledgement of a write-through: the bytes that no younger local write covers, which a releasing store only
now writes there (R317, R320). -/
def CopySector.acked (c : CopySector) (m : BitVec 128) (data : BitVec 1024) (poison direct : Bool) : CopySector :=
  (if direct && m ≠ 0 then c.store m data poison else c).ack m
/-- The acknowledgement of the write-through at a place of a die's list (R317, R320). -/
def State.acked (s : State) (d idx sec : Nat) (m : BitVec 128) (data : BitVec 1024) (poison direct : Bool) : State :=
  let s1 := s.onDie d (fun x => x.dropFlight idx)
  s1.onCopy d sec (fun c => c.acked (m &&& ~~~((s1.die d).flying sec)) data poison direct)
/-- WRITE_THROUGH_ACK (R317, R318, R397): a write-through is applied at its home and acknowledged; a non-volatile one may be held
there (R406). -/
def execWriteThroughAck (die idx : Nat) (s : State) : Host.Outcome State Fault Refusal :=
  let x := s.die die
  match x.flights[idx]? with
  | some (.through sec m data poison n num) =>
    if !x.firstOf idx then .refused .notEnabled
    else
      let a := 128 * sec
      let entry := (s.strand n).entries.find? (fun g => g.num = num)
      let direct := match entry with | some g => g.rel | none => false
      match s.gates (linesAt a 128 m.toNat true) with
      | (s1, .waits) => if s1 = s then .refused .notEnabled else .next s1
      | (_, .dead c d) =>
        let s1 := s.acked die idx sec m data true direct
        let s2 := match entry with | some g => s1.accessRecord n g c d | none => s1
        .next (s2.storeArrived n num)
      | (s1, .ready) =>
        if s1.mustHold a then .refused .notEnabled
        else
          let s2 := s1.homeWrite a 128 m.toNat data.toNat poison (some (s.storeId n num))
          let t := (s2.acked die idx sec m data poison direct).storeArrived n num
          .next (match entry with
            | some g => if s1.mergesBad a 128 m.toNat then t.accessBad n g else t
            | none => t)
  | _ => .refused .notEnabled
/-- COPY_SECTOR_AGEOUT (R319): the clean bytes of a copy sector go. -/
def execCopySectorAgeout (die sector : Nat) (s : State) : Host.Outcome State Fault Refusal :=
  let c := (s.die die).copy sector
  if c.clean = 0 then .refused .notEnabled
  else .next (s.onCopy die sector (fun c => { c with clean := 0 }))

end Sys2Proof.Machine
end

