-- ==== Sys2Proof/Machine/Hod.lean ====
section
/-! DEFINITION. Hod commands as they execute: beginning, turns, landing writes, publication, completion and faults (R237, R238, R241
to R262, R269, R331 to R333). -/

namespace Sys2Proof.Machine

/-! ## Commands -/

/-- The context of a command. -/
def HodCmd.ctx (m : HodCmd) : Nat := ctxIdx m.ctxh.toNat
/-- The store that a command's global writes count as (R269, R404). -/
def HodCmd.storeId (m : HodCmd) : StoreId := (m.strand, m.ctxh.toNat, m.launch.toNat, m.task.toNat, m.num)
/-- The core of a command's strand. -/
def HodCmd.core (m : HodCmd) : Nat := m.strand / 8
/-- A command's record of a failure that has no halt (R227, R346). -/
def State.cmdRecord (s : State) (m : HodCmd) (f : Nat × Nat × Nat) : State :=
  s.coreRecord m.core m.ctxh m.launch m.task m.id f.1 f.2.1 (BitVec.ofNat 64 f.2.2) 0x0A
/-- The failures that gave a command poison are recorded with it (R227, R346). -/
def State.deadRead (s : State) (m : HodCmd) (dead : List (Nat × Nat × Nat)) : State := dead.foldl (fun s f => s.cmdRecord m f) s

/-! ## Translation and reads of an engine on a core (R327, R328) -/

/-- Translate an engine's access through its core's TLB, its die's, or a walk, which is kept where it succeeds (R326, R328). -/
def State.engineTr (s : State) (core c va : Nat) (k : Kind) : State × Tr :=
  let d := core / 48
  let asid := (s.ctx c).asid
  let v := va % 2 ^ 57
  let key := tlbKey asid v
  let judge (s : State) (l : Leaf) : Tr := s.judgeLeaf (s.ctx c).keydom l v k
  match find? (s.core core).tlb key with
  | some t => (s.onCore core (fun co => { co with tlb := tlbUse co.tlb key }), judge s t.leaf)
  | none =>
    match find? (s.die d).tlb key with
    | some t => (s.fromDie core key t, judge s t.leaf)
    | none =>
      match s.walk d asid v with
      | .leaf l seen _ => (match judge s l with
          | .fault x y => (s, .fault x y)
          | r => (s.keepLeaf core asid v l seen, r))
      | .fault x y => (s, .fault x y)
      | .replay _ => (s, .replay)
      | .bad _ => (s, .fault 0x15 0x0900)
      | .wait s1 => (s1, .wait s1)
/-- The 32-byte atoms of a range: address, length, offset in the range. -/
def atomParts (a n : Nat) : List (Nat × Nat × Nat) :=
  if n = 0 then []
  else (List.range ((a + n - 1) / 32 - a / 32 + 1)).map (fun k =>
    let b := if k = 0 then a else 32 * (a / 32 + k)
    let e := 32 * (a / 32 + k) + 32
    let stop := if e < a + n then e else a + n
    (b, stop - b, b - a))
/-- The first of each page's addresses in a list. -/
def pageFirsts (l : List Nat) : List Nat :=
  l.foldl (fun acc a => if acc.any (fun b => b / 65536 = a / 65536) then acc else acc ++ [a]) []
/-- One turn's accesses count once for each page they touch (R333). -/
def State.countTurn (s : State) (core c : Nat) (vas : List Nat) (k : Kind) : State :=
  (pageFirsts vas).foldl (fun s va => match s.engineTr core c va k with
    | (s1, .ok _ l) => s1.touch (core / 48) (s1.ctx c).asid (va % 2 ^ 57) l
    | (s1, _) => s1) s
/-- The addresses of a range at which its pages may change. -/
def rangeVas (va n : Nat) : List Nat := (atomParts va n).map (fun p => p.1)
/-- Pieces of data: offset, length, value, poison. -/
abbrev Pieces := List (Nat × Nat × Nat × Bool)
/-- What stops an engine's access: requests sent, a page under migration, a fault, an integrity failure. -/
inductive Stop where
  | wait
  | held (va : Nat)
  | fault (cause detail va : Nat)
  | bad (va : Nat)
/-- What a failed translation or access is to an engine. -/
def stopOf (cause detail va : Nat) : Stop := if cause = 0x15 then .bad va else .fault cause detail va
/-- What an engine has read of global data: the pieces, the sectors whose local bytes were read, and the failures that gave poison, each
with cause, detail and address. -/
structure Pulled where
  ps : Pieces := []
  seen : List Nat := []
  dead : List (Nat × Nat × Nat) := []
/-- What an engine's read of global data comes to: all of it; what stops it; or a request to a peer for a sector, after what was read
before it. -/
inductive Pull where
  | data (g : Pulled)
  | stop (r : Stop)
  | peer (k sector : Nat) (g : Pulled)
/-- A failure joins those of a read: each refused request and each poisoned sector of a device is reported (R401, R450), any other
failure of the read once (R426, R444, R452).
(DEDUCED, log 33) -/
def Pulled.fail (g : Pulled) (x y va : Nat) : Pulled :=
  let same (f : Nat × Nat × Nat) : Bool :=
    f.2.1 = y && (if x = 0x18 || y = 0x0901 then decide (f.2.2 / 128 = va / 128) else f.1 = x)
  if g.dead.any same then g else { g with dead := g.dead ++ [(x, y, va)] }
/-- A piece joins what has been read. -/
def Pulled.piece (g : Pulled) (o n v : Nat) (p : Bool) (l : List Nat := []) : Pulled := { g with ps := g.ps ++ [(o, n, v, p)], seen := g.seen ++ l }
/-- Windows that may hold a tensor (R243). -/
def tensorWindow (pa : Nat) : Bool := window pa = .hbm || window pa = .pooled || window pa = .nv
/-- The access of a cluster's engines to a range is the one whose flit was lost (R403). -/
def Cluster.spoils (x : Cluster) (q n : Nat) : Bool := x.spoilt.any (fun a => decide (32 * a < q + n) && decide (q < 32 * a + 32))
/-- The access has been made. -/
def State.unspoil (s : State) (cl q n : Nat) : State :=
  if (s.cluster cl).spoils q n then
    s.onCluster cl (fun x => { x with spoilt := x.spoilt.filter (fun a => !(decide (32 * a < q + n) && decide (q < 32 * a + 32))) })
  else s
/-- Read parts of global memory for a context from a core (R249, R317, R327, R394, R400, R401, R443): each part lies inside one sector. A
tensor's tiles (`tensor`) are read by the layout unit of the home die, and lie in the windows that may hold one (R243). -/
def State.pull (s : State) (tensor : Bool) (core c : Nat) : List (Nat × Nat × Nat) → Pulled → State × Pull
  | [], g => (s, .data g)
  | (va, n, o) :: rest, g =>
    let dead (s : State) (x y : Nat) : State × Pull := s.pull tensor core c rest ((g.piece o n 0 true).fail x y va)
    match s.engineTr core c va .read with
    | (s1, .fault x y) => (s1, .stop (stopOf x y va))
    | (s1, .replay) => (s1, .stop (.held va))
    | (s1, .wait _) => (s1, .stop .wait)
    | (s1, .ok pa _) =>
      if tensor && !tensorWindow pa then (s1, .stop (.fault 0x02 0x0406 va))
      else if window (s1.place pa) = .peer then
        match s1.peerWay pa with
        | .dead x y => dead s1 x y
        | .send k => (s1, if s1.pkg.viral then .stop .wait else .peer k (pa / 128) g)
        | .own q =>
          match s1.gate q n false with
          | (s2, .waits) => (s2, .stop .wait)
          | (s2, .dead x y) => dead s2 x y
          | (s2, .ready) =>
            if s2.outsider q then (s2.countInt q n).pull tensor core c rest (g.piece o n (s2.hGet q n) (s2.hPoison q n))
            else (s2.countRefusal q).pull tensor core c rest (g.piece o n 0 true)
      else
        let d := if tensor then s1.homeOf pa else core / 48
        match s1.readDie d (2 ^ n - 1) [(pa, n, 0)] 0 false [] with
        | .data v p l =>
          let g1 := g.piece o n v (p || (s1.cluster (core / 4)).spoils pa n) l
          ((s1.recallRead d pa n (2 ^ n - 1)).unspoil (core / 4) pa n).pull tensor core c rest
            (if s1.devPoison pa n then g1.fail 0x16 0x0901 va else g1)
        | .wait s2 => (s2, .stop .wait)
        | .dead x y => dead s1 x y
        | .bad => (s1, .stop (.bad va))

/-- Bytes of the pieces. -/
def Pieces.size (ps : Pieces) : Nat := (ps.map (fun p => p.2.1)).sum
/-- The value of the pieces. -/
def Pieces.value (ps : Pieces) : Nat := (ps.map (fun p => p.2.2.1 * 2 ^ (8 * p.1))).sum
/-- Read what is left of `n` bytes after the pieces already read. -/
def State.pullRest (s : State) (core c va n : Nat) (got : Pieces) : State × Pull :=
  let k := Pieces.size got
  s.pull false core c ((atomParts (va + k) (n - k)).map (fun q => (q.1, q.2.1, q.2.2 + k))) { ps := got }

/-! ## Tensors and shadows -/

/-- The entry of a shadowed tensor (R244). -/
def State.shadow? (s : State) (c index : Nat) : Option Shadow := s.shadows.find? (fun e => e.ctx = c && e.index = index)
/-- The pages of a range that translate now, beside those known (R244), or the machine with what their walks wait for asked. -/
def State.tensorPages (s : State) (d c va : Nat) : Nat → Nat → SMap Nat → Except State (SMap Nat)
  | 0, _, m => .ok m
  | n + 1, i, m =>
    let p := va / 65536 + i
    if (find? m p).isSome then State.tensorPages s d c va n (i + 1) m
    else match s.translate d c (p * 65536 % 2 ^ 57) .read with
      | .ok pa _ => State.tensorPages s d c va n (i + 1) (upd m p (pa / 65536))
      | .wait s1 => .error s1
      | _ => State.tensorPages s d c va n (i + 1) m
/-- Which page list of an entry a page joins: copy 0, copy 1, or the tile map. -/
inductive Part where
  | copy0 | copy1 | map
  deriving DecidableEq, Repr
/-- A page of a shadowed tensor translated after its descriptor was read joins its entry (R244). -/
def State.learn (s : State) (c index : Nat) (part : Part) (va pa : Nat) : State :=
  let add (m : SMap Nat) : SMap Nat := if (find? m (va / 65536)).isSome then m else upd m (va / 65536) (pa / 65536)
  { s with shadows := s.shadows.map (fun e =>
      if e.ctx = c && e.index = index then
        (match part with
          | .copy0 => { e with p0 := add e.p0 }
          | .copy1 => { e with p1 := add e.p1 }
          | .map => { e with pm := add e.pm })
      else e) }
/-- The tile-map byte of a tile can be read for a command (R242, R243, R261, R263, R401). -/
def State.mapRead (s : State) (m : HodCmd) (index tile : Nat) : State × Option Stop :=
  match s.shadow? m.ctx index with
  | none => (s, none)
  | some e =>
    let va := e.tmap + tile / 8
    match s.engineTr m.core m.ctx va .read with
    | (s1, .fault x y) => (s1, some (stopOf x y va))
    | (s1, .replay) => (s1, some (.held va))
    | (s1, .wait _) => (s1, some .wait)
    | (s1, .ok pa _) =>
      if !tensorWindow pa then (s1, some (.fault 0x02 0x0406 va))
      else
        let s2 := s1.learn m.ctx index .map va pa
        let poison : Option Stop := some (.fault 0x16 0x0400 va)
        match s2.gateRaw (s2.remapped pa) 1 false with
        | (s3, .waits) => (s3, some .wait)
        | (s3, .dead x y) => (s3.cmdRecord m (x, y, va), poison)
        | (s3, .ready) =>
          if s3.hBad pa 1 then (s3, some (.bad va))
          else if s3.devPoison pa 1 then (s3.cmdRecord m (0x16, 0x0901, va), poison)
          else (s3, if s3.hPoison pa 1 then poison else none)
/-- The pages of the three parts of a tensor that translate now, beside those of an entry (R244). -/
def State.tensorParts (s : State) (d c : Nat) (t : Tensor) (old : Option Shadow) : Except State (SMap Nat × SMap Nat × SMap Nat) :=
  let n := t.nt * t.tbytes
  let pages (va n : Nat) (m : Option (SMap Nat)) : Except State (SMap Nat) := s.tensorPages d c va (pageCount va n) 0 (m.getD [])
  match pages t.base n (old.map Shadow.p0) with
  | .error s1 => .error s1
  | .ok p0 =>
    if t.alt = 0 then .ok (p0, [], [])
    else match pages t.alt n (old.map Shadow.p1), pages t.tmap ((t.nt + 7) / 8) (old.map Shadow.pm) with
      | .ok p1, .ok pm => .ok (p0, p1, pm)
      | .error s1, _ => .error s1
      | _, .error s1 => .error s1
/-- Read a tensor's descriptor as a command that begins on a channel does (R242 to R244): `tile` is a tile it names, `writes` that it
writes the tensor. -/
def State.describe (s : State) (cl ch : Nat) (m : HodCmd) (handle : Nat) (tile : Option Nat) (writes : Bool) : State × Except Stop Tensor :=
  let c := m.ctx
  let d := dieOfCore m.core
  match s.tensorAddr c handle with
  | none => (s, .error (.fault 0x02 0x0406 0))
  | some a =>
    match s.structRead (.hod cl ch m.id) d c a 64 0x0400 with
    | (_, .wait s1) => (s1, .error .wait)
    | (_, .held va) => (s, .error (.held va))
    | (_, .bad va) => (s, .error (.bad va))
    | (s1, .fault x y va) => (s1, .error (.fault x y va))
    | (_, .ok v) =>
      let t := parseTensor v
      if tensorInvalid v then (s, .error (.fault 0x02 0x0406 a))
      else if t.gen ≠ handle / 65536 % 16 then (s, .error (.fault 0x13 0x0400 a))
      else if !t.fits || (writes && t.alt = 0) || tile.any (fun k => k ≥ t.nt) then (s, .error (.fault 0x02 0x0406 a))
      else
        let index := handle % 65536
        let old := (s.shadow? c index).filter (fun e => e.gen = t.gen)
        match s.tensorParts d c t old with
        | .error s1 => (s1, .error .wait)
        | .ok (p0, p1, pm) =>
          if (p0 ++ p1 ++ pm).any (fun p => !tensorWindow (p.2 * 65536)) then (s, .error (.fault 0x02 0x0406 a))
          else
            let others := s.shadows.filter (fun e => !(e.ctx = c && e.index = index))
            if t.alt = 0 then ((if old.isSome then s else { s with shadows := others }), .ok t)
            else
              let e : Shadow := match old with
                | some e => { e with p0, p1, pm }
                | none => ⟨c, index, t.gen, t.base, t.alt, t.tmap, t.nt, t.tbytes, p0, p1, pm, []⟩
              let s1 := { s with shadows := others ++ [e] }
              match tile with
              | none => (s1, .ok t)
              | some k =>
                match s1.mapRead m index k with
                | (s2, some r) => (s2, .error r)
                | (s2, none) => (s2, .ok t)
/-- The virtual address of a byte of a tile's shadow (R244). -/
def State.shadowVa (s : State) (e : Shadow) (tile o : Nat) : Nat :=
  (if s.tileBit e tile then e.base else e.alt) + tile * e.tbytes + o
/-- Where that byte lies: no access to it is redirected (R244, R415). -/
def State.shadowPa (s : State) (e : Shadow) (tile o : Nat) : Nat :=
  s.remapped (pageList (if s.tileBit e tile then e.p0 else e.p1) (s.shadowVa e tile o))
/-- Gates of a list of very addresses. -/
def State.gatesAt (s : State) : List (Nat × Nat) → State × Gate
  | [] => (s, .ready)
  | (q, n) :: l =>
    match s.gateRaw q n true with
    | (s1, .ready) => s1.gatesAt l
    | r => r
/-- Where the pieces of a tile's shadow lie, translated for writing (R245, R261): pieces by the physical address that translation
gives. -/
def State.shadowAddrs (s : State) (core : Nat) (e : Shadow) (tile : Nat) : Pieces → Pieces → State × Except Stop Pieces
  | [], acc => (s, .ok acc)
  | (o, n, v, p) :: l, acc =>
    let va := s.shadowVa e tile o
    match s.engineTr core e.ctx va .write with
    | (s1, .fault x y) => (s1, .error (stopOf x y va))
    | (s1, .replay) => (s1, .error (.held va))
    | (s1, .wait _) => (s1, .error .wait)
    | (s1, .ok pa _) =>
      if !tensorWindow pa then (s1, .error (.fault 0x02 0x0406 va))
      else
        let s2 := s1.learn e.ctx e.index (if s.tileBit e tile then .copy0 else .copy1) va pa
        State.shadowAddrs s2 core e tile l (acc ++ [(pa, n, v, p)])
/-- The pieces of a shadow in one sector are written at its home (R245, R397, R404), which they cover together. Of copy 1, which plain
addresses name, the issuing die's own copy sector takes the bytes (R317). -/
def State.shadowSector (s : State) (d : Nat) (plain : Bool) (id : StoreId) (qs : Pieces) (sec : Nat) : State :=
  let mine := qs.filter (fun p => s.remapped p.1 / 128 = sec)
  let s1 := s.rawPieces sec (mine.map (fun p => (s.remapped p.1 % 128, p.2))) (some id)
  if !plain || homeDie (128 * sec) = d then s1
  else mine.foldl (fun s p => s.onCopy d (p.1 / 128) (fun c =>
    c.through (rangeMask p.1 p.2.1) (BitVec.ofNat 1024 (p.2.2.1 * 2 ^ (8 * (p.1 % 128)))) p.2.2.2)) s1
/-- The sectors of pieces at physical addresses, each once. -/
def State.pieceSectors (s : State) (qs : Pieces) : List Nat :=
  (qs.map (fun p => s.remapped p.1 / 128)).foldl (fun l k => if l.contains k then l else l ++ [k]) []
/-- Write pieces into a tile's shadow and mark it (R245), or what stops it: `id` is the store they count as (R404). A write-through of
the issuing die to the same sectors goes first (R317). -/
def State.shadowWrite (s : State) (core : Nat) (e : Shadow) (tile : Nat) (ps : Pieces) (id : StoreId) : State × Option Stop :=
  let plain := !s.tileBit e tile
  match s.shadowAddrs core e tile ps [] with
  | (s1, .error r) => (s1, some r)
  | (s1, .ok qs) =>
    match s1.gatesAt (qs.map (fun p => (s1.remapped p.1, p.2.1))) with
    | (s2, .waits) => (s2, some .wait)
    | (s2, .dead x y) => (s2, some (.fault x y (s.shadowVa e tile 0)))
    | (s2, .ready) =>
      if qs.any (fun p => s2.rawHold (s2.remapped p.1) || (plain && s2.agentBusy (core / 48) p.1 p.2.1)) then (s2, some .wait)
      else
        let qs1 := qs.map (fun p => (p.1, p.2.1, p.2.2.1, p.2.2.2 || (s2.cluster (core / 4)).spoils p.1 p.2.1))
        let s3 := qs.foldl (fun s p => s.unspoil (core / 4) p.1 p.2.1)
          ((s2.pieceSectors qs).foldl (fun s k => s.shadowSector (core / 48) plain id qs1 k) s2)
        ({ s3 with shadows := s3.shadows.map (fun x =>
            if x.ctx = e.ctx && x.index = e.index && !x.marks.contains tile then { x with marks := x.marks ++ [tile] } else x) }, none)
/-- The sectors of a tile's shadow. -/
def State.shadowSectors (s : State) (e : Shadow) (tile : Nat) : List Nat :=
  (List.range (e.tbytes / 128)).map (fun k => s.shadowPa e tile (128 * k) / 128)
/-- The sectors that name a tile in its tensor's primary range. -/
def Shadow.named (e : Shadow) (tile : Nat) : List Nat :=
  (List.range (e.tbytes / 128)).map (fun k => pageList e.p0 (e.base + tile * e.tbytes + 128 * k) / 128)
/-- Every sector is durable as far as Kiln holds its image (R406, R409); one whose image was dropped is not (R411).
(DEDUCED, log 32) -/
def State.durable (s : State) (secs : List Nat) : Bool :=
  (s.pkg.buffered || !(s.dies.any (fun p => p.2.images.any (fun i => secs.contains i.sector))))
    && !(s.dies.any (fun p => p.2.nvLost.any secs.contains))
/-- Publish a tile from a die (R246, R409): its map bit is inverted and its mark cleared where it is marked; the clean bytes its die
keeps of the tile under its primary addresses go.
(DEDUCED, log 32) -/
def State.publish (s : State) (d c index tile : Nat) (id : StoreId) : State × Gate :=
  match s.shadow? c index with
  | none => (s, .ready)
  | some e =>
    if !e.marks.contains tile then (s, .ready)
    else
      let a := s.remapped (pageList e.pm (e.tmap + tile / 8))
      let secs := s.shadowSectors e tile
      if window a = .nv && !s.durable secs then (s, .waits)
      else
        match s.gateRaw a 1 true with
        | (s1, .ready) =>
          if s1.rawHold a then (s1, .waits)
          else
            let s2 := (s1.rawWrite a 1 1 (s1.cell a ^^^ 2 ^ (tile % 8)) false (some id)).unmark c index tile
            ((e.named tile).foldl (fun s k =>
              if (find? (s.die d).copies k).isSome then s.onCopy d k (fun c => { c with clean := 0 }) else s) s2, .ready)
        | r => r

/-! ## Faults (R261, R331) -/

/-- A command faults (R261): a record, the channel halts, NOT_PRESENT parks the context. A command whose context is gone is
abandoned. Of a schedule, the record that faulted is what executes again.
(DEDUCED, log 30) -/
def State.hodFault (s : State) (cl ch : Nat) (m : HodCmd) (cause detail va : Nat) : State :=
  if !s.liveHandle m.ctxh.toNat then s.abandonHead cl ch
  else
    let s1 := s.coreRecord (m.strand / 8) m.ctxh m.launch m.task m.id cause detail (BitVec.ofNat 64 va) 0x0A
    let s2 := match (s1.cluster cl).chan ch |>.prog with
      | some p => s1.undo cl ch p (if cause = 0x10 then .opened (m.strand / 8) else .free)
      | none => s1
    let s3 := s2.onCluster cl (fun x =>
      let h := x.chan ch
      let step := h.queue.head?.any (fun m => m.op = 4)
      x.setChan ch { h with
        halted := true, fault := some (cause, detail, BitVec.ofNat 64 va),
        prog := if step then h.prog.map (fun p =>
          { p with pos := 0, total := 0, writes := [], added := 0, ready := p.inRec || p.ready, inRec := false }) else none })
    if cause = 0x10 then (s3.onCtx m.ctx (fun x => { x with pkf := x.pkf + 1 })) else s3
/-- A channel has an access in its die's replay queue (R337). -/
def State.hodQueued (s : State) (cl ch : Nat) : Bool := (s.die (cl / 12)).replay.any (fun r => decide (r.who = .hod cl ch))
/-- A command's access waits in a replay queue (R337); nothing where it waits there already. -/
def State.hodHold (s : State) (cl ch : Nat) (m : HodCmd) (va : Nat) : Option State :=
  let d := m.strand / 384
  ((s.die d).hold (.hod cl ch) (s.ctx m.ctx).asid (fld va 16 41)).map (fun x => s.setDie d x)
/-- A request of a command to a peer (R444). -/
def State.hodPeer (s : State) (cl ch : Nat) (m : HodCmd) (k sec : Nat) : State :=
  s.onPkg (fun q => { q with peers := q.peers ++ [⟨k, sec, m.strand, m.num, some (cl, ch), none⟩] })
/-- A channel waits for a peer's answer. -/
def State.hodAsked (s : State) (cl ch : Nat) : Bool := s.pkg.peers.any (fun q => q.hod = some (cl, ch))
/-- Keep what has been read of a row or a bias vector while a peer is asked for the rest. -/
def State.hodKeep (s : State) (cl ch : Nat) (ps : Pieces) : State :=
  s.onCluster cl (fun x => let h := x.chan ch
    x.setChan ch { h with prog := h.prog.map (fun p => { p with writes := ps.map (fun q => ⟨0, q.1, q.2.1, q.2.2.1, q.2.2.2⟩) }) })
/-- What has been kept. -/
def HodProg.kept (p : HodProg) : Pieces := p.writes.map (fun w => (w.addr, w.n, w.value, w.poison))
/-- The end of an attempt that sent requests at most: a step only where something changed. -/
def changed (s t : State) : Option State := if t = s then none else some t
/-- What a channel does, unless its access waits in the replay queue: that walks again in its turn (R337). -/
def State.unheld (s : State) (cl ch : Nat) (k : Option State) : Option State :=
  if s.hodQueued cl ch then changed s (s.walkReleased (cl / 12) (s.die (cl / 12)).replay.length) else k

/-! ## Beginning (R237, R241, R243, R253 to R257, R259, R267, R269) -/

/-- A Hod command whose publication or shadow writes count as stores, a schedule's among them (R269). -/
def HodCmd.stores (m : HodCmd) : Bool :=
  (m.op = 0 && m.f % 4 = 2) || m.op = 2 || m.op = 4 || m.op = 8 || (m.op = 0xA && m.f % 2 = 1)
/-- The MARKs, acquires and barriers of a strand hold a global command back (R233, R234, R269, R297): at .CR, a release those that
store. -/
def State.hodHeld (s : State) (m : HodCmd) : Bool :=
  let st := s.strand m.strand
  st.entries.any (fun g => g.num < m.num &&
    ((g.acq && g.scope ≠ 0 && decide (g.phase ≠ 2)) || (match g.kind with
      | .mark 0 => decide (g.scope ≥ 1)
      | .mark k => decide (g.scope ≥ 2) || (g.scope = 1 && (k = 3 || m.stores || (k = 2 && g.phase = 0)))
      | _ => false)))
    || st.arrivals.any (fun a => a.1 < m.num && !s.releaseOk m.strand a.1 a.2)
/-- A scratchpad range of a command that leaves the scratchpad. -/
def spOut (a n : Nat) : Bool := a + n - 1 > spadTop
/-- A record breaks a rule of its command that is checked before commit, or is none (R253). -/
def recordBad (op f ext : Nat) (a b c : Word) : Bool :=
  let len (limit : Nat) : Bool := lenBad c.toNat limit
  let spad (a : Word) (n : Nat) : Bool := a.toNat % 128 ≠ 0 || spOut a.toNat n
  let global (a : Word) : Bool := !isCanon a || a.toNat % 128 ≠ 0
  let tile : Bool := fld ext 0 16 ≠ 0 || !pubScope (fld ext 16 3)
  match op, f with
  | 0, 0 => ext ≠ 0 || len spadBytes || spad a c.toNat || spad b c.toNat
  | 0, 1 => ext ≠ 0 || len spadBytes || spad a c.toNat || global b
  | 0, 2 => tile || global b
  | 1, 0 => a.toNat % 128 ≠ 0
  | 1, 1 => a.toNat % 128 ≠ 0
  | 2, 0 => tile || a.toNat % 128 ≠ 0
  | 5, 0 => ext = 0 || ext > 15 || len 65536 || spad a c.toNat || spad b c.toNat
  | 0xA, 0 => ext ≠ 0 || len spadBytes || spad a c.toNat
  | 0xA, 1 => tile
  | _, _ => true
/-- A schedule header: NSTAGE, NREC, STAGES and RECS, when it is valid (R253). -/
def schedHeader (v : Nat) : Option (Nat × Nat × Nat × Nat) :=
  let ns := byts v 0 4
  let nr := byts v 4 4
  if ns = 0 || ns > 65536 || nr = 0 || nr > 2 ^ 20 || byts v 16 8 % 64 ≠ 0 || byts v 24 104 ≠ 0 then none
  else some (ns, nr, byts v 8 8, byts v 16 8)
/-- How a command begins. -/
inductive Begin where
  | go (p : HodProg)
  | stop (r : Stop)
/-- A command in progress at its start. -/
def hodProg (m : HodCmd) (t : Option Tensor) (total : Nat) : HodProg := ⟨m, t, 0, total, [], 0, 0, [], false, false⟩
/-- A command that names a tensor begins once its descriptor is read.
(DESIGN CHOICE, log 28) -/
def State.beginTensor (s : State) (cl ch : Nat) (m : HodCmd) (handle : Nat) (tile : Option Nat) (writes : Bool) (k : Tensor → Begin) :
    State × Begin :=
  match s.describe cl ch m (handle % 2 ^ 20) tile writes with
  | (s1, .ok t) => (s1, k t)
  | (s1, .error r) => (s1, .stop r)
/-- A structure that a command interprets, read as it begins. -/
def State.beginRead (s : State) (cl ch : Nat) (m : HodCmd) (va n : Nat) (k : Nat → State × Begin) : State × Begin :=
  match s.structRead (.hod cl ch m.id) (dieOfCore m.core) m.ctx va n 0x0400 with
  | (_, .ok v) => k v
  | (_, .wait s1) => (s1, .stop .wait)
  | (_, .held a) => (s, .stop (.held a))
  | (s1, .fault x y a) => (s1, .stop (.fault x y a))
  | (_, .bad a) => (s, .stop (.bad a))
/-- The fields of an epilogue descriptor break R267. -/
def epilogueBad (v : Nat) : Bool :=
  let outf := byts v 4 1
  byts v 0 2 = 0 || byts v 0 2 > 256 || byts v 2 1 > 1 || byts v 3 1 > 2 || !(outf ≤ 4 || (0x12 ≤ outf && outf ≤ 0x19))
    || fld v 43 5 ≠ 0 || byts v 6 2 ≠ 0 || fld v 148 12 ≠ 0 || byts v 20 4 ≠ 0 || fld v 228 28 ≠ 0 || byts v 32 32 ≠ 0
/-- Width in bits of an element of an OUTF code (R267). -/
def outWidth (outf : Nat) : Nat :=
  if outf ≥ 0x12 then efmtWidth (outf - 0x10) else match outf with | 0 => 32 | 1 => 16 | 2 => 16 | _ => 8
/-- Bytes of the packed output (R268). -/
def packedSize (rows outf : Nat) : Nat :=
  rows * 8 * outWidth outf + (if outf ≥ 0x12 then 2 * rows else 0)
/-- The ring form of HPUB begins (R267): its slot, its descriptor, its tensor; the slot is submitted. One that faults here leaves its slot
as it was.
(DEDUCED, log 31; DESIGN CHOICE, log 89) -/
def State.beginRing (s : State) (cl ch : Nat) (m : HodCmd) : State × Begin :=
  let core := m.strand / 8
  let k := m.b.toNat % 16
  let x := s.cluster cl
  let free := match (x.slot k).state with | .free => true | .opened c => c = core | .submitted => false
  let submit (s : State) : State := s.onCluster cl (fun x =>
    { (x.setSlot k { (x.slot k) with state := .submitted }) with submitted := x.submitted ++ [(k, ch)] })
  if !free then (s, .stop (.fault 0x02 0x0408 0))
  else if x.drains.any (fun d => d.2.1 = k) then (s, .stop .wait)
  else if (s.core core).spPoison m.a.toNat 64 then (s, .stop (.fault 0x16 0x0400 m.a.toNat))
  else
    let v := (s.core core).sp m.a.toNat 64
    if bitOf v 41 then (submit s, .go { hodProg m none 0 with recs := [v] })
    else if epilogueBad v then (s, .stop (.fault 0x02 0x0407 m.a.toNat))
    else
      let r := s.beginTensor cl ch m (fld v 128 20) (some (fld v 192 36)) true (fun t =>
        if packedSize (byts v 0 2) (byts v 4 1) = t.tbytes then .go { hodProg m (some t) 0 with recs := [v] }
        else .stop (.fault 0x02 0x0407 m.a.toNat))
      match r with
      | (s1, .go p) => (submit s1, .go p)
      | r => r
/-- A command begins (R237).
(DEDUCED, log 29) -/
def State.beginCmd (s : State) (cl ch : Nat) (m : HodCmd) : State × Begin :=
  let a := m.a.toNat
  let n := m.c.toNat
  let chan (f : HodChan → HodChan) (s : State) : State := s.onCluster cl (fun x => x.setChan ch (f (x.chan ch)))
  match m.op with
  | 0 =>
    if m.f % 4 = 2 then s.beginTensor cl ch m a (some m.d.toNat) true (fun t => .go (hodProg m (some t) t.tbytes))
    else (s, .go (hodProg m none n))
  | 1 =>
    let h := fld m.ext 10 10 + 1
    let w := fld m.ext 0 10 + 1
    s.beginTensor cl ch m m.b.toNat none false (fun t =>
      if t.esz = 7 then .stop (.fault 0x02 0x0406 0)
      else if spOut a (h * w * 2 ^ t.esz) then .stop (.fault 0x0B 0x0401 (if a > spadTop then a else spadTop + 1))
      else .go (hodProg m (some t) (h * w)))
  | 2 =>
    s.beginTensor cl ch m m.b.toNat (some n) true (fun t =>
      if spOut a t.tbytes then .stop (.fault 0x0B 0x0401 (if a > spadTop then a else spadTop + 1)) else .go (hodProg m (some t) t.tbytes))
  | 3 =>
    if a = 0 then (chan (fun h => { h with bound := none, stage := 0 }) s, .go (hodProg m none 0))
    else s.beginRead cl ch m a 128 (fun v =>
      if (schedHeader v).isNone then (s, .stop (.fault 0x02 0x0405 a))
      else (chan (fun h => { h with bound := some a, stage := 0 }) s, .go (hodProg m none 0)))
  | 4 =>
    if ((s.cluster cl).chan ch).bound.isNone then (s, .stop (.fault 0x02 0x0404 0))
    else (s, .go { hodProg m none 0 with stages := (a + m.f) % 2 ^ 32 })
  | 5 =>
    let rcv := (List.range 4).filter (fun i => bitOf m.ext i)
    (chan (fun h => { h with acks := h.acks ++ [(m.id, rcv)] }) s, .go (hodProg m none n))
  | 7 =>
    if m.f % 2 = 0 then (s, .go (hodProg m none n))
    else match s.pages (m.strand / 384) m.ctx a .read (pageCount a (256 * n)) 0 [] with
      | .ok _ => (s, .go (hodProg m none n))
      | .error (.fault x y) => (s, .stop (stopOf x y a))
      | .error (.wait s1) => (s1, .stop .wait)
      | .error _ => (s, .stop (.held a))
  | 8 =>
    if bitOf m.f 3 then s.beginRing cl ch m
    else s.beginTensor cl ch m a (some m.b.toNat) false (fun t => .go (hodProg m (some t) 0))
  | 0xA =>
    if m.f % 2 = 1 then s.beginTensor cl ch m a (some m.d.toNat) true (fun t => .go (hodProg m (some t) t.tbytes))
    else (s, .go (hodProg m none n))
  | _ => (s, .go (hodProg m none 0))
/-- The next stage of an HSTEP is read, or the next record of its stage begins (R253, R255). -/
def State.beginStep (s : State) (cl ch : Nat) (hd : HodCmd) (p : HodProg) : State × Begin :=
  let h := (s.cluster cl).chan ch
  match h.bound with
  | none => (s, .stop (.fault 0x02 0x0404 0))
  | some hdr =>
    s.beginRead cl ch hd hdr 128 (fun v => match schedHeader v with
      | none => (s, .stop (.fault 0x02 0x0405 hdr))
      | some (ns, nr, stages, recs) =>
        if !p.ready then
          let a := stages + 8 * (h.stage % ns)
          s.beginRead cl ch hd a 8 (fun w =>
            if w / 2 ^ 32 ≠ 0 && w % 2 ^ 32 + w / 2 ^ 32 > nr then (s, .stop (.fault 0x02 0x0405 a))
            else (s, .go { p with ready := true, recs := (List.range (w / 2 ^ 32)).map (fun i => w % 2 ^ 32 + i) }))
        else match p.recs with
          | [] => (s, .stop .wait)
          | r :: _ =>
            let a := recs + 64 * r
            s.beginRead cl ch hd a 64 (fun w =>
              let m : HodCmd := { hd with
                op := byts w 0 1, f := byts w 1 1, ext := fld w 32 20, long := true, a := BitVec.ofNat 64 (byts w 8 8),
                b := BitVec.ofNat 64 (byts w 16 8), c := BitVec.ofNat 64 (byts w 24 8), d := BitVec.ofNat 64 (byts w 32 8) }
              if byts w 2 2 ≠ 0 || fld w 52 12 ≠ 0 || byts w 40 24 ≠ 0 || recordBad m.op m.f m.ext m.a m.b m.c then
                (s, .stop (.fault 0x02 0x0405 a))
              else match s.beginCmd cl ch m with
                | (s1, .go q) => (s1, .go { q with stages := p.stages, recs := p.recs, inRec := true })
                | r => r))
/-- What stops a command leads to. -/
def State.stopped (s s1 : State) (cl ch : Nat) (m : HodCmd) : Stop → Option State
  | .wait => changed s s1
  | .held va => s1.hodHold cl ch m va
  | .fault x y va => some (s1.hodFault cl ch m x y va)
  | .bad va => some ((s1.countVa (m.strand / 384) m.ctx va).integrity m.core m.ctx m.launch m.task (BitVec.ofNat 64 va) 0x0A m.id)
/-- What a beginning leads to. -/
def State.began (s : State) (cl ch : Nat) (m : HodCmd) (r : State × Begin) : Option State :=
  match r with
  | (s1, .go p) => some (s1.onCluster cl (fun x => x.setChan ch { (x.chan ch) with prog := some p }))
  | (s1, .stop r) => s.stopped s1 cl ch m r
/-- HOD_COMMAND_BEGIN (R237): a channel's next command, or under an HSTEP its next stage or record.
(DESIGN CHOICE, log 28) -/
def execHodCommandBegin (cluster ch : Nat) (s : State) : Host.Outcome State Fault Refusal :=
  if s.pkg.viral then .refused .notEnabled else
  let h := (s.cluster cluster).chan ch
  let out : Option State := s.unheld cluster ch (
    if h.halted then none
    else match h.queue, h.prog with
      | m :: _, none => if m.isGlobal && s.hodHeld m then none else s.began cluster ch m (s.beginCmd cluster ch m)
      | m :: _, some p =>
        if m.op = 4 && !p.inRec && (!p.ready || !p.recs.isEmpty) then s.began cluster ch m (s.beginStep cluster ch m p) else none
      | [], _ => none)
  match out, h.queue with
  | some t, m :: _ => .next (t.used (.hod cluster ch m.id))
  | some t, [] => .next t
  | none, _ => .refused .notEnabled

/-! ## Turns (R237, R245, R248 to R251, R256, R333, R394) -/

/-- The address a command copies from: a scratchpad address of its core, or a global one. -/
def HodCmd.src (m : HodCmd) : Nat := if m.op = 0 then m.b.toNat else m.a.toNat
/-- A command of this turn reads global memory in order (R248). -/
def HodCmd.readsGlobal (m : HodCmd) : Bool := m.op = 0 && m.f % 4 ≠ 0
/-- The element of a tensor that position `i` of an HTILE's window names, and its place in the window (R250): offset in the
scratchpad, and the virtual address with its tile, or none for the pad. -/
def HodProg.element (p : HodProg) (t : Tensor) (i : Nat) : Nat × Option (Nat × Nat) :=
  let h := fld p.cmd.ext 10 10 + 1
  let w := fld p.cmd.ext 0 10 + 1
  let y := i / w
  let x := i % w
  let r := sext 32 (fld p.cmd.c.toNat 0 32) + (y : Int)
  let c := sext 32 (fld p.cmd.c.toNat 32 32) + (x : Int)
  let o := (if bitOf p.cmd.f 0 then x * h + y else y * w + x) * 2 ^ t.esz
  if 0 ≤ r && r < t.rows && 0 ≤ c && c < t.cols then
    let r := r.toNat
    let c := c.toNat
    let tile := r / t.trows * t.ntc + c / t.tcols
    (o, some (t.base + tile * t.tbytes + (r % t.trows * t.tcols + c % t.tcols) * 2 ^ t.esz, tile))
  else (o, none)
/-- The data of a command's next turn: its pieces, offsets counted from the turn's start (for HTILE, from the destination's).
(DESIGN CHOICE, log 70) -/
def State.turnData (s : State) (p : HodProg) : State × Pull :=
  let m := p.cmd
  let core := m.strand / 8
  let left := p.total - p.pos
  let n := if left < 1024 then left else 1024
  if m.op = 0xA then
    (s, .data { ps := (atomParts p.pos n).map (fun q => (q.2.2, q.2.1, pack 32 (fun _ => m.b.toNat) 8 0, false)) })
  else if m.op = 1 then
    match p.tensor with
    | none => (s, .stop .wait)
    | some t =>
      let sz := 2 ^ t.esz
      let els : List (Nat × Option (Nat × Nat)) := (List.range (if left < 1024 / sz then left else 1024 / sz)).map (fun i => p.element t (p.pos + i))
      let pads : Pieces := els.filterMap (fun e => if e.2.isNone then some (e.1, sz, t.pad % 2 ^ (8 * sz), false) else none)
      let r := els.foldl (fun (r : State × Option Stop) x => match r.2, x.2 with
        | none, some y => r.1.mapRead m (m.b.toNat % 65536) y.2
        | _, _ => r) (s, none)
      match r with
      | (s1, some x) => (s1, .stop x)
      | (s1, none) => s1.pull true core m.ctx (els.filterMap (fun e => e.2.map (fun x => (x.1, sz, e.1)))) { ps := pads }
  else if m.readsGlobal then s.pull false core m.ctx (atomParts (m.src + p.pos) n) {}
  else
    let co := s.core core
    (s, .data { ps := (atomParts (m.src + p.pos) n).map (fun q => (q.2.2, q.2.1, co.sp q.1 q.2.1, co.spPoison q.1 q.2.1)) })
/-- A turn's data goes where its command puts it (R245, R248 to R251, R256): the command in progress is further, or the turn waits or
stops with a fault. -/
def State.deliver (s : State) (cl ch : Nat) (p : HodProg) (ps : Pieces) : Option State :=
  let m := p.cmd
  let core := m.strand / 8
  let set (s : State) (q : HodProg) : State := s.onCluster cl (fun x => x.setChan ch { (x.chan ch) with prog := some q })
  let size := Pieces.size ps
  let on := { p with pos := p.pos + (match p.tensor with | some t => if m.op = 1 then size / 2 ^ t.esz else size | none => size) }
  match m.tile with
  | some (index, tile) =>
    match s.shadow? m.ctx index with
    | none => some (s.hodFault cl ch m 0x02 0x0406 0)
    | some e =>
      match s.shadowWrite core e tile (ps.map (fun q => (p.pos + q.1, q.2))) m.storeId with
      | (s1, some r) => s.stopped s1 cl ch m r
      | (s1, none) => some (set (s1.countTurn core m.ctx (rangeVas (s.shadowVa e tile p.pos) size) .write) on)
  | none =>
    if m.op = 5 then
      let rcv := (List.range 4).filter (fun i => bitOf m.ext i)
      let ws := rcv.flatMap (fun i => ps.map (fun q => (m.id, (⟨i, m.b.toNat + p.pos + q.1, q.2.1, q.2.2.1, q.2.2.2⟩ : HodWrite))))
      some ((set s on).onCluster cl (fun x => let h := x.chan ch
        x.setChan ch { h with mcast := h.mcast ++ ws }))
    else
      let base := m.a.toNat + (if m.op = 1 then 0 else p.pos)
      let ws := ps.map (fun q => (⟨core % 4, base + q.1, q.2.1, q.2.2.1, q.2.2.2⟩ : HodWrite))
      some (set s { on with writes := p.writes ++ ws })
/-- A channel has data to move. -/
def HodChan.moving (h : HodChan) : Option HodProg :=
  if h.halted then none
  else match h.prog with
    | some p => if p.pos < p.total && p.cmd.op ≠ 7 && p.cmd.op ≠ 8 then some p else none
    | none => none
/-- The sectors whose local bytes a strand's loads read (R320). -/
def State.saw (s : State) (n : Nat) (l : List Nat) : State :=
  s.onStrand n (fun st => { st with seen := st.seen ++ l.filter (fun k => !st.seen.contains k) })
/-- What a command has read of global memory counts for its strand and is recorded (R227, R320, R346). -/
def State.pulled (s : State) (m : HodCmd) (g : Pulled) : State := (s.saw m.strand g.seen).deadRead m g.dead
/-- The global addresses that a turn of `size` bytes reads (R333). -/
def HodProg.turnVas (p : HodProg) (size : Nat) : List Nat :=
  if p.cmd.readsGlobal then rangeVas (p.cmd.src + p.pos) size
  else if p.cmd.op = 1 then match p.tensor with
    | some t => (List.range (size / 2 ^ t.esz)).filterMap (fun i => (p.element t (p.pos + i)).2.map (fun x => x.1))
    | none => []
  else []
/-- One turn of a channel, where it gets on: with all of its data, or with what it has read before a peer is asked (R333, R444). -/
def State.turn (s : State) (cl ch : Nat) : Option State :=
  match ((s.cluster cl).chan ch).moving with
  | none => none
  | some p =>
    let m := p.cmd
    let some' (s : State) (g : Pulled) : Option State :=
      ((s.pulled m g).countTurn m.core m.ctx (p.turnVas (Pieces.size g.ps)) .read).deliver cl ch p g.ps
    if s.hodAsked cl ch then none
    else s.unheld cl ch (match s.turnData p with
      | (s1, .data g) => some' s1 g
      | (s1, .stop r) => s.stopped s1 cl ch m r
      | (s1, .peer k sec g) => if g.ps.isEmpty then some (s1.hodPeer cl ch m k sec) else some' s1 g)
/-- HOD_TURN (R237): the next channel after the one granted last that gets on.
(DESIGN CHOICE, log 28) -/
def execHodTurn (cluster : Nat) (s : State) : Host.Outcome State Fault Refusal :=
  if s.pkg.viral then .refused .notEnabled else
  let x := s.cluster cluster
  let pick := (List.range 64).findSome? (fun i =>
    let ch := (x.turn + 1 + i) % 64
    (s.turn cluster ch).map (fun t => (ch, t)))
  match pick with
  | some (ch, t) => .next (t.onCluster cluster (fun c => { c with turn := ch }))
  | none => .refused .notEnabled

/-! ## Landing (R208, R252, R256) -/

/-- WM moves over the sectors that are filled (R252), with fuel. -/
def Wm.advance : Nat → Wm → Wm
  | 0, w => w
  | f + 1, w =>
    let k := w.wm.toNat / 128
    if w.wm.toNat ≤ w.hi.toNat && look 0 w.filled k = BitVec.ofNat 128 (2 ^ 128 - 1) then
      Wm.advance f { w with wm := w.wm + 128, filled := del w.filled k }
    else w
/-- A write fills bytes of a channel (R252): those from WM up to HI. -/
def Wm.fill (w : Wm) (a n : Nat) : Wm :=
  if !w.en || a > w.hi.toNat || a + n ≤ w.wm.toNat then w
  else
    let k := a / 128
    Wm.advance 1024 { w with filled := put 0 w.filled k (look 0 w.filled k ||| rangeMask a n) }
/-- A Hod write lands in a scratchpad (R208, R252). -/
def Core.hodLand (co : Core) (w : HodWrite) : Core :=
  let c1 := co.spWrite w.addr w.n w.value w.poison
  { c1 with wm := c1.wm.map (fun p => (p.1, p.2.fill w.addr w.n)) }
/-- HOD_WRITE_LAND (R252): the oldest write of a channel on its way, of a multicast first. -/
def execHodWriteLand (cluster ch : Nat) (s : State) : Host.Outcome State Fault Refusal :=
  let h := (s.cluster cluster).chan ch
  match h.mcast with
  | (_, w) :: l =>
    .next ((s.onCore (4 * cluster + w.core) (fun co => co.hodLand w)).onCluster cluster (fun x =>
      x.setChan ch { h with mcast := l }))
  | [] =>
    match h.prog with
    | some p =>
      if h.halted || p.cmd.op = 7 || p.cmd.op = 8 then .refused .notEnabled
      else match p.writes with
        | w :: l =>
          .next ((s.onCore (4 * cluster + w.core) (fun co => co.hodLand w)).onCluster cluster (fun x =>
            x.setChan ch { h with prog := some { p with writes := l } }))
        | [] => .refused .notEnabled
    | none => .refused .notEnabled
/-- HMCAST_ACK (R256): a receiver whose copy of a multicast is written whole acknowledges. -/
def execHmcastAck (cluster ch rcv : Nat) (s : State) : Host.Outcome State Fault Refusal :=
  let h := (s.cluster cluster).chan ch
  match h.acks.findIdx? (fun a => a.2.contains rcv) with
  | none => .refused .notEnabled
  | some i =>
    match h.acks[i]? with
    | none => .refused .notEnabled
    | some (id, l) =>
      let reading := match h.prog with | some p => p.cmd.op = 5 && p.cmd.id = id && p.pos < p.total | none => false
      if reading || h.mcast.any (fun w => w.1 = id && w.2.core = rcv) then .refused .notEnabled
      else
        let l1 := l.filter (fun k => k ≠ rcv)
        let acks := if l1.isEmpty then dropNth h.acks i else setNth h.acks i (id, l1)
        .next (s.onCluster cluster (fun x => x.setChan ch { h with acks }))

/-! ## Add-on-write (R258) -/

/-- HADD_ROW_STAGE (R258): the next row of an HADD enters its target core's staging buffer, where it has space.
(DEDUCED, log 29) -/
def execHaddRowStage (cluster ch : Nat) (s : State) : Host.Outcome State Fault Refusal :=
  if s.pkg.viral then .refused .notEnabled else
  let h := (s.cluster cluster).chan ch
  let out : Option State := match h.prog with
    | none => none
    | some p =>
      let m := p.cmd
      let core := m.strand / 8
      let target := 4 * cluster + m.ext % 4
      if h.halted || m.op ≠ 7 || p.pos ≥ p.total || (s.core target).staging.length ≥ 16
        || s.hodAsked cluster ch then none
      else
        let a := m.a.toNat + 256 * p.pos
        let stage (s : State) (ps : Pieces) : State :=
          let row := (m.b.toNat + p.pos) % 1024
          let g : Staged := ⟨ch, m.id, row, BitVec.ofNat 2048 (Pieces.value ps),
            ps.any (fun q => q.2.2.2), fld m.ext 2 3 = 1, bitOf m.ext 5, decide (p.pos + 1 = p.total)⟩
          (s.onCore target (fun co => { co with staging := co.staging ++ [g] })).onCluster cluster (fun x =>
            x.setChan ch { (x.chan ch) with prog := some { p with pos := p.pos + 1, writes := [] } })
        if m.f % 2 = 0 then
          let co := s.core core
          some (stage s [(0, 256, co.sp a 256, co.spPoison a 256)])
        else
          let got := p.kept
          s.unheld cluster ch (match s.pullRest core m.ctx a 256 got with
          | (s1, .data g) => some (stage ((s1.pulled m g).countTurn core m.ctx (rangeVas a 256) .read) g.ps)
          | (s1, .stop r) => s.stopped s1 cluster ch m r
          | (s1, .peer k sec g) => some (((s1.pulled m g).hodKeep cluster ch g.ps).hodPeer cluster ch m k sec))
  match out with
  | some t => .next t
  | none => .refused .notEnabled

/-! ## Completion (R238, R246, R248, R255, R259) -/

/-- A semaphore can take a completion of a command (R98). -/
def State.hasRoom (s : State) (m : HodCmd) : Bool := !m.live || (s.strand m.strand).count m.sem < 0xFFFF
/-- Append a command's completion (R238).
(DEDUCED, log 33) -/
def State.hodSignal (s : State) (m : HodCmd) (mark : Option Mark) : State :=
  s.complete (m.strand / 8) m.strand m.sem m.live m.ctxh m.launch m.task m.id mark none
/-- The head of a channel finishes (R236): its entry frees, and a strand whose task has ended may become FREE (R292). -/
def State.hodPop (s : State) (cl ch n : Nat) : State :=
  ((s.onCluster cl (fun x => let h := x.chan ch
    x.setChan ch { h with queue := h.queue.drop 1, prog := none, halted := false, fault := none })).onDie (cl / 12) (fun x =>
      x.leaveReplay (.hod cl ch))).settle n
/-- A command's effects are in place: a record gives way to the next of its stage, a command finishes. -/
def State.hodFinish (s : State) (cl ch : Nat) (p : HodProg) : Option State :=
  let m := p.cmd
  if p.inRec then
    some (s.onCluster cl (fun x => x.setChan ch { (x.chan ch) with prog := some { p with
      tensor := none, pos := 0, total := 0, writes := [], recs := p.recs.drop 1, inRec := false, ready := true } }))
  else if m.op = 5 then some (s.hodPop cl ch m.strand)
  else if !s.hasRoom m then none
  else some ((s.hodSignal m none).hodPop cl ch m.strand)
/-- Publish the tile a command names, and go on (R246): a translation of the tile map that fails is the command's fault.
(DEDUCED, log 32) -/
def State.hodPublish (s : State) (cl ch : Nat) (p : HodProg) (index tile : Nat) (k : State → Option State) : Option State :=
  let m := p.cmd
  let core := m.strand / 8
  match s.shadow? m.ctx index with
  | none => k s
  | some e =>
    let va := e.tmap + tile / 8
    match s.engineTr core m.ctx va .write with
    | (s1, .fault x y) => s.stopped s1 cl ch m (stopOf x y va)
    | (s1, .replay) => s1.hodHold cl ch m va
    | (s1, .wait _) => changed s s1
    | (s0, .ok pa _) =>
      if !tensorWindow pa then some (s0.hodFault cl ch m 0x02 0x0406 va)
      else
        let s1 := s0.learn m.ctx index .map va pa
        match s1.publish (core / 48) m.ctx index tile m.storeId with
        | (s2, .ready) => k s2
        | (s2, .waits) => changed s s2
        | (s2, .dead x y) => some (s2.hodFault cl ch m x y va)
/-- The tag set of an HPUB goes to the table of its context's home die (R259, R298, R303). -/
def State.hodTag (s : State) (cl ch : Nat) (m : HodCmd) : State :=
  s.onDie (m.ctx % 4) (fun x => { x with tagOps := x.tagOps ++
    [⟨0, m.ctx, m.launch.toNat, m.task.toNat, m.c.toNat, 1, m.f % 8, m.strand, m.num, some (cl, ch), m.id⟩] })
/-- HOD_COMMAND_COMPLETE (R238): the command in progress on a channel has its effects in place, its publication among them. -/
def execHodCommandComplete (cluster ch : Nat) (s : State) : Host.Outcome State Fault Refusal :=
  let h := (s.cluster cluster).chan ch
  let set (s : State) (q : HodProg) : State := s.onCluster cluster (fun x => x.setChan ch { (x.chan ch) with prog := some q })
  let out : Option State := s.unheld cluster ch (match h.prog with
    | none => none
    | some p =>
      let m := p.cmd
      if h.halted then none
      else match m.op with
        | 3 => s.hodFinish cluster ch p
        | 4 => none
        | 5 => if p.pos = p.total then s.hodFinish cluster ch p else none
        | 6 => if h.acks.isEmpty then s.hodFinish cluster ch p else none
        | 7 => if p.added = p.total then s.hodFinish cluster ch p else none
        | 8 =>
          if p.ready then (if (s.cluster cluster).submitted.any (fun q => q.2 = ch) then none else s.hodFinish cluster ch p)
          else if bitOf m.f 3 || p.added ≠ 0 then none
          else if !s.releaseOk m.strand m.num (m.f % 8) then none
          else s.hodPublish cluster ch p (m.a.toNat % 65536) m.b.toNat (fun s1 =>
            if m.long && bitOf m.ext 0 then some (set (s1.hodTag cluster ch m) { p with added := 1 })
            else s1.hodFinish cluster ch p)
        | _ =>
          if p.pos ≠ p.total || !p.writes.isEmpty then none
          else match m.tile with
            | some (index, tile) =>
              if bitOf m.ext 19 then s.hodFinish cluster ch p
              else if fld m.ext 16 3 ≥ 4 && !s.seenAcked m.strand then none
              else s.hodPublish cluster ch p index tile (fun s1 => s1.hodFinish cluster ch p)
            | none => s.hodFinish cluster ch p)
  match out with
  | some t => .next t
  | none => .refused .notEnabled
/-- HSTEP_STAGE_COMPLETE (R255): the stage's last command has finished: one completion, and the counter advances.
(DEDUCED, log 30) -/
def execHstepStageComplete (cluster ch : Nat) (s : State) : Host.Outcome State Fault Refusal :=
  let h := (s.cluster cluster).chan ch
  match h.queue, h.prog with
  | m :: _, some p =>
    if s.pkg.viral || h.halted || m.op ≠ 4 || p.inRec || !p.ready || !p.recs.isEmpty || !s.hasRoom m then .refused .notEnabled
    else
      let s1 := (s.hodSignal m none).onCluster cluster (fun x => x.setChan ch { (x.chan ch) with
        stage := (h.stage + 1) % 2 ^ 32, prog := some { p with cmd := m, stages := p.stages - 1, ready := false } })
      .next (if p.stages ≤ 1 then s1.hodPop cluster ch m.strand else s1)
  | _, _ => .refused .notEnabled

end Sys2Proof.Machine
end

