-- ==== Sys2Proof/Machine/Routine.lean ====
section
/-! DEFINITION. The end of matrix-unit entries, the result ring and the epilogue engine (R177, R178, R180 to R184, R197, R266 to
R268, R350). -/

namespace Sys2Proof.Machine

/-! ## Entries of the MX queue -/

/-- An MX entry's completion (R180, R184, R350): in its strand's semaphore, or, its task having ended, as a record of its mark; its
ownership ends then, and in a tear-down its strand may become FREE (R371). -/
def State.mxFinish (s : State) (core : Nat) (m : MxEntry) (mark : Option Mark) : State :=
  if m.live then s.complete core (8 * core + m.strand) m.sem true m.ctxh m.launch m.task 0xFFFFFFFF mark (some m.id)
  else
    let s1 := s.onCore core (fun co => { co with owned := del co.owned m.id })
    let s2 := match mark with
      | some k =>
        if s.liveHandle m.ctxh.toNat then
          s1.coreRecord core m.ctxh m.launch m.task 0xFFFFFFFF k.cause (k.index * 2 ^ 20 + 2 ^ 16 + k.detail) k.addr 7
        else s1
      | none => s1
    s2.settle (8 * core + m.strand)
/-- An ended entry's completion is appended, or held while its semaphore's count is at its limit (R98). -/
def State.mxDeliver (s : State) (core : Nat) (m : MxEntry) (mark : Option Mark) : State :=
  if s.mxRoom core m then s.mxFinish core m mark else s.onCore core (fun co => co.holdMx m mark)
/-- The first held completion whose semaphore has room (R98). -/
def State.mxReleasable (s : State) (core : Nat) : Option Nat :=
  let held := (s.core core).mxheld
  firstIdx (fun i => match held[i]? with
    | some (m, _) => !m.live || decide ((s.strand (8 * core + m.strand)).count m.sem < 0xFFFF)
    | none => false) held.length 0
/-- MX_ENTRY_BEGIN (R177, R178, R197): the head of the queue begins; an MLDUC or MLDRT loads its words and completes; kernels whose
images it overwrites are no longer loaded (R285). Poison of a source atom and watermarks have no effect on it.
(DEDUCED, log 26; DESIGN CHOICE, log 87) -/
def execMxEntryBegin (core : Nat) (s : State) : Host.Outcome State Fault Refusal :=
  let co := s.core core
  match co.run, co.mxq with
  | none, m :: q =>
    match m.kind with
    | .call start _ _ _ _ =>
      .next (s.setCore core { co with
        mxq := q
        run := some ⟨m, start, [], [], [], 0, none, [], [], [], false, false, none⟩ })
    | .ldUc src first n =>
      .next ((s.setCore core { co with
        mxq := q
        images := co.images.filter (fun k => !overlap k.mfirst k.mcount first n)
        ucode := loop (fun i u => put (0x7000000000000000 : Word) u (first + i) (BitVec.ofNat 64 (co.sp (src + 8 * i) 8))) n 0 co.ucode }).mxDeliver
        core m none)
    | .ldRt src first n =>
      let bad (x : Nat) : Bool := fld x 13 33 ≠ 0
      let word (i : Nat) : Nat := co.sp (src + 8 * i) 8
      let stored (i : Nat) : Nat := if bad (word i) then word i - (if bitOf (word i) 12 then 2 ^ 12 else 0) else word i
      let mark : Option Mark := (firstIdx (fun i => bad (word i)) n 0).map (fun i =>
        ⟨0x02, 0x0217, first, 0, BitVec.ofNat 64 (src + 8 * i)⟩)
      .next ((s.setCore core { co with
        mxq := q
        images := co.images.filter (fun k => !overlap k.rtfirst k.rtcount first n)
        rtab := loop (fun i u => put 0 u (first + i) (BitVec.ofNat 64 (stored i))) n 0 co.rtab }).mxDeliver core m mark)
  | _, _ => .refused .notEnabled
/-- ROUTINE_COMPLETE (R98, R180): a held completion whose count has fallen is appended; else a routine that has ended appends its
completion, or it is held, and the unit is free. -/
def execRoutineComplete (core : Nat) (s : State) : Host.Outcome State Fault Refusal :=
  match (s.mxReleasable core).bind (fun i => ((s.core core).mxheld[i]?).map (fun p => (i, p))) with
  | some (i, m, mark) => .next ((s.onCore core (fun co => { co with mxheld := dropNth co.mxheld i })).mxFinish core m mark)
  | none =>
    match (s.core core).run with
    | none => .refused .notEnabled
    | some r =>
      match r.done with
      | none => .refused .notEnabled
      | some mark => .next ((s.onCore core (fun co => { co with run := none })).mxDeliver core r.entry mark)

/-! ## The result ring (R266) -/

/-- RING_DRAIN_LAND (R266): the oldest drained row lands; a FREE slot becomes OPEN for its core. -/
def execRingDrainLand (cluster : Nat) (s : State) : Host.Outcome State Fault Refusal :=
  let x := s.cluster cluster
  match x.drains with
  | [] => .refused .notEnabled
  | (core, k, pos, v, p) :: l =>
    let r := x.slot k
    let r1 := { r with rows := put 0 r.rows pos v, poison := put false r.poison pos p,
                       state := if r.state = .free then .opened core else r.state }
    .next (s.setCluster cluster { (x.setSlot k r1) with drains := l })

/-! ## The epilogue engine (R267, R268) -/

/-- One word of the epilogue (R268): SRC, ACT, and the bias where there is one. -/
def epilogueWord (src act : Nat) (bias : Option Nat) (x : Nat) : Nat :=
  let f (x : Nat) : FVal := decodeF f32 x
  let x0 := if src = 1 then (fOfInt f32 0 0 (sext 32 x)).1 else x
  let x1 := match bias with | some b => (fAdd f32 0 0 (f x0) (f b)).1 | none => x0
  if act = 1 then
    (match f x1 with
      | .nan _ => f32.nanCode
      | v => if v.neg && !v.isZero then 0 else x1)
  else if act = 2 then
    let t := (fMul f32 0 0 (f x1) (f 0x3FB8AA3B)).1
    let u := fExp2 f32 0 0 (f t).negate
    let d := (fAdd f32 0 0 (f 0x3F800000) (f u)).1
    let q := (fRcp f32 0 0 (f d)).1
    (fMul f32 0 0 (f x1) (f q)).1
  else x1
/-- The packed output tile of words `out` (R268): byte values in groups, as one number. -/
def packTile (rows outf : Nat) (out : Nat → Nat) : Nat :=
  let w := outWidth outf
  if outf ≥ 0x12 then
    let q (b : Nat) : Nat × Nat × Nat := quantBlock (outf - 0x10) (fun j => out (32 * b + j))
    pack (32 * w) (fun b => (q b).1) (2 * rows) 0 + 2 ^ (64 * rows * w) * pack 8 (fun b => (q b).2.1) (2 * rows) 0
  else
    pack w (fun n => match outf with
      | 0 => out n
      | 1 => (fCvt f32 bf16 0 0 (out n)).1
      | 2 => (fCvt f32 f16 0 0 (out n)).1
      | 3 => (fCvt f32 e4m3 0 0 (out n)).1
      | _ => (fCvt f32 e5m2 0 0 (out n)).1) (64 * rows) 0
/-- The elements a byte of the packed tile comes from: the first and their number (R268). -/
def tileElems (rows outf o : Nat) : Nat × Nat :=
  let w := outWidth outf
  if outf ≥ 0x12 then (if o < rows * 8 * w then (32 * (o / (4 * w)), 32) else (32 * (o - rows * 8 * w), 32))
  else (o / (w / 8), 1)
/-- The tile the epilogue makes of a slot: its 32-byte atoms, with poison from rows and bias values. -/
def epilogueTile (v : Nat) (slot : RingSlot) (bias : Option Pieces) (size : Nat) : Pieces :=
  let rows := byts v 0 2
  let outf := byts v 4 1
  let bcol := bitOf v 42
  let bval : Nat := match bias with | some ps => Pieces.value ps | none => 0
  let bidx (n : Nat) : Nat := if bcol then n % 64 else n / 64
  let out (n : Nat) : Nat := epilogueWord (byts v 2 1) (byts v 3 1) (bias.map (fun _ => fld bval (32 * bidx n) 32))
    (lane (look 0 slot.rows (n / 64)) (n % 64))
  let bad (n : Nat) : Bool := look false slot.poison (n / 64)
    || (match bias with | some ps => ps.any (fun p => p.2.2.2 && p.1 < 4 * bidx n + 4 && 4 * bidx n < p.1 + p.2.1) | none => false)
  let tile := packTile rows outf out
  (atomParts 0 size).map (fun q =>
    (q.2.2, q.2.1, fld tile (8 * q.2.2) (8 * q.2.1), (firstIdx (fun i =>
      let e := tileElems rows outf (q.2.2 + i)
      (firstIdx (fun j => bad (e.1 + j)) e.2 0).isSome) q.2.1 0).isSome))
/-- The engine's work on a slot is done: the slot is FREE and its command's effects are in place. -/
def State.slotDone (s : State) (cl k ch : Nat) : State :=
  s.onCluster cl (fun x =>
    let y := x.setSlot k { (x.slot k) with state := .free }
    let z : Cluster := { y with submitted := y.submitted.filter (fun q => q.2 ≠ ch) }
    let h := z.chan ch
    z.setChan ch { h with prog := h.prog.map (fun p => { p with ready := true, writes := [] }) })
/-- The slot's tile is written to its shadow and published (R246, R268). -/
def State.epilogueWrite (s : State) (cl ch : Nat) (p : HodProg) (t : Tensor) (ps : Pieces) : Option State :=
  let m := p.cmd
  let core := m.strand / 8
  let v := p.recs.headD 0
  let index := fld v 128 16
  let tile := fld v 192 36
  match s.shadow? m.ctx index with
  | none => some (s.hodFault cl ch m 0x02 0x0406 0)
  | some e =>
    match s.shadowWrite core e tile ps m.storeId with
    | (s1, some r) => s.stopped s1 cl ch m r
    | (s1, none) =>
      let va := s.shadowVa e tile 0
      let s2 := loop (fun i s =>
        let left := t.tbytes - 1024 * i
        s.countTurn core m.ctx (rangeVas (va + 1024 * i) (if left < 1024 then left else 1024)) .write) ((t.tbytes + 1023) / 1024) 0 s1
      some (s2.onCluster cl (fun x => let h := x.chan ch
        x.setChan ch { h with prog := h.prog.map (fun p => { p with pos := t.tbytes, total := t.tbytes }) }))
/-- EPILOGUE_SLOT (R267, R268): the first submitted slot: read its bias and write its tile to the shadow, then, once what its HPUB
releases is performed, publish it and send its tag; the slot is freed once its tag, if any, has acted. DISCARD frees it at once.
(DEDUCED, log 31) -/
def execEpilogueSlot (cluster : Nat) (s : State) : Host.Outcome State Fault Refusal :=
  if s.pkg.viral then .refused .notEnabled else
  let x := s.cluster cluster
  let out : Option State := match x.submitted with
    | [] => none
    | (k, ch) :: _ =>
      match (x.chan ch).prog with
      | none => none
      | some p =>
        let m := p.cmd
        let core := m.strand / 8
        let v := p.recs.headD 0
        if (x.chan ch).halted || s.hodAsked cluster ch then none
        else if bitOf v 41 || p.ready then some (s.slotDone cluster k ch)
        else if p.added ≠ 0 then none
        else s.unheld cluster ch (match p.tensor with
          | none => none
          | some t =>
            if p.pos = 0 then
              if !bitOf v 40 then s.epilogueWrite cluster ch p t (epilogueTile v (x.slot k) none t.tbytes)
              else
                let n := if bitOf v 42 then 256 else 4 * byts v 0 2
                match s.pullRest core m.ctx (byts v 8 8) n p.kept with
                | (s1, .data g) =>
                  ((s1.pulled m g).countTurn core m.ctx (rangeVas (byts v 8 8) n) .read).epilogueWrite cluster ch p t
                    (epilogueTile v (x.slot k) (some g.ps) t.tbytes)
                | (s1, .stop r) => s.stopped s1 cluster ch m r
                | (s1, .peer q sec g) => some (((s1.pulled m g).hodKeep cluster ch g.ps).hodPeer cluster ch m q sec)
            else if !s.releaseOk m.strand m.num (m.f % 8) then none
            else s.hodPublish cluster ch p (fld v 128 16) (fld v 192 36) (fun s1 =>
              if m.long && bitOf m.ext 0 then
                some ((s1.hodTag cluster ch m).onCluster cluster (fun x => let h := x.chan ch
                  x.setChan ch { h with prog := h.prog.map (fun p => { p with added := 1 }) }))
              else some (s1.slotDone cluster k ch)))
  match out with
  | some t => .next t
  | none => .refused .notEnabled

end Sys2Proof.Machine
end

