-- ==== Sys2Proof/Machine/Save.lean ====
section
/-! DEFINITION. The save area: the image of a task's strand, written and read back (R227, R240, R348 to R353). -/

namespace Sys2Proof.Machine

/-- Fields of an image: offset, bytes, value. -/
abbrev Fields := List (Nat × Nat × Nat)
/-- The address of a context's save area (R348). -/
def Ctx.areaPa (x : Ctx) (a : Nat) : Nat := x.savebase + 24576 * a

/-! ## The image (R348 to R350) -/

/-- An engine image (R349). -/
def engineImage (o : Nat) (g : Option Engine) : Fields :=
  match g with
  | none => [(o, 32, 0)]
  | some g =>
    match encodeOp g.op with
    | some (w, w2) => [(o, 8, w + w2.getD 0 * 2 ^ 32), (o + 8, 8, g.addr.toNat), (o + 16, 16, 1)]
    | none => [(o, 32, 0)]
/-- The four engines in the order LD, ST, AR, AW (R348). -/
def engineImages (o : Nat) (m : SMap Engine) : Fields :=
  engineImage o (find? m 5) ++ engineImage (o + 32) (find? m 6) ++ engineImage (o + 64) (find? m 8) ++ engineImage (o + 96) (find? m 9)
/-- A replay entry (R349). -/
def replayImage (o : Nat) (r : Result) : Fields :=
  let (kind, num, size) := match r.reg with
    | .s n => (0, n, 8) | .v n => (1, n, 256) | .b n => (2, n, 8) | .k n => (3, n, 8) | .m n => (0, n, 8) | .lc n => (0, n, 8)
  [(o, 256, r.value.toNat % 2 ^ (8 * size)), (o + 256, 8, if kind = 1 then r.lanes.toNat else 0), (o + 264, 1, kind * 64 + num % 64),
   (o + 265, 1, r.flags.toNat + 32 * b2n r.poison + 64 * b2n r.tl), (o + 266, 2, r.cnt), (o + 268, 4, 0)]
/-- The special completions of a strand, by semaphore and position (R350). -/
def Strand.special (st : Strand) : List (Nat × Nat × Completion) :=
  (List.range 16).flatMap (fun e =>
    ((st.getE e).mapIdx (fun i c => (e, i, c))).filter (fun p => p.2.2.reg.isSome || p.2.2.mark.isSome))
/-- The marked completions of a strand in the order of appending (R198, R350). -/
def Strand.markList (st : Strand) : List (Nat × Completion) := sortBy (fun p => p.2.order) st.marked
/-- The entry of a special completion (R350). -/
def specialEntry (marks : List (Nat × Completion)) (p : Nat × Nat × Completion) : Nat :=
  let (kind, ref) := match p.2.2.mark, p.2.2.reg with
    | some _, _ => (2, (marks.findIdx? (fun m => m.2.order = p.2.2.order)).getD 0)
    | none, some (.v n) => (1, 64 + n)
    | none, some (.s n) => (1, n)
    | none, _ => (1, 0)
  p.2.1 * 2 ^ 16 + p.1 * 2 ^ 12 + kind * 2 ^ 10 + ref % 128
/-- A mark record (R350). -/
def markRecord (p : Nat × Completion) : Nat :=
  match p.2.mark with
  | some m => m.cause % 256 + m.detail % 2 ^ 16 * 2 ^ 16 + m.index % 2 ^ 16 * 2 ^ 32 + p.1 * 2 ^ 48 + m.source % 256 * 2 ^ 56 + m.addr.toNat * 2 ^ 64
  | none => 0
/-- Where a strand resumes (R348, R351): RNPC, RRPT, RFIRST and RDLY, from the bundle's header where it can be read. -/
def State.resumePoint (s : State) (n : Nat) : Nat × Nat × Bool × Bool :=
  let st := s.strand n
  let header : Option Nat := match st.words with
    | h :: _ => some h.toNat
    | [] => match (s.fetchWord n st.pc).2 with | .word h => some h.toNat | _ => none
  let rep := header.map (fun h => fld h 11 8)
  let (left, first) := match st.res with
    | .fresh => (rep.getD 0, true)
    | .at k f => (k, f)
    | .byHeader k => (k, decide (rep = some k))
  let (rnpc, dly) := match st.delay, header with
    | none, _ => (0, false)
    | some (.taken t), _ => (t.toNat, true)
    | some .ret, _ => (st.xpc.toNat, true)
    | some .notTaken, some h => ((canonVa (st.pc + BitVec.ofNat 64 (4 * fld h 22 6))).toNat, true)
    | some .notTaken, none => (0, false)
  (rnpc, left, first, dly)
/-- The image of a strand's task (R348). -/
def State.image (s : State) (n : Nat) (weight : Nat) : Fields :=
  let st := s.strand n
  let (rnpc, left, first, dly) := s.resumePoint n
  let spec := st.special
  let marks := st.markList
  let zs := st.z.map (fun p => p.2)
  [(0, 16384, pack 2048 (fun i => (st.getV i).toNat) 64 0), (0x4000, 512, pack 64 (fun i => (st.getS i).toNat) 64 0),
   (0x4200, 64, pack 64 (fun i => (st.getK i).toNat) 8 0), (0x4240, 64, pack 64 (fun i => (st.getM i).toNat) 8 0),
   (0x4280, 16, pack 32 (fun i => (st.getLc i).toNat) 4 0), (0x4290, 32, pack 16 st.count 16 0),
   (0x42B0, 8, st.pc.toNat), (0x42B8, 8, rnpc), (0x42C0, 8, left % 256 * 256 + 4 * b2n first + 2 * b2n dly + b2n st.tl),
   (0x42C8, 8, st.scyc.toNat), (0x42D0, 16, st.p0.toNat + st.p1.toNat * 2 ^ 64),
   (0x42E0, 8, st.course.toNat + st.swhy.toNat * 2 ^ 32 + st.wsem.toNat * 2 ^ 40 + st.b.toNat * 2 ^ 48 + b2n st.sat * 2 ^ 56),
   (0x42E8, 8, st.fstat.toNat), (0x42F0, 8, weight),
   (0x42F8, 32, pack 64 (fun i => match i with
      | 0 => st.pendS.toNat | 1 => st.pendV.toNat | 2 => st.poisS.toNat | _ => st.poisV.toNat) 4 0),
   (0x4318, 48, pack 64 (fun i => match i with
      | 0 => st.xvec.toNat | 1 => st.xmask.toNat | 2 => st.xpc.toNat | 3 => st.xnpc.toNat | 4 => xstateOf st | _ => st.xrec.toNat) 6 0),
   (0x4348, 8, spec.length + marks.length * 2 ^ 16 + zs.length * 2 ^ 24),
   (0x4350, 16, st.est.toNat + st.estBase.toNat * 2 ^ 64), (0x4360, 32, 0)]
    ++ engineImages 0x4380 st.eng ++ (if st.tl then engineImages 0x4400 st.xstk else [])
    ++ spec.mapIdx (fun i p => (0x4480 + 4 * i, 4, specialEntry marks p))
    ++ marks.mapIdx (fun i p => (0x4780 + 16 * i, 16, markRecord p))
    ++ (zs.mapIdx (fun i r => replayImage (0x4B80 + 272 * i) r)).flatten
/-- Write the image's fields at a physical address. -/
def State.writeFields (s : State) (pa : Nat) (f : Fields) : State :=
  f.foldl (fun s p => s.homeRange (pa + p.1) p.2.1 p.2.2 false none) s

/-! ## Reading an image back (R353) -/

/-- An engine of an image. -/
def readEngine (v : Nat) (sl : Slot) (o : Nat) : SMap Engine :=
  if fld v (8 * (o + 16)) 1 = 0 then []
  else match decodeOp sl (fld v (8 * o) 32) (fld v (8 * o + 32) 32) with
    | .ok i => [(sl.num, ⟨i, BitVec.ofNat 64 (byts v (o + 8) 8)⟩)]
    | .error _ => []
/-- The engines of an image. -/
def readEngines (v o : Nat) : SMap Engine :=
  readEngine v .ld o ++ readEngine v .st (o + 32) ++ readEngine v .ar (o + 64) ++ readEngine v .aw (o + 96)
/-- A replay entry of an image; `bytes` are the bytes of its lanes it writes. -/
def readReplay (v o : Nat) (bytes : BitVec 4) : Result :=
  let k := byts v (o + 264) 1
  let f := byts v (o + 265) 1
  let reg : Reg := match k / 64 with | 0 => .s (k % 64) | 1 => .v (k % 64) | 2 => .b (k % 8) | _ => .k (k % 8)
  { reg, value := BitVec.ofNat 2048 (byts v o 256), lanes := if k / 64 = 1 then BitVec.ofNat 64 (byts v (o + 256) 8) else allLanes,
    bytes, cnt := byts v (o + 266) 2, tl := bitOf f 6, flags := BitVec.ofNat 5 f, poison := bitOf f 5 }
/-- A mark of an image. -/
def readMark (v i : Nat) : Mark :=
  let o := 0x4780 + 16 * i
  ⟨byts v o 1, byts v (o + 2) 2, byts v (o + 4) 2, byts v (o + 7) 1, BitVec.ofNat 64 (byts v (o + 8) 8)⟩
/-- The list of a semaphore of an image (R350): ordinary completions but where a special entry stands. -/
def readSem (v e : Nat) : List Completion :=
  let count := fld v (8 * (0x4290 + 2 * e)) 16
  let nspec := byts v 0x4348 2
  let nmark := byts v 0x434A 1
  let entries := (List.range nspec).map (fun i => byts v (0x4480 + 4 * i) 4)
  (List.range count).map (fun i =>
    match entries.find? (fun x => x / 2 ^ 16 = i && fld x 12 4 = e) with
    | none => ⟨none, none, nmark + 65536 * e + i, none⟩
    | some x =>
      if fld x 10 2 = 2 then ⟨none, some (readMark v (x % 128)), x % 128, none⟩
      else ⟨some (if bitOf x 6 then .v (x % 64) else .s (x % 64)), none, nmark + 65536 * e + i, none⟩)
/-- Entries of a register file of an image that are not 0. -/
def readFile (w : Nat) (f : Nat → Nat) (n : Nat) : SMap (BitVec w) :=
  (List.range n).filterMap (fun i => if f i % 2 ^ w = 0 then none else some (i, BitVec.ofNat w (f i)))
/-- A strand's state from an image (R353): registers, engines, semaphores, flags, replay entries, and where it resumes. -/
def Strand.restore (st : Strand) (v : Nat) (ret : Bool) (zb : List (BitVec 4)) : Strand :=
  let w (o : Nat) : Word := BitVec.ofNat 64 (byts v o 8)
  let rs := byts v 0x42C0 8
  let m := byts v 0x42E0 8
  let xs := byts v 0x4338 8
  let nz := byts v 0x434B 1
  { st with
    s := (readFile 64 (fun i => byts v (0x4000 + 8 * i) 8) 64).filter (fun p => p.1 ≠ 0)
    v := readFile 2048 (fun i => byts v (256 * i) 256) 64
    b := BitVec.ofNat 8 (fld m 48 8 ||| 1)
    k := (readFile 64 (fun i => byts v (0x4200 + 8 * i) 8) 8).filter (fun p => p.1 ≠ 0)
    m := readFile 64 (fun i => byts v (0x4240 + 8 * i) 8) 8
    lc := readFile 32 (fun i => byts v (0x4280 + 4 * i) 4) 4
    sem := (List.range 16).filterMap (fun e => let l := readSem v e
      if l.isEmpty then none else some (e, l))
    eng := readEngines v 0x4380
    xstk := if bitOf rs 0 then readEngines v 0x4400 else []
    pipe := []
    z := (List.range nz).map (fun i => (i, readReplay v (0x4B80 + 272 * i) (zb.getD i 15)))
    pendS := w 0x42F8, pendV := w 0x4300, poisS := w 0x4308, poisV := w 0x4310
    pc := w 0x42B0
    res := if bitOf rs 2 then .fresh else .at (fld rs 8 8) false
    delay := if bitOf rs 1 then some (if ret then .ret else .taken (w 0x42B8)) else none
    words := []
    swhy := BitVec.ofNat 8 (fld m 32 8)
    course := BitVec.ofNat 32 m
    scyc := w 0x42C8
    wsem := BitVec.ofNat 4 (fld m 40 4)
    fstat := BitVec.ofNat 5 (byts v 0x42E8 1)
    xvec := w 0x4318, xmask := w 0x4320, xpc := w 0x4328, xnpc := w 0x4330, xrec := w 0x4340
    xrpt := BitVec.ofNat 8 (fld xs 8 8), dslot := bitOf xs 1
    tl := bitOf rs 0
    p0 := w 0x42D0, p1 := w 0x42D8
    sat := bitOf m 56
    est := w 0x4350, estBase := w 0x4358
    order := byts v 0x434A 1 + 65536 * 17
    loadQ := [], storeQ := [], answers := [], save := none, walk := none, seen := [] }

/-! ## Saving (R227, R240, R351, R354) -/


/-- What a save waits for is over (R351): queues, Hod commands, MX entries, LAUNCH answers, held accesses.
(DEDUCED, log 41) -/
def State.quiet (s : State) (n : Nat) : Bool :=
  let st := s.strand n
  st.drained && s.hodDone n && s.mxDone (n / 8) st.ctxh st.launch st.task && st.answers.isEmpty && !s.inReplay n && s.seenAcked n
/-- A strand whose task has been saved: FREE, or kept for a task with what its domain asks of it. -/
def Strand.vacate (st : Strand) (reserved : Option (Nat × Nat × Option Nat)) (persist : Bool) : Strand :=
  { ({} : Strand) with
    reserved, freed := true, gnum := st.gnum,
    barPhase := if persist then st.barPhase else none, barWait := if persist then st.barWait else none }
/-- The task a CSWITCH chose still waits for its strand. -/
def State.chosen (s : State) (x y z : Nat) : Bool := match s.task? x y z with | some (_, t) => decide (t.run = .offered) | none => false
/-- The strand that a save leaves behind (R351, R355): FREE, or kept for a task; the task a CSWITCH chose goes to its core's judgement
with the strand. -/
def State.handOver (s : State) (n : Nat) (reserved : Option (Nat × Nat × Option Nat)) (persist : Bool) (why : SaveReq) : State :=
  match why with
  | .cswitch x y z _ =>
    if !s.chosen x y z then s.setStrand n ((s.strand n).vacate none persist)
    else ((s.setStrand n ((s.strand n).vacate (some (x, y, some z)) persist)).onTask x y z (fun t => { t with swap := some n })).onCore (n / 8)
      (fun co => { co with bindings := co.bindings ++ [(x % 4, x, y, z)] })
  | _ => s.setStrand n ((s.strand n).vacate reserved persist)
/-- The save of a strand's task into an area (R331, R351): after the save of a task that met NOT_PRESENT its context parks, unless a
RESUME has come first. -/
def State.saveInto (s : State) (n a : Nat) (l : Launch) (t : Task) (why : SaveReq) : State :=
  let st := s.strand n
  let c := s.ctxOf n
  let s1 := s.writeFields ((s.ctx c).areaPa a) (s.image n t.weight)
  let parks := decide (why = .fault) && decide (t.parked = .fault)
  let s2 := s1.onCtx c (fun x => { x with
    savefree := x.savefree &&& ~~~((1 : BitVec 512) <<< a), pkf := if parks then x.pkf + 1 else x.pkf })
  let s3 := s2.onTask c l.id t.id (fun t => { t with
    run := .ready, area := some a, core := n / 8, nvFail := t.nvFail ++ st.nvFail,
    ret := decide (st.delay = some .ret), zbytes := st.z.map (fun p => p.2.bytes) })
  let s4 := (s3.gsTaskEvent c l.id 2).onCore (n / 8) (fun co => { co with owned := co.owned.filter (fun p => p.2.1 ≠ n % 8) })
  s4.handOver n (if why = .fault ∧ l.persist = true then some (c, l.id, some t.id) else st.reserved) l.persist why
/-- A strand whose save found no area goes on (R354): a reason of PARK that came meanwhile is written, which is an acquire (R319, R356);
one whose task is parked is blocked in place, which is an event of an iteration (R385). -/
def State.goOn (s : State) (n : Nat) (l : Launch) (t : Task) : State :=
  let inPlace (fault : Bool) : State :=
    (s.onStrand n (fun st => { st with run := .blocked (.parked fault) })).gsTaskEvent (s.ctxOf n) l.id 2
  match t.parked with
  | .fault => inPlace true
  | .park _ _ => inPlace false
  | .no =>
    match t.wakeReg with
    | some (r, w) =>
      (((s.onStrand n (fun st => st.write (.s r) (BitVec.ofNat 2048 w) allLanes 15 false)).onTaskOf n (fun t =>
        { t with wakeReg := none })).unblock n).onDie (dieOfStrand n) Die.dropClean
    | none => s.unblock n
/-- A save that finds no free area (R354, R362): NOT_PRESENT and PARK block in place, unless woken by now; CSWITCH returns 2, and a
pre-empted task runs on to its end, or stays blocked in place. -/
def State.noSave (s : State) (n : Nat) (l : Launch) (t : Task) (why : SaveReq) : State :=
  let s1 := s.onStrand n (fun st => { st with save := none })
  match why with
  | .fault => (if t.parked = .fault then s1.onCtx (s.ctxOf n) (fun x => { x with pkf := x.pkf + 1 }) else s1).goOn n l t
  | .cswitch x y z d =>
    let s2 := if s1.chosen x y z then s1.onTask x y z (fun t => { t with run := .ready }) else s1
    (s2.onStrand n (fun st => st.write (.s d) 2 allLanes 15 false)).unblock n
  | _ => s1.goOn n l t
/-- A checkpoint of a task whose context is torn down completes without an image (R371, R372); a reservation for another task stays
(R362). -/
def State.saveGone (s : State) (n : Nat) (why : SaveReq) : State :=
  (s.onCore (n / 8) (fun co => { co with owned := co.owned.filter (fun p => p.2.1 ≠ n % 8) })).handOver n (s.strand n).reserved false why
/-- A save or a restore may use a context's save area (R399): every page of it is of domain 0 or the context's. -/
def State.areaOk (s : State) (c pa : Nat) : Bool :=
  let ok (a : Nat) : Bool := s.domainOk (s.ctx c).keydom a
  ok pa && ok (pa + 24575)
/-- The task of a strand whose save area is another domain's stops on the system path (R332, R399). -/
def State.saveDenied (s : State) (n : Nat) : State :=
  let st := s.strand n
  (s.coreRecord (n / 8) st.ctxh st.launch st.task 0xFFFFFFFF 0x11 0x0900 0).endTask n 3 none
/-- The fields of an image that a write at an address merges into sectors whose tags fail (R397). -/
def State.areaBad (s : State) (pa : Nat) (f : Fields) : Fields := f.filter (fun p => s.mergesIn (pa + p.1) p.2.1)
/-- A save area that fails its integrity check is fatal to the context (R353, R397, R400). -/
def State.saveBad (s : State) (n pa : Nat) (f : Fields) : State :=
  let st := s.strand n
  (f.foldl (fun s p => s.countInt (pa + p.1) p.2.1) s).integrity (n / 8) (s.ctxOf n) st.launch st.task 0 0xFF
/-- CHECKPOINT_SAVE (R351, R354, R372): the strand's task, stopped and quiet, is written to the lowest-numbered free save area.
(DEDUCED, log 41, 47; DESIGN CHOICE, log 42) -/
def execCheckpointSave (strand : Nat) (s : State) : Host.Outcome State Fault Refusal :=
  let st := s.strand strand
  let c := s.ctxOf strand
  match st.run, st.save with
  | .blocked .saving, some why =>
    if !s.quiet strand then .refused .notEnabled
    else match s.taskOf strand, (s.ctx c).freeArea with
      | some (l, t), some a =>
        let pa := (s.ctx c).areaPa a
        if !s.areaOk c pa then .next (s.saveDenied strand)
        else (match s.gateAt (s.place pa) 24576 true with
          | (s1, .waits) => if s1 = s then .refused .notEnabled else .next s1
          | (s1, _) =>
            let bad := s1.areaBad pa (s1.image strand t.weight)
            .next (if bad.isEmpty then s1.saveInto strand a l t why else s1.saveBad strand pa bad))
      | some (l, t), none => .next (s.noSave strand l t why)
      | none, _ => .next (s.saveGone strand why)
  | _, _ => .refused .notEnabled

end Sys2Proof.Machine
end

