-- ==== Sys2Proof/Machine/Launches.lean ====
section
/-! DEFINITION. Readiness tags, launches, domains, wakes and the end of tasks and launches (R274 to R276, R281 to R283, R288 to R303,
R356, R357, R371). -/

namespace Sys2Proof.Machine

/-- The machine after a step that only sent requests; no step where it sent none.
(DESIGN CHOICE, log 73) -/
def State.waiting (old new : State) : Host.Outcome State Fault Refusal :=
  if new = old then .refused .notEnabled else .next new

/-! ## Writes of engines through an address space -/

/-- Where a part of an engine's write goes: its home, the package's own inbound path, nowhere because a peer refuses it, or a peer that
has answered (R443 to R445). -/
inductive Into where
  | home | inbound | refused | sent
  deriving DecidableEq, Repr
/-- Translate the parts of an engine's write: where each goes, its physical address, length and offset (R327, R443). -/
def State.storeParts (s : State) (who : Asker) (d c : Nat) : List (Nat × Nat × Nat) → List (Into × Nat × Nat × Nat) →
    State × Except Stop (List (Into × Nat × Nat × Nat))
  | [], acc => (s, .ok acc)
  | (va, n, o) :: l, acc =>
    match s.translate d c (va % 2 ^ 57) .write with
    | .fault x y => (s, .error (stopOf x y va))
    | .replay => (s, .error (.held va))
    | .wait s1 => (s1, .error .wait)
    | .ok pa _ =>
      if window (s.place pa) ≠ .peer then s.storeParts who d c l (acc ++ [(.home, pa, n, o)])
      else match s.peerWay pa with
        | .dead x y => (s, .error (.fault x y va))
        | .own q => s.storeParts who d c l (acc ++ [(if s.outsider q then .inbound else .refused, q, n, o)])
        | .send p =>
          if (s.peerWord who c (pa / 128) true).isSome then s.storeParts who d c l (acc ++ [(.sent, pa, n, o)])
          else (s.askPeer ⟨p, pa / 128, 0, 0, none, some (d, ⟨who, c, true, va⟩)⟩, .error .wait)
/-- Perform one part of an engine's write; what the own path meets of failing sectors is counted (R397, R400). -/
def State.storePart (s : State) (d value : Nat) (q : Into × Nat × Nat × Nat) : State :=
  let (w, pa, n, o) := q
  let v := fld value (8 * o) (8 * n)
  match w with
  | .home => s.agentWrite d pa n v false none
  | .inbound => (s.countMerge pa n (2 ^ n - 1)).homeRange pa n v false none
  | .refused => s.countRefusal pa
  | .sent => s
/-- Write bytes at a virtual address for a context, as an agent of a die (R317, R327, R397, R436, R443). -/
def State.storeVa (s : State) (who : Asker) (d c va n value : Nat) : State × Option Stop :=
  match s.storeParts who d c (sectorParts va n) [] with
  | (s0, .error r) => (s0, some r)
  | (s0, .ok qs) =>
    let into := qs.filter (fun q => q.1 = .home || q.1 = .inbound)
    match s0.gates (into.map (fun q => (q.2.1, q.2.2.1, true))) with
    | (s1, .waits) => (s1, some .wait)
    | (s1, .dead x y) => (s1, some (.fault x y va))
    | (s1, .ready) =>
      if into.any (fun q => s1.mustHold q.2.1 || (q.1 = .home && s1.agentBusy d q.2.1 q.2.2.1)) then (s1, some .wait)
      else if into.any (fun q => q.1 = .home && s1.mergesIn q.2.1 q.2.2.1) then (s1, some (.bad va))
      else (qs.foldl (fun s q => s.storePart d value q) s1, none)

/-! ## Tags (R298 to R303) -/

/-- A coarse record of a context for a handle and generation (R301). -/
def Die.hasCoarse (x : Die) (c k : Nat) : Bool := x.coarse.any (fun r => r.ctx = c && r.handle = keyHandle k && r.gen = keyGen k)
/-- A tag set (R300, R301): the record of a discarded one names the command that made it (R346). -/
def State.setTag (s : State) (c launch task command k : Nat) : State :=
  let d := c % 4
  let x := s.die d
  let g := keyGen k
  let mine (t : TagRow) : Bool := t.ctx = c && t.handle = keyHandle k && t.tile = keyTile k
  match s.tagRow c k with
  | some t =>
    if t.gen = g then s
    else if genOlder t.gen g then s.setDie d { x with tags := x.tags.map (fun t => if mine t then { t with gen := g } else t) }
    else s.dieRecord d c launch task 0x12 0x0505 0 command
  | none =>
    if x.hasCoarse c k then s
    else if x.tags.length < 65536 then s.setDie d { x with tags := x.tags ++ [⟨c, keyHandle k, keyTile k, g⟩] }
    else if x.coarse.length < 1024 then
      s.setDie d { x with
        coarse := x.coarse ++ [⟨c, keyHandle k, g, launch⟩],
        tags := x.tags.filter (fun t => !(t.ctx = c && t.handle = keyHandle k && t.gen = g)) }
    else s.setDie d { x with dropped := x.dropped + 1 }
/-- A tile clear (R302): the entry goes where its generation is the key's or older. -/
def Die.clearTile (x : Die) (c k : Nat) : Die :=
  { x with tags := x.tags.filter (fun t =>
      !(t.ctx = c && t.handle = keyHandle k && t.tile = keyTile k && (t.gen = keyGen k || genOlder t.gen (keyGen k)))) }
/-- A tensor clear (R302). -/
def Die.clearTensor (x : Die) (c k : Nat) : Die :=
  { x with tags := x.tags.filter (fun t => !(t.ctx = c && t.handle = keyHandle k)),
           coarse := x.coarse.filter (fun t => !(t.ctx = c && t.handle = keyHandle k)) }
/-- A tag operation may act (R303): a strand's operations in their order, a set after what it releases. -/
def State.tagReady (s : State) (earlier : List TagOp) (o : TagOp) : Bool :=
  if o.hod.isSome then true
  else
    !earlier.any (fun p => p.hod.isNone && p.strand = o.strand) &&
      (match (s.strand o.strand).storeQ.find? (fun g => g.num = o.num) with
        | some g => s.mayPerform o.strand g
        | none => true)
/-- The first operation of a table's list that may act (R298), with its place. -/
def State.nextTag (s : State) (d : Nat) : Option (Nat × TagOp) :=
  let l := (s.die d).tagOps
  (firstIdx (fun i => match l[i]? with | some o => s.tagReady (l.take i) o | none => false) l.length 0).bind (fun i =>
    l[i]?.map (fun o => (i, o)))
/-- One operation acted; the last of its request ends it (R302, R259). -/
def State.tagActed (s : State) (d i : Nat) (o : TagOp) : State :=
  if o.left > 1 then
    s.onDie d (fun x => { x with tagOps := setNth x.tagOps i { o with left := o.left - 1, key := o.key + 1 } })
  else
    let s1 := s.onDie d (fun x => { x with tagOps := dropNth x.tagOps i })
    match o.hod with
    | some (cl, ch) => s1.onCluster cl (fun x => let h := x.chan ch
        x.setChan ch { h with prog := h.prog.map (fun p => { p with ready := true }) })
    | none => s1.performed o.strand o.num
/-- TAG_SET_ACT (R300): the next operation of a die's table is a set.
(DEDUCED, log 23) -/
def execTagSetAct (die : Nat) (s : State) : Host.Outcome State Fault Refusal :=
  match s.nextTag die with
  | some (i, o) =>
    if o.fn ≠ 0 then .refused .notEnabled
    else
      let s1 := if (s.ctx o.ctx).life = .live then (s.setTag o.ctx o.launch o.task o.command o.key).rejudge o.ctx else s
      .next (s1.tagActed die i o)
  | none => .refused .notEnabled
/-- TAG_CLEAR_ACT (R302): the next operation of a die's table is a clear.
(DEDUCED, log 23) -/
def execTagClearAct (die : Nat) (s : State) : Host.Outcome State Fault Refusal :=
  match s.nextTag die with
  | some (i, o) =>
    if o.fn = 0 then .refused .notEnabled
    else
      let s1 := if (s.ctx o.ctx).life = .live then
          (s.onDie die (fun x => if o.fn = 1 then x.clearTile o.ctx o.key else x.clearTensor o.ctx o.key)).rejudge o.ctx
        else s
      .next (s1.tagActed die i o)
  | none => .refused .notEnabled

/-! ## Launches (R274 to R276, R288, R293) -/

/-- The answer of R293 and R437: STATUS, REASON, identifier. -/
def answerWord (status reason id : Nat) : Nat := status * 2 ^ 56 + reason * 2 ^ 48 + id
/-- The identifier after one (R274). -/
def nextLaunchId (n : Nat) : Nat := if n + 1 ≥ 2 ^ 32 - 1 then 1 else n + 1
/-- Fields of a launch record or a kernel descriptor break a rule (R275 to R277). -/
def launchBad (r kd : Nat) (grouped : Bool) : Bool :=
  let ntasks := byts r 28 4
  let flags := byts r 33 1
  let dlevel := byts r 34 1
  let dsize := byts r 36 4
  byts r 0 8 % 128 ≠ 0 || byts r 8 8 % 128 ≠ 0 || byts r 16 8 % 32 ≠ 0 || ntasks = 0 || ntasks > 2 ^ 31 || byts r 32 1 > 7 || flags > 3
    || dlevel > 5 || byts r 35 1 ≠ 0 || byts r 46 2 ≠ 0 || badKernel kd
    || (dlevel = 0 && dsize ≠ 0) || (dlevel ≠ 0 && (!bitOf flags 0 || dsize = 0 || ntasks % dsize ≠ 0)) || (dlevel = 5 && !grouped)
/-- The units of a domain level, each a list of cores: dies from the context's home die upward (R288). -/
def unitsOf (home level : Nat) : List (List Nat) :=
  let dies := (List.range 4).map (fun i => (home + i) % 4)
  match level with
  | 1 => dies.flatMap (fun d => (List.range 48).map (fun i => [48 * d + i]))
  | 2 => dies.flatMap (fun d => (List.range 12).map (fun q => (List.range 4).map (fun i => 48 * d + 4 * q + i)))
  | 3 => dies.map (fun d => (List.range 48).map (fun i => 48 * d + i))
  | _ => [dies.flatMap (fun d => (List.range 48).map (fun i => 48 * d + i))]
/-- Tasks of each domain for placing: without a domain level, the launch is one (R288). -/
def Launch.group (l : Launch) : Nat := if l.dlevel = 0 then l.ntasks else l.dsize
/-- Tasks that the cores of a unit hold on an idle package (R276, R288, R417). -/
def State.unitRoom (s : State) (k : Kernel) (cores : List Nat) : Nat :=
  (cores.filter (fun c => !(s.core c).retired)).length * k.strands
/-- A PERSIST launch fits an idle package (R276). -/
def State.fitsIdle (s : State) (home : Nat) (k : Kernel) (dlevel ntasks group : Nat) : Bool :=
  ntasks ≤ group * ((unitsOf home dlevel).map (fun u => s.unitRoom k u / group)).sum
/-- A launch as accepted (R276, R289, R360). -/
def makeLaunch (id r kd args : Nat) (k : Kernel) (pclass c : Nat) (iter : Bool) : Launch :=
  let n := byts r 28 4
  let w0 := 2 ^ 62 / n
  let prio := byts r 32 1
  { id, kdesc := BitVec.ofNat 64 (byts r 0 8), args := BitVec.ofNat 64 (byts r 8 8), compl := byts r 16 8, ntasks := n,
    level := if prio < pclass then prio else pclass, persist := bitOf (byts r 33 1) 0, restart := bitOf (byts r 33 1) 1,
    dlevel := byts r 34 1, dsize := byts r 36 4, gens := (List.range 4).map (fun i => byts r (40 + i) 1),
    ogens := (List.range 2).map (fun i => byts r (44 + i) 1), prods := (List.range 4).map (fun i => byts r (48 + 4 * i) 4),
    argw := (List.range 16).map (fun i => BitVec.ofNat 64 (byts args (8 * i) 8)), tagin := (parseKernel c 0 kd).tagin,
    tagout := k.tagout, returned := 2 ^ 62 - n * w0, status := 0, errcode := none, failed := 0, nextChild := n,
    tasks := (List.range n).map (fun i => { id := i, child := none, die := c % 4, weight := w0, run := .waiting }),
    domains := [], placed := false, iter }
/-- The verdict on a launch (R276): STATUS and REASON, with the read that failed (context, address, bytes), or what must be waited for, or
an integrity failure at an address. -/
inductive Verdict where
  | answer (status reason : Nat) (failed : Option (Nat × Nat × Nat) := none)
  | accept (c : Nat) (l : Launch)
  | wait (s : State)
  | held (c va : Nat)
  | bad (c va : Nat)
/-- Read for a verdict: every failure refuses with reason 0x05 (R276, R332); one that gave poison is recorded (R426, R450). -/
def State.verdictRead (s : State) (d c va n : Nat) (k : Nat → Verdict) : Verdict :=
  match s.readStruct (.launch d) d c va n 0x0500 with
  | .ok v => k v
  | .wait s1 => .wait s1
  | .held a => .held c a
  | .fault _ _ _ => .answer 3 5 (some (c, va, n))
  | .bad a => .bad c a
/-- The tests of R276 on a launch that arrives at a die. -/
def State.verdict (s : State) (d : Nat) (m : LaunchMsg) : Verdict :=
  let own := ctxIdx m.ctxh
  let gate : Option Verdict := match m.src with
    | .lq _ =>
      if (s.ctx own).life ≠ .live then some (.answer 1 0)
      else if !s.liveHandle m.ctxh then some (.answer 2 0)
      else if m.record.toNat % 64 ≠ 0 || canonVa m.record ≠ m.record then some (.answer 3 1) else none
    | _ => none
  match gate with
  | some v => v
  | none =>
    let judge (r : Nat) : Verdict :=
      let h := byts r 24 4
      let c := ctxIdx h
      let x := s.ctx c
      if (match m.src with | .lq _ => decide (h ≠ m.ctxh) | _ => false) then .answer 3 1
      else if x.life ≠ .live then .answer 1 0
      else if x.gen.toNat ≠ h / 65536 then .answer 2 0
      else s.verdictRead d c (byts r 0 8) 128 (fun kd =>
        s.verdictRead d c (byts r 8 8) 128 (fun args =>
          let k := parseKernel c (byts r 0 8) kd
          let l := makeLaunch x.nextId r kd args k x.pclass c m.iter
          let nxt := nextLaunchId x.nextId
          if launchBad r kd s.pkg.gvalid then .answer 3 1
          else if (match m.src with | .task _ _ _ _ => decide (x.keydom ≠ (s.ctx own).keydom) | _ => false) then .answer 3 4
          else if l.persist && !s.fitsIdle (c % 4) k l.dlevel l.ntasks l.group then .answer 3 3
          else if x.launches.any (fun p => (nxt + 2 ^ 32 - p.id) % 2 ^ 32 > 1024) then .answer 3 2
          else .accept c l))
    match m.made with
    | some r => judge r
    | none => s.verdictRead d own m.record.toNat 64 judge
/-- Deliver a launch's answer to its issuer (R293, R437). -/
def State.answerLaunch (s : State) (m : LaunchMsg) (word : Nat) : State :=
  match m.src with
  | .task n h l t =>
    let st := s.strand n
    if st.ctxh.toNat = h && st.launch.toNat = l && st.task.toNat = t then
      match st.answers.findIdx? (fun a => a.answer.isNone && a.record = m.record) with
      | some i =>
        (match st.answers[i]? with
          | some a => s.setStrand n { st with answers := setNth st.answers i { a with answer := some (BitVec.ofNat 64 word) } }
          | none => s)
      | none => s
    else s
  | .lq pa => s.post (pa + 16) 8 (word + 2 ^ 32) (some 0)
  | .gs => s
/-- The issuer of a launch was torn down with its context (R294): nothing is left to answer, and the launch is discarded. -/
def State.issuerGone (s : State) (m : LaunchMsg) : Bool :=
  match m.src with | .task _ h _ _ => !s.liveHandle h | _ => false
/-- LAUNCH_VALIDATE (R276): the slice of a die judges the oldest launch that reached it. -/
def execLaunchValidate (die : Nat) (s : State) : Host.Outcome State Fault Refusal :=
  match (s.die die).launches with
  | [] => .refused .notEnabled
  | m :: l =>
    let taken : State := s.onDie die (fun x => { x with launches := l })
    let gs (s : State) (ok : Bool) : State := match m.src with
      | .gs => if ok then s else s.gsEvent 4
      | .task _ _ _ _ => s
      | .lq _ => s
    serving (.launch die) (if s.issuerGone m then .next taken
    else match s.verdict die m with
      | .answer st re none => .next ((gs taken false).answerLaunch m (answerWord st re 0))
      | .answer st re (some (c, va, n)) =>
        .next ((gs (taken.recordReads (.launch die) die c va n) false).answerLaunch m (answerWord st re 0))
      | .wait s1 => if s1 = s then .refused .notEnabled else .next s1
      | .held c va => match s.agentHold die c va with | some t => .next t | none => .refused .notEnabled
      | .bad c va => .next (((gs taken false).answerLaunch m (answerWord 3 5 0)).dieFatal die c 0 0 va)
      | .accept c la =>
        let s1 := taken.onCtx c (fun x => { x with
          nextId := nextLaunchId x.nextId, launches := x.launches ++ [la],
          doneIds := x.doneIds.filter (fun p => (nextLaunchId x.nextId + 2 ^ 32 - p) % 2 ^ 32 ≤ 1024) })
        .next ((s1.rejudge c).answerLaunch m (answerWord 0 0 la.id)))
/-- LAUNCH_ANSWER (R293): the oldest answered LAUNCH of a strand writes D and appends its completion. -/
def execLaunchAnswer (strand : Nat) (s : State) : Host.Outcome State Fault Refusal :=
  let st := s.strand strand
  match st.answers.findIdx? (fun a => a.answer.isSome) with
  | none => .refused .notEnabled
  | some i =>
    match st.answers[i]? with
    | some ⟨_, reg, sem, some w⟩ =>
      let st1 := { st with answers := dropNth st.answers i }
      if st.over then .next ((s.setStrand strand st1).settle strand)
      else if st.count sem ≥ 0xFFFF then .refused .notEnabled
      else .next (s.setStrand strand ((st1.write reg (w.setWidth 2048) allLanes 15 false).append sem (some reg) none none))
    | _ => .refused .notEnabled

/-! ## The end of tasks and launches (R281, R290, R292, R332) -/

/-- A record of a task still waits to be written: for its queue's HEAD, or for its line (R290, R345). -/
def State.recordsWait (s : State) (c lid t : Nat) : Bool :=
  let mine (v : Nat) : Bool := byts v 40 8 = lid + t * 2 ^ 32
  s.pkg.fqWait.any (fun q => q.1 = c && mine q.2) || s.pkg.posted.any (fun w => w.ctx = some c && w.n = 64 && mine w.value)
/-- Everything a task that has ended still owes is done, its records among them (R184, R290, R292, R320).
(DEDUCED, log 44) -/
def State.taskQuiet (s : State) (c : Nat) (lid : Nat) (t : Task) (n : Nat) : Bool :=
  let st := s.strand n
  let h := BitVec.ofNat 32 (s.handleOf c)
  let l32 := BitVec.ofNat 32 lid
  let t32 := BitVec.ofNat 32 t.id
  !(st.run = .blocked .ending && st.ctxh = h && st.launch = l32 && st.task = t32)
    && s.mxDone (n / 8) h l32 t32 && !s.recordsWait c lid t.id && t.seen.all (fun k => decide (((s.die (dieOfStrand n)).copy k).loc = 0))
/-- TASK_WEIGHT_RETURN (R290, R292): the weight of a task that has ended and drained returns to its launch.
(DEDUCED, log 44) -/
def execTaskWeightReturn (ctx lid task : Nat) (s : State) : Host.Outcome State Fault Refusal :=
  match s.task? ctx lid task with
  | some (_, t) =>
    match t.run with
    | .ended n =>
      if t.again || !s.taskQuiet ctx lid t n then .refused .notEnabled
      else .next (s.onLaunch ctx lid (fun l =>
        (l.giveBack t.weight).onTask task (fun t => { t with run := .done, weight := 0, seen := [] })))
    | _ => .refused .notEnabled
  | none => .refused .notEnabled
/-- The completion record of a launch (R281).
(DEDUCED, log 66) -/
def Launch.record (l : Launch) (g : Word) : Nat :=
  l.id + l.status * 2 ^ 32 + l.errcode.getD 0 * 2 ^ 64 + l.failed % 2 ^ 32 * 2 ^ 96 + g.toNat * 2 ^ 128
/-- A completion record's write failed (R281, R332): a record of the home die; NOT_PRESENT parks the context and leaves it owed. -/
def State.completionFault (s : State) (c lid rec compl cause detail va : Nat) : State :=
  let s1 := s.dieRecord (c % 4) c lid 0 cause detail (BitVec.ofNat 64 va)
  if cause = 0x10 then s1.onCtx c (fun x => { x with pkf := x.pkf + 1, owed := x.owed ++ [(compl, rec)] }) else s1
/-- A completion record is written, or written again by a RESUME (R281, R347): written, faulted, or still waiting. -/
def State.rewriteOne (s : State) (c : Nat) (q : Nat × Nat) : State :=
  let gone (s : State) : State := s.onCtx c (fun x => { x with rewrite := x.rewrite.filter (fun r => r ≠ q) })
  match s.storeVa (.records c) (c % 4) c q.1 32 q.2 with
  | (s1, none) => gone s1
  | (s1, some .wait) => s1
  | (s1, some (.held va)) => (s1.agentHold (c % 4) c va).getD s1
  | (s1, some (.fault x y va)) => (gone s1).completionFault c (q.2 % 2 ^ 32) q.2 q.1 x y va
  | (s1, some (.bad va)) => (gone s1).dieFatal (c % 4) c (q.2 % 2 ^ 32) 0 va
/-- A launch is complete (R281, steps 1 and 2): its done bit is set and its coarse records go; one of an iteration that has not completed
with STATUS 0 is an event (R385); tasks that name it as a producer are judged. -/
def State.launchDone (s : State) (c : Nat) (l : Launch) : State :=
  let s1 := s.onCtx c (fun x => { x with doneIds := x.doneIds ++ [l.id], launches := x.launches.filter (fun p => p.id ≠ l.id) })
  let s2 := s1.onDie (c % 4) (fun x => { x with coarse := x.coarse.filter (fun r => !(r.ctx = c && r.launch = l.id)) })
  (if l.iter && l.status ≠ 0 then s2.gsEvent 5 else s2).rejudge c
/-- LAUNCH_COMPLETE (R281, R290, R347): all its weight has returned: its steps in order, the record with the time of completion; or its
record, which waits or which a RESUME writes again, is tried once more. -/
def execLaunchComplete (ctx lid : Nat) (s : State) : Host.Outcome State Fault Refusal :=
  serving (.records ctx) (match (s.ctx ctx).launch? lid with
  | none =>
    match (s.ctx ctx).rewrite.find? (fun q => q.2 % 2 ^ 32 = lid) with
    | some q => s.waiting (s.rewriteOne ctx q)
    | none => .refused .notEnabled
  | some l =>
    if l.returned < 2 ^ 62 then .refused .notEnabled
    else
      let s1 := s.launchDone ctx l
      let q := (l.compl, l.record s.gtime)
      .next (if l.compl = 0 then s1 else (s1.onCtx ctx (fun x => { x with rewrite := x.rewrite ++ [q] })).rewriteOne ctx q))

/-! ## Domains (R295, R297) -/

/-- An arrival is complete (R297): what a MARK of KIND AR at its place orders before it is performed; a task that has left its strand
has drained. -/
def State.arrivalDone (s : State) (c lid scope : Nat) (a : Nat × Nat × Nat) : Bool :=
  let st := s.strand a.1
  if st.ctxh.toNat = s.handleOf c && st.launch.toNat = lid && st.task.toNat = a.2.2 && st.run ≠ .free then
    s.releaseOk a.1 a.2.1 scope
  else true
/-- BAR_PHASE_COMPLETE (R295 to R297): the phase's arrivals, with the members that ended before it, reach MEMBERS, and every arrival is
complete. -/
def execBarPhaseComplete (ctx lid didx : Nat) (s : State) : Host.Outcome State Fault Refusal :=
  match (s.ctx ctx).launch? lid with
  | none => .refused .notEnabled
  | some l =>
    let d := l.domain didx
    let members := l.tasks.filter (fun t => t.child.isNone && t.id / l.dsize = didx)
    let gone (t : Task) : Bool := !d.arrived.any (fun a => a.2.2 = t.id)
      && (match t.run with | .ended _ => !t.again | .done => true | _ => false)
    if l.dlevel = 0 || d.arrived.isEmpty || d.arrived.length + (members.filter gone).length < l.dsize
      || !d.arrived.all (s.arrivalDone ctx lid (levelScope l.dlevel)) then .refused .notEnabled
    else
      let s1 := s.onLaunch ctx lid (fun l => { l with domains := upd l.domains didx ⟨d.phase + 1, []⟩ })
      .next (d.arrived.foldl (fun s a => s.onStrand a.1 (fun st =>
        { st with arrivals := st.arrivals.filter (fun b => b.1 ≠ a.2.1) })) s1)

/-! ## Wakes (R356, R357) -/

/-- A task parked by PARK is woken with a reason (R356). -/
def State.wakeTask (s : State) (c lid : Nat) (t : Task) (reason : Nat) : State :=
  match t.parked with
  | .park _ d =>
    let s1 := (s.onCtx c (fun x => { x with pkev := x.pkev - 1 })).onTask c lid t.id (fun t => { t with parked := .no })
    match t.run with
    | .bound n =>
      if (s.strand n).run = .blocked (.parked false) then
        ((s1.onStrand n (fun st => st.write (.s d) (BitVec.ofNat 2048 reason) allLanes 15 false)).unblock n).onDie (dieOfStrand n)
          Die.dropClean
      else s1.onTask c lid t.id (fun t => { t with wakeReg := some (d, reason) })
    | _ => s1.onTask c lid t.id (fun t => { t with wakeReg := some (d, reason) })
  | _ => s
/-- Every task of a context that PARK has parked. -/
def Ctx.parkedTasks (x : Ctx) : List (Nat × Task) :=
  x.launches.flatMap (fun l => (l.tasks.filter (fun t => match t.parked with | .park _ _ => true | _ => false)).map (fun t => (l.id, t)))
/-- A WAKE acts at the home slice (R357). -/
def State.wakeCtx (s : State) (c : Nat) : State :=
  let ts := (s.ctx c).parkedTasks
  let s1 := s.onCtx c (fun x => { x with wake := s.gtime, wakepend := x.wakepend || ts.isEmpty })
  let s2 := ts.foldl (fun s p => s.wakeTask c p.1 p.2 1) s1
  s2.onPkg (fun p =>
    if p.gs.state = .wait && ctxIdx p.gs.ctxh.toNat = c then { p with gs := { p.gs with recheck := true } } else p)
/-- WAKE_REQUEST_ARRIVAL (R357): the first request at a die whose release holds.
(DEDUCED, log 19) -/
def execWakeRequestArrival (die : Nat) (s : State) : Host.Outcome State Fault Refusal :=
  let l := (s.die die).wakes
  match l.findIdx? (fun w => w.f ≠ 0 || s.releaseOk w.strand w.num 4) with
  | none => .refused .notEnabled
  | some i =>
    match l[i]? with
    | none => .refused .notEnabled
    | some w =>
      let s1 := s.onDie die (fun x => { x with wakes := dropNth x.wakes i })
      let c := ctxIdx w.handle
      .next (if !s1.liveHandle w.handle then s1
        else if w.f = 0 then s1.wakeCtx c
        else s1.onCtx c (fun x => { x with wake := if w.f = 1 then w.time else s.gtime + w.time }))
/-- PARK_DEADLINE (R356): a parked task's deadline has come.
(DESIGN CHOICE, log 65) -/
def execParkDeadline (ctx lid task : Nat) (s : State) : Host.Outcome State Fault Refusal :=
  match s.task? ctx lid task with
  | some (_, t) =>
    match t.parked with
    | .park dl _ => if dl ≠ 0 && dl.toNat ≤ s.gtime.toNat then .next (s.wakeTask ctx lid t 2) else .refused .notEnabled
    | _ => .refused .notEnabled
  | none => .refused .notEnabled
/-- TEARDOWN_COMPLETE (R371): every strand of a dying context is FREE. -/
def execTeardownComplete (ctx : Nat) (s : State) : Host.Outcome State Fault Refusal :=
  let x := s.ctx ctx
  if x.life ≠ .dying || !(s.strandsOf ctx).isEmpty then .refused .notEnabled
  else
    let s1 := s.onCtx ctx (fun x => { x with life := .free, destroy := none })
    let s2 := s1.onPkg (fun p => { p with fqWait := p.fqWait.filter (fun q => q.1 ≠ ctx) })
    .next (match x.destroy with
      | some a =>
        let handle := (x.gen.toNat + 65535) % 65536 * 65536 + ctx
        if a = 0 then s2.onQueue 1 (fun q => { q with cons := q.cons + 1 })
        else s2.post a 16 (handle * 2 ^ 32 + s.gtime.toNat * 2 ^ 64) (some 1)
      | none => s2)

end Sys2Proof.Machine
end

