-- ==== Sys2Proof/Machine/Dispatcher.lean ====
section
/-! DEFINITION. The dispatchers: reservations, the choice of a task and its core, bindings, placement, pre-emption, re-execution and
hardware errors (R279, R280, R284 to R288, R332, R352, R353, R360 to R365). -/

namespace Sys2Proof.Machine

/-! ## Reservations made before placement (R288) -/

/-- A launch that holds reservations before its placement, homed on a die. -/
def State.holder (s : State) (home : Nat) : Option (Nat × Nat) :=
  s.strands.findSome? (fun p => match p.2.reserved with
    | some (c, lid, none) => if c % 4 = home then some (c, lid) else none
    | _ => none)
/-- The first candidate of a level, where it is a PERSIST launch not yet placed. -/
def firstUnplaced (l : List (Nat × Nat × Launch × Task)) (lv : Nat) : Option (Nat × Launch) :=
  match l.find? (fun q => q.1 = lv) with
  | some (_, c, x, _) => if x.persist && !x.placed then some (c, x) else none
  | none => none
/-- The PERSIST launch of a home die that takes strands as they become FREE: the one that holds reservations there, or the first
of the highest level. -/
def State.claimant (s : State) (home : Nat) : Option (Nat × Launch) :=
  let l := s.candidates home
  let first := (List.range 8).filterMap (fun i => firstUnplaced l (7 - i))
  match s.holder home with
  | some (c, lid) => first.find? (fun q => q.1 = c && q.2.id = lid)
  | none => first.head?
/-- The core of a strand can take a task of a launch, but for the FREE strand (R285). -/
def State.couldTake (s : State) (core c : Nat) (l : Launch) : Bool :=
  match s.readKernel (.dispatch (c % 4)) (c % 4) c l with
  | .ok v false => (s.core core).admits (parseKernel c l.kdesc.toNat v) (s.boundKernels core none ++ s.pinnedKernels core (c, l.id, 0))
  | _ => false
/-- A strand that became FREE goes to the launch that waits for strands, of the nearest home die counting upward (R288). -/
def State.claimStrand (s : State) (n : Nat) : State :=
  let d := dieOfStrand n
  let taker := if (s.strand n).run ≠ .free || (s.strand n).reserved.isSome then none
    else (List.range 4).findSome? (fun i => (s.claimant ((d + i) % 4)).bind (fun q =>
      if s.couldTake (n / 8) q.1 q.2 then some (q.1, q.2.id, (none : Option Nat)) else none))
  s.onStrand n (fun st => { st with freed := false, reserved := st.reserved <|> taker })
/-- Every strand that became FREE since a dispatcher looked. -/
def State.claims (s : State) : State :=
  ((s.strands.filter (fun p => p.2.freed)).map (fun p => p.1)).foldl State.claimStrand s

/-! ## Placing a PERSIST launch (R288) -/

/-- The lowest-numbered strand of a core that is free to a launch's task and not yet assigned. -/
def State.spareStrand (s : State) (core c lid t : Nat) (taken : List (Nat × Nat)) : Option Nat :=
  (firstIdx (fun k => let n := 8 * core + k
    (s.strand n).freeFor c lid t && !taken.any (fun a => a.1 = n)) 8 0).map (fun k => 8 * core + k)
/-- Tasks assigned to a core so far. -/
def assignedOn (core : Nat) (taken : List (Nat × Nat)) : Nat := (taken.filter (fun a => a.1 / 8 = core)).length
/-- A core can hold one more task of a launch being placed (R285, R288). -/
def State.placeable (s : State) (core c : Nat) (l : Launch) (t : Task) (k : Kernel) (taken : List (Nat × Nat)) : Bool :=
  !t.banned.contains core && (s.spareStrand core c l.id t.id taken).isSome
    && (s.core core).admits k (s.boundKernels core none ++ s.pinnedKernels core (c, l.id, t.id)
      ++ List.replicate (assignedOn core taken) k)
/-- The core with the fewest bound and assigned strands, lowest first (R286, R288). -/
def State.leastPlaced (s : State) (taken : List (Nat × Nat)) : List Nat → Option Nat
  | [] => none
  | c :: l =>
    match s.leastPlaced taken l with
    | none => some c
    | some b => if s.load b + assignedOn b taken < s.load c + assignedOn c taken then some b else some c
/-- Place one task in a unit: the hinted cores of the unit first, then the rest of it (R286, R288). -/
def State.placeTask (s : State) (c : Nat) (l : Launch) (k : Kernel) (unit : List Nat) (t : Task) (taken : List (Nat × Nat)) :
    Option (List (Nat × Nat)) :=
  let groups := (s.searchCores (c % 4) c l t).map (fun g => g.filter (fun x => unit.contains x)) ++ [unit]
  (groups.findSome? (fun g => s.leastPlaced taken (g.filter (fun x => s.placeable x c l t k taken)))).bind (fun core =>
    (s.spareStrand core c l.id t.id taken).map (fun n => taken ++ [(n, t.id)]))
/-- Place the tasks of a domain in a unit. -/
def State.placeUnit (s : State) (c : Nat) (l : Launch) (k : Kernel) (unit : List Nat) :
    List Task → List (Nat × Nat) → Option (List (Nat × Nat))
  | [], taken => some taken
  | t :: ts, taken => (s.placeTask c l k unit t taken).bind (s.placeUnit c l k unit ts)
/-- Place the domains from `i` on, each in the lowest-numbered unit that can hold it (R288). -/
def State.placeDomains (s : State) (c : Nat) (l : Launch) (k : Kernel) : Nat → Nat → List (Nat × Nat) → Option (List (Nat × Nat))
  | 0, _, taken => some taken
  | m + 1, i, taken =>
    let ts := l.tasks.filter (fun t => t.id / l.group = i)
    match (unitsOf (c % 4) l.dlevel).findSome? (fun u => s.placeUnit c l k u ts taken) with
    | none => none
    | some taken' => State.placeDomains s c l k m (i + 1) taken'
/-- The placement: a strand for every task, or none. -/
def State.placement (s : State) (c : Nat) (l : Launch) (k : Kernel) : Option (List (Nat × Nat)) :=
  s.placeDomains c l k ((l.ntasks + l.group - 1) / l.group) 0 []
/-- Reserve the strands of a placement; the launch's earlier reservations end. -/
def State.reserveAll (s : State) (c lid : Nat) (plan : List (Nat × Nat)) : State :=
  let s1 := plan.foldl (fun s a => s.onStrand a.1 (fun st => { st with reserved := some (c, lid, some a.2) })) s
  (s1.unreserve (fun r => r.1 = c && r.2.1 = lid && r.2.2 = none)).onLaunch c lid (fun l => { l with placed := true })

/-! ## A binding that cannot be made (R332) -/

/-- A task that is on no strand ends with STATUS 3; a checkpoint it holds is released. -/
def State.endOff (s : State) (c lid t : Nat) : State :=
  let area := (s.task? c lid t).bind (fun p => p.2.area)
  ((s.onCtx c (fun x => x.releaseArea area)).onTask c lid t (fun t => { t with area := none, parked := .no })).endLoose c lid t 3
/-- A task that is not on a strand ends, all of an unplaced PERSIST launch with it. -/
def State.endCandidate (s : State) (l : Launch) (t : Task) (f : State → Nat → State) : State :=
  if l.persist && !l.placed then l.tasks.foldl (fun s k => f s k.id) s else f s t.id
/-- NOT_PRESENT in a task's kernel descriptor or images: a record, the context parks, and the task waits for RESUME. -/
def State.bindPark (s : State) (d c : Nat) (l : Launch) (t : Task) (detail va : Nat) : State :=
  ((s.dieRecord d c l.id t.id 0x10 detail (BitVec.ofNat 64 va)).onCtx c (fun x => { x with pkf := x.pkf + 1 })).onTask c l.id t.id
    (fun t => { t with held := true, run := .ready })
/-- Any other failure: the task ends with a record. -/
def State.bindEnd (s : State) (d c : Nat) (l : Launch) (t : Task) (cause detail va : Nat) : State :=
  s.endCandidate l t (fun s k => (s.dieRecord d c l.id k cause detail (BitVec.ofNat 64 va)).endOff c l.id k)

/-- What a failed read at binding does. -/
def State.bindFault (s : State) (d c : Nat) (l : Launch) (t : Task) (cause detail va : Nat) : State :=
  if cause = 0x10 then s.bindPark d c l t detail va else s.bindEnd d c l t cause detail va

/-! ## The choice of a cycle (R284, R286) -/

/-- What one cycle's choice came to: the machine, and the first candidate found without an eligible core, with its kernel. -/
structure Choice where
  s : State
  starved : Option (Nat × Launch × Task × Kernel)
/-- The strand reserved for a task of a placed PERSIST launch. -/
def State.reservedFor (s : State) (c lid t : Nat) : Option Nat :=
  (s.strands.find? (fun p => p.2.reserved = some (c, lid, some t))).map (fun p => p.1)
/-- The core a candidate would be bound on. -/
def State.coreFor (s : State) (d c : Nat) (l : Launch) (t : Task) (k : Kernel) : Option Nat :=
  match (if l.persist then s.reservedFor c l.id t.id else none) with
  | some n => if s.eligible (n / 8) c l.id t k then some (n / 8) else none
  | none =>
    if t.area.isSome && k.pins then (if s.eligible t.core c l.id t k then some t.core else none)
    else s.chooseCore d c l t k
/-- The first of the hints that a candidate's choice needs and that still waits (R286, R337): of every task of a launch to be placed, of
no task whose strand or core is settled. -/
def State.hintWait (s : State) (d c : Nat) (l : Launch) (t : Task) (k : Kernel) : Hint :=
  let ts := if l.persist then (if l.placed then [] else l.tasks) else if t.area.isSome && k.pins then [] else [t]
  (ts.findSome? (fun t => match s.hint d c l t with | .held va => some (.held va) | .wait s1 => some (.wait s1) | _ => none)).getD .none
/-- Send a binding to a core (R287). -/
def State.offer (s : State) (d core c lid t : Nat) : State :=
  (s.onTask c lid t (fun t => { t with run := .offered })).onCore core (fun co => { co with bindings := co.bindings ++ [(d, c, lid, t)] })
/-- Go through the candidates in order; the first that is bound, or that spends the binding otherwise, ends the cycle. -/
def State.choose (s : State) (d : Nat) : List (Nat × Nat × Launch × Task) → Option (Nat × Launch × Task × Kernel) → Choice
  | [], starved => ⟨s, starved⟩
  | (_, c, l, t) :: rest, starved =>
    match s.structRead (.dispatch d) d c l.kdesc.toNat 128 0x0500 with
    | (s1, .fault x y va) => ⟨s1.bindFault d c l t x y va, starved⟩
    | (_, .bad va) => ⟨s.dieFatal d c l.id t.id va, starved⟩
    | (_, .held va) => (match s.agentHold d c va with
        | some s1 => ⟨s1, starved⟩
        | none => s.choose d rest starved)
    | (_, .wait s1) => if s1 = s then s.choose d rest starved else ⟨s1, starved⟩
    | (_, .ok v) =>
      let k := parseKernel c l.kdesc.toNat v
      match s.hintWait d c l t k with
      | .held va => (match s.agentHold d c va with
          | some s1 => ⟨s1, starved⟩
          | none => s.choose d rest starved)
      | .wait s1 => if s1 = s then s.choose d rest starved else ⟨s1, starved⟩
      | _ =>
        if l.persist && !l.placed then
          match s.placement c l k with
          | some plan => ⟨s.reserveAll c l.id plan, starved⟩
          | none => s.choose d rest starved
        else match s.coreFor d c l t k with
          | some core => ⟨s.offer d core c l.id t.id, starved⟩
          | none => s.choose d rest (starved <|> some (c, l, t, k))

/-! ## Pre-emption (R358, R361, R362) -/

/-- The remaining estimate of a strand's task (R358). -/
def Strand.remaining (st : Strand) : Nat :=
  if st.est = 0xFFFFFFFFFFFFFFFF then 2 ^ 64 - 1 else st.est.toNat - (st.scyc - st.estBase).toNat
/-- A core is eligible for a task once a strand of it is FREE, its task counted as pinned there (R361). -/
def State.eligibleFreed (s : State) (n c lid : Nat) (t : Task) (k : Kernel) (v : Task) : Bool :=
  let core := n / 8
  (!(t.area.isSome && k.pins) || t.core = core) && !t.banned.contains core
    && (match (s.strand n).reserved with | none => true | some r => r = (c, lid, some t.id))
    && (s.core core).admits k (s.boundKernels core (some n) ++ s.pinnedKernels core (c, lid, t.id)
      ++ (v.kernel.filter Kernel.pins).toList)
/-- The victims for a task, with level, remaining estimate and strand. -/
def State.victims (s : State) (d c : Nat) (l : Launch) (t : Task) (k : Kernel) : List (Nat × Nat × Nat) :=
  let cores := (s.searchCores d c l t).flatten
  s.strands.filterMap (fun p =>
    if !cores.contains (p.1 / 8) then none
    else match s.taskOf p.1 with
      | some (lv, v) =>
        if v.run = .bound p.1 && p.2.run ≠ .blocked .saving && lv.level < l.level && !lv.persist && s.eligibleFreed p.1 c l.id t k v then
          some (lv.level, p.2.remaining, p.1)
        else none
      | none => none)
/-- One victim goes before another (R361). -/
def victimBefore (a b : Nat × Nat × Nat) : Bool :=
  a.1 < b.1 || (a.1 = b.1 && (a.2.1 > b.2.1 || (a.2.1 = b.2.1 && a.2.2 > b.2.2)))
/-- The victim R361 takes. -/
def bestVictim : List (Nat × Nat × Nat) → Option (Nat × Nat × Nat)
  | [] => none
  | a :: l => match bestVictim l with | none => some a | some b => if victimBefore b a then some b else some a
/-- A bound task is discarded to be executed again (R364). -/
def State.discard (s : State) (n : Nat) : State :=
  let st := s.strand n
  let s0 := match s.taskOf n with | some (_, t) => s.unpark (s.ctxOf n) t | none => s
  let s1 := (s0.gsTaskEvent (s.ctxOf n) st.launch.toNat 3).onTaskOf n (fun t =>
    { t with run := .ended n, again := true, core := n / 8, parked := .no, wakeReg := none, seen := st.seen, nvFail := t.nvFail ++ st.nvFail })
  (s1.abandonOf n).dropStrand n
/-- Pre-empt a victim for a task (R362). -/
def State.preempt (s : State) (c lid t n : Nat) : State :=
  let st := s.strand n
  let s1 := ((s.onCtx c (fun x => { x with tokens := x.tokens - 1 })).onTask c lid t (fun t => { t with preempting := true })).onStrand n
    (fun st => { st with reserved := some (c, lid, some t) })
  let restart := match s.taskOf n with | some (l, _) => l.restart | none => false
  if st.remaining ≤ s.pkg.draint then s1
  else if restart && st.scyc.toNat < s.pkg.killt then (s1.discard n).select (n / 8)
  else if (s.ctx (s.ctxOf n)).freeArea.isSome then
    -- a victim that is not ACTIVE is not switched out, and keeps the reason of its last switch (R19)
    (s1.leave n (.blocked .saving) (if st.run = .active then 0xF1 else st.swhy)).onStrand n (fun st => { st with save := some (.preempt c lid t) })
  else s1
/-- The pre-emption of a cycle (R361). -/
def State.considerPreempt (s : State) (d : Nat) : Option (Nat × Launch × Task × Kernel) → State
  | none => s
  | some (c, l, t, k) =>
    if (s.ctx c).tokens = 0 || t.preempting || (s.ctx c).life ≠ .live then s
    else match bestVictim (s.victims d c l t k) with
      | some (_, _, n) => s.preempt c l.id t.id n
      | none => s
/-- DISPATCH_CYCLE (R284, R286, R288, R355, R361): one cycle of a die's dispatcher; one whose binding a CSWITCH has taken makes none.
(DEDUCED, log 45, 47) -/
def execDispatchCycle (die : Nat) (s : State) : Host.Outcome State Fault Refusal :=
  if s.pkg.viral then .refused .notEnabled else
  let s1 := s.claims
  let r := if (s.die die).spent then ⟨s1.onDie die (fun x => { x with spent := false }), none⟩
    else s1.choose die (s1.candidates die) none
  let s2 := r.s.considerPreempt die r.starved
  if s2 = s then .refused .notEnabled else .next (s2.used (.dispatch die))

/-! ## Binding (R279, R280, R285, R287, R352, R353) -/

/-- DOMAIN of a task (R280). -/
def domainWord (l : Launch) (t : Task) : Word :=
  if l.dlevel = 0 || t.child.isSome then 0
  else BitVec.ofNat 64 (t.id % l.dsize + t.id / l.dsize * 2 ^ 21 + l.dsize * 2 ^ 40 + l.dlevel * 2 ^ 61)
/-- The scalar registers the dispatcher writes, by number (R279). -/
def bindRegs (l : Launch) (t : Task) (slot : Nat) : List (Nat × Word) :=
  let nat (n : Nat) : Word := BitVec.ofNat 64 n
  let args := (List.range 16).map (fun i => (7 + i, l.argw.getD i 0))
  match t.child with
  | some (a, _, c) => [(1, a), (2, l.args), (3, nat slot), (4, c)] ++ args
  | none =>
    let ins := (l.inputs t.id).mapIdx (fun i k => (23 + i, nat (k.getD 0)))
    let outs := (List.range 2).map (fun i => (27 + i, nat (slotKey (l.tagout.getD i 0) (l.ogens.getD i 0) l.argw t.id)))
    [(1, nat t.id), (2, l.args), (3, nat slot), (4, 0)] ++ args ++ ins ++ outs
/-- A strand as a task begins on it (R11, R279). -/
def State.begun (s : State) (c : Nat) (l : Launch) (t : Task) (k : Kernel) (slot : Nat) : Strand :=
  let st : Strand := {}
  let st1 := (bindRegs l t slot).foldl (fun st p => if p.2 = 0 then st else { st with s := upd st.s p.1 p.2 }) st
  { st1 with
    ctxh := BitVec.ofNat 32 (s.handleOf c), launch := BitVec.ofNat 32 l.id, task := BitVec.ofNat 32 t.id, domain := domainWord l t,
    pc := (match t.child with | some (_, some b, _) => b | _ => k.entry), run := .eligible }
/-- The lowest local slot that no other task of the kernel on the core holds (R279). -/
def State.localSlot (s : State) (core : Nat) (k : Kernel) : Nat :=
  let bound := (List.range 8).filterMap (fun i =>
    if (s.strand (8 * core + i)).run = .free then none else (s.taskOf (8 * core + i)).map (fun p => p.2))
  let pinned := s.contexts.flatMap (fun p => p.2.launches.flatMap (fun l => l.tasks.filter (fun t =>
    t.area.isSome && t.core = core && t.kernel.any Kernel.pins)))
  let held := (bound ++ pinned).filterMap (fun t => if t.kernel.any (fun o => o.same k) then some t.slot else none)
  (firstIdx (fun i => !held.contains i) 8 0).getD 0
/-- What loading a kernel's images comes to: the machine with them, or what stops it, with the failures recorded. -/
inductive Loaded where
  | ok (s : State)
  | stop (s : State) (r : Read)
/-- Load a kernel's images where the core does not hold them, as MLDUC and MLDRT would (R285, R197).
(DESIGN CHOICE, log 46) -/
def State.loadImages (s : State) (d c core : Nat) (k : Kernel) : Loaded :=
  if (s.core core).images.contains k then .ok s
  else match s.structRead (.binding core) d c k.micro (8 * k.mcount) 0x0500 with
    | (_, .ok u) => (match s.structRead (.binding core) d c k.rtimg (8 * k.rtcount) 0x0500 with
        | (_, .ok r) =>
          let entry (i : Nat) : Nat := let w := byts r (8 * i) 8
            if fld w 13 33 ≠ 0 && bitOf w 12 then w - 2 ^ 12 else w
          .ok (s.onCore core (fun co => { co with
            images := co.images.filter (fun o => !o.same k && !o.clash k) ++ [k],
            ucode := loop (fun i m => put (0x7000000000000000 : Word) m (k.mfirst + i) (BitVec.ofNat 64 (byts u (8 * i) 8))) k.mcount 0 co.ucode,
            rtab := loop (fun i m => put 0 m (k.rtfirst + i) (BitVec.ofNat 64 (entry i))) k.rtcount 0 co.rtab }))
        | (s1, e) => .stop s1 e)
    | (s1, e) => .stop s1 e
/-- A binding succeeds: the strand starts or goes on, and what the binding ends is ended (R284, R287, R319, R362). -/
def State.bind (s : State) (d core n c : Nat) (l : Launch) (t : Task) (k : Kernel) (image : Option Nat) : State :=
  let slot := if t.area.isSome then t.slot else s.localSlot core k
  let old := s.strand n
  let st := s.begun c l t k slot
  let st1 := match image with
    | none => st
    | some v =>
      let st2 := { st.restore v t.ret t.zbytes with run := .eligible, barPhase := old.barPhase, barWait := old.barWait }
      match t.wakeReg with
      | some (r, w) => st2.write (.s r) (BitVec.ofNat 2048 w) allLanes 15 false
      | none => st2
  let s1 := s.setStrand n { st1 with gnum := old.gnum, nvFail := t.nvFail }
  let s2 := s1.onTask c l.id t.id (fun t => { t with
    run := .bound n, kernel := some k, area := none, core, slot, wakeReg := none, preempting := false, nvFail := [], ret := false, zbytes := [],
    swap := none })
  let s3 := s2.onCtx c (fun x => x.releaseArea t.area)
  let s4 := s3.unreserve (fun r => r = (c, l.id, some t.id))
  let s5 := s4.onDie d (fun x => { x with turn := upd x.turn l.level c })
  if t.acquire || t.area.isSome then s5.onDie (dieOfCore core) Die.dropClean else s5
/-- A refused or failed binding: the task is READY again, and a strand that a CSWITCH kept for it is no longer kept. -/
def State.unoffer (s : State) (c lid t : Nat) : State :=
  let s1 := s.onTask c lid t (fun t => { t with run := .ready, swap := none })
  match (s.task? c lid t).bind (fun p => p.2.swap) with
  | some n => s1.onStrand n (fun st => if st.reserved = some (c, lid, some t) then { st with reserved := none, freed := true } else st)
  | none => s1
/-- Judge a binding that arrived at a core (R287): none of a task of a PARKED context is made (R343); none while it waits for an
answer. A restore reads the whole save area (R353), whose pages must be of domain 0 or the context's (R399).
(DESIGN CHOICE, log 90) -/
def State.judgeBinding (s : State) (core d c : Nat) (l : Launch) (t : Task) : Option State :=
  let back (s : State) : State := s.unoffer c l.id t.id
  let stopped (s1 : State) (r : Read) : Option State := match r with
    | .fault x y va => some ((back s1).bindFault d c l t x y va)
    | .bad va => some ((back s).dieFatal d c l.id t.id va)
    | .held va => (s.agentHold d c va)
    | .wait s1 => if s1 = s then none else some s1
    | .ok _ => some (back s)
  let ends (cause detail : Nat) : Option State := some (((back s).dieRecord d c l.id t.id cause detail 0).endOff c l.id t.id)
  match s.structRead (.binding core) d c l.kdesc.toNat 128 0x0500 with
  | (_, .ok v) =>
    let k := parseKernel c l.kdesc.toNat v
    if (s.ctx c).state = 2 || !s.eligible core c l.id t k then some (back s)
    else match s.keptStrand core c l t <|> s.strandFor core c l.id t.id with
      | none => some (back s)
      | some n =>
        match s.loadImages d c core k with
        | .stop s1 r => stopped s1 r
        | .ok s1 =>
          match t.area with
          | none => some (s1.bind d core n c l t k none)
          | some a =>
            let pa := (s.ctx c).areaPa a
            if !s.areaOk c pa then ends 0x11 0x0900
            else match s1.readPa pa 24576 with
            | .ok v false => some (s1.bind d core n c l t k (some v))
            | .ok _ true => ends 0x16 0x0702
            | .bad _ => some (((back s).countInt pa 24576).dieLost d c l.id t.id 0)
            | .wait s2 => if s2 = s then none else some s2
            | _ => none
  | (s1, r) => stopped s1 r
/-- A binding's turn at its core: ascending source die (R287). -/
def Core.nextBinding (co : Core) : Option (Nat × Nat × Nat × Nat) :=
  (sortBy (fun (b : Nat × Nat × Nat × Nat) => b.1) co.bindings).head?
/-- BINDING_JUDGE (R287): the next binding at a core is accepted or refused.
(DESIGN CHOICE, log 42; DEDUCED, log 43) -/
def execBindingJudge (core : Nat) (s0 : State) : Host.Outcome State Fault Refusal :=
  if s0.pkg.viral then .refused .notEnabled else
  -- every strand that became FREE is reserved before a binding can take it (R288)
  let s := s0.claims
  match (s.core core).nextBinding with
  | none => .refused .notEnabled
  | some b =>
    let drop (s : State) : State := s.onCore core (fun co => { co with bindings := co.bindings.filter (fun x => x ≠ b) })
    match s.task? b.2.1 b.2.2.1 b.2.2.2 with
    | none => .next (drop s)
    | some (l, t) =>
      match s.judgeBinding core b.1 b.2.1 l t with
      | none => .refused .notEnabled
      | some s1 =>
        -- a binding that still waits for a read keeps its place
        .next ((if ((s1.task? b.2.1 b.2.2.1 b.2.2.2).map (fun p => p.2.run)) = some .offered then s1 else drop s1).used (.binding core))

/-! ## Re-execution and hardware errors (R363 to R365) -/

/-- A task starts over as READY: nothing of its run is left (R364). -/
def Task.fresh (t : Task) : Task :=
  { t with run := .ready, again := false, area := none, kernel := none, parked := .no, wakeReg := none, ret := false, zbytes := [], seen := [] }
/-- TASK_REEXECUTE (R364): a discarded task whose strand has drained becomes READY again. -/
def execTaskReexecute (ctx lid task : Nat) (s : State) : Host.Outcome State Fault Refusal :=
  match s.task? ctx lid task with
  | some (_, t) =>
    match t.run with
    | .ended n =>
      if !t.again || !s.taskQuiet ctx lid t n then .refused .notEnabled else .next (s.onTask ctx lid task Task.fresh)
    | _ => .refused .notEnabled
  | none => .refused .notEnabled
/-- A hardware error of a core affects a task (R364, R365). -/
def State.hwTask (s : State) (core c lid : Nat) (t : Task) : State :=
  let restart := match (s.ctx c).launch? lid with | some l => l.restart && t.errors < 4 | none => false
  let mark (s : State) : State := s.onTask c lid t.id (fun t => { t with errors := t.errors + 1, banned := t.banned ++ [core] })
  if restart then
    match t.run with
    | .bound n => mark (s.discard n)
    | _ => mark ((((s.unpark c t).gsTaskEvent c lid 3).onCtx c (fun x => x.releaseArea t.area)).onTask c lid t.id Task.fresh)
  else
    let s2 := s.coreRecord core (BitVec.ofNat 32 (s.handleOf c)) (BitVec.ofNat 32 lid) (BitVec.ofNat 32 t.id) 0xFFFFFFFF 0x16 0x0701 0
    match t.run with
    | .bound n => s2.endTask n 3 none
    | _ => (s2.unpark c t).endOff c lid t.id
/-- The tasks a hardware error of a core affects: bound on it or pinned to it (R363). -/
def State.hwTasks (s : State) (core : Nat) : List (Nat × Nat × Task) :=
  s.contexts.flatMap (fun p => p.2.launches.flatMap (fun l => (l.tasks.filter (fun t =>
    match t.run with
    | .bound n => decide (n / 8 = core)
    | .ready => t.area.isSome && decide (t.core = core) && t.kernel.any Kernel.pins
    | .offered => t.area.isSome && decide (t.core = core) && t.kernel.any Kernel.pins
    | _ => false)).map (fun t => (p.1, l.id, t))))
/-- A core's hardware error: each affected task starts over or ends, and bindings on their way to it for them are gone. -/
def State.hardwareError (s : State) (core : Nat) : State :=
  let ts := s.hwTasks core
  let s1 := ts.foldl (fun s q => s.hwTask core q.1 q.2.1 q.2.2) s
  let s2 := s1.onCore core (fun co => { co with
    bindings := co.bindings.filter (fun b => !ts.any (fun q => q.1 = b.2.1 && q.2.1 = b.2.2.1 && q.2.2.id = b.2.2.2)) })
  s2.select core
/-- CORE_HARDWARE_ERROR (R363). -/
def execCoreHardwareError (core : Nat) (s : State) : Host.Outcome State Fault Refusal := .next (s.hardwareError core)
/-- CORE_PARITY_ERROR (R228, R208, R330): in the core's structures, a hardware error, after which the tag table and the watermark
channels are reset; in a sector of the instruction cache, that sector is dropped; in a scratchpad atom, a corrected error is counted
and an uncorrectable one poisons the atom and is counted. -/
def execCoreParityError (hit : CoreHit) (s : State) : Host.Outcome State Fault Refusal :=
  let core := hit.core
  .next (match hit.err with
    | .held => (s.hardwareError core).onCore core (fun co => { co with tags := [], vptr := 0, wm := [] })
    | .icache asid va => s.onCore core (fun co => { co with icache := del co.icache (icacheKey asid va) })
    | .spad _ true => s.onCore core (fun co => { co with ce := co.ce + 1 })
    | .spad a false => s.onCore core (fun co => { co with ue := co.ue + 1, spadP := put false co.spadP (a % 12288) true }))
/-- An uncorrectable error poisons an atom the atomic engine holds (R272). -/
def Cluster.poisonAtom (x : Cluster) (sector atom : Nat) : Cluster :=
  { x with store := x.store.map (fun a => if a.sector = sector then { a with poison := a.poison ||| ((1 : BitVec 4) <<< (atom % 4)) } else a) }
/-- An uncorrectable error poisons a row of the result ring (R272). -/
def Cluster.poisonRow (x : Cluster) (slot pos : Nat) : Cluster :=
  let r := x.slot slot
  x.setSlot slot { r with poison := put false r.poison pos true }
/-- CLUSTER_PARITY_ERROR (R272): in engine state, a hardware error of each core of the mask: its commands are abandoned, its channels
and ring slots reset, and the atomic engine's tags where the error is there; in an atom of the atomic engine or a row of the ring,
the atom or row is poisoned.
(DEDUCED, log 56) -/
def execClusterParityError (cluster : Nat) (err : ClusterErr) (s : State) : Host.Outcome State Fault Refusal :=
  match err with
  | .atom sector a => .next (s.onCluster cluster (fun x => x.poisonAtom sector a))
  | .row slot pos => .next (s.onCluster cluster (fun x => x.poisonRow slot pos))
  | .state mask engine =>
    let hit (q : Nat) : Bool := bitOf mask q
    let s1 := ((List.range 32).filter (fun k => hit (k / 8))).foldl (fun s k => s.abandonOf (32 * cluster + k)) s
    let s2 := s1.onCluster cluster (fun x => { x with
      store := if engine then [] else x.store,
      chans := x.chans.map (fun p => if hit (p.1 / 16) then (p.1, { p.2 with bound := none, stage := 0 }) else p),
      ring := x.ring.filter (fun p => match p.2.state with | .opened q => !hit (q % 4) | _ => true) })
    .next (((List.range 4).filter hit).foldl (fun s q => s.hardwareError (4 * cluster + q)) s2)

end Sys2Proof.Machine
end

