-- ==== Sys2Proof/Machine/HostQueue.lean ====
section
/-! DEFINITION. The queues the host fills: their heads, completions and errors; invalidation requests (R329, R330, R435 to R437,
R440). -/

namespace Sys2Proof.Machine

/-! ## Heads and completions -/

/-- A completion address is 0 or a multiple of 16 in host memory or local HBM4E (R335, R344). -/
def usableCompl (a : Nat) : Bool := a = 0 || (a % 16 = 0 && (window a = .host || window a = .hbm))
/-- A queue's entry may have this COMPL (R335, R344, R437): for IQ the rule is the multiple of 16 alone. -/
def usableFor (k a : Nat) : Bool := if k = 3 then decide (a % 16 = 0) else usableCompl a
/-- A range lies wholly in host memory or in local HBM4E. -/
def inHostOrHbm (a n : Nat) : Bool :=
  (window a = .host && window (a + n - 1) = .host) || (window a = .hbm && window (a + n - 1) = .hbm)
/-- A queue has an entry to process: the one before it is passed once its result is written (R436). -/
def State.hasHead (s : State) (k : Nat) : Bool :=
  let q := s.pkg.queue k
  q.en && q.held ≠ 0 && s.pkg.unposted k = 0 && !s.pkg.viral
/-- The address of a queue's oldest entry. -/
def State.headPa (s : State) (k : Nat) : Nat := let q := s.pkg.queue k
  q.entry k q.cons.toNat
/-- CONS passes the oldest entry (R436). -/
def State.passEntry (s : State) (k : Nat) : State := s.onQueue k (fun q => { q with cons := q.cons + 1 })
/-- The oldest entry of a queue ends: its 16-byte completion is written, if it has an address, with STATUS, HANDLE and GTIME, and then
CONS passes it (R344, R436, R437).
(DEDUCED, log 66) -/
def State.completion (s : State) (k compl status handle : Nat) : State :=
  if compl = 0 then s.passEntry k else s.post compl 16 (status + handle * 2 ^ 32 + s.gtime.toNat * 2 ^ 64) (some k)

/-- Process the oldest entry of a queue (R436): an unusable COMPL is reported; otherwise `act` decides on the entry's bytes, poisoned
or not. `mine` tells which codes this step takes. An entry whose sector fails its integrity check makes the package viral (R400).
(DEDUCED, log 79) -/
def State.takeEntry (s : State) (k complOff : Nat) (mine : Nat → Bool → Bool)
    (act : State → Nat → Bool → Nat → Host.Outcome State Fault Refusal) : Host.Outcome State Fault Refusal :=
  if !s.hasHead k then .refused .notEnabled
  else match s.readPa (s.headPa k) (entrySize k) with
    | .ok v poison =>
      let compl := byts v complOff 8
      if !mine v poison then .refused .notEnabled
      else if !usableFor k compl then .next ((s.queueErr k).passEntry k)
      else act s v poison compl
    | .wait s1 => s.waiting s1
    | .bad a => .next (s.structBad a (entrySize k))
    | _ => .refused .notEnabled

/-! ## Invalidation (R329, R330) -/

/-- Which translations a request covers. -/
inductive Cover where
  | pages (asid page n : Nat)
  | asid (a : Nat)
  | all
  deriving DecidableEq, Repr
/-- A request covers a virtual page of an address space. -/
def Cover.has (c : Cover) (asid page : Nat) : Bool :=
  match c with
  | .pages a p n => a = asid && p ≤ page && page < p + n
  | .asid a => a = asid
  | .all => true
/-- A request covers a walker-cache entry of an address space. -/
def Cover.hasTable (c : Cover) (asid : Nat) : Bool :=
  match c with | .pages a _ _ => a = asid | .asid a => a = asid | .all => true
/-- The address space of a request that a Hod turn or an engine has sent to a peer. -/
def State.peerAsid (s : State) (q : PeerOut) : Option Nat :=
  match q.hod, q.engine with
  | some (cl, ch), _ => (((s.cluster cl).chan ch).queue.head?).map (fun m => (s.ctx m.ctx).asid)
  | none, some (_, a) => some (s.ctx a.ctx).asid
  | none, none => none
/-- Accesses translated before the request are performed (R329): none of a covered page is left in a strand's queues, and no turn of the
Hod or read of an engine in a covered address space waits for a peer. -/
def State.drainedFor (s : State) (c : Cover) : Bool :=
  !s.strands.any (fun p =>
    let asid := (s.ctx (ctxIdx p.2.ctxh.toNat)).asid
    p.2.entries.any (fun g => g.size ≠ 0 && c.has asid (fld g.va.toNat 16 41)))
  && !s.pkg.peers.any (fun q => (s.peerAsid q).any c.hasTable)
/-- Drop what a request covers: TLBs, walker caches, instruction caches and walk answers; held accesses of its pages walk again. -/
def State.dropCover (s : State) (c : Cover) : State :=
  let tlb (m : SMap TlbEntry) : SMap TlbEntry := m.filter (fun p => !c.has (p.1 / 2 ^ 41) (p.1 % 2 ^ 41))
  { s with
    cores := s.cores.map (fun p => (p.1, { p.2 with
      tlb := tlb p.2.tlb, icache := p.2.icache.filter (fun q => !c.has (q.1 / 2 ^ 50) (q.1 % 2 ^ 50 / 512)) }))
    dies := s.dies.map (fun p => (p.1, { (p.2.release c.has) with
      tlb := tlb p.2.tlb, walker := p.2.walker.filter (fun q => !c.hasTable (q.1 / 2 ^ 52)) }))
    strands := s.strands.map (fun p => (p.1, { p.2 with walk := p.2.walk.filter (fun a =>
      !c.has (s.ctx (ctxIdx p.2.ctxh.toNat)).asid (fld a.va.toNat 16 41)) })) }
/-- Every sector that an atomic engine holds can go back to its home now (R406). -/
def State.canRecallAll (s : State) : Bool := s.clusters.all (fun p => p.2.store.all (fun a => s.canRecall a.sector))
/-- Every sector that an atomic engine holds goes back to its home (R329). -/
def State.recallAll (s : State) : State :=
  (s.clusters.flatMap (fun p => p.2.store.map (fun a => a.sector))).foldl State.recall s
/-- Reserved bytes of an IQ entry are zero, and so are the fields its OP does not use (R437). -/
def iqFields (v : Nat) : Bool :=
  byts v 1 3 = 0 && byts v 6 2 = 0 && byts v 20 4 = 0
    && (match byts v 0 1 with
      | 1 => canonVa (BitVec.ofNat 64 (byts v 8 8)) = BitVec.ofNat 64 (byts v 8 8) && byts v 8 8 % 65536 = 0
          && 1 ≤ byts v 16 4 && byts v 16 4 ≤ 2 ^ 24
      | 4 => byts v 4 2 = 0 && byts v 8 8 = 0 && byts v 16 4 = 0
      | _ => true)
/-- The invalidation of a migration's second step is still under way (R329, R336). -/
def State.invalidating (s : State) : Bool := s.pkg.migs.any (fun m => decide (m.stage = 1))
/-- Serve the head of IQ where its OP is one of `mine`: invalidations are performed one at a time (R329). -/
def State.serveIq (s : State) (mine : Nat → Bool → Bool) (cover : Nat → Option Cover) : Host.Outcome State Fault Refusal :=
  s.takeEntry 3 24 mine (fun s v poison compl =>
    let finish (s : State) (st : Nat) : Host.Outcome State Fault Refusal := .next (s.completion 3 compl st 0)
    let op := byts v 0 1
    if poison || op = 0 || op > 4 || !iqFields v then finish s 3
    else match cover v with
      | some c =>
        if s.drainedFor c && !s.invalidating && s.canRecallAll then finish ((s.recallAll).dropCover c).walkAll 0 else .refused .notEnabled
      | none => finish { s with cores := s.cores.map (fun p => (p.1, { p.2 with icache := [] })) } 0)
/-- INVALIDATE_RANGE (R329, R437): OP 1; an entry that cannot be read or has no assigned OP is answered here.
(DEDUCED, log 57) -/
def execInvalidateRange (s : State) : Host.Outcome State Fault Refusal :=
  s.serveIq (fun v poison => poison || byts v 0 1 = 1 || byts v 0 1 = 0 || byts v 0 1 > 4) (fun v =>
    some (.pages (byts v 4 2) (fld (byts v 8 8) 16 41) (byts v 16 4)))
/-- INVALIDATE_ASID (R329, R437). -/
def execInvalidateAsid (s : State) : Host.Outcome State Fault Refusal :=
  s.serveIq (fun v poison => !poison && byts v 0 1 = 2) (fun v => some (.asid (byts v 4 2)))
/-- INVALIDATE_ALL (R329, R437). -/
def execInvalidateAll (s : State) : Host.Outcome State Fault Refusal :=
  s.serveIq (fun v poison => !poison && byts v 0 1 = 3) (fun _ => some .all)
/-- ICACHE_INVALIDATE (R330, R437). -/
def execIcacheInvalidate (s : State) : Host.Outcome State Fault Refusal :=
  s.serveIq (fun v poison => !poison && byts v 0 1 = 4) (fun _ => none)

/-! ## Launches from LQ (R437) -/

/-- A launch of LQ is on its way to its home slice. -/
def State.lqBusy (s : State) : Bool :=
  s.dies.any (fun p => p.2.launches.any (fun m => match m.src with | .lq _ => true | _ => false))
/-- LQ_LAUNCH (R437): the oldest entry of LQ goes to its context's home slice; one that cannot be read, whose CTXH fails the first two
rows of R276, or that has a reserved field set is answered here. -/
def execLqLaunch (s : State) : Host.Outcome State Fault Refusal :=
  if !s.hasHead 0 || s.lqBusy then .refused .notEnabled
  else
    let pa := s.headPa 0
    match s.readPa pa 32 with
    | .ok v poison =>
      let answer (st re : Nat) : Host.Outcome State Fault Refusal :=
        .next (s.post (pa + 16) 8 (answerWord st re 0 + 2 ^ 32) (some 0))
      let h := byts v 8 4
      if poison then answer 3 5
      else if (s.ctx (ctxIdx h)).life ≠ .live then answer 1 0
      else if !s.liveHandle h then answer 2 0
      else if byts v 12 4 ≠ 0 || byts v 24 8 ≠ 0 then answer 3 1
      else
        -- what the slice reads next comes from the homes: the entry is read with acquire at .SY (R319, R436)
        .next (s.onDie (ctxIdx h % 4) (fun x =>
          { x.dropClean with launches := x.launches ++ [⟨.lq pa, BitVec.ofNat 64 (byts v 0 8), h, none, false⟩] }))
    | .wait s1 => s.waiting s1
    | .bad a => .next (s.structBad a 32)
    | _ => .refused .notEnabled

end Sys2Proof.Machine
end

