-- ==== Sys2Proof/Machine/Migrate.lean ====
section
/-! DEFINITION. Moving and clearing pages: migrations, Trowel, key domains of pages (R335 to R338, R367 to R370,
R396, R399), cores and stacks that are given up, power and scrubbing (R414, R416, R417, R421). -/

namespace Sys2Proof.Machine

/-! ## Physical pages -/

/-- A sector, as it is named or where it is performed, lies in a 64 KiB page. -/
def State.inPage (s : State) (page sec : Nat) : Bool := sec / 512 = page || s.place (128 * sec) / 65536 = page
/-- Drop every copy of a 64 KiB page's sectors on every die (R336, R399), but for local bytes whose write-throughs are on their way. -/
def State.dropCopies (s : State) (page : Nat) : State :=
  { s with dies := s.dies.map (fun p => (p.1, { p.2 with
      copies := p.2.copies.filterMap (fun q =>
        if !s.inPage page q.1 then some q else if q.2.loc = 0 then none else some (q.1, { q.2 with clean := 0 })),
      flights := p.2.flights.filter (fun f => match f with | .fill k => !s.inPage page k | .through _ _ _ _ _ _ => true) })) }
/-- Agents' writes to a 64 KiB page have arrived (R336): no queued access, no write-through, no held write of it. -/
def State.pageQuiet (s : State) (page : Nat) : Bool :=
  !(s.strands.any (fun p => p.2.entries.any (fun g => g.size ≠ 0 && (s.place g.pa / 65536 = page || g.pa / 65536 = page))))
    && !(s.dies.any (fun p => p.2.flights.any (fun f => match f with
          | .through k _ _ _ _ _ => s.inPage page k
          | .fill _ => false)
        || p.2.heldWrites.any (fun h => decide (s.place h.pa / 65536 = page) || decide (h.pa / 65536 = page))))
/-- Sectors of a page that an atomic engine holds go home. -/
def State.recallPage (s : State) (page : Nat) : State :=
  ((s.clusters.flatMap (fun p => p.2.store.map (fun a => a.sector))).filter (fun k => k / 512 = page)).foldl State.recall s
/-- A sector at its very address fails its integrity check (R400). -/
def State.failing (s : State) (q : Nat) : Bool := look false s.badTag (q / 128)
/-- The poison that the copy engine reads of a sector at its very address (R336, R400, R401, R426, R452). -/
def State.copyPoison (s : State) (q : Nat) : BitVec 4 :=
  let device := window q = .pooled || window q = .nv
  if s.failing q || (s.deadAt q).isSome || (device && s.sectorP (q / 128) ≠ 0) then 15 else s.sectorP (q / 128)
/-- Copy one sector at very addresses (R336): its bytes and the poison of each atom; a new page that no device decodes takes nothing. -/
def State.copySector (s : State) (src dst : Nat) : State :=
  if (s.deadAt dst).isSome then s
  else
    let p := s.copyPoison src
    let s1 := s.cellWrite dst 128 (2 ^ 128 - 1) (getBytes s.mem src 128) false
    { s1 with memP := loop (fun k m => if p.getLsbD k then put false m (dst / 32 + k) true else m) 4 0 s1.memP }
/-- The stack counts each sector of a page whose read failed its integrity check (R396). -/
def State.countPage (s : State) (src : Nat) : State :=
  loop (fun k s => if s.failing (src + 128 * k) then s.onStack (stackOf src) (fun x => { x with int := satAdd 16 x.int 1 }) else s) 512 0 s
/-- Copy a 64 KiB page: the machine, whether poison was met, and whether an integrity failure was. -/
def State.copyPage (s : State) (src dst : Nat) : State × Bool × Bool :=
  let s0 := ((s.recallPage (src / 65536)).recallPage (dst / 65536)).dropCopies (src / 65536)
  let bad := (firstIdx (fun k => s0.failing (src + 128 * k)) 512 0).isSome
  let poison := (firstIdx (fun k => decide (s0.copyPoison (src + 128 * k) ≠ 0)) 512 0).isSome
  let s1 := loop (fun k s => s.copySector (src + 128 * k) (dst + 128 * k)) 512 0 s0
  (s1.countPage src, poison, bad)
/-- Clear a 64 KiB page of HBM4E or pooled memory under a key domain (R399): every sector written as zero. -/
def State.clearPage (s : State) (page dom : Nat) : State :=
  let s0 := (s.recallPage page).dropCopies page
  let a := 65536 * page
  let mine (n : Nat) (k : Nat) : Bool := k / n = page
  { s0 with
    mem := s0.mem.filter (fun p => !mine 65536 p.1)
    memP := s0.memP.filter (fun p => !mine 2048 p.1)
    badTag := s0.badTag.filter (fun p => !mine 512 p.1)
    version := if window a = .hbm then loop (fun k m => put 0 m (a / 128 + k) (look 0 m (a / 128 + k) + 1)) 512 0 s0.version else s0.version
    pkg := { s0.pkg with domains := put 0 s0.pkg.domains page dom } }
/-- Clear a page of the non-volatile tier: its images enter Kiln's buffer.
(DEDUCED, log 51) -/
def State.clearNvPage (s : State) (page dom : Nat) : State :=
  let s1 := loop (fun k s => s.rawWrite (65536 * page + 128 * k) 128 (2 ^ 128 - 1) 0 false none) 512 0 ((s.recallPage page).dropCopies page)
  s1.onPkg (fun p => { p with domains := put 0 p.domains page dom })
/-- KDSET of one page (R399). -/
def State.kdsetPage (s : State) (page dom : Nat) : State :=
  if window (65536 * page) = .nv then s.clearNvPage page dom else s.clearPage page dom
/-- A range of a page can be read or written by the device at its very address. -/
def State.gatePage (s : State) (page : Nat) (write : Bool) : State × Gate := s.gateAt (65536 * page) 65536 write

/-! ## Migration (R335 to R338) -/

/-- 64 KiB pages of a migration. -/
def Mig.pages (m : Mig) : Nat := if m.big then 32 else 1
/-- A migration that has not restarted its leaf. -/
def Mig.open? (m : Mig) : Bool := m.stage = 1 || m.stage = 3
/-- Virtual pages that a migration covers. -/
def Mig.cover (m : Mig) : Cover := .pages m.asid (fld m.va.toNat 16 41) m.pages
/-- A migration in progress overlaps pages of an address space. -/
def State.migrating (s : State) (asid page n : Nat) : Bool :=
  s.pkg.migs.any (fun m => m.open? && m.asid = asid && fld m.va.toNat 16 41 < page + n && page < fld m.va.toNat 16 41 + m.pages)
/-- A leaf as step 1 writes it (R325, R336): V = 0 and MIG = 1. -/
def stopLeaf (w : Nat) : Nat := (if bitOf w 0 then w - 1 else w) + (if bitOf w 6 then 0 else 64)
/-- A leaf as step 4 writes it, from what step 1 wrote (R336): V = 1, MIG = 0 and the new page. -/
def restartLeaf (w new : Nat) : Nat :=
  let w1 := w - fld w 8 44 * 256 + new
  (if bitOf w 6 then w1 - 64 else w1) + (if bitOf w 0 then 0 else 1)
/-- The judgement of a request (R335): the machine and a status; the migration to begin; or the machine with what the walk has asked. -/
inductive MigJudge where
  | status (s : State) (code : Nat)
  | go (m : Mig)
  | wait (s : State)
/-- Judge a request (R335). A page that a migration has stopped is BUSY, as R370 has it.
(DEDUCED, log 50) -/
def State.judgeMig (s : State) (d asid : Nat) (big : Bool) (va : Word) (new compl : Nat) (trowel : Option (Nat × Nat × Bool)) : MigJudge :=
  let size := if big then 0x200000 else 0x10000
  let ends := new + size - 1
  let newOk := new % size = 0 && ((window new = .hbm && window ends = .hbm) || (window new = .pooled && window ends = .pooled))
  let page := fld va.toNat 16 41
  if va.toNat % size ≠ 0 || canonVa va ≠ va || !newOk then .status s 3
  else match s.walk d asid (va.toNat % 2 ^ 57) with
    | .leaf l _ entry =>
      if window l.base = .nv || window l.base = .peer then .status s 3
      else if l.big ≠ big || s.outside l.base then .status s 2
      else if s.migrating asid page (size / 65536) then .status s 1
      else .go ⟨asid, va, big, l.base, new, s.remapped entry, compl, trowel, 1, 0, BitVec.ofNat 64 (stopLeaf (s.hGet entry 8))⟩
    | .replay b => .status s (if b = big && s.migrating asid page (size / 65536) then 1 else 2)
    | .fault _ _ => .status s 2
    | .bad a => .status (s.countInt a 8) 2
    | .wait s1 => .wait s1
/-- Steps 1 and 2 (R336): the leaf is stopped, the translations and copies of the page go, and the new page takes the old one's key
domain. -/
def State.beginMig (s : State) (m : Mig) : State :=
  let s1 := (s.homeRange m.leaf 8 m.word.toNat false none).dropCover m.cover
  let s2 := loop (fun k s => (s.dropCopies (s.remapped (m.old + 65536 * k) / 65536)).onPkg (fun p =>
    { p with domains := put 0 p.domains (m.new / 65536 + k) (look 0 p.domains (m.old / 65536 + k)) })) m.pages 0 s1
  s2.onPkg (fun p => { p with migs := p.migs ++ [m] })
/-- Reserved fields of a migration descriptor are zero (R335). -/
def migFields (v : Nat) : Bool := byts v 2 1 < 2 && byts v 3 5 = 0 && byts v 32 32 = 0
/-- A physical page lies in a stack that is retiring or retired (R415). -/
def State.leavingStack (s : State) (pa : Nat) : Bool :=
  window pa = .hbm && (let k := s.pkg.stack (stackOf pa)
    k.retiring || k.retired)
/-- The page of a pool that Trowel takes: the most recently added that R415 does not keep from it.
(DEDUCED, log 49) -/
def State.takePage (s : State) (toHbm : Bool) : Option Nat :=
  (if toHbm then s.pkg.hpool else s.pkg.ppool).find? (fun p => !s.leavingStack p)
/-- Remove a page from a pool, or put one on it. -/
def State.onPool (s : State) (hbm : Bool) (f : List Nat → List Nat) : State :=
  s.onPkg (fun p => if hbm then { p with hpool := f p.hpool } else { p with ppool := f p.ppool })
/-- Trowel's migrations in flight (R368). -/
def State.trowelCount (s : State) : Nat := (s.pkg.migs.filter (fun m => m.trowel.isSome)).length
/-- A task of a context is READY or bound (R369). -/
def Ctx.busy (x : Ctx) : Bool :=
  x.launches.any (fun l => l.tasks.any (fun t => match t.run with
    | .ready => decide (t.parked = .no)
    | .offered => true
    | .bound _ => true
    | _ => false))
/-- A KV object as its descriptor names it (R367): place in the list, first page, pages, PIN, and whether it may be used. -/
structure KvObj where
  idx : Nat
  va : Nat
  n : Nat
  pin : Bool
  ok : Bool
/-- Where a page of an address space lies: a 64 KiB leaf's address, a 2 MiB leaf, or no mapping; nothing for a page under migration; a
table that fails its integrity check; or the machine with what the walk has asked. -/
inductive PageAt where
  | here (pa : Nat)
  | big
  | unmapped
  | moving
  | bad
  | wait (s : State)
  deriving DecidableEq
/-- A page as the walk of the context's home die finds it. -/
def State.pageAt (s : State) (c va : Nat) : PageAt :=
  match s.walk (c % 4) (s.ctx c).asid (va % 2 ^ 57) with
  | .leaf l _ _ => if l.big then .big else .here l.base
  | .replay _ => .moving
  | .fault _ _ => .unmapped
  | .bad _ => .bad
  | .wait s1 => .wait s1
/-- Virtual addresses of an object's pages. -/
def KvObj.vas (o : KvObj) : List Nat := (List.range o.n).map (fun k => o.va + 65536 * k)
/-- The pages of an object that lie in a window, as moves. -/
def State.moves (s : State) (c : Nat) (o : KvObj) (w : Window) (toHbm : Bool) (vas : List Nat) : List (Nat × Nat × Word × Bool) :=
  vas.filterMap (fun a => match s.pageAt c a with
    | .here pa => if window pa = w then some (c, o.idx, BitVec.ofNat 64 a, toHbm) else none
    | _ => none)
/-- Trowel's next decided move: it is judged as a request of its own (R368). -/
def State.trowelRequest (s : State) : Host.Outcome State Fault Refusal :=
  match s.pkg.trowel with
  | [] => .refused .notEnabled
  | (c, obj, va, toHbm) :: rest =>
    let s1 := s.onPkg (fun p => { p with trowel := rest })
    let x := s.ctx c
    if s.pkg.viral || s.trowelCount ≥ 16 then .refused .notEnabled
    else if x.life ≠ .live || (!toHbm && x.busy) then .next s1
    else match s.pageAt c va.toNat with
      | .wait s2 => s.waiting s2
      | .bad => .next (s1.dieFatal (c % 4) c 0 0 va.toNat)
      | _ =>
        if (s.moves c ⟨obj, 0, 0, false, true⟩ (if toHbm then .pooled else .hbm) toHbm [va.toNat]).isEmpty then .next s1
        else match s.takePage toHbm with
          | none => .next s1
          | some new =>
            match s.judgeMig (c % 4) x.asid false va new 0 (some (c, obj, toHbm)) with
            | .status _ _ => .next s1
            | .wait s2 => s.waiting s2
            | .go m =>
              match s.gateAt m.leaf 8 true with
              | (s2, .waits) => s.waiting s2
              | (s2, _) => .next (((s2.onPkg (fun p => { p with trowel := rest })).onPool toHbm (fun l => l.filter (fun p => p ≠ new))).beginMig m)
/-- The host's next migration (R335, R436): one at a time, in the order of MQ.
(DEDUCED, log 50) -/
def State.hostRequest (s : State) : Host.Outcome State Fault Refusal :=
  if s.pkg.migs.any (fun m => m.trowel.isNone) then .refused .notEnabled
  else s.takeEntry 2 24 (fun _ _ => true) (fun s v poison compl =>
    if poison || !migFields v then .next (s.completion 2 compl 3 0)
    else match s.judgeMig 0 (byts v 0 2) (bitOf (byts v 2 1) 0) (BitVec.ofNat 64 (byts v 8 8)) (byts v 16 8) compl none with
      | .status s1 st => .next (s1.completion 2 compl st 0)
      | .wait s1 => s.waiting s1
      | .go m =>
        match s.gateAt m.leaf 8 true with
        | (s1, .waits) => s.waiting s1
        | (s1, _) => .next (s1.beginMig m))
/-- MIGRATION_REQUEST (R335, R336): the host's or Trowel's next request is judged; steps 1 and 2, whose invalidation is performed once the
one before it is (R329). -/
def execMigrationRequest (trowel : Bool) (s : State) : Host.Outcome State Fault Refusal :=
  if s.invalidating then .refused .notEnabled else if trowel then s.trowelRequest else s.hostRequest
/-- Replace a migration. -/
def State.setMig (s : State) (i : Nat) (m : Mig) : State := s.onPkg (fun p => { p with migs := setNth p.migs i m })
/-- Every 64 KiB page of a migration is ready to be copied, or can never be read or written. -/
def State.gateMig (s : State) (m : Mig) : State × Bool :=
  loop (fun k (r : State × Bool) =>
    match r.1.gateAt (r.1.remapped (m.old + 65536 * k)) 65536 false with
    | (s1, .waits) => (s1, false)
    | (s1, _) =>
      match s1.gateAt (s1.remapped (m.new + 65536 * k)) 65536 true with
      | (s2, .waits) => (s2, false)
      | (s2, _) => (s2, r.2)) m.pages 0 (s, true)
/-- MIGRATION_COPY (R336): step 3, once the accesses to the old page that were translated before have been performed. An integrity
failure ends the migration with status 5 and is fatal to the context that Trowel acts for (R368, R400).
(DEDUCED, log 50) -/
def execMigrationCopy (idx : Nat) (s : State) : Host.Outcome State Fault Refusal :=
  match s.pkg.migs[idx]? with
  | none => .refused .notEnabled
  | some m =>
    if m.stage ≠ 1 || !(List.range m.pages).all (fun k => s.pageQuiet (s.remapped (m.old + 65536 * k) / 65536)) || !s.drainedFor m.cover then
      .refused .notEnabled
    else match s.gateMig m with
      | (s1, false) => s.waiting s1
      | (s1, true) =>
        let r := loop (fun k (r : State × Bool × Bool) =>
          let (s2, p, b) := r.1.copyPage (r.1.remapped (m.old + 65536 * k)) (r.1.remapped (m.new + 65536 * k))
          (s2, r.2.1 || p, r.2.2 || b)) m.pages 0 (s1, false, false)
        let s2 := r.1.setMig idx { m with stage := 3, status := if r.2.2 then 5 else if r.2.1 then 4 else 0 }
        if !r.2.2 then .next s2
        else .next (match m.trowel with
          | some (c, _, _) => if (s2.ctx c).life = .live then (s2.dieRecord (c % 4) c 0 0 0x15 0x0900 m.va).teardown c else s2
          | none => s2)
/-- A physical page list of a shadowed tensor follows a migration (R244, R336). -/
def movePages (m : Mig) (l : SMap Nat) : SMap Nat :=
  l.map (fun p => (p.1, if m.old / 65536 ≤ p.2 && p.2 < m.old / 65536 + m.pages then p.2 - m.old / 65536 + m.new / 65536 else p.2))
/-- Step 4 (R336, R337): the leaf is restarted at the new page, whatever was written to it since, and the held accesses of the page walk
again. -/
def State.restart (s : State) (m : Mig) : State :=
  let s1 := s.homeRange m.leaf 8 (restartLeaf m.word.toNat m.new) false none
  { s1 with
    shadows := s1.shadows.map (fun e => { e with p0 := movePages m e.p0, p1 := movePages m e.p1, pm := movePages m e.pm })
    dies := s1.dies.map (fun p => (p.1, p.2.release m.cover.has)) }
/-- MIGRATION_RESTART (R336): steps 4 and 5; an abandoned migration leaves its leaf stopped. -/
def execMigrationRestart (idx : Nat) (s : State) : Host.Outcome State Fault Refusal :=
  match s.pkg.migs[idx]? with
  | none => .refused .notEnabled
  | some m =>
    if m.stage ≠ 3 then .refused .notEnabled
    else match s.gateAt m.leaf 8 true with
      | (s1, .waits) => s.waiting s1
      | (s1, _) =>
        let s2 := if m.status = 5 then s1 else (s1.restart m).walkAll
        .next (match m.trowel with
          | some _ => s2.setMig idx { m with stage := 4 }
          | none => (s2.onPkg (fun p => { p with migs := dropNth p.migs idx })).completion 2 m.compl m.status 0)

/-! ## Trowel (R367 to R370) -/

/-- What reading a context's KV objects gives: the objects; or what stops Trowel: the machine with requests sent, a page under migration,
or an integrity failure. -/
inductive KvRead where
  | ok (os : List KvObj)
  | wait (s : State)
  | held (va : Nat)
  | bad (va : Nat)
/-- A page of a list whose walk stops Trowel. -/
def State.pagesStop (s : State) (c : Nat) (vas : List Nat) : Option KvRead :=
  vas.findSome? (fun a => match s.pageAt c a with
    | .wait s1 => some (.wait s1)
    | .bad => some (.bad a)
    | _ => none)
/-- A KV object from its descriptor (R367). -/
def State.kvObj (s : State) (c i v : Nat) : KvObj :=
  let o : KvObj := ⟨i, byts v 0 8, byts v 8 4, bitOf (byts v 12 1) 0, true⟩
  let good := byts v 12 1 < 4 && byts v 14 18 = 0 && o.va % 65536 = 0 && 1 ≤ o.n && o.n ≤ 2 ^ 24
  { o with ok := good && !o.vas.any (fun a => decide (s.pageAt c a = .big)) }
/-- The KV objects of some places of a context's list. -/
def State.kvFrom (s : State) (c : Nat) : List Nat → List KvObj → KvRead
  | [], os => .ok os
  | i :: l, os =>
    let a := (s.ctx c).kvlist.toNat + 32 * i
    match s.readVa .trowel (c % 4) c a 32 with
    | .ok v false =>
      let o := s.kvObj c i v
      (match (if o.n ≤ 2 ^ 24 then s.pagesStop c o.vas else none) with
        | some r => r
        | none => s.kvFrom c l (os ++ [o]))
    | .wait s1 => .wait s1
    | .replay => .held a
    | .bad x => .bad x
    | _ => s.kvFrom c l (os ++ [⟨i, 0, 0, false, false⟩])
/-- The KV objects of a context (R367). -/
def State.kvObjs (s : State) (c : Nat) : KvRead := s.kvFrom c (List.range (s.ctx c).kvcount) []
/-- What stops Trowel on a context's list: requests sent, a wait in the replay queue (R337), or the end of the context (R400). -/
def State.kvStop (s : State) (c : Nat) : KvRead → Host.Outcome State Fault Refusal
  | .ok _ => .refused .notEnabled
  | .wait s1 => s.waiting s1
  | .held va => match s.agentHold (c % 4) c va with | some t => .next t | none => .refused .notEnabled
  | .bad va => .next (s.dieFatal (c % 4) c 0 0 va)
/-- Every page of an object lies in a window. -/
def State.allIn (s : State) (c : Nat) (o : KvObj) (w : Window) : Bool :=
  o.vas.all (fun a => match s.pageAt c a with | .here pa => decide (window pa = w) | _ => false)
/-- ALLPOOLED of a context is brought up to date (R342): every page of every KV object lies in pooled memory, and there is one. -/
def State.setPooled (s : State) (c : Nat) (os : List KvObj) : State :=
  let b := !os.isEmpty && os.all (fun o => o.ok && s.allIn c o .pooled)
  s.onCtx c (fun x => { x with allpooled := b })
/-- The wake of a context at a time (R369). -/
def Ctx.wakeAt (x : Ctx) (now : Nat) : Nat :=
  let waiting := x.launches.any (fun l => l.tasks.any (fun t => decide (t.run = .waiting)))
  if x.busy || (x.state = 3 && waiting) then now else x.wake.toNat
/-- The records of a scan (R367, R370, R426): invalid descriptors, with the failures of their reads, and pages that are not mapped. -/
def State.scanRecords (s : State) (c : Nat) (os : List KvObj) : State :=
  let x := s.ctx c
  os.foldl (fun s o =>
    let a := x.kvlist.toNat + 32 * o.idx
    if !o.ok then (s.recordReads .trowel (c % 4) c a 32).dieRecord (c % 4) c 0 0 0x02 0x0703 (BitVec.ofNat 64 a)
    else (o.vas.filter (fun a => decide (s.pageAt c a = .unmapped))).foldl (fun s a =>
      s.dieRecord (c % 4) c 0 0 0x10 0x0704 (BitVec.ofNat 64 a)) s) s
/-- The KV objects of some contexts, or the first that stops Trowel. -/
def State.kvAll (s : State) : List Nat → List (Nat × List KvObj) → Except (Nat × KvRead) (List (Nat × List KvObj))
  | [], qs => .ok qs
  | c :: l, qs =>
    match s.kvObjs c with
    | .ok os => s.kvAll l (qs ++ [(c, os)])
    | r => .error (c, r)
/-- The moves that a scan decides (R369). -/
def State.scanMoves (s : State) (objs : List (Nat × List KvObj)) : List (Nat × Nat × Word × Bool) :=
  let now := s.gtime.toNat
  let up := (sortBy (fun (q : Nat × List KvObj) => (s.ctx q.1).wakeAt now) objs).flatMap (fun q =>
    if (s.ctx q.1).wakeAt now ≤ now + s.pkg.phor then
      (q.2.filter (fun o => o.ok)).flatMap (fun o => s.moves q.1 o .pooled true o.vas)
    else [])
  let down := (sortBy (fun (q : Nat × List KvObj) => (s.ctx q.1).wake.toNat) objs).reverse.flatMap (fun q =>
    let x := s.ctx q.1
    if !x.busy && x.wake.toNat ≥ now + s.pkg.dhor then
      (q.2.filter (fun o => o.ok && !o.pin)).reverse.flatMap (fun o => s.moves q.1 o .hbm false o.vas.reverse)
    else [])
  let ups := up.take s.pkg.hpool.length
  let free := s.pkg.hpool.length - ups.length
  ups ++ (if free < s.pkg.hlow then down.take (if s.pkg.hhigh - free < s.pkg.ppool.length then s.pkg.hhigh - free else s.pkg.ppool.length) else [])
/-- TROWEL_SCAN (R369): the moves of this scan take the place of those the last one left.
(DEDUCED, log 49) -/
def execTrowelScan (s : State) : Host.Outcome State Fault Refusal :=
  serving .trowel (if s.pkg.viral then .refused .notEnabled
  else match s.kvAll ((s.contexts.filter (fun p => p.2.life = .live)).map (fun p => p.1)) [] with
    | .error (c, r) => s.kvStop c r
    | .ok objs =>
      let s1 := objs.foldl (fun s q => (s.setPooled q.1 q.2).scanRecords q.1 q.2) s
      .next (s1.onPkg (fun p => { p with trowel := s.scanMoves objs })))
/-- TIER of an object as its pages lie now (R367): 0 all in HBM4E, 1 all pooled, 2 mixed. -/
def State.tierOf (s : State) (c : Nat) (o : KvObj) : Nat := if s.allIn c o .hbm then 0 else if s.allIn c o .pooled then 1 else 2
/-- A migration of Trowel that is DONE returns the freed page to its pool, cleared where it held the object (R368, R399). -/
def State.freePage (s : State) (idx : Nat) (m : Mig) (toHbm : Bool) : State :=
  ((s.onPkg (fun p => { p with migs := dropNth p.migs idx })).kdsetPage (s.remapped m.old / 65536) 0).onPool (!toHbm) (fun l => m.old :: l)
/-- TROWEL_MIGRATION_DONE (R368, R369): the freed page returns to its pool; TIER and ALLPOOLED are updated.
(DEDUCED, log 49) -/
def execTrowelMigrationDone (idx : Nat) (s : State) : Host.Outcome State Fault Refusal :=
  serving .trowel (match s.pkg.migs[idx]? with
  | none => .refused .notEnabled
  | some m =>
    match m.stage, m.trowel with
    | 4, some (c, obj, toHbm) =>
      if m.status = 5 then
        .next ((s.onPkg (fun p => { p with migs := dropNth p.migs idx })).onPool toHbm (fun l => m.new :: l))
      else match s.gateAt (s.remapped m.old) 65536 true with
        | (s1, .waits) => s.waiting s1
        | (s1, _) =>
          if (s1.ctx c).life ≠ .live then .next (s1.freePage idx m toHbm)
          else match s1.kvObjs c with
            | .ok os =>
              let done (s : State) : Host.Outcome State Fault Refusal := .next ((s.setPooled c os).freePage idx m toHbm)
              match os[obj]?.filter (fun o => o.ok) with
              | none => done s1
              | some o =>
                match s1.storeVa .trowel (c % 4) c ((s1.ctx c).kvlist.toNat + 32 * obj + 13) 1 (s1.tierOf c o) with
                | (s2, none) => done s2
                | (s2, some .wait) => s.waiting s2
                | (_, some (.held va)) => s.kvStop c (.held va)
                | (_, some (.bad va)) => s.kvStop c (.bad va)
                | (_, some (.fault _ _ _)) => done s1
            | r => s.kvStop c r
    | _, _ => .refused .notEnabled)

/-! ## Cores, stacks, power and scrubbing (R414, R416, R417, R421) -/

/-- REPLACE is set, and the host told once, when the limits of R417 are reached. -/
def State.replaceDue (s : State) : State :=
  let gone := (s.pkg.hbm.filter (fun p => p.2.retired)).length
  if !s.pkg.replace && (s.pkg.retiredCores ≥ 8 || gone ≥ 1) then (s.onPkg (fun p => { p with replace := true })).event 3 0 0 else s
/-- MARGIN_PLAN (R416): the cores whose reserve is exhausted are retired. -/
def execMarginPlan (cores : List Nat) (s : State) : Host.Outcome State Fault Refusal :=
  .next (((cores.filter (fun c => c < 192)).foldl (fun s c =>
    if (s.core c).retired then s
    else ((s.hardwareError c).onCore c (fun co => { co with retired := true })).onPkg (fun p => { p with retiredCores := p.retiredCores + 1 })) s).replaceDue)
/-- POWER_MANAGER_SAMPLE (R421): the average over 1 ms in watts against the limit of PWRLIM.
(DESIGN CHOICE, log 69) -/
def execPowerManagerSample (avg : Nat) (s : State) : Host.Outcome State Fault Refusal :=
  let l := s.pkg.pwrlim
  let limit := 10 * (if l > 1000 then 1000 else if l < 100 then 100 else l)
  let c := s.pkg.clock
  let c1 := if avg > limit then (if c < 1600 then 1500 else c - 100)
    else if 100 * avg < 95 * limit then (if c ≥ 2900 then 3000 else c + 100) else c
  .next (s.onPkg (fun p => { p with clock := c1 }))
/-- SCRUB_COUNT_POLL (R414): the stacks' scrub counts are added to ECS.
(DESIGN CHOICE, log 69) -/
def execScrubCountPoll (counts : List Nat) (s : State) : Host.Outcome State Fault Refusal :=
  .next (loop (fun k s => if (s.pkg.stack k).retired then s
    else s.onStack k (fun x => { x with ecs := satAdd 32 x.ecs (counts.getD k 0) })) 16 0 s)

end Sys2Proof.Machine
end

