-- ==== Sys2Proof/Machine/Kiln.lean ====
section
/-! DEFINITION. Stored sectors and slices, the persistence controller, loss of power, reset and boot (R322, R396, R404 to R412, R418,
R419, R424). -/

namespace Sys2Proof.Machine

/-! ## Errors of slices and stored sectors -/

/-- Poison a sector's atoms where it is stored (R35, R322, R452), one write of it (R395, R397). -/
def State.poisonSector (s : State) (sec : Nat) (atoms : Nat) : State :=
  let s1 := s.recall sec
  { s1 with
    memP := loop (fun k m => if bitOf atoms k then put false m (4 * sec + k) true else m) 4 0 s1.memP
    version := if window (128 * sec) = .hbm then put 0 s1.version sec (look 0 s1.version sec + 1) else s1.version }
/-- SLICE_ERROR (R322, R403, R448): an error a die's slice finds in a sector it holds, or one that makes the package viral.
(DESIGN CHOICE, log 6; DEDUCED, log 60) -/
def execSliceError (die sector : Nat) (kind : SliceErr) (s : State) : Host.Outcome State Fault Refusal :=
  let home := homeDie (128 * sector) = die
  match kind with
  | .single => .next (s.onDie die (fun x => { x with ce := x.ce + 1 }))
  | .data atom =>
    let s1 := s.onDie die (fun x => { x with ue := x.ue + 1 })
    .next (if home then s1.poisonSector sector (2 ^ (atom % 4))
      else s1.onDie die (fun x => { x with copies := x.copies.map (fun p =>
        if p.1 = sector then (p.1, { p.2 with poison := p.2.poison ||| ((1 : BitVec 4) <<< (atom % 4)) }) else p) }))
  | .tag =>
    let line := sector / 8
    if !home then .next (s.onDie die (fun x => { x with copies := x.copies.filter (fun p => p.1 / 8 ≠ line) }))
    else
      let s1 := { s with freeN := s.freeN + 1 }
      .next (if Config.lineDirty s.freeN then
          (loop (fun k (s : State) => s.poisonSector (8 * line + k) 15) 8 0 s1).event 7 die 0
        else s1)
  | .structure => .next (s.goViral 4)
  | .firmware => .next (s.goViral 7)
/-- The slot of a strand's access to a sector (R47). -/
def Strand.slotOf (st : Strand) (sector : Nat) : Nat :=
  ((st.entries.find? (fun g => g.sectors.contains sector)).map GEntry.slot).getD 0xFF
/-- The report of an uncorrectable read (R396, R456): to the fault queue of the requester's context, by the core of a strand or of a Hod
command, or by the die of another agent; without a context, to the counters only. -/
def State.mediaReport (s : State) (sector : Nat) : Requester → State
  | .strand n va =>
    let st := s.strand n
    if st.run = .free || !s.liveHandle st.ctxh.toNat then s
    else s.coreRecord (n / 8) st.ctxh st.launch st.task 0xFFFFFFFF 0x16 0x0900 va (st.slotOf sector)
  | .hod cl ch va =>
    match ((s.cluster cl).chan ch).queue with
    | m :: _ => if s.liveHandle m.ctxh.toNat then s.coreRecord (m.strand / 8) m.ctxh m.launch m.task m.id 0x16 0x0900 va 0x0A else s
    | [] => s
  | .agent die handle va => if s.liveHandle handle then s.dieRecord die (ctxIdx handle) 0 0 0x16 0x0900 va else s
  | .device => s
  | .outside => s
/-- What an integrity failure does, by its requester (R400). -/
def State.tagFails (s : State) (sector : Nat) : Requester → State
  | .strand n va =>
    let st := s.strand n
    if st.run = .free || !s.liveHandle st.ctxh.toNat then s
    else s.integrity (n / 8) (ctxIdx st.ctxh.toNat) st.launch st.task va (st.slotOf sector)
  | .hod cl ch va =>
    match ((s.cluster cl).chan ch).queue with
    | m :: _ => if s.liveHandle m.ctxh.toNat then s.integrity (m.strand / 8) m.ctx m.launch m.task va 0x0A m.id else s
    | [] => s
  | .agent die handle va =>
    if s.liveHandle handle then (s.dieRecord die (ctxIdx handle) 0 0 0x15 0x0900 va).teardown (ctxIdx handle) else s
  | .device => s.goViral 1
  | .outside => s
/-- HBM_SECTOR_READ (R396, R400): the controller reads a stored sector for a requester; its tag fails where `tagBad` says so or it
failed before. A structure of the device or the firmware reaches domain 0 alone (R399).
(DESIGN CHOICE, log 72) -/
def execHbmSectorRead (sector : Nat) (who : Requester) (ecc : Ecc) (tagBad : Bool) (s : State) : Host.Outcome State Fault Refusal :=
  let pa := 128 * sector
  if window pa ≠ .hbm then .fault (.noMemory pa)
  else if who = .device && s.domainOf pa ≠ 0 then .next (s.goViral 2)
  else
    let k := stackOf pa
    if fld ecc.ueMask 0 4 ≠ 0 then
      let s1 := s.onStack k (fun x => { x with ue := satAdd 16 x.ue (popCount ecc.ueMask 4 0) })
      .next (((s1.recall sector).cellWrite pa 128 (2 ^ 128 - 1) 0 true).mediaReport sector who)
    else
      let s1 := s.onStack k (fun x => { x with ce := satAdd 16 x.ce (popCount ecc.ceMask 4 0) })
      if !tagBad && !look false s.badTag sector then .next s1
      else
        let s2 := s1.onStack k (fun x => { x with int := satAdd 16 x.int 1 })
        .next (({ s2 with badTag := put false s2.badTag sector true } : State).tagFails sector who)

/-! ## Kiln (R405, R406, R411) -/

/-- The die of a half of Kiln. -/
def halfDie (half : Nat) : Nat := 2 + half % 2
/-- KILN_IMAGE_ACCEPT (R406): the oldest held write enters its home sector together with its image. -/
def execKilnImageAccept (half : Nat) (s : State) : Host.Outcome State Fault Refusal :=
  let d := halfDie half
  match (s.die d).heldWrites with
  | [] => .refused .notEnabled
  | w :: l =>
    if s.pkg.viral || !(s.die d).kilnRoom then .refused .notEnabled
    else
      let s1 := s.onDie d (fun x => { x with heldWrites := l })
      let s2 := s1.homeWrite w.pa w.n w.mask w.data w.poison w.store
      .next (match w.store with | some i => s2.storeArrived i.1 i.2.2.2.2 | none => s2)
/-- An image reaches the device (R406). -/
def State.toDevice (s : State) (im : KilnImage) : State :=
  { s with
    nvm := setBytes s.nvm (128 * im.sector) 128 im.data.toNat
    nvmP := loop (fun k m => put false m (4 * im.sector + k) (im.poison.getLsbD k)) 4 0 s.nvmP }
/-- A buffer that has drained takes the mode last written (R407). -/
def State.settleMode (s : State) : State :=
  if (s.die 2).images.isEmpty && (s.die 3).images.isEmpty then s.onPkg (fun p => { p with buffered := p.gpf }) else s
/-- KILN_IMAGE_ACK (R406): the device acknowledges one half of an image; with both it leaves the buffer. -/
def execKilnImageAck (half sector part : Nat) (s : State) : Host.Outcome State Fault Refusal :=
  let d := halfDie half
  match (s.die d).images.find? (fun j => j.sector = sector) with
  | none => .refused .notEnabled
  | some im =>
    let im1 := if part % 2 = 0 then { im with ack0 := true } else { im with ack1 := true }
    if im1.ack0 && im1.ack1 then
      .next ((s.onDie d (fun x => { x with images := x.images.filter (fun j => j.sector ≠ sector) })).toDevice im1).settleMode
    else .next (s.onDie d (fun x => { x with images := x.images.map (fun j => if j.sector = sector then im1 else j) }))
/-- A store's image has been dropped (R411): its task's PBARs that wait on it, as they do in direct mode, carry the mark, or its next one
will; a task that has ended has a record instead. -/
def State.nvFailed (s : State) (sector : Nat) (id : StoreId) : State :=
  let (n, h, l, t, num) := id
  let st := s.strand n
  if st.run ≠ .free && !st.over && st.ctxh.toNat = h && st.launch.toNat = l && st.task.toNat = t then
    if !s.pkg.buffered && st.storeQ.any (fun g => g.kind = .pbar && g.num > num) then
      s.setStrand n { st with storeQ := st.storeQ.map (fun g =>
        if g.kind = .pbar && g.num > num && !g.poison then { g with poison := true, va := BitVec.ofNat 64 (128 * sector) } else g) }
    else s.setStrand n { st with nvFail := st.nvFail ++ (if st.nvFail.contains sector then [] else [sector]) }
  else
    let live := s.liveHandle h && (match s.task? (ctxIdx h) l t with
      | some (_, k) => (match k.run with | .ended _ => k.again | .done => false | _ => true)
      | none => false)
    if live then
      s.onTask (ctxIdx h) l t (fun k => { k with nvFail := k.nvFail ++ (if k.nvFail.contains sector then [] else [sector]) })
    else if s.liveHandle h then
      s.coreRecord (n / 8) (BitVec.ofNat 32 h) (BitVec.ofNat 32 l) (BitVec.ofNat 32 t) 0xFFFFFFFF 0x16 0x0902 (BitVec.ofNat 64 (128 * sector)) 6
    else s
/-- The stores of a dropped image, one for each task: its oldest, on which every PBAR of the task that waits on the image waits. -/
def firstOfTask : List StoreId → List StoreId
  | [] => []
  | i :: l =>
    let same (j : StoreId) : Bool := j.1 = i.1 && j.2.1 = i.2.1 && j.2.2.1 = i.2.2.1 && j.2.2.2.1 = i.2.2.2.1
    (l.filter same).foldl (fun a b => if b.2.2.2.2 < a.2.2.2.2 then b else a) i :: (firstOfTask l).filter (fun j => !same j)
/-- An image is dropped (R411). -/
def State.dropImage (s : State) (d sector : Nat) : State :=
  match (s.die d).images.find? (fun j => j.sector = sector) with
  | none => s
  | some im =>
    let was := s.pkg.fail
    let s1 := (s.onDie d (fun x => { x with
        images := x.images.filter (fun j => j.sector ≠ sector), nvLost := sector :: x.nvLost.filter (fun k => k ≠ sector) })).onPkg (fun p =>
      { p with failcnt := satAdd 16 p.failcnt 1, fail := true })
    let s2 := if was then s1 else s1.event 4 d 0
    ((firstOfTask im.stores).foldl (fun s i => s.nvFailed sector i) s2).settleMode
/-- KILN_IMAGE_REFUSED (R411): after three retries. -/
def execKilnImageRefused (half sector : Nat) (s : State) : Host.Outcome State Fault Refusal :=
  let d := halfDie half
  if (s.die d).images.any (fun j => j.sector = sector) then .next (s.dropImage d sector) else .refused .notEnabled
/-- The unit of 256 MiB of the non-volatile tier in which a sector lies, counted from the window's base (R426). -/
def nvUnitOf (sector : Nat) : Nat := (128 * sector - 0x80000000000) / 0x10000000
/-- KILN_DEVICE_TIMEOUT (R411, R426): a device that does not respond loses its images, those of the units it decodes, which both halves
of Kiln hold. -/
def execKilnDeviceTimeout (units : List Nat) (s : State) : Host.Outcome State Fault Refusal :=
  let lost := [2, 3].flatMap (fun d => ((s.die d).images.filter (fun im => units.contains (nvUnitOf im.sector))).map (fun im => (d, im.sector)))
  if lost.isEmpty then .refused .notEnabled else .next (lost.foldl (fun s q => s.dropImage q.1 q.2) s)
/-- A non-volatile store of a strand below a number is still on its way, or, in direct mode, its image is in the buffer (R405,
R406). -/
def State.nvPending (s : State) (n num : Nat) : Bool :=
  let st := s.strand n
  let mine (i : StoreId) : Bool := i.1 = n && i.2.1 = st.ctxh.toNat && i.2.2.1 = st.launch.toNat && i.2.2.2.1 = st.task.toNat && i.2.2.2.2 < num
  s.hodBefore n num
    || st.entries.any (fun g => g.num < num && g.stores && g.size ≠ 0 && decide (g.phase ≠ 2) && decide (window (s.place g.pa) = .nv))
    || (!s.pkg.buffered && [2, 3].any (fun d => (s.die d).images.any (fun im => im.stores.any mine)))
    || s.clusters.any (fun p => p.2.store.any (fun a => a.stores.any mine))
    || [2, 3].any (fun d => (s.die d).heldWrites.any (fun w => match w.store with | some i => mine i | none => false))
/-- PBAR_COMPLETE (R405, R411): the strand's oldest PBAR completes, with a mark where an image it waited on, or one before it that no
PBAR reported, was dropped. -/
def execPbarComplete (strand : Nat) (s : State) : Host.Outcome State Fault Refusal :=
  let st := s.strand strand
  match firstNum (st.storeQ.filter (fun g => g.kind = .pbar)) with
  | none => .refused .notEnabled
  | some g =>
    if s.nvPending strand g.num || (!st.over && st.count g.sem ≥ 0xFFFF) then .refused .notEnabled
    else
      let bad : Option Word := if g.poison then some g.va else st.nvFail.head?.map (fun k => BitVec.ofNat 64 (128 * k))
      let mark : Option Mark := bad.map (fun a => ⟨0x16, 0x0902, 0, 2, a⟩)
      let s1 := s.setStrand strand { st.dropEntry g.num with nvFail := if g.poison then st.nvFail else st.nvFail.drop 1 }
      .next ((s1.complete (strand / 8) strand g.sem (!st.over) st.ctxh st.launch st.task 0xFFFFFFFF mark none).settle strand)

/-! ## Flush, loss of power, reset and boot (R410, R412, R418, R419, R424) -/

/-- Every buffered image is written to its device. -/
def State.flush (s : State) : State :=
  let s1 := ((s.die 2).images ++ (s.die 3).images).foldl State.toDevice s
  ((s1.onDie 2 (fun x => { x with images := [] })).onDie 3 (fun x => { x with images := [] })).settleMode
/-- GLOBAL_PERSISTENT_FLUSH (R424): the home slices write back their M host lines, and Kiln flushes. -/
def execGlobalPersistentFlush (s : State) : Host.Outcome State Fault Refusal :=
  .next (s.onPkg (fun p => { p with lines := p.lines.filter (fun q => q.2 ≠ .m) })).flush
/-- Bytes of a map that lie in one of some windows. -/
def inWindows {α : Type} (w : List Window) (unit : Nat) (m : SMap α) : SMap α := m.filter (fun p => w.contains (window (unit * p.1)))
/-- A map with the entries of another written into it. -/
def overlay {α : Type} [DecidableEq α] (d : α) (m top : SMap α) : SMap α := top.foldl (fun m p => put d m p.1 p.2) m
/-- What flash keeps of the cores: those retired. -/
def State.keptCores (s : State) : SMap Core := (s.cores.filter (fun p => p.2.retired)).map (fun p => (p.1, { ({} : Core) with retired := true }))
/-- The package as flash and its devices keep it over a reset: retirements, signing keys, the layout of the memory devices. -/
def Package.kept (p : Package) : Package :=
  { ({} : Package) with
    hbm := (p.hbm.filter (fun q => q.2.retired)).map (fun q => (q.1, { ({} : Stack) with retired := true }))
    retiredCores := p.retiredCores, replace := p.replace, remap := p.remap, signKeys := p.signKeys, asidBase := p.asidBase
    firmware := p.firmware, repair := p.repair, attestKey := p.attestKey, repaired := p.repaired
    poolUnits := p.poolUnits, nvUnits := p.nvUnits }
/-- Every link is trained (R418, R419).
(DESIGN CHOICE, log 53) -/
def Package.trained (p : Package) : Package :=
  { p with link0 := true, link1 := true, link2 := true, link3 := true, lost0 := false, lost1 := false, fports := BitVec.allOnes 128 }
/-- The image that an unfinished flush leaves of a buffered one (R412), if not the device's own.
(DESIGN CHOICE, log 7) -/
def KilnImage.landed (im : KilnImage) (k : Nat) : Option KilnImage :=
  if k = 0 then none
  else match im.older[k - 1]? with
    | some o => some { im with data := o.1, poison := o.2 }
    | none => some im
/-- The memory after a reset that loses the caches: the non-volatile tier reads as its devices hold it, and of the rest some windows
stay. -/
def State.memAfter (s : State) (w : List Window) : SMap Byte := overlay 0 (inWindows w 1 s.mem) s.nvm
/-- The poison after such a reset. -/
def State.memPAfter (s : State) (w : List Window) : SMap Bool := overlay false (inWindows w 32 s.memP) s.nvmP
/-- POWER_LOSS (R410, R412): Kiln writes what it can; everything that is neither flash nor in a memory device or the host is lost.
(DESIGN CHOICE, log 7; DEDUCED, log 53) -/
def execPowerLoss (s : State) : Host.Outcome State Fault Refusal :=
  if !s.pkg.powered then .refused .notEnabled
  else
    let done := s.pkg.buffered || Config.flushDone s.freeN
    let s1 := if done then s.flush
      else (((s.die 2).images ++ (s.die 3).images).filterMap (fun im => im.landed (Config.imageLanded s.freeN im.sector))).foldl State.toDevice s
    .next { State.reset with
      cores := s1.keptCores
      pkg := { s1.pkg.kept with powered := false, flushok := done, remap := [] }
      mem := inWindows [.host, .pooled] 1 s1.mem
      memP := inWindows [.host, .pooled] 32 s1.memP
      nvm := s1.nvm, nvmP := s1.nvmP, agenda := s1.agenda, freeN := s1.freeN + 1, cur := s1.cur }
/-- Pages whose key slot a warm reset zeroises (R418). -/
def State.lostPages (s : State) : List Nat :=
  (s.pkg.domains.filter (fun p => !(match find? s.pkg.keys p.2 with | some k => k.retain | none => p.2 = 0))).map (fun p => p.1)
/-- The key slots a warm reset keeps (R418). -/
def keptKeys (m : SMap KeySlot) : SMap KeySlot := m.filter (fun p => p.2.retain)
/-- What an atomic engine holds goes back to its home at a reset; in the viral state no image enters Kiln, and a non-volatile sector is
lost with its engine (R449). -/
def State.recallReset (s : State) : State :=
  if s.pkg.viral then
    ({ s with clusters := s.clusters.map (fun p => (p.1, { p.2 with store := p.2.store.filter (fun a => decide (window (128 * a.sector) ≠ .nv)) })) } : State).recallAll
  else s.recallAll
/-- WARM_RESET (R412, R418): Kiln flushes; memory, retained keys and what flash holds stay, every link is retrained, and everything else is
as after reset.
(DEDUCED, log 53) -/
def execWarmReset (s : State) : Host.Outcome State Fault Refusal :=
  if !s.pkg.powered then .refused .notEnabled
  else
    let s1 := s.recallReset.flush
    let s2 := s1.lostPages.foldl (fun s p => if window (65536 * p) = .nv then (s.clearNvPage p 0).flush else s.clearPage p 0) s1
    .next { State.reset with
      cores := s2.keptCores
      pkg := { s2.pkg.kept.trained with keys := keptKeys s2.pkg.keys, domains := s2.pkg.domains }
      mem := s2.memAfter [.hbm, .host, .pooled], memP := s2.memPAfter [.hbm, .host, .pooled]
      nvm := s2.nvm, nvmP := s2.nvmP, badTag := s2.badTag, version := s2.version
      gtime := s2.gtime, agenda := s2.agenda, freeN := s2.freeN, cur := s2.cur }
/-- COLD_BOOT (R419): firmware that fails the check is not run; otherwise the repair maps are applied, the links are trained, slot 0 is
made, and HBM4E is zero under domain 0. The non-volatile tier reads as its devices hold it.
(DESIGN CHOICE, log 8; DEDUCED, log 53) -/
def execColdBoot (fwOk : Bool) (s : State) : Host.Outcome State Fault Refusal :=
  if s.pkg.powered then .refused .notEnabled
  else if !fwOk then .next s
  else .next { State.reset with
    cores := s.keptCores
    pkg := { s.pkg.kept.trained with flushok := s.pkg.flushok, holdok := Config.holdUp, repaired := s.pkg.repair }
    mem := s.memAfter [.host, .pooled]
    memP := s.memPAfter [.host, .pooled]
    nvm := s.nvm, nvmP := s.nvmP, agenda := s.agenda, freeN := s.freeN, cur := s.cur }

end Sys2Proof.Machine
end

