-- ==== Sys2Proof/Machine/Sequencer.lean ====
section
/-! DEFINITION. The generation sequencer (R374 to R388, R390). -/

namespace Sys2Proof.Machine

/-- The context the sequencer serves. -/
def State.gsCtx (s : State) : Nat := ctxIdx s.pkg.gs.ctxh.toNat
/-- The address of the generation block (R375). -/
def State.gsBlock (s : State) : Nat := s.pkg.gs.gb.toNat
/-- A record of the sequencer, an agent of die 0 (R386, R456); that of a stale handle goes to the context that has its index now (R388).
(DEDUCED, log 54) -/
def State.gsRecord (s : State) (cause detail va : Nat) : State :=
  if (s.ctx s.gsCtx).life = .live then s.dieRecord 0 s.gsCtx 0 0 cause detail (BitVec.ofNat 64 va) else s
/-- The sequencer halts (R377, R378). -/
def State.gsHalt (s : State) (why detail : Nat) : State :=
  (s.gsRecord 0x02 detail 0).onGs (fun g => { g with state := .halt, lastWhy := why, attempt := none, submitted := false, event := none })
/-- An access of the sequencer fails for good: code 7 (R385), which abandons the attempt, in WAIT one of no requests.
(DEDUCED, log 54) -/
def State.gsFailed (s : State) : State := (s.onGs (fun g => { g with attempt := g.attempt <|> some (0, 0) })).gsEvent 7
/-- A fault of one of the sequencer's own accesses (R386). -/
def State.gsFault (s : State) (cause va : Nat) : State :=
  let s1 := s.gsRecord cause 0x0800 va
  if cause = 0x10 then (s1.onCtx s.gsCtx (fun x => { x with pkf := x.pkf + 1 })).onGs (fun g => { g with parked := true })
  else s1.gsFailed
/-- An integrity failure of one of the sequencer's own accesses (R386, R388, R400): code 7, and the context is torn down. -/
def State.gsLost (s : State) (va : Nat) : State :=
  (((s.countVa 0 s.gsCtx va).gsRecord 0x15 0x0800 va).gsFailed).teardown s.gsCtx
/-- An access of the sequencer waits in its die's replay queue (R337); `old` is the machine before the step. -/
def State.gsHeld (old s : State) (va : Nat) : Host.Outcome State Fault Refusal :=
  match s.agentHold 0 s.gsCtx va with
  | some t => .next t
  | none => old.waiting s
/-- Read bytes for the sequencer and go on with them; `old` is the machine before the step. -/
def State.gsRead (old s : State) (va n : Nat) (k : State → Nat → Host.Outcome State Fault Refusal) : Host.Outcome State Fault Refusal :=
  match s.structRead .sequencer 0 s.gsCtx va n 0x0800 with
  | (s1, .ok v) => k s1 v
  | (_, .wait s1) => old.waiting s1
  | (s1, .held a) => old.gsHeld s1 a
  | (s1, .fault c _ a) => .next (s1.gsFault c a)
  | (s1, .bad a) => .next (s1.gsLost a)
/-- Write bytes for the sequencer and go on; `old` is the machine before the step. -/
def State.gsWrite (old s : State) (va n v : Nat) (k : State → Host.Outcome State Fault Refusal) : Host.Outcome State Fault Refusal :=
  match s.storeVa .sequencer 0 s.gsCtx va n v with
  | (s1, none) => k s1
  | (s1, some .wait) => old.waiting s1
  | (s1, some (.held a)) => old.gsHeld s1 a
  | (s1, some (.fault c _ a)) => .next (s1.gsFault c a)
  | (s1, some (.bad a)) => .next (s1.gsLost a)
/-- An acquire at .PK of the sequencer (R319, R377, R381): its die's clean bytes are dropped, so that what it reads comes from the homes.
(DEDUCED, log 54) -/
def State.gsAcquire (s : State) : State := s.onDie 0 Die.dropClean

/-! ## Control (R388) -/

/-- The sequencer starts over with its next attempt (R388): a STOP that an abandonment has left pending in HALT is over, and a handle
that has gone stale there is met by the attempt.
(DESIGN CHOICE, log 91) -/
def Gs.start (g : Gs) : Gs :=
  { g with en := true, abcnt := 0, state := .run, attempt := none, submitted := false, stop := false, event := none, parked := false, recheck := false }
/-- The sequencer is off, and no event waits. -/
def Gs.off (g : Gs) : Gs :=
  { g with state := .off, attempt := none, submitted := false, event := none, stop := false, recheck := false, parked := false }
/-- EN written 1 in OFF (R388): the handle must be live and GSGB a canonical address of a mapped page. -/
def State.gsOpen (s : State) : Host.Outcome State Fault Refusal :=
  let no : State := (s.onGs (fun g => { g with en := true })).gsHalt 10 0x0803
  if !s.liveHandle s.pkg.gs.ctxh.toNat || bitOf s.gsBlock 56 then .next no
  else match s.walk 0 (s.ctx s.gsCtx).asid s.gsBlock with
    | .leaf _ _ _ => .next (s.onGs Gs.start)
    | .replay _ => .next (s.onGs Gs.start)
    | .fault _ _ => .next no
    | .bad _ => .next (s.gsLost s.gsBlock)
    | .wait s1 => s.waiting s1
/-- EN as written, in any state but OFF (R388). -/
def State.gsEn (s : State) (en : Bool) : State :=
  match s.pkg.gs.state, en with
  | .halt, true => s.onGs Gs.start
  | .halt, false => s.onGs (fun g => { g.off with en := false })
  | .wait, true => s
  | .wait, false => s.onGs (fun g => { g.off with en := false })
  | .run, false =>
    if s.pkg.gs.attempt.isSome then (s.onGs (fun g => { g with en := false })).gsEvent 8
    else s.onGs (fun g => { g with en := false, state := .off, lastWhy := 8 })
  | _, true => s
  | .off, false => s.onGs (fun g => { g.off with en := false })
/-- An abandonment (R387). -/
def State.gsAbandoned (s : State) (code : Nat) : State := s.endIterations.onGs (fun g => g.abandon code)
/-- An event of an access in WAIT is acted on before a write of GSCTL finds another state (R385, R387). -/
def State.gsSettled (s : State) : State :=
  match s.pkg.gs.state, s.pkg.gs.attempt, s.pkg.gs.event with
  | .wait, some _, some code => s.gsAbandoned code
  | _, _, _ => s
/-- A write of GSCTL (R375, R377, R388): CTXH in OFF; STOP and EN each by the state before the write.
(DEDUCED, log 54) -/
def State.writeGsctl (s : State) (value : Nat) : Host.Outcome State Fault Refusal :=
  let s0 := s.gsSettled
  let en := bitOf value 0
  let stop := bitOf value 1
  match s0.pkg.gs.state with
  | .off =>
    let s1 := s0.onGs (fun g => { g with ctxh := BitVec.ofNat 32 (value / 2 ^ 32) })
    if en then s1.gsOpen else .next (s1.gsEn false)
  | .wait =>
    let s1 := (s0.onGs (fun g => { g with recheck := true })).gsEn en
    .next (if stop then s1.onGs Gs.off else s1)
  | .run => .next ((if stop then s0.onGs (fun g => { g with stop := true }) else s0).gsEn en)
  | .halt => .next (s0.gsEn en)
/-- GS_ENABLE (R388): a write of GSCTL with EN = 1; as for every register but those of DEV, nothing in the viral state (R432). -/
def execGsEnable (value : Nat) (s : State) : Host.Outcome State Fault Refusal :=
  if s.pkg.viral then .next s
  else if !bitOf value 0 then .refused .notEnabled else s.writeGsctl value
/-- GS_DISABLE (R388): a write of GSCTL with EN = 0. -/
def execGsDisable (value : Nat) (s : State) : Host.Outcome State Fault Refusal :=
  if s.pkg.viral then .next s
  else if bitOf value 0 then .refused .notEnabled else s.writeGsctl value
/-- GS_STOP (R388): a write of GSCTL with STOP = 1. -/
def execGsStop (value : Nat) (s : State) : Host.Outcome State Fault Refusal :=
  if s.pkg.viral then .next s
  else if !bitOf value 1 then .refused .notEnabled else s.writeGsctl value

/-! ## The attempt (R377 to R379) -/

/-- The occupancy bucket of a count of sequences (R378). -/
def occBucket (lim : List Nat) (occ : Nat) : Nat := (lim.filter (fun l => l < occ)).length
/-- The slot R378 chooses, from bucket `ob` up and the draft length down. -/
def chooseSlot (valid : Nat → Bool) (ob draft : Nat) : Option Nat :=
  (List.range (8 - ob)).findSome? (fun i =>
    let o := ob + i
    let top := if i = 0 then draft else 7
    (firstIdx (fun j => valid (8 * o + (top - j))) (top + 1) 0).map (fun j => 8 * o + (top - j)))
/-- A slot register (R375). -/
def Gs.slot (g : Gs) (n : Nat) : Nat := (look 0 g.slots n).toNat
/-- The launch record made from a template (R379). -/
def madeRecord (v ctxh att : Nat) : Nat :=
  let gens := pack 8 (fun i => byts v (40 + i) 1 + att) 6 0
  byts v 0 16 + ctxh * 2 ^ 192 + byts v 28 12 * 2 ^ 224 + gens * 2 ^ 320 + byts v 46 2 * 2 ^ 368
/-- Step 6: the root launch is submitted (R379). -/
def State.gsSubmit (old s : State) : Host.Outcome State Fault Refusal :=
  let g := s.pkg.gs
  old.gsRead s g.tmpl.toNat 64 (fun s1 v =>
    .next ((s1.onGs (fun g => { g with submitted := true })).onDie (s1.gsCtx % 4) (fun x =>
      { x with launches := x.launches ++ [⟨.gs, g.tmpl, g.ctxh.toNat, some (madeRecord v g.ctxh.toNat g.att.toNat), true⟩] })))
/-- Step 5 from the write of ACC on, and step 6 (R377). -/
def State.gsClear (old s : State) : Host.Outcome State Fault Refusal :=
  old.gsWrite s (s.gsBlock + 0x840) 256 (2 ^ 2048 - 1) (fun s1 => old.gsSubmit (s1.onGs (fun g => { g with stage := .submit })))
/-- Steps 5 and 6 of an attempt, from where they were left (R377): the attempt's number, slot and template are chosen once (R378). -/
def State.gsGo (old s : State) : Host.Outcome State Fault Refusal :=
  match s.pkg.gs.stage with
  | .mark => old.gsWrite s (s.gsBlock + 0xB) 1 s.pkg.gs.att.toNat (fun s1 => old.gsClear (s1.onGs (fun g => { g with stage := .clear })))
  | .clear => old.gsClear s
  | .submit => old.gsSubmit s
/-- GS_ATTEMPT (R377): the next attempt, up to the submission of its root launch. A handle that is not live halts as EN written 1 does
(R388).
(DESIGN CHOICE, log 91) -/
def execGsAttempt (s : State) : Host.Outcome State Fault Refusal :=
  let g := s.pkg.gs
  serving .sequencer (if g.state ≠ .run || g.parked || s.pkg.viral || g.event.isSome || g.submitted then .refused .notEnabled
  else if g.attempt.isSome then s.gsGo s
  else if !s.liveHandle g.ctxh.toNat then .next (s.gsHalt 10 0x0803)
  else s.gsRead s.gsAcquire s.gsBlock 11 (fun s1 v =>
    let occ := byts v 8 2
    let draft := byts v 10 1
    if occ > 256 || draft > 7 then .next (s1.gsHalt 10 0x0803)
    else if occ = 0 then .next (s1.onGs (fun g => { g with state := .wait, recheck := false }))
    else match chooseSlot (fun n => bitOf (g.slot n) 0) (occBucket g.occlim occ) draft with
      | none => .next (s1.gsHalt 9 0x0802)
      | some n => s.gsGo (s1.onGs (fun g => { g with
          att := g.att + 1, lastSlot := n, attempt := some (occ, n % 8), stage := .mark, tmpl := BitVec.ofNat 64 (fld (g.slot n) 6 51 * 64) }))))
/-- GS_WAIT_RECHECK (R377): the header is read again after a write of GSCTL or a WAKE. -/
def execGsWaitRecheck (s : State) : Host.Outcome State Fault Refusal :=
  let g := s.pkg.gs
  serving .sequencer (if g.state ≠ .wait || !g.recheck || g.parked || s.pkg.viral || g.event.isSome then .refused .notEnabled
  else s.gsRead s.gsAcquire s.gsBlock 11 (fun s1 v =>
    if byts v 8 2 > 256 || byts v 10 1 > 7 then .next ((s1.onGs (fun g => { g with recheck := false })).gsHalt 10 0x0803)
    else .next (s1.onGs (fun g => { g with recheck := false, state := if byts v 8 2 = 0 then .wait else .run }))))

/-! ## Commit (R380, R381) -/

/-- An iteration launch is live or on its way (R380). -/
def State.iterating (s : State) : Bool :=
  s.contexts.any (fun p => p.2.launches.any (fun l => l.iter)) || s.dies.any (fun p => p.2.launches.any (fun m => m.iter))
/-- The lengths after a commit, or none where ACC fails a check (R381). -/
def commitLens (occ d acc lens : Nat) : Option (List Nat) :=
  let one (i : Nat) : Option Nat :=
    let old := byts lens (4 * i) 4
    let a := byts acc i 1
    if i ≥ occ then some old
    else if a = 0xFF then some old
    else if a > d || old + a + 1 > 2 ^ 32 - 1 then none else some (old + a + 1)
  if (List.range 256).all (fun i => (one i).isSome) then some ((List.range 256).map (fun i => (one i).getD 0)) else none
/-- GS_COMMIT (R381): every iteration launch has completed with STATUS 0 and no event of R385 has occurred.
(DEDUCED, log 54) -/
def execGsCommit (s : State) : Host.Outcome State Fault Refusal :=
  let g := s.pkg.gs
  match g.attempt with
  | none => .refused .notEnabled
  | some (occ, d) =>
    if g.state ≠ .run || !g.submitted || g.event.isSome || g.parked || s.pkg.viral || s.iterating then .refused .notEnabled
    else
      let b := s.gsBlock
      serving .sequencer (s.gsRead s b 8 (fun s0 cur =>
        let sel := cur % 2
        s.gsRead s0.gsAcquire (b + 0x840) occ (fun s1 acc =>
          s.gsRead s1 (b + 0x40 + 0x400 * sel) 1024 (fun s2 lens =>
            match commitLens occ d acc lens with
            | none => .next ((s2.gsRecord 0x02 0x0801 0).gsEvent 6)
            | some l =>
              s.gsWrite s2 (b + 0x40 + 0x400 * (1 - sel)) 1024 (pack 32 (fun i => l.getD i 0) 256 0) (fun s3 =>
                s.gsWrite s3 b 8 ((cur / 2 + 1) * 2 + (1 - sel)) (fun s4 =>
                  .next (s4.onGs (fun g => { g with
                    iter := BitVec.ofNat 32 (cur / 2 + 1), abcnt := 0, lastWhy := 0, attempt := none, submitted := false,
                    state := if g.stop then .off else .run, stop := false }))))))))

/-! ## Abandonment (R385, R387) -/

/-- GS_ABANDON (R387): an event of R385 has occurred. -/
def execGsAbandon (s : State) : Host.Outcome State Fault Refusal :=
  match s.pkg.gs.attempt, s.pkg.gs.event with
  | some _, some code => .next (s.gsAbandoned code)
  | _, _ => .refused .notEnabled

end Sys2Proof.Machine
end

