-- ==== Sys2Proof/Machine/Signature.lean ====
section
/-! DEFINITION. Signatures: SHA-512 and Ed25519 as R311 names them. The spec gives their names alone; the functions are those of the
public standards of these names (PRESUMED, log 9). -/

namespace Sys2Proof.Machine

/-! ## SHA-512 -/

/-- The integer part of the `k`-th root of `v`, over `n` bits of the root. -/
def rootBits (k v : Nat) : Nat → Nat → Nat
  | 0, r => r
  | n + 1, r => rootBits k v n (if (r + 2 ^ n) ^ k ≤ v then r + 2 ^ n else r)
/-- The first 64 bits of the fractional part of the `k`-th root of `p`. -/
def rootFrac (k p : Nat) : Nat := rootBits k (p * 2 ^ (64 * k)) 70 0 % 2 ^ 64
/-- A prime below 441, by division by what its square reaches. -/
def smallPrime (p : Nat) : Bool := p ≥ 2 && (List.range 21).all (fun d => d < 2 || d * d > p || p % d ≠ 0)
/-- The first 80 primes. -/
def eightyPrimes : List Nat := (List.range 410).filter smallPrime
/-- The constant of each round: of the cube root of its prime.
(PRESUMED, log 9) -/
def roundConstants : List Nat := eightyPrimes.map (rootFrac 3)
/-- The state before the first block: of the square roots of the first 8 primes.
(PRESUMED, log 9) -/
def digestStart : List Nat := (eightyPrimes.take 8).map (rootFrac 2)
/-- A 64-bit word turned right. -/
def rotr64 (x n : Nat) : Nat := (x / 2 ^ n + x * 2 ^ (64 - n)) % 2 ^ 64
/-- The exclusive or of a word turned right by each of a list. -/
def turns (w : Nat) (by' : List Nat) : Nat := by'.foldl (fun r n => r ^^^ rotr64 w n) 0
/-- One round over the eight state words, with its constant and schedule word already added. -/
def digestRound (v : List Nat) (kw : Nat) : List Nat :=
  let at' (i : Nat) : Nat := v.getD i 0
  let choose := at' 6 ^^^ (at' 4 &&& (at' 5 ^^^ at' 6))
  let most := (at' 0 &&& (at' 1 ||| at' 2)) ||| (at' 1 &&& at' 2)
  let mixed := kw + at' 7 + choose + turns (at' 4) [14, 18, 41]
  let first := (mixed + most + turns (at' 0) [28, 34, 39]) % 2 ^ 64
  first :: (v.take 7).set 3 ((mixed + at' 3) % 2 ^ 64)
/-- The schedule of a block continued by `n` words, the latest word first. -/
def schedule : Nat → List Nat → List Nat
  | 0, w => w
  | n + 1, w =>
    let near := w.getD 1 0
    let far := w.getD 14 0
    let next := turns far [1, 8] ^^^ (far / 128)
    schedule n ((w.getD 15 0 + next + w.getD 6 0 + (turns near [19, 61] ^^^ (near / 64))) % 2 ^ 64 :: w)
/-- A byte of a message of `n` bytes with its padding: a bit 1, zeros, the length in bits in the last 16 bytes. -/
def padByte (n v total i : Nat) : Nat :=
  if i < n then fld v (8 * i) 8 else if i = n then 0x80
  else if total ≤ i + 16 then fld (8 * n) (8 * (total - 1 - i)) 8 else 0
/-- A word of a padded message, its first byte the most significant. -/
def padWord (n v total k : Nat) : Nat := (List.range 8).foldl (fun w i => w * 256 + padByte n v total (8 * k + i)) 0
/-- The state after the first blocks of a padded message. -/
def digestBlocks (n v total : Nat) : Nat → List Nat
  | 0 => digestStart
  | k + 1 =>
    let h := digestBlocks n v total k
    let words := (schedule 64 ((List.range 16).map (fun j => padWord n v total (16 * k + j))).reverse).reverse
    let out := ((words.zip roundConstants).map (fun p => p.1 + p.2)).foldl digestRound h
    (h.zip out).map (fun p => (p.1 + p.2) % 2 ^ 64)
/-- SHA-512 of `n` bytes, the first the least significant of `v`; the digest in the same order.
(PRESUMED, log 9) -/
def sha512 (n v : Nat) : Nat :=
  let blocks := (n + 17 + 127) / 128
  let h := digestBlocks n v (128 * blocks) blocks
  pack 8 (fun i => fld (h.getD (i / 8) 0) (8 * (7 - i % 8)) 8) 64 0

/-! ## Ed25519 -/

/-- The prime of the field, the order of the base point, and the constant of the curve. -/
def edP : Nat := 2 ^ 255 - 19
def edL : Nat := 2 ^ 252 + 27742317777372353535851937790883648493
def edD : Nat := 37095705934669439343138083508754565189542113879843219016388785533085940283555
/-- A point in extended coordinates. -/
structure EdPoint where
  x : Nat
  y : Nat
  z : Nat
  t : Nat
/-- The sum of two points. -/
def EdPoint.add (p q : EdPoint) : EdPoint :=
  let a := (p.y + edP - p.x) * (q.y + edP - q.x) % edP
  let b := (p.y + p.x) * (q.y + q.x) % edP
  let c := 2 * p.t * q.t * edD % edP
  let d := 2 * p.z * q.z % edP
  let e := b + edP - a
  let f := d + edP - c
  let g := d + c
  let h := b + a
  ⟨e * f % edP, g * h % edP, f * g % edP, e * h % edP⟩
/-- The multiple of a point by the low `n` bits of a number. -/
def EdPoint.times (p : EdPoint) (k : Nat) : Nat → EdPoint
  | 0 => ⟨0, 1, 1, 0⟩
  | n + 1 =>
    let r := p.times (k / 2) n
    let r2 := r.add r
    if k % 2 = 1 then r2.add p else r2
/-- The power of a number modulo the prime, over `n` bits of the exponent. -/
def edPow (b e : Nat) : Nat → Nat
  | 0 => 1
  | n + 1 =>
    let r := edPow b (e / 2) n
    let r2 := r * r % edP
    if e % 2 = 1 then r2 * b % edP else r2
/-- The base point. -/
def edBase : EdPoint :=
  let x := 15112221349535400772501151409588531511454012693041857206046113283949847762202
  let y := 46316835694926478169428394003475163141307993866256225615783033603165251855960
  ⟨x, y, 1, x * y % edP⟩
/-- A point from its 32-byte encoding, its y in 255 bits below the sign of x. -/
def edDecode (v : Nat) : Option EdPoint :=
  let y := fld v 0 255
  let u := (y * y + edP - 1) % edP
  let w := (edD * y * y + 1) % edP
  let x0 := u * edPow w 3 2 * edPow (u * edPow w 7 3) ((edP - 5) / 8) 252 % edP
  let c := w * x0 * x0 % edP
  let x1 := if c = u then some x0 else if c = (edP - u) % edP then some (x0 * edPow 2 ((edP - 1) / 4) 253 % edP) else none
  match x1 with
  | none => none
  | some x =>
    if y ≥ edP || (x = 0 && fld v 255 1 = 1) then none
    else
      let x2 := if x % 2 = fld v 255 1 then x else edP - x
      some ⟨x2, y, 1, x2 * y % edP⟩
/-- Two points are one. -/
def EdPoint.same (p q : EdPoint) : Bool := p.x * q.z % edP = q.x * p.z % edP && p.y * q.z % edP = q.y * p.z % edP
/-- A signature of a message of `n` bytes verifies under a public key: S·B = R + SHA-512(R, A, M)·A.
(PRESUMED, log 9) -/
def edVerify (key sig n msg : Nat) : Bool :=
  let s := fld sig 256 256
  match edDecode key, edDecode (fld sig 0 256) with
  | some a, some r =>
    let k := sha512 (64 + n) (fld sig 0 256 + key * 2 ^ 256 + msg * 2 ^ 512) % edL
    s < edL && (edBase.times s 253).same (r.add (a.times k 253))
  | _, _ => false

end Sys2Proof.Machine
end

