-- ==== Sys2Proof/Machine/Loader.lean ====
section
/-! DEFINITION. The loader: a `.nym` object, its checks, its placement and its relocations (R76, R305 to R312). -/

namespace Sys2Proof.Machine

/-! ## The object -/

/-- An object: its bytes as a number, and its size.
(DESIGN CHOICE, log 71) -/
structure Obj where
  v : Nat
  size : Nat
/-- Bytes of an object. -/
def Obj.get (o : Obj) (off n : Nat) : Nat := byts o.v off n
/-- A section: code, offset and size (R305). -/
structure Sect where
  kind : Nat
  off : Nat
  size : Nat
/-- The bytes of a section as a number. -/
def Obj.part (o : Obj) (s : Sect) : Nat := byts o.v s.off s.size
/-- Why a load is refused: CHECK and ITEM (R312). -/
structure Refused where
  check : Nat
  item : Nat
/-- The result of a stage of the loader. -/
abbrev Ld (α : Type) := Except Refused α
/-- Refuse unless a condition holds. -/
def must (b : Bool) (check item : Nat) : Ld Unit := if b then .ok () else .error ⟨check, item⟩
/-- Every element of a list passes a check of its own. -/
def mustAll {α : Type} (f : Nat → α → Ld Unit) : Nat → List α → Ld Unit
  | _, [] => .ok ()
  | i, a :: l => match f i a with | .ok _ => mustAll f (i + 1) l | .error e => .error e
/-- The section table (R305). -/
def Obj.sections (o : Obj) : Ld (List Sect) :=
  let n := o.get 6 2
  let tab := o.get 8 8
  let head := 64 ≤ o.size && o.get 0 4 = 0x514D594E && o.get 4 2 = 2 && 1 ≤ n && n ≤ 9 && tab % 32 = 0 && tab + 32 * n ≤ o.size
    && o.get 16 48 = 0
  let l : List Sect := (List.range n).map (fun i => ⟨o.get (tab + 32 * i) 1, o.get (tab + 32 * i + 8) 8, o.get (tab + 32 * i + 16) 8⟩)
  let good (i : Nat) (s : Sect) : Bool := 1 ≤ s.kind && s.kind ≤ 9 && o.get (tab + 32 * i + 1) 7 = 0 && o.get (tab + 32 * i + 24) 8 = 0
    && s.off + s.size ≤ o.size && (l.filter (fun q => q.kind = s.kind)).length = 1
  if !head then .error ⟨2, 0⟩
  else match mustAll (fun i s => must (good i s) 2 i) 0 l with
    | .error e => .error e
    | .ok _ => if l.any (fun s => s.kind = 9 && s.size = 96) then .ok l else .error ⟨2, 0⟩
/-- A section by its code; an absent one is empty. -/
def sectOf (l : List Sect) (k : Nat) : Sect := (l.find? (fun s => s.kind = k)).getD ⟨k, 0, 0⟩
/-- The signature is by an installed key and verifies, over the SHA-512 digest of the object with `.sig` taken as zero (R311). -/
def Obj.signed (o : Obj) (l : List Sect) (keys : List Nat) : Bool :=
  let s := sectOf l 9
  let key := o.get s.off 32
  let msg := o.v - o.get s.off 96 * 2 ^ (8 * s.off)
  keys.contains key && edVerify key (o.get (s.off + 32) 64) 64 (sha512 o.size msg)

/-! ## Scratchpad plan and tags (R76, R306) -/

/-- A buffer of a kernel's plan. -/
structure Buf where
  group : Nat
  off : Nat
  size : Nat
  first : Nat
  last : Nat
/-- A kernel's plan: the index of its symbol, STRANDS, ACCB, its buffers, and whether reserved bytes are zero. -/
structure Plan where
  sym : Nat
  strands : Nat
  accb : Nat
  bufs : List Buf
  clean : Bool
/-- Parse the plan from a byte on.
(DESIGN CHOICE, log 71) -/
def parsePlan (v size : Nat) : Nat → Nat → Option (List Plan)
  | 0, _ => none
  | f + 1, o =>
    if o = size then some []
    else if o + 16 > size then none
    else
      let n := byts v (o + 8) 4
      let fin := o + 16 + 16 * n
      if fin > size then none
      else
        let b (i : Nat) : Buf := let a := o + 16 + 16 * i
          ⟨byts v a 1, byts v (a + 4) 4, byts v (a + 8) 4, byts v (a + 12) 2, byts v (a + 14) 2⟩
        let clean := byts v (o + 5) 1 = 0 && byts v (o + 12) 4 = 0 && (List.range n).all (fun i => byts v (o + 16 + 16 * i + 1) 3 = 0)
        (parsePlan v size f fin).map (fun l => ⟨byts v o 4, byts v (o + 4) 1, byts v (o + 6) 2, (List.range n).map b, clean⟩ :: l)
/-- A buffer satisfies R76. -/
def Buf.good (b : Buf) : Bool := b.group ≤ 3 && b.off + b.size ≤ 0x18000 && b.off % 128 = 0 && b.size % 128 = 0 && b.first ≤ b.last
/-- Two buffers share a byte. -/
def Buf.meets (a b : Buf) : Bool := a.group = b.group && a.off < b.off + b.size && b.off < a.off + a.size
/-- Live ranges are disjoint. -/
def Buf.apart (a b : Buf) : Bool := a.last < b.first || b.last < a.first
/-- Check 1 of R310 for a list of buffers. -/
def bufsGood : List Buf → Bool
  | [] => true
  | b :: l => b.good && l.all (fun c => !b.meets c || b.apart c) && bufsGood l
/-- A plan passes check 1 of R310. -/
def Plan.good (p : Plan) : Bool := p.clean && 1 ≤ p.strands && p.strands ≤ 8 && bufsGood p.bufs
/-- The footprint of a plan under a rotation (R310, checks 2 and 3). -/
def Plan.foot (p : Plan) (rot : Nat) : Nat :=
  pack 1 (fun g => b2n (p.bufs.any (fun b =>
    let a := (b.group * 0x18000 + b.off + rot * 0x18000) % 0x60000
    b.size ≠ 0 && a < 4096 * g + 4096 && 4096 * g < a + b.size))) 96 0

/-! ## Symbols (R307) -/

/-- A symbol. -/
structure Symb where
  name : Nat
  kind : Nat
  value : Nat
  kernel : Nat
  clean : Bool
/-- The `.sym` section: its symbols, its relocations' entries, its string table. -/
structure Syms where
  v : Nat
  nsym : Nat
  nrel : Nat
  stroff : Nat
  strsize : Nat
/-- Parse the header of `.sym`.
(DESIGN CHOICE, log 71) -/
def parseSyms (v size : Nat) : Option Syms :=
  let s : Syms := ⟨v, byts v 0 4, byts v 4 4, byts v 8 4, byts v 12 4⟩
  if size ≥ 32 && byts v 16 16 = 0 && s.nsym ≥ 1 && 32 + 24 * s.nsym + 24 * s.nrel ≤ size && s.stroff + s.strsize ≤ size then some s else none
/-- A symbol by its index. -/
def Syms.sym (s : Syms) (i : Nat) : Symb :=
  let a := 32 + 24 * i
  ⟨byts s.v a 4, byts s.v (a + 4) 1, byts s.v (a + 8) 8, byts s.v (a + 16) 4, byts s.v (a + 5) 3 = 0⟩
/-- A name's bytes up to its zero byte, if it ends within the string table. -/
def Syms.chars (s : Syms) : Nat → Nat → Option (List Nat)
  | 0, _ => none
  | f + 1, o =>
    if o ≥ s.strsize then none
    else match byts s.v (s.stroff + o) 1 with
      | 0 => some []
      | c => (Syms.chars s f (o + 1)).map (fun l => c :: l)
/-- A symbol's name. -/
def Syms.nameOf (s : Syms) (i : Nat) : Option (List Nat) := s.chars (s.strsize + 1) (s.sym i).name
/-- Well-formed UTF-8: the bytes still due in the character, and the range of the next. -/
def utf8 : List Nat → Nat → Nat → Nat → Bool
  | [], due, _, _ => due = 0
  | c :: l, due, lo, hi =>
    if due ≠ 0 then lo ≤ c && c ≤ hi && utf8 l (due - 1) 0x80 0xBF
    else if c < 0x80 then utf8 l 0 0 0
    else if 0xC2 ≤ c && c ≤ 0xDF then utf8 l 1 0x80 0xBF
    else if c = 0xE0 then utf8 l 2 0xA0 0xBF
    else if c = 0xED then utf8 l 2 0x80 0x9F
    else if 0xE1 ≤ c && c ≤ 0xEF then utf8 l 2 0x80 0xBF
    else if c = 0xF0 then utf8 l 3 0x90 0xBF
    else if 0xF1 ≤ c && c ≤ 0xF3 then utf8 l 3 0x80 0xBF
    else if c = 0xF4 then utf8 l 3 0x80 0x8F
    else false
/-- A symbol obeys R307, given the sizes of `.text`, `.rodata` and the words of `.micro`. -/
def Syms.good (s : Syms) (text ro words : Nat) (i : Nat) : Bool :=
  let y := s.sym i
  if i = 0 then byts s.v 32 24 = 0
  else
    let inside : Bool := match y.kind with
      | 1 => y.value < text && y.value % 64 = 0
      | 2 => y.value ≤ text && y.value % 4 = 0
      | 3 => y.value ≤ ro
      | 4 => y.value < 0x60000
      | 5 => y.value ≤ 255
      | 6 => y.value ≤ words
      | _ => true
    y.clean && 1 ≤ y.kind && y.kind ≤ 7 && inside
      && (match s.nameOf i with | some l => utf8 l 0 0 0 | none => false)
      && (y.kernel = 0xFFFFFFFF || (y.kernel < s.nsym && (s.sym y.kernel).kind = 1))
      && !(List.range i).any (fun j => j ≠ 0 && s.nameOf j = s.nameOf i)

/-! ## Micro-ops (R309) -/

/-- A routine entry. -/
structure Rout where
  sym : Nat
  index : Nat
  gang : Nat
  first : Nat
  count : Nat
  clean : Bool
/-- Parse `.micro`: its routines and its number of words.
(DESIGN CHOICE, log 71) -/
def parseMicro (v size : Nat) : Option (List Rout × Nat) :=
  if size = 0 then some ([], 0)
  else
    let n := byts v 0 4
    let w := byts v 4 4
    if size < 16 || byts v 8 8 ≠ 0 || w > 4096 || 16 + 16 * n + 8 * w > size then none
    else some ((List.range n).map (fun i =>
      let a := 16 + 16 * i
      ⟨byts v a 4, byts v (a + 4) 1, byts v (a + 5) 1 % 4, byts v (a + 8) 4, byts v (a + 12) 4,
        byts v (a + 5) 1 < 4 && byts v (a + 6) 2 = 0⟩), w)
/-- A routine entry obeys R309. -/
def Rout.good (r : Rout) (s : Syms) (all : List Rout) (words : Nat) : Bool :=
  r.clean && r.first + r.count ≤ words && r.sym < s.nsym && (s.sym r.sym).kind = 5 && (s.sym r.sym).value = r.index
    && (all.filter (fun q => q.index = r.index)).length = 1

/-! ## Relocation (R308) -/

/-- Where a load places things: the fields of its request (R312). -/
structure Place where
  obj : Nat
  size : Nat
  text : Nat
  ro : Nat
  micro : Nat
  rtimg : Nat
  kdesc : Nat
  mfirst : Nat
  rtfirst : Nat
  rot : Nat
/-- The rotation of a kernel of the plan. -/
def Place.rotOf (p : Place) (n : Nat) : Nat := if n < 64 then fld p.rot (2 * n) 2 else 0
/-- The final value of a symbol (R307). -/
def finalValue (p : Place) (plans : List Plan) (y : Symb) : Nat :=
  match y.kind with
  | 1 => p.text + y.value
  | 2 => p.text + y.value
  | 3 => p.ro + y.value
  | 4 =>
    let r := match plans.findIdx? (fun q => q.sym = y.kernel) with | some n => p.rotOf n | none => 0
    (y.value + r * 0x18000) % 0x60000
  | 5 => p.rtfirst + y.value
  | 6 => p.mfirst + y.value
  | _ => y.value
/-- The field of a relocation type: bytes of its word, lowest bit, bits, and the sections it may stand in. -/
def relField (ty : Nat) : Option (Nat × Nat × Nat × List Nat) :=
  match ty with
  | 1 => some (8, 0, 64, [1, 6])
  | 2 => some (4, 0, 32, [1, 6])
  | 3 => some (4, 0, 32, [1, 6])
  | 4 => some (4, 0, 12, [1])
  | 5 => some (4, 16, 8, [1])
  | 6 => some (8, 48, 12, [2])
  | 7 => some (8, 42, 12, [2])
  | _ => none
/-- The value a relocation type writes, if its check passes. -/
def relValue (ty v : Nat) : Option Nat :=
  let i := sext 64 v
  match ty with
  | 1 => some v
  | 2 => if -(2 ^ 31 : Int) ≤ i && i < 2 ^ 32 then some (v % 2 ^ 32) else none
  | 3 => some (v / 2 ^ 32 % 2 ^ 32)
  | 4 => if -2048 ≤ i && i ≤ 2047 then some (v % 4096) else none
  | 5 => if v ≤ 255 then some v else none
  | _ => if v ≤ 4095 then some v else none
/-- The relocatable contents: `.text`, micro-op words and `.rodata`, each with its size. -/
structure Image where
  text : Nat
  textSize : Nat
  micro : Nat
  microSize : Nat
  ro : Nat
  roSize : Nat
/-- A section of an image. -/
def Image.part (m : Image) (sect : Nat) : Nat × Nat :=
  match sect with | 1 => (m.text, m.textSize) | 2 => (m.micro, m.microSize) | _ => (m.ro, m.roSize)
/-- Replace bits of a section of an image. -/
def Image.set (m : Image) (sect bit n v : Nat) : Image :=
  let upd (x : Nat) : Nat := x - fld x bit n * 2 ^ bit + v * 2 ^ bit
  match sect with | 1 => { m with text := upd m.text } | 2 => { m with micro := upd m.micro } | _ => { m with ro := upd m.ro }
/-- Apply one relocation entry. -/
def relocate (p : Place) (plans : List Plan) (s : Syms) (m : Image) (i : Nat) : Ld Image :=
  let a := 32 + 24 * s.nsym + 24 * i
  let off := byts s.v a 8
  let add := byts s.v (a + 8) 8
  let y := byts s.v (a + 16) 4
  let sect := byts s.v (a + 20) 1
  let ty := byts s.v (a + 21) 1
  let bad : Ld Image := .error ⟨6, i⟩
  if byts s.v (a + 22) 2 ≠ 0 || y = 0 || y ≥ s.nsym then bad
  else match relField ty with
    | none => bad
    | some (bytes, lo, n, sects) =>
      if !sects.contains sect || off + bytes > (m.part sect).2 then bad
      else match relValue ty ((finalValue p plans (s.sym y) + add) % 2 ^ 64) with
        | none => bad
        | some v => .ok (m.set sect (8 * off + lo) n v)
/-- Apply every relocation in order. -/
def relocateAll (p : Place) (plans : List Plan) (s : Syms) : Nat → Nat → Image → Ld Image
  | 0, _, m => .ok m
  | k + 1, i, m => match relocate p plans s m i with | .ok m1 => relocateAll p plans s k (i + 1) m1 | .error e => .error e

/-! ## What is written (R195, R312) -/

/-- The routine table image: an entry for every index up to the highest. -/
def tableImage (p : Place) (plans : List Plan) (s : Syms) (rs : List Rout) (top : Nat) : Nat :=
  pack 64 (fun j => match rs.find? (fun r => r.index = j) with
    | none => 0
    | some r =>
      let own := match plans.find? (fun q => q.sym = (s.sym r.sym).kernel) with | some q => q.accb | none => 0xFFFF
      (p.mfirst + r.first) % 4096 + 4096 + r.gang * 2 ^ 46 + own * 2 ^ 48) (top + 1) 0
/-- Least and greatest of a list. -/
def least (l : List Nat) : Nat := l.foldl (fun a b => if b < a then b else a) (l.headD 0)
/-- Greatest of a list. -/
def greatest (l : List Nat) : Nat := l.foldl (fun a b => if a < b then b else a) 0
/-- A kernel's descriptor (R277, R312). -/
def kernelDesc (p : Place) (n : Nat) (q : Plan) (s : Syms) (rs : List Rout) (tags : Option Nat) : Nat :=
  let mine := rs.filter (fun r => (s.sym r.sym).kernel = q.sym)
  let f := least (mine.map (fun r => r.first))
  let words := (mine.map (fun r => r.count)).sum
  let i0 := least (mine.map (fun r => r.index))
  let i1 := greatest (mine.map (fun r => r.index))
  let some? (v : Nat) : Nat := if mine.isEmpty then 0 else v
  let b (o v : Nat) : Nat := v * 2 ^ (8 * o)
  b 0 (p.text + (s.sym q.sym).value) + b 8 (q.foot (p.rotOf n)) + b 20 q.accb + b 22 q.strands
    + b 24 (some? (p.micro + 8 * f)) + b 32 (some? (p.mfirst + f)) + b 34 (some? words)
    + b 36 (some? (p.rtfirst + i0)) + b 38 (some? (i1 - i0 + 1)) + b 40 (some? (p.rtimg + 8 * i0)) + b 64 (tags.getD 0)
/-- The six declaration words of a kernel in `.tags` (R306): the rule gives the symbol index no width, and an entry is taken as an index
of 4 bytes, as those of `.spplan` are, and 48 bytes.
(DESIGN CHOICE, log 92) -/
def tagsOf (v size sym : Nat) : Option Nat :=
  ((List.range (size / 52)).find? (fun i => byts v (52 * i) 4 = sym)).map (fun i => byts v (52 * i + 4) 48)
/-- Everything a load writes: virtual address, bytes, value.
(DEDUCED, log 55) -/
def Obj.build (o : Obj) (p : Place) (keys : List Nat) : Ld (List (Nat × Nat × Nat)) :=
  match o.sections with
  | .error e => .error e
  | .ok l =>
    let sec (k : Nat) : Nat × Nat := let s := sectOf l k
      (o.part s, s.size)
    if !o.signed l keys then .error ⟨1, 0⟩
    else match parsePlan (sec 3).1 (sec 3).2 ((sec 3).2 / 16 + 1) 0 with
    | none => .error ⟨3, 0⟩
    | some plans =>
      match mustAll (fun i q => must q.good 3 i) 0 plans with
      | .error e => .error e
      | .ok _ =>
        match parseMicro (sec 2).1 (sec 2).2, (if (sec 8).2 = 0 then some (⟨0, 0, 0, 0, 0⟩ : Syms) else parseSyms (sec 8).1 (sec 8).2) with
        | some (rs, words), some s =>
          let top := greatest (rs.map (fun r => r.index))
          let checks : Ld Unit :=
            if p.mfirst + words > 4096 || (!rs.isEmpty && p.rtfirst + top > 255) then .error ⟨5, 0⟩
            else match mustAll (fun i _ => must (s.good (sec 1).2 (sec 6).2 words i) 6 i) 0 (List.range s.nsym) with
              | .error e => .error e
              | .ok _ => match mustAll (fun i r => must (r.good s rs words) 6 i) 0 rs with
                | .error e => .error e
                | .ok _ => mustAll (fun i q => must (q.sym < s.nsym && (s.sym q.sym).kind = 1) 6 i) 0 plans
          (match checks with
            | .error e => .error e
            | .ok _ =>
              let m0 : Image := ⟨(sec 1).1, (sec 1).2, byts (sec 2).1 (16 + 16 * rs.length) (8 * words), 8 * words, (sec 6).1, (sec 6).2⟩
              match relocateAll p plans s s.nrel 0 m0 with
              | .error e => .error e
              | .ok m =>
                let descs := plans.mapIdx (fun n q => (p.kdesc + 128 * n, 128, kernelDesc p n q s rs (tagsOf (sec 4).1 (sec 4).2 q.sym)))
                .ok ([(p.text, m.textSize, m.text), (p.ro, m.roSize, m.ro), (p.micro, 8 * words, m.micro),
                  (p.rtimg, if rs.isEmpty then 0 else 8 * (top + 1), tableImage p plans s rs top)] ++ descs))
        | _, _ => .error ⟨6, 0⟩

/-! ## The request (R312) -/

/-- A load request's fields. -/
def parsePlace (v : Nat) : Place :=
  { obj := byts v 0 8, size := byts v 8 8, text := byts v 16 8, ro := byts v 24 8, micro := byts v 32 8, rtimg := byts v 40 8,
    kdesc := byts v 48 8, mfirst := byts v 56 2, rtfirst := byts v 58 2, rot := byts v 64 16 }
/-- The fields of a request obey R312 as far as they can be judged without the object. -/
def Place.good (p : Place) (v : Nat) : Bool :=
  byts v 80 48 = 0 && p.obj % 64 = 0 && inHostOrHbm p.obj p.size && p.text % 65536 = 0 && p.ro % 64 = 0 && p.micro % 8 = 0
    && p.rtimg % 8 = 0 && p.kdesc % 128 = 0 && p.mfirst ≤ 4095 && p.rtfirst ≤ 255
/-- RESULT (R312).
(DEDUCED, log 55) -/
def resultWord (e : Refused) : Nat := e.item % 2 ^ 24 + e.check * 2 ^ 24
/-- What a load comes to: the machine with RESULT still to be written, and its CHECK and ITEM; a wait; an access held. -/
inductive LoadEnd where
  | done (s : State) (r : Refused)
  | wait (s : State)
  | held (va : Nat)
/-- The writes by sector, in their order. -/
def bySector (w : List (Nat × Nat × Nat)) : List (Nat × Nat × Nat) :=
  w.flatMap (fun q => (sectorParts q.1 q.2.1).map (fun p => (p.1, p.2.1, fld q.2.2 (8 * p.2.2) (8 * p.2.1))))
/-- An integrity failure of the loader, which acts for a context (R400): the context is torn down, and the read counts as poisoned. -/
def State.loadLost (s : State) (c va : Nat) : LoadEnd := .done (s.dieFatal (c % 4) c 0 0 va) ⟨7, 0⟩
/-- Why the loader writes nothing yet, or at all (R312, R337, R400): every page is translated and checked, and every sector it merges
into, before the first byte is written. -/
def State.notWritable (s : State) (c : Nat) (w : List (Nat × Nat × Nat)) : Option LoadEnd :=
  w.findSome? (fun q => match s.translate (c % 4) c (q.1 % 2 ^ 57) .write with
    | .wait s1 => some (.wait s1)
    | .replay => some (.held q.1)
    | .fault x _ => some (if x = 0x15 then s.loadLost c q.1 else .done s ⟨7, 0⟩)
    | .ok pa _ => if decide (window (s.place pa) ≠ .peer) && s.mergesIn pa q.2.1 then some (s.loadLost c q.1) else none)
/-- Perform the writes, each inside one sector; one that no home or peer takes is not performed, and is recorded (R426, R450). -/
def State.writeAll (s : State) (c : Nat) : List (Nat × Nat × Nat) → State × Bool
  | [] => (s, true)
  | (va, n, v) :: l =>
    match s.storeVa .loader (c % 4) c va n v with
    | (s1, none) => s1.writeAll c l
    | (s1, some (.fault x y a)) => (s1.askerRecord .loader (c % 4) c x y a).writeAll c l
    | (s1, some _) => (s1, false)
/-- Load an object for a context (R310, R312).
(DEDUCED, log 55, 79) -/
def State.load? (s : State) (c v : Nat) : LoadEnd :=
  let p := parsePlace v
  if !p.good v then .done s ⟨8, 0⟩
  else if (List.range (pageCount p.obj p.size)).any (fun k => s.domainOf (p.obj + 65536 * k) ≠ 0) then .done s ⟨7, 0⟩
  else match s.readPa p.obj p.size with
    | .wait s1 => .wait s1
    | .bad _ => .done ((s.countInt p.obj p.size).dieLost (c % 4) c 0 0 0) ⟨7, 0⟩
    | .ok o false =>
      (match (⟨o, p.size⟩ : Obj).build p s.pkg.signKeys with
        | .error e => .done s e
        | .ok w =>
          match s.notWritable c (bySector w) with
          | some e => e
          | none =>
            match s.writeAll c (bySector w) with
            | (s1, true) => .done { s1 with cores := s1.cores.map (fun q => (q.1, { q.2 with icache := [] })) } ⟨0, 0⟩
            | (s1, false) => .wait s1)
    | _ => .done s ⟨7, 0⟩

end Sys2Proof.Machine
end

