-- ==== Sys2Proof/Machine/HostCmd.lean ====
section
/-! DEFINITION. Commands of the host on contexts (R340 to R347, R360, R371, R398). -/

namespace Sys2Proof.Machine

/-! ## Commands (R344) -/

/-- A context command's fields (R344). -/
structure Cmd where
  op : Nat
  handle : Nat
  arg : Nat
  compl : Nat
/-- Parse a command. -/
def parseCmd (v : Nat) : Cmd := ⟨byts v 0 1, byts v 4 4, byts v 8 8, byts v 16 8⟩
/-- What a command does: it is done with a STATUS and the handle its completion names; it has begun a tear-down, and its completion
follows; it waits, with requests sent; or it cannot go on. -/
inductive CmdEnd where
  | done (s : State) (status handle : Nat)
  | begun (s : State)
  | wait (s : State)
  | stuck
/-- Bits of ARG that must be 0 are not (R344). -/
def Cmd.badArg (c : Cmd) : Bool :=
  match c.op with | 2 => c.arg ≠ 0 | 3 => c.arg ≠ 0 | 5 => c.arg ≥ 65536 | 6 => c.arg ≥ 8 | _ => false
/-- A command whose DESTROY has not completed holds the queue (R436). -/
def State.cqBusy (s : State) : Bool := s.contexts.any (fun p => p.2.destroy.isSome)
/-- Serve the head of CQ where its OP is one of `mine` (R344, R436): INVALID and STALE are decided here. -/
def State.serveCq (s : State) (mine : Nat → Bool → Bool) (act : State → Cmd → CmdEnd) : Host.Outcome State Fault Refusal :=
  if s.cqBusy then .refused .notEnabled
  else s.takeEntry 1 16 (fun v poison => mine (byts v 0 1) poison) (fun s v poison compl =>
    let c := parseCmd v
    let finish (s : State) (st h : Nat) : Host.Outcome State Fault Refusal := .next (s.completion 1 compl st h)
    if poison || c.op = 0 || c.op > 7 || byts v 1 3 ≠ 0 || byts v 24 40 ≠ 0 || c.badArg then finish s 3 c.handle
    else if c.op ≠ 1 && !s.liveHandle c.handle then finish s 1 c.handle
    else match act s c with
      | .done s1 st h => finish s1 st h
      | .begun s1 => .next s1
      | .wait s1 => s.waiting s1
      | .stuck => .refused .notEnabled)
/-- A key slot (R398, R419): slot 0 is VALID and RETAIN from boot. -/
def Package.key (p : Package) (k : Nat) : KeySlot := (find? p.keys k).getD (if k = 0 then ⟨true, true⟩ else ⟨false, false⟩)
/-- `n` is a power of two between two bounds. -/
def powerIn (n lo hi : Nat) : Bool := lo ≤ n && n ≤ hi && 2 ^ log2Fuel 64 n = n
/-- A context descriptor obeys R341, and its key slot is VALID (R398). -/
def Package.ctxGood (p : Package) (v : Nat) : Bool :=
  let fq := byts v 40 8
  let sb := byts v 56 8
  let sc := byts v 52 4
  byts v 3 1 < 8 && byts v 6 2 = 0 && byts v 16 8 % 64 = 0 && byts v 24 4 ≤ 65536 && byts v 28 4 ≤ 65535 && byts v 32 8 % 32 = 0
    && fq % 64 = 0 && powerIn (byts v 48 4) 64 65536 && inHostOrHbm fq (64 + 64 * byts v 48 4)
    && 1 ≤ sc && sc ≤ 512 && sb % 65536 = 0 && window sb = .hbm && window (sb + 24576 * sc - 1) = .hbm
    && byts v 72 56 = 0 && (p.key (byts v 2 1)).valid
/-- A context as its descriptor makes it (R341, R342). -/
def ctxOfDesc (v : Nat) (gen : BitVec 16) : Ctx :=
  { life := .live, gen, asid := byts v 0 2, keydom := byts v 2 1, pclass := byts v 3 1, tokens := byts v 4 2,
    seed := BitVec.ofNat 64 (byts v 8 8), ttab := BitVec.ofNat 64 (byts v 16 8), tcount := byts v 24 4, kvcount := byts v 28 4,
    kvlist := BitVec.ofNat 64 (byts v 32 8), fqbase := byts v 40 8, fqsize := byts v 48 4, savecount := byts v 52 4,
    savebase := byts v 56 8, wake := BitVec.ofNat 64 (byts v 64 8), savefree := BitVec.ofNat 512 (2 ^ byts v 52 4 - 1) }
/-- CREATE (R341, R344): also answers an entry that cannot be read or has no assigned OP. The descriptor and the KV list are read with
acquire, as the command was (R436).
(DEDUCED, log 57, 79) -/
def execCreate (s : State) : Host.Outcome State Fault Refusal :=
  serving .trowel (s.serveCq (fun op poison => poison || op = 1 || op = 0 || op > 7) (fun s c =>
    let i := ctxIdx c.handle
    if (s.ctx i).life ≠ .free then .done s 2 c.handle
    else if c.arg % 128 ≠ 0 || !inHostOrHbm c.arg 128 then .done s 3 c.handle
    else match s.readPa c.arg 128 with
      | .wait s1 => .wait s1
      | .bad a => .done (s.structBad a 128) 3 c.handle
      | .ok v false =>
        if !s.pkg.ctxGood v then .done s 3 c.handle
        else
          let g := (s.ctx i).gen
          let s1 := (s.onDie (i % 4) Die.dropClean).setCtx i (ctxOfDesc v g)
          (match s1.kvObjs i with
            | .ok os => .done (s1.setPooled i os) 0 (g.toNat * 65536 + i)
            | .wait s2 => .wait (s2.setCtx i (s.ctx i))
            | .bad x => .done (s1.dieFatal (i % 4) i 0 0 x) 0 (g.toNat * 65536 + i)
            | .held _ => .done s1 0 (g.toNat * 65536 + i))
      | _ => .done s 3 c.handle))
/-- DESTROY (R344, R371): the tear-down begins; its completion follows when the context is FREE. -/
def execDestroy (s : State) : Host.Outcome State Fault Refusal :=
  s.serveCq (fun op poison => !poison && op = 2) (fun s c =>
    let i := ctxIdx c.handle
    .begun ((s.teardown i).onCtx i (fun x => { x with destroy := some c.compl })))
/-- SETWAKE (R344). -/
def execSetwake (s : State) : Host.Outcome State Fault Refusal :=
  s.serveCq (fun op poison => !poison && op = 4) (fun s c =>
    .done (s.onCtx (ctxIdx c.handle) (fun x => { x with wake := BitVec.ofNat 64 c.arg })) 0 c.handle)
/-- SETTOK (R344, R360). -/
def execSettok (s : State) : Host.Outcome State Fault Refusal :=
  s.serveCq (fun op poison => !poison && op = 5) (fun s c =>
    .done (s.onCtx (ctxIdx c.handle) (fun x => { x with tokens := c.arg })) 0 c.handle)
/-- SETCLASS (R344). -/
def execSetclass (s : State) : Host.Outcome State Fault Refusal :=
  s.serveCq (fun op poison => !poison && op = 6) (fun s c =>
    .done (s.onCtx (ctxIdx c.handle) (fun x => { x with pclass := c.arg })) 0 c.handle)
/-- LOAD (R310 to R312, R344). -/
def execLoad (s : State) : Host.Outcome State Fault Refusal :=
  serving .loader (s.serveCq (fun op poison => !poison && op = 7) (fun s c =>
    let i := ctxIdx c.handle
    if c.arg % 128 ≠ 0 || !inHostOrHbm c.arg 128 || s.domainOf c.arg ≠ 0 then .done s 3 c.handle
    else match s.readPa c.arg 128 with
      | .wait s1 => .wait s1
      | .bad a => .done (s.structBad a 128) 3 c.handle
      | .ok v false =>
        (match s.load? i v with
          | .done s1 r => .done (s1.post (c.arg + 60) 4 (resultWord r)) (if r.check = 0 then 0 else 3) c.handle
          | .wait s1 => .wait s1
          | .held a => (match s.agentHold (i % 4) i a with | some t => .wait t | none => .stuck))
      | _ => .done s 3 c.handle))

/-! ## RESUME (R347) -/

/-- A halted channel of the context is released (R261, R347): NOT_PRESENT executes again, any other fault ends with a mark.
(DEDUCED, log 30, 31) -/
def State.resumeChan (s : State) (cl ch : Nat) : State :=
  let h := (s.cluster cl).chan ch
  match h.fault, h.queue with
  | some (cause, detail, addr), m :: _ =>
    if cause = 0x10 then s.onCluster cl (fun x => x.setChan ch { (x.chan ch) with halted := false, fault := none })
    else (s.hodSignal m (some ⟨cause, detail, 0, 1, addr⟩)).hodPop cl ch m.strand
  | _, _ => s
/-- The halted channels of a context. -/
def State.haltedOf (s : State) (c : Nat) : List (Nat × Nat) :=
  s.clusters.flatMap (fun p => (p.2.chans.filter (fun q => q.2.haltedBy c)).map (fun q => (p.1, q.1)))
/-- A parked task goes on (R347): by PARK with reason 3, by a fault as READY or, in place, at its bundle again. -/
def State.resumeTask (s : State) (c lid : Nat) (t : Task) : State :=
  let s1 := s.onTask c lid t.id (fun t => { t with held := false })
  match t.parked with
  | .no => s1
  | .park _ _ => s1.wakeTask c lid t 3
  | .fault =>
    let s2 := s1.onTask c lid t.id (fun t => { t with parked := .no })
    match t.run with
    | .bound n => if (s.strand n).run = .blocked (.parked true) then s2.unblock n else s2
    | _ => s2
/-- Completion records whose write faulted are written again (R347): one that must wait for a line or a page is tried again by
LAUNCH_COMPLETE. -/
def State.writeOwed (s : State) (c : Nat) : State :=
  let owed := (s.ctx c).owed
  owed.foldl (fun s q => s.rewriteOne c q) (s.onCtx c (fun x => { x with owed := [], rewrite := x.rewrite ++ owed }))
/-- RESUME (R347): the steps in order; what it resumes sees what the host stored before (R319). -/
def execResume (s : State) : Host.Outcome State Fault Refusal :=
  s.serveCq (fun op poison => !poison && op = 3) (fun s c =>
    let i := ctxIdx c.handle
    let chans := s.haltedOf i
    let room := chans.all (fun q => match ((s.cluster q.1).chan q.2).queue with | m :: _ => s.hasRoom m | [] => true)
    if !room then .stuck
    else
      let s0 : State := { s with dies := s.dies.map (fun p => (p.1, p.2.dropClean)) }
      let s1 := s0.onCtx i (fun x => { x with pkf := 0, pkev := 0, wakepend := false })
      let s2 := chans.foldl (fun s q => s.resumeChan q.1 q.2) s1
      let s3 := (s2.ctx i).launches.foldl (fun s l => l.tasks.foldl (fun s t => s.resumeTask i l.id t) s) s2
      let s4 := s3.writeOwed i
      .done (s4.onPkg (fun p => if ctxIdx p.gs.ctxh.toNat = i then { p with gs := { p.gs with parked := false } } else p)) 0 c.handle)

end Sys2Proof.Machine
end

