-- ==== Sys2Proof/Machine/HostRegs.lean ====
section
/-! DEFINITION. The device-register window as the host reaches it, Trowel's pools, key slots, key domains and the SPDM mailbox (R8, R359,
R374, R375, R398, R399, R407, R413, R420, R432 to R436, R439, R441, R450). -/

namespace Sys2Proof.Machine

/-! ## Reading a register -/

/-- DEVSTAT (R434). -/
def Package.devstat (p : Package) : Nat := b2n p.viral + 2 * b2n p.link0 + 4 * b2n p.link1 + 2 ^ 8 * (p.vreason % 256)
/-- A register of the DEV block (R434); the stepping is A0. -/
def State.devReg (s : State) (o : Nat) : Nat :=
  match o with
  | 0x00 => 0x00020004
  | 0x08 => s.pkg.devstat
  | 0x18 => s.gtime.toNat
  | 0x20 => s.pkg.pwrlim
  | _ => 0
/-- A register of a queue (R435). -/
def Queue.reg (q : Queue) (o : Nat) : Nat :=
  match o with
  | 0x00 => q.base
  | 0x08 => q.log2n + 2 ^ 8 * b2n q.en
  | 0x10 => q.prod.toNat
  | 0x18 => q.cons.toNat
  | 0x20 => q.dropped % 2 ^ 32 * 2 ^ 32 + b2n q.err
  | _ => 0
/-- A scheduling register (R359, R433). -/
def Package.schedReg (p : Package) (o : Nat) : Nat :=
  match o with
  | 0x00 => p.draint
  | 0x08 => p.killt
  | 0x10 => p.phor
  | 0x18 => p.dhor
  | 0x20 => p.tscan
  | 0x28 => p.hlow
  | 0x30 => p.hhigh
  | _ => 0
/-- The number of a sequencer state (R375). -/
def GsState.num : GsState → Nat
  | .off => 0
  | .run => 1
  | .wait => 2
  | .halt => 3
/-- A register of the sequencer (R374, R375). -/
def Gs.reg (g : Gs) (o : Nat) : Nat :=
  if o = 0x00 then g.ctxh.toNat * 2 ^ 32 + b2n g.en
  else if o = 0x08 then
    g.iter.toNat * 2 ^ 32 + g.att.toNat * 2 ^ 24 + g.abcnt.toNat * 2 ^ 16 + g.lastSlot % 64 * 2 ^ 10 + g.lastWhy % 16 * 2 ^ 6 + g.state.num
  else if o = 0x10 then g.gb.toNat
  else if o = 0x18 then pack 9 (fun b => g.occlim.getD b 0) 7 0
  else if o = 0x20 then g.ablim
  else if 0x100 ≤ o && o < 0x300 then g.slot ((o - 0x100) / 8)
  else 0
/-- Images in Kiln's buffer (R407). -/
def State.kilnOcc (s : State) : Nat := (s.die 2).images.length + (s.die 3).images.length
/-- A register of Kiln (R407). -/
def State.kilnReg (s : State) (o : Nat) : Nat :=
  match o with
  | 0x00 => 2 * b2n s.pkg.gpf
  | 0x08 => s.kilnOcc * 2 ^ 48 + s.pkg.failcnt * 2 ^ 32 + 8 * b2n s.pkg.holdok + 4 * b2n s.pkg.fail + 2 * b2n s.pkg.flushok + b2n s.pkg.buffered
  | _ => 0
/-- Retired stacks. -/
def Package.retiredStacks (p : Package) : Nat := (p.hbm.filter (fun q => q.2.retired)).length
/-- A memory register (R413). -/
def Package.memReg (p : Package) (o : Nat) : Nat :=
  let k := p.stack (o / 16)
  if o < 0x100 then
    if o % 16 = 0 then k.ue * 2 ^ 48 + k.ce * 2 ^ 32 + k.ecs else b2n k.retired * 2 ^ 63 + b2n k.retiring * 2 ^ 62 + k.int
  else if o = 0x100 then p.retiredStacks * 2 ^ 16 + p.retiredCores % 256 * 2 ^ 8 + b2n p.replace
  else 0
/-- A fabric register (R434). -/
def Package.fabReg (p : Package) (o : Nat) : Nat :=
  match o with
  | 0x00 => b2n p.gvalid * 2 ^ 63 + p.pkgnum
  | 0x08 => fld p.fports.toNat 0 64
  | 0x10 => fld p.fports.toNat 64 64
  | _ => 0
/-- The 64-bit register at an offset of the window (R432 to R434); an unassigned one reads as zero. -/
def State.reg (s : State) (off : Nat) : Nat :=
  let o := off % 0x1000
  match off / 0x1000 with
  | 0 => s.devReg o
  | 1 => if o < 0x180 then (s.pkg.queue (o / 0x40)).reg (o % 0x40) else 0
  | 2 => s.pkg.schedReg o
  | 3 => if o = 0x10 then s.pkg.hpool.length else if o = 0x50 then s.pkg.ppool.length else 0
  | 4 => s.pkg.gs.reg o
  | 5 => s.kilnReg o
  | 6 => s.pkg.memReg o
  | 7 => s.pkg.fabReg o
  | 8 => if o < 0x80 then (look 0 s.pkg.fences (o / 8)).toNat else 0
  | _ => 0

/-! ## Writing a register (R8, R432) -/

/-- A register write of the window outside DEV has no effect in the viral state (R432). -/
def State.regWrite (s : State) (t : State) : Host.Outcome State Fault Refusal := .next (if s.pkg.viral then s else t)
/-- CQ_PROD_WRITE (R436): a producer count of a queue that the host fills; one written too far is refused. EQ and NQ have theirs from
the device.
(DEDUCED, log 62) -/
def execCqProdWrite (q value : Nat) (s : State) : Host.Outcome State Fault Refusal :=
  let x := s.pkg.queue q
  let v := BitVec.ofNat 32 value
  s.regWrite (if q ≥ 4 then s
    else if (v - x.cons).toNat > 2 ^ x.log2n then s.queueErr q
    else s.onQueue q (fun x => { x with prod := v }))
/-- QCFG_WRITE (R435).
(DEDUCED, log 62) -/
def execQcfgWrite (q value : Nat) (s : State) : Host.Outcome State Fault Refusal :=
  let n := fld value 0 5
  let en := bitOf value 8
  s.regWrite (if q ≥ 6 || (s.pkg.queue q).en then s
    else if en && (n < 4 || 16 < n) then s.queueErr q
    else s.onQueue q (fun x => { x with en, log2n := n }))
/-- A push of one of Trowel's pools (R439).
(DEDUCED, log 18) -/
def State.push (s : State) (hbm : Bool) (value : Nat) : State :=
  let pa := fld value 16 36 * 2 ^ 16
  let n := (if hbm then s.pkg.hpool else s.pkg.ppool).length
  if value % 2 ^ 16 ≠ 0 || window pa ≠ (if hbm then .hbm else .pooled) || n ≥ 1048576 then
    s.event 6 0 (if hbm then 0x3000 else 0x3040)
  else s.onPool hbm (fun l => pa :: l)
/-- HPPUSH (R439). -/
def execHppush (value : Nat) (s : State) : Host.Outcome State Fault Refusal := s.regWrite (s.push true value)
/-- PPPUSH (R439). -/
def execPppush (value : Nat) (s : State) : Host.Outcome State Fault Refusal := s.regWrite (s.push false value)
/-- A pop of one of the pools (R439): the page, or 0, is what the read returns. -/
def State.pop (s : State) (hbm : Bool) : State :=
  let l := if hbm then s.pkg.hpool else s.pkg.ppool
  (s.onPool hbm (fun l => l.drop 1)).onPkg (fun p => { p with reply := (0, l.headD 0) })
/-- A read of a register outside DEV does not answer in the viral state (R432). -/
def State.noAnswer (s : State) : State := s.onPkg (fun p => { p with reply := (1, 0) })
/-- HPPOP (R439). -/
def execHppop (s : State) : Host.Outcome State Fault Refusal := .next (if s.pkg.viral then s.noAnswer else s.pop true)
/-- PPPOP (R439). -/
def execPppop (s : State) : Host.Outcome State Fault Refusal := .next (if s.pkg.viral then s.noAnswer else s.pop false)
/-- FORCEV (R434, R448): a write of DEVCTL. -/
def execForcev (value : Nat) (s : State) : Host.Outcome State Fault Refusal := .next (if bitOf value 0 then s.goViral 6 else s)
/-- KLCTL_GPF_WRITE (R407). -/
def execKlctlGpfWrite (value : Nat) (s : State) : Host.Outcome State Fault Refusal :=
  s.regWrite (if bitOf value 1 && !s.pkg.holdok then s else (s.onPkg (fun p => { p with gpf := bitOf value 1 })).settleMode)

/-- A write of a register of a queue (R435): QBASE while EN is 0, CONS of EQ and NQ, ERR. -/
def State.writeQueue (s : State) (k o v : Nat) : State :=
  match o with
  | 0x00 => if (s.pkg.queue k).en then s else s.onQueue k (fun q => { q with base := fld v 12 40 * 2 ^ 12 })
  | 0x18 => if k < 4 then s else s.onQueue k (fun q => { q with cons := BitVec.ofNat 32 v })
  | 0x20 => if bitOf v 0 then s else s.onQueue k (fun q => { q with err := false })
  | _ => s
/-- A write of a scheduling register (R359). -/
def Package.writeSched (p : Package) (o v : Nat) : Package :=
  match o with
  | 0x00 => { p with draint := fld v 0 32 }
  | 0x08 => { p with killt := fld v 0 32 }
  | 0x10 => { p with phor := fld v 0 64 }
  | 0x18 => { p with dhor := fld v 0 64 }
  | 0x20 => { p with tscan := fld v 0 32 }
  | 0x28 => { p with hlow := fld v 0 32 }
  | 0x30 => { p with hhigh := fld v 0 32 }
  | _ => p
/-- A write of a register of the sequencer other than the control of EN and STOP (R374, R375): a write of CTXH alone reaches GSCTL's
upper half. -/
def Gs.write (g : Gs) (o v : Nat) : Gs :=
  if o = 0x00 then
    match g.state with
    | .off => { g with ctxh := BitVec.ofNat 32 (v / 2 ^ 32) }
    | .wait => { g with recheck := true }
    | _ => g
  else if o = 0x10 then { g with gb := BitVec.ofNat 64 (fld v 12 45 * 2 ^ 12) }
  else if o = 0x18 then { g with occlim := (List.range 7).map (fun b => fld v (9 * b) 9) }
  else if o = 0x20 then { g with ablim := fld v 0 8 }
  else if 0x100 ≤ o && o < 0x300 then
    { g with slots := put 0 g.slots ((o - 0x100) / 8) (BitVec.ofNat 64 (fld v 6 51 * 2 ^ 6 + fld v 0 1)) }
  else g
/-- A write of a memory register (R413). -/
def Package.writeMem (p : Package) (o v : Nat) : Package :=
  if o ≥ 0x100 then p
  else if o % 16 = 0 then p.onStack (o / 16) (fun k => { k with ue := fld v 48 16, ce := fld v 32 16, ecs := fld v 0 32 })
  else p.onStack (o / 16) (fun k => { k with int := fld v 0 16 })
/-- A write of FABCFG (R434): PKGNUM keeps its value while GVALID is 1. The firmware may then advance GTIME (R457); the model's does not.
(DESIGN CHOICE, log 81) -/
def Package.writeFab (p : Package) (o v : Nat) : Package :=
  if o = 0 then { p with gvalid := bitOf v 63, pkgnum := if p.gvalid then p.pkgnum else fld v 0 10 } else p
/-- Registers whose writes are steps of their own, by the 4 or 8 bytes written: GSCTL but for its upper half alone, QCFG, PROD, the
pools, DEVCTL, KLCTL and the fences. -/
def ownStep (off bytes : Nat) : Bool :=
  let o := off / 8 * 8
  (o = 0x4000 && !(off = 0x4004 && bytes = 4)) || (0x1000 ≤ o && o < 0x1180 && (o % 0x40 = 0x08 || o % 0x40 = 0x10))
    || o = 0x3000 || o = 0x3040 || o = 0x10 || o = 0x5000 || (0x8000 ≤ o && o < 0x8080)
/-- The register at an offset takes a value (R432 to R434); unassigned offsets and read-only fields ignore it. -/
def State.writeReg (s : State) (off v : Nat) : State :=
  let o := off % 0x1000
  match off / 0x1000 with
  | 0 => if o = 0x20 then s.onPkg (fun p => { p with pwrlim := fld v 0 16 }) else s
  | 1 => if o < 0x180 then s.writeQueue (o / 0x40) (o % 0x40) v else s
  | 2 => s.onPkg (fun p => p.writeSched o v)
  | 4 => s.onGs (fun g => g.write o v)
  | 5 => if o = 0x08 && !bitOf v 2 then s.onPkg (fun p => { p with fail := false }) else s
  | 6 => s.onPkg (fun p => p.writeMem o v)
  | 7 => s.onPkg (fun p => p.writeFab o v)
  | _ => s
/-- The value of a 64-bit register when 4 or 8 of its bytes are written (R432). -/
def merged (old off bytes v : Nat) : Nat :=
  if bytes = 8 then v % 2 ^ 64
  else if off % 8 = 4 then old % 2 ^ 32 + v % 2 ^ 32 * 2 ^ 32
  else old / 2 ^ 32 * 2 ^ 32 + v % 2 ^ 32
/-- A fence bit becomes set: FENCE is reported (R438, R450). -/
def State.fence (s : State) (peer : Nat) : State :=
  if s.pkg.fenced peer then s
  else (s.onPkg (fun p => { p with fences := put 0 p.fences (peer / 64) (look 0 p.fences (peer / 64) ||| ((1 : Word) <<< (peer % 64))) })).event 5 0 peer
/-- FENCE_WRITE (R450): each bit takes the value written; those that become set are reported. -/
def execFenceWrite (reg value : Nat) (s : State) : Host.Outcome State Fault Refusal :=
  let set := (List.range 64).filter (fun j => bitOf value j)
  let s1 := set.foldl (fun s j => s.fence (64 * reg + j)) s
  s.regWrite (if reg ≥ 16 then s else s1.onPkg (fun p => { p with fences := put 0 p.fences reg (BitVec.ofNat 64 value) }))
/-- FENCE_NOTICE (R450). -/
def execFenceNotice (peer : Nat) (s : State) : Host.Outcome State Fault Refusal := .next (if peer < 1024 then s.fence peer else s)
/-- What a step answers to the outside: a STATUS and a value (R441).
(DESIGN CHOICE, log 58) -/
def State.answer (s : State) (st v : Nat) : State := s.onPkg (fun p => { p with reply := (st, v) })
/-- A 4-byte write of a register whose 8-byte writes are steps of their own: the register takes the value as that step has it (R432).
(DEDUCED, log 62) -/
def State.writeHalf (s : State) (o v : Nat) : Host.Outcome State Fault Refusal :=
  let q := o % 0x1000 / 0x40
  if o = 0x10 then execForcev v s
  else if o = 0x3000 then execHppush v s
  else if o = 0x3040 then execPppush v s
  else if o = 0x4000 then (if s.pkg.viral then .next s else s.writeGsctl v)
  else if o = 0x5000 then execKlctlGpfWrite v s
  else if o ≥ 0x8000 then execFenceWrite ((o - 0x8000) / 8) v s
  else if o % 0x40 = 0x08 then execQcfgWrite q v s
  else execCqProdWrite q v s
/-- A register read of the host (R432, R439): status 0 with the value, or the addressed half of it; 1 no answer, as in the viral state
outside DEV. A read of a pool's POP is a step of its own, but for one of 4 bytes.
(DEDUCED, log 62) -/
def State.readReg (s : State) (off bytes : Nat) : Host.Outcome State Fault Refusal :=
  let o := off / 8 * 8
  let half (v : Nat) : Nat := if bytes = 8 then v else fld v (8 * (off % 8)) 32
  if s.pkg.viral && off ≥ 0x1000 then .next s.noAnswer
  else if o = 0x3008 || o = 0x3048 then
    if bytes = 8 then .refused .notEnabled
    else
      let t := s.pop (o = 0x3008)
      .next (t.answer 0 (half t.pkg.reply.2))
  else .next (s.answer 0 (half (s.reg o)))
/-- REGISTER_WRITE (R8, R432): a write, or with no value a read, of 4 or 8 aligned bytes; any other access has no effect and completes with
an Unsupported Request, status 2.
(DEDUCED, log 62) -/
def execRegisterWrite (off bytes : Nat) (value : Option Nat) (s : State) : Host.Outcome State Fault Refusal :=
  if (bytes ≠ 4 && bytes ≠ 8) || off % bytes ≠ 0 then .next (s.answer 2 0)
  else match value with
    | none => s.readReg off bytes
    | some v =>
      let o := off / 8 * 8
      let w := merged (s.reg o) off bytes v
      if ownStep off bytes then (if bytes = 8 then .refused .notEnabled else s.writeHalf o w)
      else if off < 0x1000 then .next (s.writeReg o w)
      else s.regWrite (s.writeReg o w)

/-! ## Keys, key domains and SPDM (R398, R399, R420, R441) -/

/-- A key or signing operation is accepted only inside a secure session (R441).
(DESIGN CHOICE, log 58) -/
def State.inSession (s : State) (k : State) : Host.Outcome State Fault Refusal := .next (if s.pkg.session then k else s.answer 1 0)
/-- Change a key slot. -/
def State.setKey (s : State) (k : Nat) (x : KeySlot) : State := s.onPkg (fun p => { p with keys := upd p.keys k x })
/-- KEYLOAD (R398, R441). -/
def execKeyload (slot : Nat) (retain : Bool) (s : State) : Host.Outcome State Fault Refusal :=
  s.inSession (if slot = 0 || slot ≥ 256 then s.answer 2 0
    else if (s.pkg.key slot).valid then s.answer 1 0
    else (s.setKey slot ⟨true, retain⟩).answer 0 0)
/-- A LIVE context or a map entry names a key domain. -/
def State.domainNamed (s : State) (k : Nat) : Bool :=
  s.contexts.any (fun p => decide (p.2.life = .live) && p.2.keydom = k) || s.pkg.domains.any (fun p => p.2 = k)
/-- KEYZERO (R398, R441). -/
def execKeyzero (slot : Nat) (s : State) : Host.Outcome State Fault Refusal :=
  s.inSession (if slot = 0 || slot ≥ 256 then s.answer 2 0
    else if s.domainNamed slot then s.answer 1 0
    else (s.setKey slot ⟨false, false⟩).answer 0 0)
/-- A page that has a key domain (R399). -/
def domainPage (page : Nat) : Bool := match window (65536 * page) with | .hbm => true | .pooled => true | .nv => true | _ => false
/-- KDSET of one page, through the remap of retired stacks (R415); Kiln's buffer drains between pages of the non-volatile tier. -/
def State.kdsetOne (s : State) (page dom : Nat) : State :=
  let s1 := (s.kdsetPage (s.remapped (65536 * page) / 65536) dom).onPkg (fun p => { p with domains := put 0 p.domains page dom })
  if window (65536 * page) = .nv then s1.flush else s1
/-- KDSET takes no page of a stack that is retiring, nor one that a retired stack has lost (R415). -/
def State.kdsetBarred (s : State) (page : Nat) : Bool :=
  s.lostStack (65536 * page) || (window (65536 * page) = .hbm && (s.pkg.stack (stackOf (65536 * page))).retiring)
/-- KDSET (R399, R415, R441): `count` pages from a page number, cleared under the new domain once the accesses in flight have drained.
(DEDUCED, log 51) -/
def execKdset (page count dom : Nat) (s : State) : Host.Outcome State Fault Refusal :=
  let pages := (List.range count).map (fun k => page + k)
  if !s.pkg.session then .next (s.answer 1 0)
  else if count = 0 || count > 2 ^ 24 || dom ≥ 256 then .next (s.answer 2 0)
  else if !domainPage page || !domainPage (page + count - 1) || window (65536 * page) ≠ window (65536 * (page + count - 1)) then .next (s.answer 2 0)
  else if !(s.pkg.key dom).valid || pages.any s.kdsetBarred then .next (s.answer 1 0)
  else if !pages.all (fun p => s.pageQuiet (s.remapped (65536 * p) / 65536)) then .refused .notEnabled
  else
    let (s1, ok) := pages.foldl (fun (r : State × Bool) p =>
      match r.1.gatePage (s.remapped (65536 * p) / 65536) true with
      | (s1, .waits) => (s1, false)
      | (s1, _) => (s1, r.2)) (s, true)
    if !ok then s.waiting s1
    else if window (65536 * page) = .nv && (s.pkg.viral || !(s.die 2).heldWrites.isEmpty || !(s.die 3).heldWrites.isEmpty) then .refused .notEnabled
    else .next ((pages.foldl (fun s p => s.kdsetOne p dom) s1).answer 0 0)
/-- SIGKEY (R311, R419, R441): a loader signing key is added or removed, signed by the firmware's key. -/
def execSigkey (addKey : Bool) (key sig : Nat) (s : State) : Host.Outcome State Fault Refusal :=
  s.inSession (if key ≥ 2 ^ 256 || sig ≥ 2 ^ 512 then s.answer 2 0
    else if !Config.commandSigned s.pkg.firmware addKey key sig then s.answer 1 0
    else (s.onPkg (fun p => { p with signKeys :=
      if addKey then (if p.signKeys.contains key then p.signKeys else p.signKeys ++ [key]) else p.signKeys.filter (fun k => k ≠ key) })).answer 0 0)
/-- What the device measures (R420): with the key that attests, the firmware, the repair maps and the installed signing keys. -/
def Package.measured (p : Package) : List Nat := p.attestKey :: p.firmware :: p.repaired :: p.signKeys
/-- SPDM_ATTEST (R420, R441): identity and measurements, signed by the device; by the request's kind a secure session opens (3) or
closes (4).
(DESIGN CHOICE, log 58) -/
def execSpdmAttest (kind : Nat) (s : State) : Host.Outcome State Fault Refusal :=
  let t := (s.onPkg (fun p => { p with session := if kind = 3 then true else if kind = 4 then false else p.session }))
  .next (({ t with freeN := s.freeN + 1 } : State).answer 0 (Config.attestation kind s.pkg.measured s.freeN))

end Sys2Proof.Machine
end

