-- ==== Sys2Proof/Machine/Fabric.lean ====
section
/-! DEFINITION. The fabric: snoops and reads of the host, answers of host and peers, inbound requests of peers, links, loss of ports and
dies, the viral state (R403, R423 to R431, R442 to R454). -/

namespace Sys2Proof.Machine

/-! ## The host and host memory (R427) -/

/-- The bytes of a 64-byte line at its home. -/
def State.lineData (s : State) (l : Nat) : Nat := s.hGet (64 * l) 64
/-- Data returned to the host: status 1 data, 2 poisoned (or any in the viral state). -/
def State.lineOut (s : State) (l : Nat) : Nat × Nat := if s.pkg.viral || s.hPoison (64 * l) 64 then (2, 0) else (1, s.lineData l)
/-- A snoop's answer: the line's data, or none, status 0. -/
def State.returned (s : State) (l : Nat) (give : Bool) : State :=
  if give then s.answer (s.lineOut l).1 (s.lineOut l).2 else s.answer 0 0
/-- A snoop (R427): what it leaves the line in, and whether it takes data that is not M. -/
def State.snoop (s : State) (l : Nat) (after : Mesi) (current : Bool) : Host.Outcome State Fault Refusal :=
  if window (64 * l) ≠ .host then .refused .notEnabled
  else
    let st := s.line l
    let s1 := s.returned l (decide (st = .m) || (current && decide (st ≠ .i)))
    .next (if current || st = .i then s1 else s1.setLine l after)
/-- SNP_INV (R427). -/
def execSnpInv (line : Nat) (s : State) : Host.Outcome State Fault Refusal := s.snoop line .i false
/-- SNP_DATA (R427). -/
def execSnpData (line : Nat) (s : State) : Host.Outcome State Fault Refusal := s.snoop line .s false
/-- SNP_CUR (R427). -/
def execSnpCur (line : Nat) (s : State) : Host.Outcome State Fault Refusal := s.snoop line .i true
/-- The states that answer a request for a line (R427). -/
def grants (own : Bool) (g : Mesi) : Bool := match g with | .i => false | .s => !own | .e => true | .m => own
/-- CXL_RESPONSE (R427, R429): the host answers the oldest RdShared or RdOwn of a line; posted writes that waited are performed.
(DEDUCED, log 59; DESIGN CHOICE, log 69) -/
def execCxlResponse (line : Nat) (grant : Mesi) (data : BitVec 512) (s : State) : Host.Outcome State Fault Refusal :=
  match s.pkg.cxlReqs.find? (fun r => r.1 = line) with
  | none => .refused .notEnabled
  | some r =>
    if !grants r.2 grant then .refused .notEnabled
    else
      let s1 := s.onPkg (fun p => { p with cxlReqs := p.cxlReqs.filter (fun q => q ≠ r) })
      let s2 := if s1.line line = .i then s1.cellWrite (64 * line) 64 (2 ^ 64 - 1) data.toNat false else s1
      .next (s2.setLine line grant).settleWrites

/-! ## The host and device memory (R425, R428, R430) -/

/-- The device address of an HDM offset of a port (R425). -/
def hdmPa (port off : Nat) : Nat := port * 0xC000000000 + off
/-- An offset of a port's HDM. -/
def hdmOk (port off : Nat) : Bool := port < 2 && off < 0xC000000000
/-- A physical address that an agent outside the package may not reach (R399), or whose stack is gone (R415). -/
def State.closed (s : State) (pa : Nat) : Bool := !s.outsider pa || s.lostStack pa

/-- An entry of the snoop filter becomes the most recent (R428), held through a port more. -/
def Die.grant (x : Die) (l : Nat) (any : Bool) (port : Nat) : Die :=
  let old := (x.filter.find? (fun e => e.1 = l)).map (fun e => e.2)
  { x with filter := x.filter.filter (fun e => e.1 ≠ l) ++ [(l, any || (old.map (fun e => e.1)).getD false,
    2 ^ port ||| (old.map (fun e => e.2)).getD 0)] }
/-- A line written with some of its atoms poisoned (R397, R403). -/
def State.comesPoisoned (s : State) (q : Nat) (atoms : BitVec 2) : State :=
  if atoms = 0 then s
  else { s with memP := loop (fun k m => if atoms.getLsbD k then put false m (q / 32 + k) true else m) 2 0 s.memP }
/-- The address of a request from outside. -/
def Inbound.pa : Inbound → Nat
  | .memrd port off _ => hdmPa port (off / 64 * 64)
  | .memwr port off _ => hdmPa port (off / 64 * 64)
  | .peer r => r.pa
/-- Its bytes. -/
def Inbound.bytes : Inbound → Nat
  | .peer r => r.bytes
  | _ => 64
/-- The port by which it comes, for the order of one port's requests to one sector (R445, R453): the host's, or the peer's. -/
def Inbound.port : Inbound → Nat
  | .memrd port _ _ => port
  | .memwr port _ _ => port
  | .peer r => 2 + r.peer
/-- The die that receives it. -/
def Inbound.die : Inbound → Nat
  | .memrd port _ _ => port
  | .memwr port _ _ => port
  | .peer r => homeDie r.pa
/-- A request that is answered at once and not performed (R399, R415, R449, R450). -/
def State.turnsAway (s : State) (r : Inbound) : Bool :=
  s.pkg.viral || window r.pa ≠ .hbm || s.closed r.pa || (match r with | .peer q => s.pkg.fenced q.peer | _ => false)
/-- A host read (R425, R428, R430): an atomic engine's sector is recalled first (R263), and a full filter first invalidates its least
recent entry. -/
def State.serveRead (s : State) (port pa : Nat) (any : Bool) : State × Option (Nat × Nat) :=
  if s.pkg.viral || s.closed pa then (s.countRefusal pa, some (2, 0))
  else
    let s1 := (s.recallAt (s.place pa) 64).getD s
    let l := s.place pa / 64
    let d := homeDie (64 * l)
    let out : State × Option (Nat × Nat) :=
      let s2 := s1.onDie d (fun x => x.grant l any port)
      (s2.countInt pa 64, some (s2.lineOut (pa / 64)))
    match (s1.die d).filter with
    | e :: _ => if (s1.die d).filter.length ≥ 65536 && (s1.filterOf l).isNone then (s1.askBisnp e.1 true, none) else out
    | [] => out
/-- A host write (R428, R430) is written into the home sector: status 0 done, 3 not performed. -/
def State.serveWrite (s : State) (pa : Nat) (w : LineData) : State × Option (Nat × Nat) :=
  if s.pkg.viral then (s, some (3, 0))
  else if s.closed pa then (s.countRefusal pa, some (0, 0))
  else (((s.countMerge pa 64 (2 ^ 64 - 1)).homeWrite pa 64 (2 ^ 64 - 1) w.data.toNat false none).comesPoisoned (s.place pa) w.poison, some (0, 0))
/-- A peer's request (R442, R443, R445, R446, R450) is performed in the home sector: status 0, 1 poisoned, 2 refused. -/
def State.servePeer (s : State) (req : PeerReq) : State × Option (Nat × Nat) :=
  let pa := req.pa
  let n := req.bytes
  let read := decide (req.op = .read)
  if s.pkg.viral || s.pkg.fenced req.peer then (s, some (2, 0))
  else if window pa ≠ .hbm then (s, some (if read then 1 else 2, 0))
  else if s.closed pa then (s.countRefusal pa, some (match req.op with | .write => 0 | _ => 1, 0))
  else match s.gate pa n (!read) with
    | (s1, .waits) => (s1, none)
    | (_, .dead _ _) => (s, some (if read then 1 else 2, 0))
    | (s1, .ready) =>
      match req.op with
      | .read => (s1.countInt pa n, some (if s1.hPoison pa n then (1, 0) else (0, s1.hGet pa n)))
      | .write =>
        let m := fld req.mask.toNat 0 n
        ((s1.countMerge pa n m).homeWrite pa n m req.data.toNat req.poison none, some (0, 0))
      | .atomic aop =>
        if req.poison then (s1, some (1, 0))
        else
          let (s2, old, p) := s1.atomHome pa n aop (req.data.toNat % 2 ^ (8 * n)) (req.comparand.toNat % 2 ^ (8 * n)) none
          if p then (s2.countInt pa n, some (1, 0)) else (s2, some (0, old))
/-- A request from outside is performed and answered, or waits with requests sent. -/
def State.serveIn (s : State) (r : Inbound) : State × Option (Nat × Nat) :=
  match r with
  | .memrd port _ any => s.serveRead port r.pa any
  | .memwr _ _ data => s.serveWrite r.pa data
  | .peer q => s.servePeer q
/-- A held request of the same port to the same sector (R445, R453). -/
def Inbound.follows (r : Inbound) (e : Replay) : Bool :=
  match e.who with | .outside q => q.port = r.port && q.pa / 128 = r.pa / 128 | _ => false
/-- A request goes behind those held: its page is in transit, or an earlier one of its port to its sector still waits (R453). -/
def State.mustQueue (s : State) (r : Inbound) : Bool :=
  !s.turnsAway r && (s.inTransit (s.place r.pa) r.bytes || s.dies.any (fun p => p.2.replay.any r.follows))
/-- A request from outside arrives (R445, R453): it is answered, waits, or is held in the replay queue of the die that received it, or at
its port where that is full.
(DESIGN CHOICE, log 52) -/
def State.arrives (s : State) (r : Inbound) : Host.Outcome State Fault Refusal :=
  if s.mustQueue r then
    match (s.die r.die).hold (.outside r) 65536 (s.place r.pa / 65536) with
    | some x => .next (s.setDie r.die x)
    | none => .refused .notEnabled
  else match s.serveIn r with
    | (t, some a) => .next (t.answer a.1 a.2)
    | (t, none) => s.waiting t
/-- A held request is performed at the page's new place, once it is the first of its port to its sector (R453). -/
def State.serveHeld (s : State) (d : Nat) (e : Replay) : State :=
  match e.who with
  | .outside r =>
    if (!s.turnsAway r && s.inTransit (s.place r.pa) r.bytes) || (s.die d).replay.find? r.follows ≠ some e then s
    else match s.serveIn r with
      | (t, some a) => (t.onDie d (fun x => { x with replay := x.replay.filter (fun q => q ≠ e) })).onPkg (fun p => { p with late := p.late ++ [(r, a)] })
      | (t, none) => t
  | _ => s
/-- The requests held from outside that can be performed now are, in their order (R453). -/
def State.serveOutside (s : State) : State :=
  [0, 1, 2, 3].foldl (fun s d => (s.die d).replay.foldl (fun s e => s.serveHeld d e) s) s
/-- HOST_MEMRD (R425, R428, R430): a MemRd for S, or for any state. -/
def execHostMemrd (port off : Nat) (any : Bool) (s : State) : Host.Outcome State Fault Refusal :=
  if !hdmOk port off then .refused .notEnabled else s.arrives (.memrd port off any)
/-- HOST_MEMWR (R403, R428, R430): a MemWr. -/
def execHostMemwr (port off : Nat) (data : LineData) (s : State) : Host.Outcome State Fault Refusal :=
  if !hdmOk port off then .refused .notEnabled else s.arrives (.memwr port off data)
/-- Dirty data that the host returns for a line is written at its home (R397, R400, R428). -/
def State.takeDirty (s : State) (line : Nat) (v : LineData) : State :=
  let s1 := if look false s.badTag (line / 2) then s.onStack (stackOf (64 * line)) (fun x => { x with int := satAdd 16 x.int 1 }) else s
  (s1.rawWrite (64 * line) 64 (2 ^ 64 - 1) v.data.toNat false none).comesPoisoned (64 * line) v.poison
/-- BISNP_ANSWER (R428): the host answers the oldest back-invalidation of a line; dirty data is written first, then the entry goes, or
becomes S. Requests that waited for the answer go on. -/
def execBisnpAnswer (line : Nat) (dirty : Option LineData) (s : State) : Host.Outcome State Fault Refusal :=
  let d := homeDie (64 * line)
  match (s.die d).bisnp.find? (fun r => r.1 = line) with
  | none => .refused .notEnabled
  | some r =>
    let s1 := match dirty with
      | some v => s.takeDirty line v
      | none => s
    .next (s1.onDie d (fun x => { x with
      bisnp := x.bisnp.filter (fun q => q ≠ r)
      filter := if r.2 then x.filter.filter (fun e => e.1 ≠ line) else x.filter.map (fun e => if e.1 = line then (line, false, e.2.2) else e) })).settleWrites.serveOutside

/-! ## Peers (R443 to R446, R450, R451) -/

/-- The die whose UALink port an access to a peer's sector uses, counted from its own ports (R444). -/
def ualPort (d pa : Nat) : Nat := 32 * d + (fld pa 7 5 ^^^ fld pa 41 5)
/-- The shape of an inbound request (R445): inside one sector, an atomic's 4 or 8 bytes aligned. -/
def peerShaped (r : PeerReq) : Bool :=
  1 ≤ r.bytes && r.pa % 128 + r.bytes ≤ 128
    && (match r.op with | .atomic aop => (r.bytes = 4 || r.bytes = 8) && r.pa % r.bytes = 0 && aop ≤ 0xA | _ => true)
/-- PEER_INBOUND (R442, R443, R445, R446, R450): a peer's request arrives.
(DESIGN CHOICE, log 68) -/
def execPeerInbound (req : PeerReq) (s : State) : Host.Outcome State Fault Refusal :=
  if req.peer ≥ 1024 || !peerShaped req then .refused .notEnabled else s.arrives (.peer req)
/-- The pieces of a sector that answer `len` bytes at an address, counted from `base`. -/
def answered (va len base data : Nat) (poison : Bool) : Pieces :=
  (atomParts va len).map (fun q => (q.2.2 + base, q.2.1, fld data (8 * (q.1 % 128)) (8 * q.2.1), poison))
/-- Bytes from an address to the end of its sector, at most `n`. -/
def restOfSector (va n : Nat) : Nat := if 128 - va % 128 < n then 128 - va % 128 else n
/-- An answer for a strand's access (R444): the bytes of its sector join it; the last answer performs it. -/
def State.answerStrand (s : State) (q : PeerOut) (data : Nat) (poison : Bool) (fail : Option (Nat × Nat)) : State :=
  let n := q.strand
  match (s.strand n).entries.find? (fun g => g.num = q.num) with
  | none => s
  | some g =>
    let s1 := match fail with | some (c, d) => s.accessRecord n g c d | none => s
    match g.kind, fail with
    | .atomic _ ret, some _ =>
      ((if ret then s1.onStrand n (fun st => st.data g 0 true) else s1).acquired n g).performed n g.num
    | .atomic _ ret, none => s1.atomEnd n g (data % 2 ^ (8 * g.size)) poison ret
    | _, _ =>
      let parts := (sectorParts g.pa g.size).filter (fun p => p.1 / 128 = q.sector)
      let v := (parts.map (fun p => fld data (8 * (p.1 % 128)) (8 * p.2.1) * 2 ^ (8 * p.2.2))).sum
      let g1 := if g.loads then { g with data := BitVec.ofNat 2048 (g.data.toNat + v), poison := g.poison || poison } else g
      if s1.pkg.peers.any (fun r => r.strand = n && r.num = q.num && decide (r.hod = none)) then
        let put (h : GEntry) : GEntry := if h.num = g.num then g1 else h
        s1.onStrand n (fun st => { st with loadQ := st.loadQ.map put, storeQ := st.storeQ.map put })
      else if g.loads then s1.loaded n g1 g1.data.toNat g1.poison
      else s1.performed n g.num
/-- An answer for a turn of the Hod (R237, R444): it goes on with the sector's bytes, or keeps them with the row or bias vector it reads.
A turn that cannot put them in place yet leaves the answer where it is. -/
def State.answerHod (s : State) (idx cl ch data : Nat) (poison : Bool) (fail : Option (Nat × Nat)) : Option State :=
  let drop (t : State) : State := t.onPkg (fun p => { p with peers := dropNth p.peers idx })
  match ((s.cluster cl).chan ch).prog with
  | none => some (drop s)
  | some p =>
    let m := p.cmd
    let core := m.strand / 8
    let fails (t : State) (va : Nat) : State := t.deadRead m (fail.toList.map (fun f => (f.1, f.2, va)))
    if m.op = 7 || m.op = 8 then
      let v := p.recs.headD 0
      let (base, n) := if m.op = 7 then (m.a.toNat + 256 * p.pos, 256) else (byts v 8 8, if bitOf v 42 then 256 else 4 * byts v 0 2)
      let k := Pieces.size p.kept
      let va := base + k
      some (drop ((fails s va).hodKeep cl ch (p.kept ++ answered va (restOfSector va (n - k)) k data poison)))
    else
      let va := m.src + p.pos
      let ps := answered va (restOfSector va (p.total - p.pos)) 0 data poison
      match s.deliver cl ch p ps with
      | none => none
      | some t =>
        let h := (t.cluster cl).chan ch
        if h.halted || h.prog.map (fun r => r.pos) ≠ some p.pos then some (drop ((fails t va).countTurn core m.ctx (rangeVas va (Pieces.size ps)) .read)) else some t
/-- An answer for an engine (R443, R444, R456): it waits for the engine's step to use it, a write's as done; a failure is recorded.
(DESIGN CHOICE, log 80) -/
def State.answerEngine (s : State) (q : PeerOut) (d : Nat) (a : Asked) (data : Nat) (poison : Bool) (fail : Option (Nat × Nat)) : State :=
  let s1 := match fail with | some (x, y) => s.askerRecord a.who d a.ctx x y a.va | none => s
  s1.onPkg (fun p => { p with peerData := p.peerData ++ [⟨a, q.sector, BitVec.ofNat 1024 data, poison⟩] })
/-- An answer to the request at a place of the list, or the lack of one; none where its turn cannot put it in place yet. -/
def State.peerAnswer (s : State) (idx data : Nat) (poison : Bool) (fail : Option (Nat × Nat)) : Option State :=
  match s.pkg.peers[idx]? with
  | none => none
  | some q =>
    let gone := s.onPkg (fun p => { p with peers := dropNth p.peers idx })
    match q.hod, q.engine with
    | some (cl, ch), _ => s.answerHod idx cl ch data poison fail
    | none, some (d, a) => some (gone.answerEngine q d a data poison fail)
    | none, none => some (gone.answerStrand q data poison fail)
/-- A step that answers a request to a peer. -/
def answering (r : Option State) : Host.Outcome State Fault Refusal :=
  match r with | some t => .next t | none => .refused .notEnabled
/-- PEER_RESPONSE (R429, R444, R450): the sector's bytes, or for an atomic the old value in the low bytes; a refusal is recorded. -/
def execPeerResponse (idx : Nat) (data : BitVec 1024) (answer : PeerAns) (s : State) : Host.Outcome State Fault Refusal :=
  answering (match answer with
    | .ok => s.peerAnswer idx data.toNat false none
    | .poison => s.peerAnswer idx 0 true none
    | .refused => s.peerAnswer idx 0 true (some (0x18, 0x0A01)))
/-- PEER_TIMEOUT (R444, R450): the request fails, and the peer is fenced. -/
def execPeerTimeout (idx : Nat) (s : State) : Host.Outcome State Fault Refusal :=
  match s.pkg.peers[idx]? with
  | none => .refused .notEnabled
  | some q => answering ((s.peerAnswer idx 0 true (some (0x16, 0x0A00))).map (fun t => if t.pkg.peers = s.pkg.peers then t else t.fence q.peer))

/-! ## The viral state (R448, R449) -/

/-- A strand's task is bound and has not stopped. -/
def State.running (s : State) (n : Nat) : Bool :=
  (match (s.strand n).run with | .free => false | .blocked .ending => false | .blocked .stopped => false | _ => true)
    && (match s.taskOf n with | some (_, t) => decide (t.run = .bound n) | none => false)
/-- A strand's task stops at the viral point (R449). -/
def State.viralStop (s : State) (n : Nat) : State :=
  let (next, left, _, _) := s.resumePoint n
  s.takeTrap n { cause := 0x18, detail := 0x0A00, slot := 0xFF } (BitVec.ofNat 64 next) left
/-- A strand's access to a peer that has not been sent, which the viral point discards (R449). -/
def State.unsent (s : State) (g : GEntry) : Bool :=
  decide (g.phase = 0) && decide (g.size ≠ 0) && (window (s.place g.pa) = .peer) && (match s.peerWay g.pa with | .send _ => true | _ => false)
/-- Requests that have not left are discarded, and the indications are sent on every CXL port and every trained UALink port (R449).
(DEDUCED, log 60) -/
def State.discardRequests (s : State) : State :=
  let keep (l : List GEntry) : List GEntry := l.filter (fun g => !s.unsent g)
  { s with
    strands := s.strands.map (fun p => (p.1, { p.2 with loadQ := keep p.2.loadQ, storeQ := keep p.2.storeQ }))
    dies := s.dies.map (fun p => (p.1, { p.2 with bisnp := [] }))
    pkg := { s.pkg with posted := [], cxlReqs := [], trowel := [], viralSent := true, noticed := s.pkg.fports } }
/-- VIRAL_ENTRY (R448, R449): the package is viral; every bound task stops, requests not yet sent are discarded, and the indications go
out.
(DEDUCED, log 60) -/
def execViralEntry (s : State) : Host.Outcome State Fault Refusal :=
  let t := (((s.strands.map (fun p => p.1)).filter s.running).foldl State.viralStop s).discardRequests.serveOutside
  if !s.pkg.viral || t = s then .refused .notEnabled else .next t

/-! ## Lost ports, dies and flits (R403, R452) -/

/-- The host may hold a filter entry's line through a port (R452). -/
def heldBy (port : Nat) (e : Nat × Bool × Nat) : Bool := bitOf e.2.2 port
/-- What the host may have held through a port is poisoned and reported, and the port's host lines are gone (R452).
(DEDUCED, log 61) -/
def State.losePort (s : State) (port : Nat) : State :=
  let held := [0, 1, 2, 3].flatMap (fun d => ((s.die d).filter.filter (heldBy port)).map (fun e => (d, e.1)))
  let s1 := held.foldl (fun s e => (s.poisonSector (e.2 / 2) (3 * 4 ^ (e.2 % 2))).event 7 e.1 0) s
  let s2 : State := { s1 with
    dies := s1.dies.map (fun p => (p.1, { p.2 with
      filter := p.2.filter.filter (fun e => !heldBy port e),
      bisnp := p.2.bisnp.filter (fun r => !p.2.filter.any (fun e => e.1 = r.1 && heldBy port e)) })) }
  let mine (l : Nat) : Bool := fld (64 * l) 16 1 = port
  s2.onPkg (fun p => { p with
    lines := p.lines.filter (fun q => !mine q.1), cxlReqs := p.cxlReqs.filter (fun q => !mine q.1)
    lost0 := p.lost0 || port = 0, lost1 := p.lost1 || port = 1
    link0 := p.link0 && port ≠ 0, link1 := p.link1 && port ≠ 1 })
/-- HOST_PORT_LOSS (R452): a port is lost beyond retraining, without a viral indication. -/
def execHostPortLoss (port : Nat) (s : State) : Host.Outcome State Fault Refusal :=
  if port ≥ 2 then .refused .notEnabled else .next (s.losePort port).settleWrites
/-- HOST_VIRAL_INDICATION (R448, R452).
(DEDUCED, log 60) -/
def execHostViralIndication (port : Nat) (s : State) : Host.Outcome State Fault Refusal :=
  if port ≥ 2 then .refused .notEnabled else .next (((s.goViral 5).losePort 0).losePort 1)
/-- A sector whose write-through from a lost die had begun to arrive (R452). -/
def State.loseSector (s : State) (sec : Nat) : State :=
  let q := s.place (128 * sec)
  let s1 := s.poisonSector (q / 128) 15
  if window q = .nv then s1.onDie (kilnDie q) (fun x => x.enter (s1.imageOf (q / 128) [])) else s1
/-- DIE_LOSS (R448, R452): the package becomes viral, and what the die was writing is poisoned at the surviving homes.
(DESIGN CHOICE, log 10; DEDUCED, log 61) -/
def execDieLoss (die : Nat) (s : State) : Host.Outcome State Fault Refusal :=
  if die ≥ 4 then .refused .notEnabled
  else
    let ws := ((s.die die).flights.filterMap (fun f => match f with | .through k _ _ _ _ _ => some k | .fill _ => none))
    let hit := (ws.zipIdx.filter (fun p => Config.arriving s.freeN p.2)).map (fun p => p.1)
    let s1 := hit.foldl State.loseSector { s.goViral 3 with freeN := s.freeN + 1 }
    .next (s1.onDie die (fun x => { x with copies := [], flights := [] }))
/-- The bytes of a sector that lie in some atoms. -/
def atomBytes (sec : Nat) (atoms : List Nat) : BitVec 128 :=
  BitVec.ofNat 128 (pack 32 (fun k => if atoms.contains (4 * sec + k) then 2 ^ 32 - 1 else 0) 4 0)
/-- A write-through some of whose atoms were lost goes on with those poisoned (R403). -/
def Flight.damage (atoms : List Nat) : Flight → List Flight
  | .fill k => [.fill k]
  | .through k m v p n num =>
    let bad := m &&& atomBytes k atoms
    if bad = 0 then [.through k m v p n num]
    else [.through k bad v true n num] ++ (if m &&& ~~~bad = 0 then [] else [.through k (m &&& ~~~bad) v p n num])
/-- A fill some of whose atoms were lost arrives with those poisoned (R396, R403). -/
def State.damagedFill (s : State) (d : Nat) (sec : Nat) (atoms : List Nat) : State :=
  match s.gate (128 * sec) 128 false with
  | (s1, .ready) =>
    let s2 := s1.onDie d (fun x => { x with flights := x.flights.filter (fun f => f ≠ Flight.fill sec) })
    if s1.hBad (128 * sec) 128 then s2.countInt (128 * sec) 128
    else
      let p := BitVec.ofNat 4 (pack 1 (fun k => b2n (s1.devPoison (128 * sec) 128 || s1.hPoison (128 * sec + 32 * k) 32 || atoms.contains (4 * sec + k))) 4 0)
      s2.onCopy d sec (fun c => c.fill (BitVec.ofNat 1024 (s1.hGet (128 * sec) 128)) p)
  | _ => s
/-- A message from one die to another crosses the Mortar edge from die `e` to the next, by the shorter way round the ring, between dies two
apart in the direction of increasing die number (R317). -/
def crosses (a b e : Nat) : Bool :=
  match (b + 4 - a) % 4 with
  | 1 => e = a
  | 2 => e = a || e = (a + 1) % 4
  | 3 => e = b
  | _ => false
/-- A message of a die's list carries data over an edge (R317): a fill from its home, a write-through to it. -/
def State.onEdge (s : State) (d e : Nat) : Flight → Bool
  | .fill k => crosses (s.homeOf (128 * k)) d e
  | .through k _ _ _ _ _ => crosses d (s.homeOf (128 * k)) e
/-- The CXL port that reaches a pooled or non-volatile address (R426). -/
def Package.unitPort (p : Package) (pa : Nat) : Nat :=
  if fld pa 28 1 = 0 then (if p.link2 then 2 else 3) else if p.link3 then 3 else 2
/-- Damage the messages of a test: write-throughs go on with atoms poisoned, fills arrive so. -/
def State.damageFlights (s : State) (hit : Nat → Flight → Bool) (atoms : List Nat) : State :=
  let fills := s.dies.flatMap (fun p => p.2.flights.zipIdx.filterMap (fun f => match f.1 with
    | .fill k => if hit p.1 f.1 && atoms.any (fun a => a / 4 = k) && p.2.firstOf f.2 then some (p.1, k) else none
    | .through _ _ _ _ _ _ => none))
  let s1 : State := { s with dies := s.dies.map (fun p => (p.1, { p.2 with
    flights := p.2.flights.flatMap (fun f => if hit p.1 f then f.damage atoms else [f]) })) }
  fills.foldl (fun s f => s.damagedFill f.1 f.2 atoms) s1
/-- An atom crosses an edge between a die and its home, either way (R317). -/
def State.atomCrosses (s : State) (d e a : Nat) : Bool :=
  let h := s.homeOf (32 * a)
  crosses d h e || crosses h d e
/-- Requests of far atomics and accesses of cluster engines that lose atoms on an edge (R403): an atomic that waits for its turn takes
poison, and the next access of a busy cluster's engines to the atoms finds them poisoned.
(DESIGN CHOICE, log 68) -/
def State.damageOthers (s : State) (e : Nat) (atoms : List Nat) : State :=
  let hit (n : Nat) (g : GEntry) : Bool :=
    (g.kind matches .atomic _ _) && g.phase = 0 && atoms.contains (g.pa / 32) && s.atomCrosses (dieOfStrand n) e (g.pa / 32)
  let busy (x : Cluster) : Bool := x.chans.any (fun q => q.2.prog.isSome) || !x.submitted.isEmpty
  { s with
    strands := s.strands.map (fun p => (p.1, { p.2 with storeQ := p.2.storeQ.map (fun g => if hit p.1 g then { g with poison := true } else g) }))
    clusters := s.clusters.map (fun p => if busy p.2 then
        (p.1, { p.2 with spoilt := p.2.spoilt ++ atoms.filter (fun a => s.atomCrosses (p.1 / 12) e a && !p.2.spoilt.contains a) })
      else p) }
/-- A host's answer for a line whose atoms were lost: the line is granted with them poisoned. -/
def State.poisonLine (s : State) (r : Nat × Bool) (atoms : List Nat) : State :=
  let s1 := s.onPkg (fun p => { p with cxlReqs := p.cxlReqs.filter (fun q => q ≠ r) })
  let s2 : State := { s1 with memP := loop (fun k m => if atoms.contains (2 * r.1 + k) then put false m (2 * r.1 + k) true else m) 2 0 s1.memP }
  s2.setLine r.1 (if r.2 then .e else .s)
/-- The UALink port of a request to a peer (R444). -/
def PeerOut.port (q : PeerOut) : Nat :=
  let d := match q.hod, q.engine with
    | some (cl, _), _ => cl / 12
    | none, some (d, _) => d
    | none, none => dieOfStrand q.strand
  ualPort d (128 * q.sector)
/-- LINK_CRC_FAILURE (R403, R442): the link is retrained, and the atoms of the flit that were on their way over it arrive poisoned: of
messages between dies, of answers for host lines, of fills from a memory device, of an answer of a peer. What a peer, or the host, sends
carries its own poison (PEER_INBOUND, HOST_MEMWR, BISNP_ANSWER).
(DEDUCED, log 61; DESIGN CHOICE, log 68) -/
def execLinkCrcFailure (link : Link) (atoms : List Nat) (s : State) : Host.Outcome State Fault Refusal :=
  match link with
  | .mortar e => .next ((s.damageOthers e atoms).damageFlights (fun d f => s.onEdge d e f) atoms)
  | .cxl k =>
    if k < 2 then
      let rs := s.pkg.cxlReqs.filter (fun r => fld (64 * r.1) 16 1 = k && atoms.any (fun a => a / 2 = r.1))
      .next (rs.foldl (fun s r => s.poisonLine r atoms) s).settleWrites
    else .next (s.damageFlights (fun _ f => match f with
      | .fill j => (window (s.place (128 * j)) = .pooled || window (s.place (128 * j)) = .nv) && s.pkg.unitPort (s.place (128 * j)) = k
      | .through _ _ _ _ _ _ => false) atoms)
  | .ual k =>
    match s.pkg.peers.findIdx? (fun q => decide (q.port = k) && atoms.any (fun a => a / 4 = q.sector)) with
    | some i => .next ((s.peerAnswer i 0 true none).getD s)
    | none => .next s

/-! ## Links (R403, R423, R426, R434, R442, R448) -/

/-- A CXL port is up or down; one that trains is no longer lost. -/
def Package.setLink (p : Package) (port : Nat) (up : Bool) : Package :=
  match port with
  | 0 => { p with link0 := up, lost0 := p.lost0 && !up }
  | 1 => { p with link1 := up, lost1 := p.lost1 && !up }
  | 2 => { p with link2 := up }
  | 3 => { p with link3 := up }
  | _ => p
/-- A UALink port is up or down (R434). -/
def Package.setUal (p : Package) (port : Nat) (up : Bool) : Package :=
  let bit := (1 : BitVec 128) <<< port
  { p with fports := if up then p.fports ||| bit else p.fports &&& ~~~bit }
/-- LINK_DOWN (R426, R434, R448): a Mortar edge that cannot be retrained makes the package viral. -/
def execLinkDown (link : Link) (s : State) : Host.Outcome State Fault Refusal :=
  .next (match link with
    | .cxl k => s.onPkg (fun p => p.setLink k false)
    | .ual k => s.onPkg (fun p => p.setUal k false)
    | .mortar _ => s.goViral 3)
/-- LINK_TRAINED (R434).
(DEDUCED, log 61) -/
def execLinkTrained (link : Link) (s : State) : Host.Outcome State Fault Refusal :=
  .next (match link with
    | .cxl k => s.onPkg (fun p => p.setLink k true)
    | .ual k => s.onPkg (fun p => p.setUal k true)
    | .mortar _ => s)

end Sys2Proof.Machine
end

