-- ==== Sys2Proof/Machine/Retire.lean ====
section
/-! DEFINITION. The retirement of a stack: its pages move, and what it holds of requests waits and goes on (R415, R453). -/

namespace Sys2Proof.Machine

/-- Step 1 and 2 of a page's move to its destination (R415, R453): it is held as in transit, its copies go, and the destination takes its
key domain. -/
def State.beginTransit (s : State) (page dest : Nat) : State :=
  (s.dropCopies page).onPkg (fun p => { p with
    transit := some (page, dest), domains := put 0 p.domains dest (look 0 p.domains page) })
/-- What a page in transit held goes on (R345, R436, R453): posted writes and the records behind them, walks, and requests from outside. -/
def State.resumeTransit (s : State) : State := s.settleWrites.walkAll.serveOutside
/-- Step 4 (R415, R453): the page's remap entry takes effect, as do those that led to it, and the requests it held go on. -/
def State.endTransit (s : State) (page dest : Nat) : State :=
  (s.onPkg (fun p => { p with
    remap := upd (p.remap.map (fun q => (q.1, if q.2 = page then dest else q.2))) page dest })).resumeTransit
/-- Step 3 of the page in transit (R336, R415, R453): it is copied once its accesses have drained and the host holds no copy; one whose
integrity fails is counted and not remapped.
(DESIGN CHOICE, log 52) -/
def State.copyTransit (s : State) (page dest : Nat) : Host.Outcome State Fault Refusal :=
  let back (s1 : State) : State := s1.onPkg (fun p => { p with transit := some (page, dest) })
  if !s.pageQuiet page then .refused .notEnabled
  else match (s.onPkg (fun p => { p with transit := none })).gatePage page true with
    | (s1, .waits) => s.waiting (back s1)
    | (s1, _) =>
      match s1.gatePage dest true with
      | (s2, .waits) => s.waiting (back s2)
      | (s2, _) =>
        let (s3, _, bad) := s2.copyPage (65536 * page) (65536 * dest)
        .next (if bad then s3.resumeTransit else s3.endTransit page dest)
/-- STACK_RETIRE (R415, R453): the first step sets RETIRING; the next ones move the stack's remaining pages, one at a time, to the
destinations the host names; with none left, the stack is powered down.
(DESIGN CHOICE, log 52) -/
def execStackRetire (stack : Nat) (dests : List (Nat × Nat)) (s : State) : Host.Outcome State Fault Refusal :=
  let k := s.pkg.stack stack
  let mine (q : Nat) : Bool := window (65536 * q) = .hbm && stackOf (65536 * q) = stack
  if stack ≥ 16 || k.retired then .refused .notEnabled
  else if !k.retiring then .next (s.onStack stack (fun k => { k with retiring := true }))
  else match s.pkg.transit with
    | some (page, dest) => if mine page then s.copyTransit page dest else .refused .notEnabled
    | none =>
      match dests.find? (fun q => mine q.1 && (find? s.pkg.remap q.1).isNone && window (65536 * q.2) = .hbm && !s.leavingStack (65536 * q.2)) with
      | some q => .next (s.beginTransit q.1 q.2)
      | none => .next (s.onStack stack (fun k => { k with retiring := false, retired := true })).replaceDue

end Sys2Proof.Machine
end

