-- ==== Sys2Proof/Machine/Dispatch.lean ====
section
/-! DEFINITION. One arm per instruction: its meaning. -/

namespace Sys2Proof.Machine

/-- The meaning of an instruction. -/
def exec (i : Instr) (s : State) : Host.Outcome State Fault Refusal :=
  match i with
  | .nop sl => Sys2Proof.Machine.execNop sl s
  | .br o => Sys2Proof.Machine.execBr o s
  | .brc o => Sys2Proof.Machine.execBrc o s
  | .brv o => Sys2Proof.Machine.execBrv o s
  | .bri o => Sys2Proof.Machine.execBri o s
  | .call o => Sys2Proof.Machine.execCall o s
  | .calli o => Sys2Proof.Machine.execCalli o s
  | .ret => Sys2Proof.Machine.execRet s
  | .loopi o => Sys2Proof.Machine.execLoopi o s
  | .loop o => Sys2Proof.Machine.execLoop o s
  | .yield => Sys2Proof.Machine.execYield s
  | .wait o => Sys2Proof.Machine.execWait o s
  | .waitany o => Sys2Proof.Machine.execWaitany o s
  | .signal o => Sys2Proof.Machine.execSignal o s
  | .trap o => Sys2Proof.Machine.execTrap o s
  | .rte => Sys2Proof.Machine.execRte s
  | .srd o => Sys2Proof.Machine.execSrd o s
  | .swr o => Sys2Proof.Machine.execSwr o s
  | .sadd u o => Sys2Proof.Machine.execSadd u o s
  | .saddi u o => Sys2Proof.Machine.execSaddi u o s
  | .ssub u o => Sys2Proof.Machine.execSsub u o s
  | .sand u o => Sys2Proof.Machine.execSand u o s
  | .sor u o => Sys2Proof.Machine.execSor u o s
  | .sxor u o => Sys2Proof.Machine.execSxor u o s
  | .sandi u o => Sys2Proof.Machine.execSandi u o s
  | .sori u o => Sys2Proof.Machine.execSori u o s
  | .sxori u o => Sys2Proof.Machine.execSxori u o s
  | .smin u o => Sys2Proof.Machine.execSmin u o s
  | .smins u o => Sys2Proof.Machine.execSmins u o s
  | .smax u o => Sys2Proof.Machine.execSmax u o s
  | .smaxs u o => Sys2Proof.Machine.execSmaxs u o s
  | .sclz u o => Sys2Proof.Machine.execSclz u o s
  | .spop u o => Sys2Proof.Machine.execSpop u o s
  | .smul u o => Sys2Proof.Machine.execSmul u o s
  | .smulh u o => Sys2Proof.Machine.execSmulh u o s
  | .smulhs u o => Sys2Proof.Machine.execSmulhs u o s
  | .sdiv u o => Sys2Proof.Machine.execSdiv u o s
  | .sdivs u o => Sys2Proof.Machine.execSdivs u o s
  | .srem u o => Sys2Proof.Machine.execSrem u o s
  | .srems u o => Sys2Proof.Machine.execSrems u o s
  | .sshl u o => Sys2Proof.Machine.execSshl u o s
  | .sshr u o => Sys2Proof.Machine.execSshr u o s
  | .ssra u o => Sys2Proof.Machine.execSsra u o s
  | .srot u o => Sys2Proof.Machine.execSrot u o s
  | .sbfx u o => Sys2Proof.Machine.execSbfx u o s
  | .sbfi u o => Sys2Proof.Machine.execSbfi u o s
  | .saddr u o => Sys2Proof.Machine.execSaddr u o s
  | .smov u o => Sys2Proof.Machine.execSmov u o s
  | .smovi u o => Sys2Proof.Machine.execSmovi u o s
  | .slui u o => Sys2Proof.Machine.execSlui u o s
  | .ssel u o => Sys2Proof.Machine.execSsel u o s
  | .scmp u o => Sys2Proof.Machine.execScmp u o s
  | .scmpi u o => Sys2Proof.Machine.execScmpi u o s
  | .pand u o => Sys2Proof.Machine.execPand u o s
  | .por u o => Sys2Proof.Machine.execPor u o s
  | .pxor u o => Sys2Proof.Machine.execPxor u o s
  | .pnot u o => Sys2Proof.Machine.execPnot u o s
  | .pmovPred u o => Sys2Proof.Machine.execPmovPred u o s
  | .pmovFromScalar u o => Sys2Proof.Machine.execPmovFromScalar u o s
  | .pmovToScalar u o => Sys2Proof.Machine.execPmovToScalar u o s
  | .schk u o => Sys2Proof.Machine.execSchk u o s
  | .schkP u o => Sys2Proof.Machine.execSchkP u o s
  | .sfadd u o => Sys2Proof.Machine.execSfadd u o s
  | .sfsub u o => Sys2Proof.Machine.execSfsub u o s
  | .sfmul u o => Sys2Proof.Machine.execSfmul u o s
  | .sfdiv u o => Sys2Proof.Machine.execSfdiv u o s
  | .sfsqrt u o => Sys2Proof.Machine.execSfsqrt u o s
  | .sfma u o => Sys2Proof.Machine.execSfma u o s
  | .sfmin u o => Sys2Proof.Machine.execSfmin u o s
  | .sfmax u o => Sys2Proof.Machine.execSfmax u o s
  | .sfcmp u o => Sys2Proof.Machine.execSfcmp u o s
  | .sfcvt u o => Sys2Proof.Machine.execSfcvt u o s
  | .sfclass u o => Sys2Proof.Machine.execSfclass u o s
  | .vadd u o => Sys2Proof.Machine.execVadd u o s
  | .vsub u o => Sys2Proof.Machine.execVsub u o s
  | .vmul u o => Sys2Proof.Machine.execVmul u o s
  | .vmin u o => Sys2Proof.Machine.execVmin u o s
  | .vmax u o => Sys2Proof.Machine.execVmax u o s
  | .vfma u o => Sys2Proof.Machine.execVfma u o s
  | .vfms u o => Sys2Proof.Machine.execVfms u o s
  | .vabs u o => Sys2Proof.Machine.execVabs u o s
  | .vneg u o => Sys2Proof.Machine.execVneg u o s
  | .vcmp u o => Sys2Proof.Machine.execVcmp u o s
  | .viadd u o => Sys2Proof.Machine.execViadd u o s
  | .visub u o => Sys2Proof.Machine.execVisub u o s
  | .vimul u o => Sys2Proof.Machine.execVimul u o s
  | .vimad u o => Sys2Proof.Machine.execVimad u o s
  | .vimin u o => Sys2Proof.Machine.execVimin u o s
  | .vimax u o => Sys2Proof.Machine.execVimax u o s
  | .vand u o => Sys2Proof.Machine.execVand u o s
  | .vor u o => Sys2Proof.Machine.execVor u o s
  | .vxor u o => Sys2Proof.Machine.execVxor u o s
  | .vnot u o => Sys2Proof.Machine.execVnot u o s
  | .vshl u o => Sys2Proof.Machine.execVshl u o s
  | .vshr u o => Sys2Proof.Machine.execVshr u o s
  | .vsra u o => Sys2Proof.Machine.execVsra u o s
  | .vrotl u o => Sys2Proof.Machine.execVrotl u o s
  | .vsel u o => Sys2Proof.Machine.execVsel u o s
  | .vmov u o => Sys2Proof.Machine.execVmov u o s
  | .vbcast u o => Sys2Proof.Machine.execVbcast u o s
  | .vextr u o => Sys2Proof.Machine.execVextr u o s
  | .vidx u o => Sys2Proof.Machine.execVidx u o s
  | .vcvt u o => Sys2Proof.Machine.execVcvt u o s
  | .vpack u o => Sys2Proof.Machine.execVpack u o s
  | .vunpack u o => Sys2Proof.Machine.execVunpack u o s
  | .vqmx u o => Sys2Proof.Machine.execVqmx u o s
  | .vdqmx u o => Sys2Proof.Machine.execVdqmx u o s
  | .vexp2 u o => Sys2Proof.Machine.execVexp2 u o s
  | .vlog2 u o => Sys2Proof.Machine.execVlog2 u o s
  | .vrcp u o => Sys2Proof.Machine.execVrcp u o s
  | .vrsq u o => Sys2Proof.Machine.execVrsq u o s
  | .vsqrt u o => Sys2Proof.Machine.execVsqrt u o s
  | .vdiv u o => Sys2Proof.Machine.execVdiv u o s
  | .vperm u o => Sys2Proof.Machine.execVperm u o s
  | .vsum u o => Sys2Proof.Machine.execVsum u o s
  | .vmaxr u o => Sys2Proof.Machine.execVmaxr u o s
  | .vscan u o => Sys2Proof.Machine.execVscan u o s
  | .vargmax u o => Sys2Proof.Machine.execVargmax u o s
  | .vsrch u o => Sys2Proof.Machine.execVsrch u o s
  | .vrng u o => Sys2Proof.Machine.execVrng u o s
  | .vacpt u o => Sys2Proof.Machine.execVacpt u o s
  | .kand u o => Sys2Proof.Machine.execKand u o s
  | .kor u o => Sys2Proof.Machine.execKor u o s
  | .kxor u o => Sys2Proof.Machine.execKxor u o s
  | .knot u o => Sys2Proof.Machine.execKnot u o s
  | .kpop u o => Sys2Proof.Machine.execKpop u o s
  | .kfirst u o => Sys2Proof.Machine.execKfirst u o s
  | .vchk u o => Sys2Proof.Machine.execVchk u o s
  | .spld o => Sys2Proof.Machine.execSpld o s
  | .splds o => Sys2Proof.Machine.execSplds o s
  | .spldb o => Sys2Proof.Machine.execSpldb o s
  | .spldx o => Sys2Proof.Machine.execSpldx o s
  | .spst o => Sys2Proof.Machine.execSpst o s
  | .spsts o => Sys2Proof.Machine.execSpsts o s
  | .spstx o => Sys2Proof.Machine.execSpstx o s
  | .tlook o => Sys2Proof.Machine.execTlook o s
  | .tlookWm o => Sys2Proof.Machine.execTlookWm o s
  | .tins o => Sys2Proof.Machine.execTins o s
  | .tdel o => Sys2Proof.Machine.execTdel o s
  | .tdelIdx o => Sys2Proof.Machine.execTdelIdx o s
  | .gld o => Sys2Proof.Machine.execGld o s
  | .glds o => Sys2Proof.Machine.execGlds o s
  | .glda o => Sys2Proof.Machine.execGlda o s
  | .pref o => Sys2Proof.Machine.execPref o s
  | .gst o => Sys2Proof.Machine.execGst o s
  | .gsts o => Sys2Proof.Machine.execGsts o s
  | .gstl o => Sys2Proof.Machine.execGstl o s
  | .mark h o => Sys2Proof.Machine.execMark h o s
  | .atom o => Sys2Proof.Machine.execAtom o s
  | .atomr o => Sys2Proof.Machine.execAtomr o s
  | .tagpubSet o => Sys2Proof.Machine.execTagpubSet o s
  | .tagpubClearTile o => Sys2Proof.Machine.execTagpubClearTile o s
  | .tagpubClearTensor o => Sys2Proof.Machine.execTagpubClearTensor o s
  | .mcall o => Sys2Proof.Machine.execMcall o s
  | .mlduc o => Sys2Proof.Machine.execMlduc o s
  | .mldrt o => Sys2Proof.Machine.execMldrt o s
  | .mstat o => Sys2Proof.Machine.execMstat o s
  | .mstatFault o => Sys2Proof.Machine.execMstatFault o s
  | .mstatTake o => Sys2Proof.Machine.execMstatTake o s
  | .mstatCsat o => Sys2Proof.Machine.execMstatCsat o s
  | .mstatSetm o => Sys2Proof.Machine.execMstatSetm o s
  | .mstatGetm o => Sys2Proof.Machine.execMstatGetm o s
  | .mabort => Sys2Proof.Machine.execMabort s
  | .ard o => Sys2Proof.Machine.execArd o s
  | .aclr o => Sys2Proof.Machine.execAclr o s
  | .awr o => Sys2Proof.Machine.execAwr o s
  | .aacc o => Sys2Proof.Machine.execAacc o s
  | .aow o => Sys2Proof.Machine.execAow o s
  | .adrn o => Sys2Proof.Machine.execAdrn o s
  | .hcopyS2s o => Sys2Proof.Machine.execHcopyS2s o s
  | .hcopyG2s o => Sys2Proof.Machine.execHcopyG2s o s
  | .hcopyG2t o => Sys2Proof.Machine.execHcopyG2t o s
  | .hfill o => Sys2Proof.Machine.execHfill o s
  | .hfillT o => Sys2Proof.Machine.execHfillT o s
  | .htile o => Sys2Proof.Machine.execHtile o s
  | .htwr o => Sys2Proof.Machine.execHtwr o s
  | .hwm o => Sys2Proof.Machine.execHwm o s
  | .hwmOff o => Sys2Proof.Machine.execHwmOff o s
  | .hsched o => Sys2Proof.Machine.execHsched o s
  | .hstep o => Sys2Proof.Machine.execHstep o s
  | .hmcast o => Sys2Proof.Machine.execHmcast o s
  | .hmwait o => Sys2Proof.Machine.execHmwait o s
  | .hadd o => Sys2Proof.Machine.execHadd o s
  | .hpub o => Sys2Proof.Machine.execHpub o s
  | .hpubRing o => Sys2Proof.Machine.execHpubRing o s
  | .hstat o => Sys2Proof.Machine.execHstat o s
  | .hstatStage o => Sys2Proof.Machine.execHstatStage o s
  | .hstatLast o => Sys2Proof.Machine.execHstatLast o s
  | .launch o => Sys2Proof.Machine.execLaunch o s
  | .spawn o => Sys2Proof.Machine.execSpawn o s
  | .spawnAt o => Sys2Proof.Machine.execSpawnAt o s
  | .exit o => Sys2Proof.Machine.execExit o s
  | .exitErr o => Sys2Proof.Machine.execExitErr o s
  | .bar o => Sys2Proof.Machine.execBar o s
  | .barArrive o => Sys2Proof.Machine.execBarArrive o s
  | .barWait o => Sys2Proof.Machine.execBarWait o s
  | .tagwait o => Sys2Proof.Machine.execTagwait o s
  | .cswitch o => Sys2Proof.Machine.execCswitch o s
  | .park o => Sys2Proof.Machine.execPark o s
  | .wake o => Sys2Proof.Machine.execWake o s
  | .wakeAt o => Sys2Proof.Machine.execWakeAt o s
  | .wakeIn o => Sys2Proof.Machine.execWakeIn o s
  | .estset o => Sys2Proof.Machine.execEstset o s
  | .estsetWake o => Sys2Proof.Machine.execEstsetWake o s
  | .pbar o => Sys2Proof.Machine.execPbar o s
  | .mmMac core o scl => Sys2Proof.Machine.execMmMac core o scl s
  | .mmScl core o => Sys2Proof.Machine.execMmScl core o s
  | .mmClr core o scl => Sys2Proof.Machine.execMmClr core o scl s
  | .mmDrn core o scl => Sys2Proof.Machine.execMmDrn core o scl s
  | .mmLoop core o scl => Sys2Proof.Machine.execMmLoop core o scl s
  | .mmJmp core o scl => Sys2Proof.Machine.execMmJmp core o scl s
  | .mmSetp core o scl => Sys2Proof.Machine.execMmSetp core o scl s
  | .mmEnd core scl => Sys2Proof.Machine.execMmEnd core scl s
  | .mmNop core => Sys2Proof.Machine.execMmNop core s
  | .bundleIssue core => Sys2Proof.Machine.execBundleIssue core s
  | .strandUnblock strand => Sys2Proof.Machine.execStrandUnblock strand s
  | .idleCoreSelect core => Sys2Proof.Machine.execIdleCoreSelect core s
  | .forcedYield core => Sys2Proof.Machine.execForcedYield core s
  | .markRetire strand => Sys2Proof.Machine.execMarkRetire strand s
  | .globalLoadArrival strand idx => Sys2Proof.Machine.execGlobalLoadArrival strand idx s
  | .globalStorePerformed strand idx => Sys2Proof.Machine.execGlobalStorePerformed strand idx s
  | .prefAccepted strand idx => Sys2Proof.Machine.execPrefAccepted strand idx s
  | .translationWalkReturn strand => Sys2Proof.Machine.execTranslationWalkReturn strand s
  | .atomicEngineAccept cluster => Sys2Proof.Machine.execAtomicEngineAccept cluster s
  | .atomicRecall cluster sector => Sys2Proof.Machine.execAtomicRecall cluster sector s
  | .tagSetAct die => Sys2Proof.Machine.execTagSetAct die s
  | .tagClearAct die => Sys2Proof.Machine.execTagClearAct die s
  | .mxEntryBegin core => Sys2Proof.Machine.execMxEntryBegin core s
  | .routineWatermarkResume core => Sys2Proof.Machine.execRoutineWatermarkResume core s
  | .routineComplete core => Sys2Proof.Machine.execRoutineComplete core s
  | .hodCommandBegin cluster ch => Sys2Proof.Machine.execHodCommandBegin cluster ch s
  | .hodTurn cluster => Sys2Proof.Machine.execHodTurn cluster s
  | .hodWriteLand cluster ch => Sys2Proof.Machine.execHodWriteLand cluster ch s
  | .hodCommandComplete cluster ch => Sys2Proof.Machine.execHodCommandComplete cluster ch s
  | .hstepStageComplete cluster ch => Sys2Proof.Machine.execHstepStageComplete cluster ch s
  | .hmcastAck cluster ch rcv => Sys2Proof.Machine.execHmcastAck cluster ch rcv s
  | .haddRowStage cluster ch => Sys2Proof.Machine.execHaddRowStage cluster ch s
  | .ringDrainLand cluster => Sys2Proof.Machine.execRingDrainLand cluster s
  | .epilogueSlot cluster => Sys2Proof.Machine.execEpilogueSlot cluster s
  | .launchAnswer strand => Sys2Proof.Machine.execLaunchAnswer strand s
  | .launchValidate die => Sys2Proof.Machine.execLaunchValidate die s
  | .launchComplete ctx lid => Sys2Proof.Machine.execLaunchComplete ctx lid s
  | .dispatchCycle die => Sys2Proof.Machine.execDispatchCycle die s
  | .bindingJudge core => Sys2Proof.Machine.execBindingJudge core s
  | .taskWeightReturn ctx lid task => Sys2Proof.Machine.execTaskWeightReturn ctx lid task s
  | .barPhaseComplete ctx lid didx => Sys2Proof.Machine.execBarPhaseComplete ctx lid didx s
  | .wakeRequestArrival die => Sys2Proof.Machine.execWakeRequestArrival die s
  | .parkDeadline ctx lid task => Sys2Proof.Machine.execParkDeadline ctx lid task s
  | .checkpointSave strand => Sys2Proof.Machine.execCheckpointSave strand s
  | .taskReexecute ctx lid task => Sys2Proof.Machine.execTaskReexecute ctx lid task s
  | .coreHardwareError core => Sys2Proof.Machine.execCoreHardwareError core s
  | .coreParityError hit => Sys2Proof.Machine.execCoreParityError hit s
  | .clusterParityError cluster err => Sys2Proof.Machine.execClusterParityError cluster err s
  | .teardownComplete ctx => Sys2Proof.Machine.execTeardownComplete ctx s
  | .trowelMigrationDone idx => Sys2Proof.Machine.execTrowelMigrationDone idx s
  | .migrationRequest trowel => Sys2Proof.Machine.execMigrationRequest trowel s
  | .migrationCopy idx => Sys2Proof.Machine.execMigrationCopy idx s
  | .migrationRestart idx => Sys2Proof.Machine.execMigrationRestart idx s
  | .copyFillReturn die idx => Sys2Proof.Machine.execCopyFillReturn die idx s
  | .writeThroughAck die idx => Sys2Proof.Machine.execWriteThroughAck die idx s
  | .copySectorAgeout die sector => Sys2Proof.Machine.execCopySectorAgeout die sector s
  | .sliceError die sector kind => Sys2Proof.Machine.execSliceError die sector kind s
  | .hbmSectorRead sector who ecc tagBad => Sys2Proof.Machine.execHbmSectorRead sector who ecc tagBad s
  | .kilnImageAccept half => Sys2Proof.Machine.execKilnImageAccept half s
  | .kilnImageAck half sector part => Sys2Proof.Machine.execKilnImageAck half sector part s
  | .kilnImageRefused half sector => Sys2Proof.Machine.execKilnImageRefused half sector s
  | .kilnDeviceTimeout units => Sys2Proof.Machine.execKilnDeviceTimeout units s
  | .pbarComplete strand => Sys2Proof.Machine.execPbarComplete strand s
  | .coldBoot fwOk => Sys2Proof.Machine.execColdBoot fwOk s
  | .scrubCountPoll counts => Sys2Proof.Machine.execScrubCountPoll counts s
  | .stackRetire stack dests => Sys2Proof.Machine.execStackRetire stack dests s
  | .marginPlan cores => Sys2Proof.Machine.execMarginPlan cores s
  | .powerManagerSample avg => Sys2Proof.Machine.execPowerManagerSample avg s
  | .gsEnable value => Sys2Proof.Machine.execGsEnable value s
  | .gsDisable value => Sys2Proof.Machine.execGsDisable value s
  | .gsStop value => Sys2Proof.Machine.execGsStop value s
  | .cqProdWrite q value => Sys2Proof.Machine.execCqProdWrite q value s
  | .qcfgWrite q value => Sys2Proof.Machine.execQcfgWrite q value s
  | .hppush value => Sys2Proof.Machine.execHppush value s
  | .pppush value => Sys2Proof.Machine.execPppush value s
  | .forcev value => Sys2Proof.Machine.execForcev value s
  | .klctlGpfWrite value => Sys2Proof.Machine.execKlctlGpfWrite value s
  | .registerWrite off bytes value => Sys2Proof.Machine.execRegisterWrite off bytes value s
  | .keyload slot retain => Sys2Proof.Machine.execKeyload slot retain s
  | .keyzero slot => Sys2Proof.Machine.execKeyzero slot s
  | .kdset page count dom => Sys2Proof.Machine.execKdset page count dom s
  | .sigkey addKey key sig => Sys2Proof.Machine.execSigkey addKey key sig s
  | .spdmAttest kind => Sys2Proof.Machine.execSpdmAttest kind s
  | .snpInv line => Sys2Proof.Machine.execSnpInv line s
  | .snpData line => Sys2Proof.Machine.execSnpData line s
  | .snpCur line => Sys2Proof.Machine.execSnpCur line s
  | .hostMemrd port off any => Sys2Proof.Machine.execHostMemrd port off any s
  | .hostMemwr port off data => Sys2Proof.Machine.execHostMemwr port off data s
  | .bisnpAnswer line dirty => Sys2Proof.Machine.execBisnpAnswer line dirty s
  | .cxlResponse line grant data => Sys2Proof.Machine.execCxlResponse line grant data s
  | .peerInbound req => Sys2Proof.Machine.execPeerInbound req s
  | .peerResponse idx data answer => Sys2Proof.Machine.execPeerResponse idx data answer s
  | .peerTimeout idx => Sys2Proof.Machine.execPeerTimeout idx s
  | .fenceNotice peer => Sys2Proof.Machine.execFenceNotice peer s
  | .fenceWrite reg value => Sys2Proof.Machine.execFenceWrite reg value s
  | .hostViralIndication port => Sys2Proof.Machine.execHostViralIndication port s
  | .hostPortLoss port => Sys2Proof.Machine.execHostPortLoss port s
  | .dieLoss die => Sys2Proof.Machine.execDieLoss die s
  | .linkCrcFailure link atoms => Sys2Proof.Machine.execLinkCrcFailure link atoms s
  | .linkDown link => Sys2Proof.Machine.execLinkDown link s
  | .linkTrained link => Sys2Proof.Machine.execLinkTrained link s
  | .create => Sys2Proof.Machine.execCreate s
  | .destroy => Sys2Proof.Machine.execDestroy s
  | .resume => Sys2Proof.Machine.execResume s
  | .setwake => Sys2Proof.Machine.execSetwake s
  | .settok => Sys2Proof.Machine.execSettok s
  | .setclass => Sys2Proof.Machine.execSetclass s
  | .load => Sys2Proof.Machine.execLoad s
  | .trowelScan => Sys2Proof.Machine.execTrowelScan s
  | .invalidateRange => Sys2Proof.Machine.execInvalidateRange s
  | .invalidateAsid => Sys2Proof.Machine.execInvalidateAsid s
  | .invalidateAll => Sys2Proof.Machine.execInvalidateAll s
  | .icacheInvalidate => Sys2Proof.Machine.execIcacheInvalidate s
  | .lqLaunch => Sys2Proof.Machine.execLqLaunch s
  | .powerLoss => Sys2Proof.Machine.execPowerLoss s
  | .warmReset => Sys2Proof.Machine.execWarmReset s
  | .gsAttempt => Sys2Proof.Machine.execGsAttempt s
  | .gsWaitRecheck => Sys2Proof.Machine.execGsWaitRecheck s
  | .gsCommit => Sys2Proof.Machine.execGsCommit s
  | .gsAbandon => Sys2Proof.Machine.execGsAbandon s
  | .hppop => Sys2Proof.Machine.execHppop s
  | .pppop => Sys2Proof.Machine.execPppop s
  | .viralEntry => Sys2Proof.Machine.execViralEntry s
  | .globalPersistentFlush => Sys2Proof.Machine.execGlobalPersistentFlush s

end Sys2Proof.Machine
end

