-- ==== Sys2Proof/Machine/Turns.lean ====
section
/-! DEFINITION. Whose turn the next step is, and how an instruction is placed where it is fetched (R16, R18, R186, R330, R419, R457). -/

namespace Sys2Proof.Machine

/-- Who moves where the agenda names nobody: the core whose turn it is, by a forced yield that is due, a bundle, or a selection.
(DESIGN CHOICE, log 1) -/
def idleTurn (s : State) : Turn :=
  if (s.activeOf s.cur).isSome then
    if (s.core s.cur).count ≥ 65536 then .event (.forcedYield s.cur) else .event (.bundleIssue s.cur)
  else .event (.idleCoreSelect s.cur)
/-- The next turn, the nanoseconds that pass in it and the machine without it.
(DESIGN CHOICE, log 1, 4, 65) -/
def nextTurn (s : State) : Nat × Turn × State :=
  match s.agenda with
  | (dt, t) :: l => (dt, t, { s with agenda := l })
  | [] => ((Config.elapsed s.freeN).toNat, idleTurn s, { s with freeN := s.freeN + 1 })
/-- The machine as a turn finds it: its time has passed (R457), and the integrity failures that posted writes and queues' reads have met
are acted on (R400).
(DESIGN CHOICE, log 1, 67; DEDUCED, log 79) -/
def ready (s : State) : State :=
  let t := nextTurn s
  ({ t.2.2 with gtime := s.gtime + BitVec.ofNat 64 t.1 } : State).settleFailed
/-- A machine without power takes no turn but the cold boot (R419). -/
def allowed (s : State) (t : Turn) : Bool := s.pkg.powered || (match t with | .event (.coldBoot _) => true | _ => false)
/-- The micro-op word a core's routine fetches, decoded (R185, R186): none where no routine runs or the word is no micro-op. -/
def routineWord (s : State) (core : Nat) : Option Instr :=
  (s.core core).run.bind (fun r => decodeMicro core ((s.core core).word r.pc))

/-- Put a code word into a core's instruction cache.
(DESIGN CHOICE, log 11) -/
def putCode (asid : Nat) (co : Core) (va : Word) (w : Nat) : Core :=
  let key := icacheKey asid va.toNat
  let old := (look 0 co.icache key).toNat
  let k := 8 * (va.toNat % 128)
  { co with icache := upd co.icache key (BitVec.ofNat 1024 (old - fld old k 32 * 2 ^ k + w % 2 ^ 32 * 2 ^ k)) }
/-- Three code words at the pc of the strand that issues on the core whose turn it is, which is made ACTIVE where none is; the agenda
names nobody.
(DESIGN CHOICE, log 11, 12) -/
def State.withWords (s : State) (w : Nat) : State :=
  let c := s.cur
  let n := 8 * c + ((s.core c).active.getD 0)
  let st := s.strand n
  let asid := (s.ctx (s.ctxOf n)).asid
  let code (co : Core) : Core :=
    putCode asid (putCode asid (putCode asid co st.pc w) (st.pc + 4) (w / 2 ^ 32)) (st.pc + 8) (w / 2 ^ 64)
  let s1 := s.onCore c (fun co => { code co with active := some (n % 8), last := n % 8, count := 0 })
  { s1.setStrand n { st with run := .active, words := [], res := .fresh } with agenda := [] }

end Sys2Proof.Machine
end

