-- ==== Sys2Proof/Machine/Step.lean ====
section
/-! DEFINITION. One step of the machine: who moves next, what it runs, and how much time passes. -/

namespace Sys2Proof.Machine

/-- One step.
(DESIGN CHOICE, log 1) -/
def step (s : State) : Host.Outcome State Fault Refusal :=
  let t := (nextTurn s).2.1
  if !allowed s t then .refused .notEnabled
  else match t with
    | .event i => exec i (ready s)
    | .routine core =>
      match routineWord (ready s) core with
      | some i => exec i (ready s)
      | none => execBadWord core (ready s)

/-- The machine with an instruction where the next step fetches: its header word and operation words at the pc of the strand that
issues on the core whose turn it is, which is made ACTIVE where none is; the agenda names nobody.
(DESIGN CHOICE, log 11) -/
def State.withFetchWord (s : State) (_nbits w : Nat) : State := s.withWords w

end Sys2Proof.Machine
end

