-- ==== Sys2Proof/Safety.lean ====
section
/-! DEFINITION. What counts as a safe run, and the terms in which the claims speak of one operation alone in its bundle. -/

namespace Sys2Proof.Machine

/-- The machine neither faults nor is refused at its next step. -/
def Safe (s : State) : Prop := ∃ t, step s = .next t

/-! ## One operation alone in its bundle -/

/-- Strand `n` issues on the core whose turn it is, and nothing but the operation alone in its bundle decides what the bundle does:
no viral state, no primed engine in another slot (R28), no open barrier phase (R296), the registers it reads neither pending nor
poisoned and those it writes not pending (R34, R35), and `more` results of a latency above 1 fit in the pipeline (R23). -/
def Issues (s : State) (n : Nat) (reads writes : List Reg) (more : Nat) : Prop :=
  s.pkg.viral = false ∧ s.activeOf s.cur = some n ∧ (s.strand n).eng = [] ∧ (s.strand n).barWait = none ∧
  (s.strand n).inFlight [] + more ≤ 16 ∧
  (∀ r ∈ reads, (s.strand n).pending r = false ∧ (s.strand n).poisoned r = false) ∧
  (∀ r ∈ writes, (s.strand n).pending r = false)

/-- The machine with an active cycle counted (R18). -/
def counted (s : State) (n : Nat) : State := s.onCore (n / 8) (fun co => { co with count := co.count + 1 })
/-- What an operation alone in its bundle sees. -/
def oneEnv (i : Instr) (s : State) (n : Nat) (sl : Slot) : Env :=
  ⟨counted s n, n, s.strand n, sl.num, none, (s.strand n).pc, 0, bundleLen i, .miss, (s.ctx (s.ctxOf n)).seed.toNat⟩

/-- Where a strand goes after a bundle of `len` words (R91): a transfer in it makes the bundle behind it the delay bundle; otherwise
it goes to the bundle behind it, or to what its delay bundle ends in. -/
def Strand.onward (st : Strand) (len : Nat) (jump : Option Delay) : Strand :=
  let st1 := { st with res := .fresh, words := [] }
  let next := canonVa (st.pc + BitVec.ofNat 64 (4 * len))
  match st.delay, jump with
  | some (.taken t), _ => { st1 with pc := t, delay := none }
  | some .notTaken, _ => { st1 with pc := next, delay := none }
  | some .ret, _ => st1.rte
  | none, none => { st1 with pc := next }
  | none, some d => { st1 with pc := next, delay := some d }

/-- The machine after a bundle of one operation: the core counts an active cycle (R18), `effect` happens, the results enter the
pipeline, the strand cycle ends (R21) and the strand goes on. Nothing else changes. -/
def State.issued (s : State) (n len : Nat) (results : List Result) (effect : State → State := id) (jump : Option Delay := none) :
    State :=
  (effect ((counted s n).onStrand n (fun st => { st with walk := none }))).onStrand n
    (fun st => ({ st with pipe := st.pipe ++ results } : Strand).cycle.onward len jump)

/-- The machine after a bundle of one operation that takes a trap: nothing of the bundle commits, and the trap is taken (R25, R37). -/
def State.trapsAt (s : State) (n len : Nat) (t : Trap) : State :=
  (counted s n).takeTrap n t (canonVa ((s.strand n).pc + BitVec.ofNat 64 (4 * len))) 0

/-- The machine after an attempt at a bundle of one operation that blocks: nothing of it commits (R15, R19). -/
def State.blocksAt (s : State) (n : Nat) (why : Why) : State :=
  (counted s n).block n why

/-- The words of the bundle of which strand `n` issues the next iteration, as fetched or as held between iterations, and the machine with
them fetched; it is its core's turn, no forced yield is due, no viral state and no barrier holds it, and `more` results of a latency
above 1 fit in its pipeline (R18, R23, R25, R48, R296). -/
def Bundle (s : State) (n : Nat) (t : State) (ws : List (BitVec 32)) (more : Nat) : Prop :=
  s.cur = n / 8 ∧ s.activeOf (n / 8) = some n ∧ (s.core (n / 8)).count < 65536 ∧
  (if (s.strand n).words = [] then s.fetchBundle n else (s, .words (s.strand n).words)) = (t, .words ws) ∧
  t.pkg.viral = false ∧ (t.strand n).barWait = none ∧ (t.strand n).inFlight [] + more ≤ 16
/-- The machine after one iteration of a bundle of `len` words with `left` iterations to follow: the core counts an active cycle, the
engines stand as given, `effect` happens, the results enter the pipeline and the strand cycle ends; an iteration that is not the last
keeps the bundle's words (R28, R30). -/
def State.iterated (s : State) (n len left : Nat) (ws : List (BitVec 32)) (eng : SMap Engine) (results : List Result)
    (effect : State → State := id) : State :=
  (effect ((counted s n).onStrand n (fun st => { st with eng, walk := none }))).onStrand n (fun st =>
    let st1 := ({ st with pipe := st.pipe ++ results } : Strand).cycle
    if left = 0 then st1.onward len none else { st1 with res := .at (left - 1) false, words := ws })

/-- A scalar result: a value for s[d] after `lat` strand cycles, with FSTAT flags. -/
def sres (st : Strand) (d : BitVec 6) (lat : Nat) (v : Word) (flags : BitVec 5 := 0) : Result :=
  ⟨.s d.toNat, v.setWidth 2048, 0, 15, lat, st.tl, flags, false⟩
/-- A predicate result. -/
def bres (st : Strand) (d : BitVec 6) (lat : Nat) (v : Bool) (flags : BitVec 5 := 0) : Result :=
  ⟨.b d.toNat, if v then 1 else 0, 0, 15, lat, st.tl, flags, false⟩
/-- A lane-mask result. -/
def kres (st : Strand) (d lat : Nat) (v : Word) : Result := ⟨.k d, v.setWidth 2048, 0, 15, lat, st.tl, 0, false⟩
/-- A vector result for the lanes of a mask. -/
def vres (st : Strand) (d : BitVec 6) (lat : Nat) (v : Vec) (lanes : Word) (bytes : BitVec 4 := 15) (poison : Bool := false) : Result :=
  ⟨.v d.toNat, v, lanes, bytes, lat, st.tl, 0, poison⟩
/-- 1 where a result of this latency stays in flight after its own cycle (R23). -/
def late (lat : Nat) : Nat := if lat > 1 then 1 else 0

/-- An operation alone in its bundle delivers its results, and does nothing else. -/
def Delivers (i : Instr) (reads writes : List Reg) (more : Nat) (results : Strand → List Result) : Prop :=
  ∀ s n, WellFormed i = true → Issues s n reads writes more →
    exec i s = .next (s.issued n (bundleLen i) (results (s.strand n)))

/-- A scalar operation of two operands writes f(s[A], s[B]) to s[D] after its latency (R77). -/
def Scalar2 (mk : SUnit → RG → Instr) (lat : Nat) (f : RG → Word → Word → Word) : Prop :=
  ∀ u o, Delivers (mk u o) [.s o.a.toNat, .s o.b.toNat] [.s o.d.toNat] (late lat)
    (fun st => [sres st o.d lat (f o (st.getS o.a.toNat) (st.getS o.b.toNat))])
/-- A scalar operation of one operand. -/
def Scalar1 (mk : SUnit → RG → Instr) (f : RG → Word → Word) : Prop :=
  ∀ u o, Delivers (mk u o) [.s o.a.toNat] [.s o.d.toNat] 0 (fun st => [sres st o.d 1 (f o (st.getS o.a.toNat))])

end Sys2Proof.Machine

namespace Sys2Proof

open Machine

/-- The immediate of format SI: twelve bits, or the second word, sign-extended (R78). -/
def SI.value (o : SI) : Word := match o.x with | some w => w.signExtend 64 | none => o.imm.signExtend 64

end Sys2Proof

namespace Sys2Proof.Machine

/-- A scalar operation with an immediate. -/
def ScalarImm (mk : SUnit → SI → Instr) (f : Word → Word → Word) : Prop :=
  ∀ u o, Delivers (mk u o) [.s o.a.toNat] [.s o.d.toNat] 0 (fun st => [sres st o.d 1 (f (st.getS o.a.toNat) o.value)])
/-- A predicate operation of two operands. -/
def Pred2 (mk : SUnit → RG → Instr) (f : Bool → Bool → Bool) : Prop :=
  ∀ u o, Delivers (mk u o) [] [] 0 (fun st => [bres st o.d 1 (f (st.getB o.a.toNat) (st.getB o.b.toNat))])
/-- The conditions of SCMP (R87). -/
def holdsCond (c : Nat) (x y : Word) : Bool :=
  match c with
  | 0 => x == y
  | 1 => x != y
  | 2 => x.slt y
  | 3 => !x.slt y
  | 4 => x.ult y
  | 5 => !x.ult y
  | 6 => x &&& y != 0
  | _ => x &&& y == 0

/-! ## Floating point -/

/-- The lane random word of an element in a slot of the strand's next iteration (R121). -/
def randomAt (s : State) (n slot el : Nat) : Nat :=
  let st := s.strand n
  drawWord (s.ctx (s.ctxOf n)).seed.toNat (if st.tl then st.p1 else st.p0).toNat st.task.toNat st.launch.toNat (b2n st.tl) slot el

end Sys2Proof.Machine

namespace Sys2Proof

open Machine

/-- The slot of a scalar unit. -/
def SUnit.slot : SUnit → Nat
  | .a => 1
  | .b => 2
/-- The slot of a vector unit. -/
def VUnit.slot : VUnit → Nat
  | .a => 3
  | .b => 4

end Sys2Proof

namespace Sys2Proof.Machine

/-- The value of a finite number; 0 for what is none. -/
def FVal.rat : FVal → ℚ
  | .num neg m e => (if neg then -1 else 1) * m * 2 ^ e
  | _ => 0
/-- A finite number. -/
def FVal.finite : FVal → Bool
  | .num _ _ _ => true
  | _ => false
/-- The formats to which values are rounded (R109). -/
def floatFormats : List FFmt := [f64, f32, f16, bf16, e4m3, e5m2, e3m2, e2m3, e2m1]
/-- The finite values of a format, rising with their encodings; above the largest stands the next that its exponents would give (R116). -/
def FFmt.ladder (f : FFmt) (c : Nat) : ℚ :=
  if c ≤ f.maxCode then (decodeF f c).rat else 2 * (decodeF f f.maxCode).rat - (decodeF f (f.maxCode - 1)).rat
/-- Of the neighbours `a < b` of a magnitude between them the upper one is delivered (R115, R120): `le v` and `ge v` say that `v` is not
above and not below the magnitude; `odd`, that the last bit of `a` is set. -/
def roundsUp (rm q : Nat) (neg odd : Bool) (a b : ℚ) (le ge : ℚ → Prop) : Prop :=
  match rm with
  | 0 => ¬ ge ((a + b) / 2) ∨ le ((a + b) / 2) ∧ odd = true
  | 1 => False
  | 2 => neg = true
  | 3 => neg = false
  | _ => if neg then ¬ ge (b - (q + 1) * (b - a) / 2 ^ 32) else le (a + (q + 1) * (b - a) / 2 ^ 32)
/-- An encoding and its flags are a magnitude rounded once (R115, R116, R118, R120): a value of the format is delivered unchanged, one
between two is delivered as roundsUp says, and one beyond the largest as that, as an infinity, or with `sat` as the largest. -/
def Rounds (f : FFmt) (sat : Bool) (rm q : Nat) (neg : Bool) (le ge : ℚ → Prop) (r : Nat × Nat) : Prop :=
  let top := f.maxCode
  let up (c : Nat) : Prop := roundsUp rm q neg (bitOf c 0) (f.ladder c) (f.ladder (c + 1)) le ge
  (∀ c ≤ top, le (f.ladder c) → ge (f.ladder c) → r = (signOf f neg + c, 0)) ∧
  (∀ c < top, ¬ ge (f.ladder c) → ¬ le (f.ladder (c + 1)) → ∃ k tiny : Bool, (k = true ↔ up c) ∧
    (tiny = true ↔ ¬ le ((2 : ℚ) ^ (1 - (f.bias : Int)))) ∧
    r = (signOf f neg + (if k then c + 1 else c), flagNX + (if tiny then flagUF else 0))) ∧
  (¬ ge (f.ladder top) → sat = true ∨ f.kind = 0 → ∃ k : Bool, (k = true ↔ le (f.ladder (top + 1)) ∨ up top) ∧
    r = if k then
        (signOf f neg + (if sat || rm = 1 || (rm = 2 && !neg) || (rm = 3 && neg) then top else f.infCode), flagOF + flagNX)
      else (signOf f neg + top, flagNX))
/-- Rounding a number that is not zero. -/
def RoundsTo (f : FFmt) (sat : Bool) (rm q : Nat) (x : ℚ) (r : Nat × Nat) : Prop :=
  Rounds f sat rm q (decide (x < 0)) (· ≤ |x|) (|x| ≤ ·) r
/-- The formats of scalar and vector arithmetic. -/
def arithmeticFormats : List FFmt := [f64, f32, f16, bf16]

/-- A scalar floating-point operation writes the encoding and ORs the flags `f` gives (R128, R129). -/
def ScalarFp (mk : SUnit → RG → Instr) (reads : RG → List Reg) (f : RG → Nat → Strand → Nat × Nat) : Prop :=
  ∀ u o s n, WellFormed (mk u o) = true → Issues s n (reads o) [.s o.d.toNat] 1 →
    let r := f o (randomAt s n u.slot 0) (s.strand n)
    exec (mk u o) s = .next (s.issued n (bundleLen (mk u o))
      [sres (s.strand n) o.d (if o.f.getLsbD 5 then 6 else 4) (BitVec.ofNat 64 r.1) (BitVec.ofNat 5 r.2)])
/-- The value s[i] holds in the precision of the operation (R56, R108). -/
def fpVal (o : RG) (st : Strand) (i : BitVec 6) : FVal := decodeF (prec o) ((st.getS i.toNat).toNat % 2 ^ (prec o).width)
/-- The encoding s[i] holds in the precision of the operation. -/
def fpCode (o : RG) (st : Strand) (i : BitVec 6) : Nat := (st.getS i.toNat).toNat % 2 ^ (prec o).width

/-! ## Vectors -/

/-- A vector operation writes, after its latency, `f j` to every active element `j` of v[D], under the mask of its K (R137). `f` sees
the strand and the lane random word of an element. -/
def Elementwise (mk : VUnit → VR → Instr) (reads : VR → List Reg) (lat : Nat) (ty : VR → Nat) (f : VR → Strand → (Nat → Nat) → Nat → Nat)
    (only : VR → Prop := fun _ => True) : Prop :=
  ∀ u o s n, only o → WellFormed (mk u o) = true → Issues s n (reads o) [.v o.d.toNat] 1 →
    ∃ r, exec (mk u o) s = .next (s.issued n (bundleLen (mk u o))
        [vres (s.strand n) o.d lat r (actLanes ((s.strand n).getK o.k.toNat) (ty o))]) ∧
      ∀ j < tN (ty o), actEl ((s.strand n).getK o.k.toNat) (ty o) j = true →
        elem r (ty o) j = f o (s.strand n) (randomAt s n u.slot) j % 2 ^ tW (ty o)
/-- A source-masked vector operation writes every element of v[D] (R137). -/
def EveryElement (mk : VUnit → VR → Instr) (reads : VR → List Reg) (lat : Nat) (ty : VR → Nat) (f : VR → Strand → Nat → Nat) : Prop :=
  ∀ u o s n, WellFormed (mk u o) = true → Issues s n (reads o) [.v o.d.toNat] 1 →
    ∃ r, exec (mk u o) s = .next (s.issued n (bundleLen (mk u o)) [vres (s.strand n) o.d lat r 0xFFFFFFFFFFFFFFFF]) ∧
      ∀ j < tN (ty o), elem r (ty o) j = f o (s.strand n) j % 2 ^ tW (ty o)
/-- A vector operation with a scalar result. -/
def VecToScalar (mk : VUnit → VR → Instr) (reads : VR → List Reg) (lat : Nat) (f : VR → Strand → Word) : Prop :=
  ∀ u o, Delivers (mk u o) (reads o) [.s o.d.toNat] 1 (fun st => [sres st o.d lat (f o st)])

end Sys2Proof.Machine

namespace Sys2Proof

open Machine

/-- Operand registers of format VR. -/
def VR.ra (o : VR) : List Reg := [.v o.a.toNat]
/-- Operands A and B. -/
def VR.rab (o : VR) : List Reg := [.v o.a.toNat, .v o.b.toNat]
/-- Operand C. -/
def VR.c (o : VR) : BitVec 6 := match o.x with | some x => x.c | none => 0
/-- Operands A, B and C. -/
def VR.rabc (o : VR) : List Reg := [.v o.a.toNat, .v o.b.toNat, .v o.c.toNat]
/-- The type code. -/
def VR.ty (o : VR) : Nat := o.t.toNat
/-- Element `j` of a register of the strand. -/
def VR.el (o : VR) (st : Strand) (r : BitVec 6) (j : Nat) : Nat := elem (st.getV r.toNat) o.ty j
/-- Element `j` as a floating-point value. -/
def VR.fel (o : VR) (st : Strand) (r : BitVec 6) (j : Nat) : FVal := decodeF (tF o.ty) (o.el st r j)
/-- Element `j` as an integer of its type. -/
def VR.iel (o : VR) (st : Strand) (r : BitVec 6) (j : Nat) : Int := intT o.ty (o.el st r j)
/-- EXT. -/
def VR.extN (o : VR) : Nat := match o.x with | some x => x.ext.toNat | none => 0
/-- The rounding mode. -/
def VR.rm (o : VR) : Nat := match o.x with | some x => x.rm.toNat | none => 0
/-- An integer result, wrapped to the element or clamped to its type's range (R146). -/
def VR.narrow (o : VR) (sat : Bool) (v : Int) : Nat :=
  let lo : Int := if tSigned o.ty then -(2 ^ (tW o.ty - 1) : Nat) else 0
  let hi : Int := if tSigned o.ty then (2 ^ (tW o.ty - 1) : Nat) - 1 else (2 ^ tW o.ty : Nat) - 1
  wrap (tW o.ty) (if sat then max lo (min hi v) else v)
/-- Element `j` of a source, zero where it is inactive (R137). -/
def VR.src (o : VR) (st : Strand) (j : Nat) : Nat := if actEl (st.getK o.k.toNat) o.ty j then o.el st o.a j else 0
/-- The sum of two elements, rounded in the operation's mode or wrapping (R157). -/
def VR.add (o : VR) (x y : Nat) : Nat :=
  if tIsF o.ty then (fAdd (tF o.ty) o.rm 0 (decodeF (tF o.ty) x) (decodeF (tF o.ty) y)).1 else (x + y) % 2 ^ 32
/-- Levels of a tree over all elements of the type. -/
def VR.levels (o : VR) : Nat := if o.ty = 3 then 5 else 6
/-- The balanced tree of sums over 2^n elements from `i`: each half is summed, then the halves are added (R157). -/
def treeOver (add : Nat → Nat → Nat) (x : Nat → Nat) : Nat → Nat → Nat
  | 0, i => x i
  | n + 1, i => add (treeOver add x n i) (treeOver add x n (i + 2 ^ n))
/-- Element `i` after `n` stages of a running sum: stage m adds the element 2^m below (R159). -/
def scanAfter (add : Nat → Nat → Nat) (x : Nat → Nat) : Nat → Nat → Nat
  | 0, i => x i
  | n + 1, i => if i < 2 ^ n then scanAfter add x n i else add (scanAfter add x n i) (scanAfter add x n (i - 2 ^ n))
/-- The active element numbers, rising. -/
def VR.active (o : VR) (st : Strand) : List Nat := (List.range (tN o.ty)).filter (actEl (st.getK o.k.toNat) o.ty)
/-- The amount of a vector shift (R148). -/
def VR.amount (o : VR) (st : Strand) (j : Nat) : Nat :=
  if bitOf o.extN 5 then o.extN % 32 else o.el st o.b j % tW o.ty


end Sys2Proof

namespace Sys2Proof.Machine

/-- A lane-mask operation: EXT bit 0 takes s[B] in place of k[B], EXT bit 1 writes s[D] in place of k[D] (R164). -/
def MaskOp (mk : VUnit → VR → Instr) (two : Bool) (f : Word → Word → Word) : Prop :=
  ∀ u o, Delivers (mk u o) (if two && bitOf o.extN 0 then [.s o.b.toNat] else []) (if bitOf o.extN 1 then [.s o.d.toNat] else []) 1
    (fun st =>
      let b := if bitOf o.extN 0 then st.getS o.b.toNat else st.getK o.b.toNat
      let v := f (st.getK o.a.toNat) b
      [if bitOf o.extN 1 then sres st o.d 2 v else kres st o.d.toNat 2 v])

/-! ## Control transfers and status registers -/

/-- The target of a relative transfer: the bundle's address plus four times the sign-extended offset, in 57 bits (R11, R91). -/
def State.relative {w : Nat} (s : State) (n : Nat) (off : BitVec w) : Word := canonVa ((s.strand n).pc + off.signExtend 64 <<< 2)
/-- An address a transfer may go to: aligned to 4 and canonical (R92). -/
def mayTarget (a : Word) : Prop := a.toNat % 4 = 0 ∧ (a.setWidth 57).signExtend 64 = a
/-- The pending next bundle a transfer sets (R91). -/
def toward (taken : Bool) (target : Word) : Option Delay := some (if taken then .taken target else .notTaken)
/-- The readable status registers, by number, but for loop counters and semaphores (R105). -/
def statusTable : List (Nat × (State → Nat → Word)) :=
  [(0x000, fun s n => (s.strand n).swhy.setWidth 64),
   (0x001, fun s n => BitVec.ofNat 64 ((if s.pkg.gvalid then s.pkg.pkgnum % 1024 else 0) * 2 ^ 16 + n % 2048)),
   (0x002, fun s n => (s.strand n).ctxh.setWidth 64), (0x003, fun s n => (s.strand n).launch.setWidth 64),
   (0x004, fun s n => (s.strand n).task.setWidth 64), (0x005, fun s n => (s.strand n).domain),
   (0x006, fun s n => (s.strand n).course.setWidth 64), (0x007, fun s n => (s.strand n).scyc), (0x008, fun s _ => s.gtime),
   (0x009, fun s n => (s.strand n).wsem.setWidth 64), (0x00A, fun s n => (s.strand n).fstat.setWidth 64),
   (0x030, fun s n => (s.strand n).pendS), (0x031, fun s n => (s.strand n).pendV), (0x032, fun s n => (s.strand n).poisS),
   (0x033, fun s n => (s.strand n).poisV), (0x040, fun s n => (s.strand n).xvec), (0x041, fun s n => (s.strand n).xmask),
   (0x042, fun s n => (s.strand n).xpc), (0x043, fun s n => (s.strand n).xnpc),
   (0x044, fun s n => BitVec.ofNat 64 ((s.strand n).xrpt.toNat * 256 + (if (s.strand n).dslot then 2 else 0) + (if (s.strand n).tl then 1 else 0))),
   (0x045, fun s n => (s.strand n).xrec)]
/-- The writable status registers, by number, but for loop counters: read-only and reserved fields keep what they hold (R38, R103). -/
def writeTable : List (Nat × (Word → Strand → Strand)) :=
  [(0x00A, fun w st => { st with fstat := w.setWidth 5 }), (0x040, fun w st => { st with xvec := w &&& ~~~3 }),
   (0x041, fun w st => { st with xmask := w &&& 0x100001FFE }), (0x042, fun w st => { st with xpc := w }),
   (0x043, fun w st => { st with xnpc := w }),
   (0x044, fun w st => { st with xrpt := (w >>> 8).setWidth 8, dslot := w.getLsbD 1 }),
   (0x045, fun w st => { st with xrec := w &&& 0x7FFC0 })]
/-- The completions a WAIT for `m` of semaphore `e` consumes: the oldest `m` (R99). -/
def Strand.oldestOf (st : Strand) (e m : Nat) : List Completion := (st.getE e).take m
/-- Consumption: the oldest `m` completions of `e` go, the registers they name are no longer pending, the banks of their routines
are free, and completions of global accesses that a full count held are appended (R34, R98, R99, R181). -/
def consumes (n e m : Nat) (s : State) : State :=
  let gone := (s.strand n).oldestOf e m
  let s1 := s.onStrand n (fun st =>
    let st1 := gone.foldl (fun (st : Strand) c => match c.reg with | some r => st.setPending r false | none => st) st
    ({ st1 with sem := put [] st1.sem e ((st.getE e).drop m) } : Strand).drain 128)
  s1.onCore (n / 8) (fun co => { co with owned := co.owned.filter (fun p => !(gone.filterMap (fun c => c.routine)).contains p.1) })

/-! ## Memory slots and the other engines -/

/-- An operation of a sticky slot stays in its engine with the address it steps to (R28, R57), and has its effect. -/
def primed (n : Nat) (sl : Slot) (i : Instr) (next : Word) (effect : State → State := id) (s : State) : State :=
  effect (s.onStrand n (fun st => { st with eng := [(sl.num, ⟨i, next⟩)] }))
/-- The active lanes of a mask, rising. -/
def activeLanes (k : Word) : List Nat := (List.range 64).filter (fun i => k.getLsbD i)
/-- A word of the scratchpad can be accessed: in range, and filled in every watermark channel (R212, R214). -/
def Core.open_ (co : Core) (a n : Nat) : Prop := a + n ≤ 0x60000 ∧ co.unfilled a n = false
/-- A scalar load's result. -/
def lres (st : Strand) (d : BitVec 6) (lat v : Nat) (poison : Bool) : Result :=
  ⟨.s d.toNat, BitVec.ofNat 2048 v, 0, 15, lat, st.tl, 0, poison⟩
/-- The entry of a queue a global access makes. -/
def asked (kind : GKind) (sem : BitVec 4) (va : Word) (pa size : Nat) : GEntry :=
  ⟨0, kind, none, sem.toNat, va, pa, size, 0xFFFFFFFFFFFFFFFF, 0, 0, 0, false, false, false, false, 0⟩
/-- The effect of a global access at its commit (R221, R224, R333): its entry joins the load or the store queue, the register it names
becomes pending, the core's TLB entry is the one used last (R328), and the page's counter counts. -/
def enters (n : Nat) (load : Bool) (g : GEntry) (l : Leaf) (s : State) : State :=
  ((s.onStrand n (fun st => st.queue load g g.reg)).tlbUsed n (g.va.toNat % 2 ^ 57)).touch
    (dieOfStrand n) (s.ctx (s.ctxOf n)).asid (g.va.toNat % 2 ^ 57) l
/-- A global access meets no check of R223: canonical, aligned, translated with the permission it needs, and its queue has room. -/
def Passes (s : State) (n : Nat) (load : Bool) (a : Word) (align : Nat) (k : Kind) (pa : Nat) (l : Leaf) : Prop :=
  (a.setWidth 57).signExtend 64 = a ∧ a.toNat % align = 0 ∧ s.strandTr n (a.toNat % 2 ^ 57) k = .ok pa l ∧
  (if load then (s.strand n).loadQ.length < 64 else (s.strand n).storeQ.length < 64)

/-- The checks of R212 on a scratchpad operation of a slot, the first that fails taken: of the addresses `bases` the lowest that is not
aligned; of the bytes of `parts` the lowest past the end; a byte above a watermark. -/
def SpadRefuses (i : Instr) (s : State) (n slot align : Nat) (bases : List Nat) (parts : List (Nat × Nat)) : Prop :=
  (∀ m ∈ bases, m % align ≠ 0 → (∀ x ∈ bases, x % align ≠ 0 → m ≤ x) → exec i s = .next (s.trapsAt n (bundleLen i)
    { cause := 0x0A, detail := 0x0300, faddr := BitVec.ofNat 64 m, slot })) ∧
  ((∀ m ∈ bases, m % align = 0) →
    (∀ p ∈ parts, 0x60000 < p.1 + p.2 → (∀ q ∈ parts, 0x60000 < q.1 + q.2 → max p.1 0x60000 ≤ max q.1 0x60000) →
      exec i s = .next (s.trapsAt n (bundleLen i)
        { cause := 0x0B, detail := 0x0300, faddr := BitVec.ofNat 64 (max p.1 0x60000), slot })) ∧
    ((∀ p ∈ parts, p.1 + p.2 ≤ 0x60000) → (s.core (n / 8)).unfilledParts parts = true →
      exec i s = .next (s.blocksAt n (.watermark parts))))
/-- The checks of R223 on a global operation, the first that fails taken, and the wait for an entry of its queue (R221). -/
def GlobalRefuses (i : Instr) (s : State) (n : Nat) (load : Bool) (a : Word) (align : Nat) (k : Kind) (du : Bool) : Prop :=
  let canonical := (a.setWidth 57).signExtend 64 = a
  let traps (c d : Nat) : Prop := exec i s = .next (s.trapsAt n (bundleLen i)
    { cause := c, detail := d, faddr := a, slot := if load then 5 else 6 })
  (¬ canonical → traps 0x0A 0x0302) ∧ (canonical → a.toNat % align ≠ 0 → traps 0x0A 0x0301) ∧
  (canonical → a.toNat % align = 0 →
    (∀ c d, s.strandTr n (a.toNat % 2 ^ 57) k = .fault c d → traps c d) ∧
    (s.strandTr n (a.toNat % 2 ^ 57) k = .miss → exec i s = .next (s.blocksAt n (.walk a k))) ∧
    (∀ pa l, s.strandTr n (a.toNat % 2 ^ 57) k = .ok pa l →
      (du = true → window (s.place pa) ≠ .nv → traps 0x11 0x0300) ∧
      (du = false ∨ window (s.place pa) = .nv → 64 ≤ (if load then (s.strand n).loadQ else (s.strand n).storeQ).length →
        exec i s = .next (s.blocksAt n (if load then .loadFull else .storeFull)))))

end Sys2Proof.Machine

namespace Sys2Proof

open Machine

/-- The address of format MS in a unit (R57): s[A] + OFF × unit + DISP. -/
def MS.addr (o : MS) (st : Strand) (unit : Nat) : Word :=
  st.getS o.a.toNat + BitVec.ofNat 64 (o.off.toNat * unit) + (match o.x with | some x => x.disp.signExtend 64 | none => 0)
/-- The address a step of format MS moves to. -/
def MS.step (o : MS) (a : Word) (unit : Nat) : Word := a + BitVec.ofInt 64 (o.stp.toInt * unit)
/-- The lane mask of format MS; k0 in the short form. -/
def MS.mask (o : MS) (st : Strand) : Word := st.getK (match o.x with | some x => x.k.toNat | none => 0)
/-- The index register of format MS. -/
def MS.index (o : MS) : BitVec 6 := match o.x with | some x => x.xr | none => 0
/-- The address of format MG (R57): s[A] + DISP. -/
def MG.addr (o : MG) (st : Strand) : Word := st.getS o.a.toNat + (match o.x with | some x => x.disp.signExtend 64 | none => 0)
/-- The address a step of format MG moves to. -/
def MG.step (o : MG) (a : Word) (unit : Nat) : Word := a + BitVec.ofInt 64 (o.stp.toInt * unit)
/-- The lane mask of format MG; k0 in the short form. -/
def MG.mask (o : MG) (st : Strand) : Word := st.getK (match o.x with | some x => x.k.toNat | none => 0)
/-- The row of format AC (R57, R200): ROW, plus s[A] in the long form, modulo 1024. -/
def AC.at_ (o : AC) (st : Strand) : Nat := (o.row.toNat + (match o.x with | some x => (st.getS x.a.toNat).toNat | none => 0)) % 1024
/-- The row a step of format AC moves to. -/
def AC.step (o : AC) (row : Nat) : Word := BitVec.ofNat 64 ((row : Int) + o.stp.toInt + 1024).toNat % 1024
/-- The lane mask of format AC. -/
def AC.mask (o : AC) (st : Strand) : Word := st.getK (match o.x with | some x => x.k.toNat | none => 0)
/-- The registers format AC reads for its row. -/
def AC.reads (o : AC) : List Reg := match o.x with | some x => [.s x.a.toNat] | none => []
/-- Register C of format HC. -/
def HC.c (o : HC) (st : Strand) : Word := st.getS (match o.x with | some x => x.c.toNat | none => 0)
/-- The registers C and D of format HC. -/
def HC.rc (o : HC) : List Reg := match o.x with | some x => [.s x.c.toNat] | none => []
/-- Register D of format HC. -/
def HC.rd (o : HC) : List Reg := match o.x with | some x => [.s x.d.toNat] | none => []

end Sys2Proof

namespace Sys2Proof.Machine

/-- No bank the row lies in is owned by a routine (R205). -/
def bankFree (s : State) (n row : Nat) : Prop := bitOf (s.core (n / 8)).ownedMask (row / 64) = false
/-- The common case of an operation of the AR or the AW slot: its row, its bank free, its engine primed. -/
def AccOp (mk : AC → Instr) (sl : Slot) (reads writes : AC → List Reg) (more : Nat) (results : AC → State → Nat → Nat → List Result)
    (effect : AC → State → Nat → Nat → State → State) : Prop :=
  ∀ o s n, WellFormed (mk o) = true → Issues s n (o.reads ++ reads o) (writes o) more →
    let row := o.at_ (s.strand n)
    bankFree s n row →
    exec (mk o) s = .next (s.issued n (bundleLen (mk o)) (results o s n row)
      (primed n sl (mk o) (o.step row) (effect o s n row)))
/-- A Hod command whose operands meet the checks of R241 enters its channel (R236, R239): the registers it reads as they stand, the
next identifier of the channel, and a place in the strand's commit order. -/
def HodEnters (mk : HC → Instr) (op : Nat) (reads : HC → List Reg) (ok : HC → State → Strand → Prop) : Prop :=
  ∀ o s n, WellFormed (mk o) = true → Issues s n (reads o) [] 0 → ok o s (s.strand n) →
    let st := s.strand n
    let ch := n / 8 % 4 * 16 + o.ch.toNat
    let h := (s.cluster (n / 32)).chan ch
    let id := ch / 16 * 2 ^ 30 + ch % 16 * 2 ^ 26 + h.seq % (2 ^ 26 - 1)
    let cmd : HodCmd := ⟨id, n, true, st.ctxh, st.launch, st.task, o.e.toNat, op, o.f.toNat,
      (match o.x with | some x => x.ext.toNat | none => 0), o.x.isSome, st.getS o.a.toNat, st.getS o.b.toNat, o.c st,
      st.getS (match o.x with | some x => x.d.toNat | none => 0), st.gnum⟩
    h.queue.length < 8 →
    exec (mk o) s = .next (s.issued n (bundleLen (mk o)) [] (fun t =>
      (t.onCluster (n / 32) (fun x => x.setChan ch
        { h with queue := h.queue ++ [cmd], seq := (h.seq + 1) % (2 ^ 26 - 1), last := some id })).onStrand n
        (fun st => { st with gnum := st.gnum + 1 })))
/-- A length a command may name: a positive multiple of 128 up to a limit (R241). -/
def lengthOk (v : Word) (limit : Nat) : Prop := 0 < v.toNat ∧ v.toNat % 128 = 0 ∧ v.toNat ≤ limit
/-- A scratchpad operand a command may name (R241). -/
def spOk (a : Word) (m n : Nat) : Prop := a.toNat % m = 0 ∧ a.toNat + n ≤ 0x60000
/-- A global operand a command may name (R241). -/
def glOk (a : Word) : Prop := (a.setWidth 57).signExtend 64 = a ∧ a.toNat % 128 = 0
/-- A check of R241: whether it fails, and the cause, the detail and the address of its trap. -/
abbrev HodCheck := Bool × Nat × Nat × Word
/-- The length's check. -/
def badLength (v : Word) (limit : Nat) : HodCheck := (v.toNat = 0 || v.toNat % 128 ≠ 0 || limit < v.toNat, 0x02, 0x0400, 0)
/-- A scratchpad address's alignment. -/
def badSpad (a : Word) (m : Nat) : HodCheck := (a.toNat % m ≠ 0, 0x0A, 0x0400, a)
/-- A global address. -/
def badGlobal (a : Word) : HodCheck := ((a.setWidth 57).signExtend 64 ≠ a || a.toNat % 128 ≠ 0, 0x0A, 0x0401, a)
/-- A scratchpad range's end. -/
def pastSpad (a : Word) (n : Nat) : HodCheck := (0x60000 < a.toNat + n, 0x0B, 0x0400, BitVec.ofNat 64 (max a.toNat 0x60000))
/-- A Hod command takes the trap of the first of its checks that fails (R37, R241), and otherwise blocks while its channel is full
(R236). -/
def HodRefuses (mk : HC → Instr) (reads : HC → List Reg) (checks : HC → Strand → List HodCheck) : Prop :=
  ∀ o s n, WellFormed (mk o) = true → Issues s n (reads o) [] 0 →
    match (checks o (s.strand n)).find? (fun p => p.1) with
    | some (_, c, d, a) => exec (mk o) s = .next (s.trapsAt n (bundleLen (mk o)) { cause := c, detail := d, faddr := a, slot := 10 })
    | none => 8 ≤ ((s.cluster (n / 32)).chan (n / 8 % 4 * 16 + o.ch.toNat)).queue.length →
      exec (mk o) s = .next (s.blocksAt n (.hodFull o.ch.toNat))

/-! ## Micro-op words (chapter 06) -/

/-- What a scale slot reads (R179, R188). -/
def scaleReads (r : Routine) (scl : Option MmScl) : List (Nat × Nat) :=
  match scl with
  | some o => [((r.ptr o.p.toNat).toNat, if o.w = 1 then 256 else 128)]
  | none => []
/-- An operand of `n` bytes lies where R172 wants it: at a multiple of 128, in the scratchpad, in one bank group. -/
def placed (a n : Nat) : Prop := a % 128 = 0 ∧ a + n ≤ 0x60000 ∧ a / 0x18000 = (a + n - 1) / 0x18000
/-- A core's routine runs a word that reads `reads` and, in `groups`, leaves bank groups to its scale slot: it neither waits nor has
ended, the scale slot passes its checks, and nothing it reads lies above a watermark (R173, R186, R188). -/
def MicroReady (s : State) (c : Nat) (r : Routine) (scl : Option MmScl) (reads : List (Nat × Nat)) (groups : List Nat) : Prop :=
  (s.core c).run = some r ∧ r.wait = false ∧ r.done = none ∧
  (∀ p ∈ scaleReads r scl, placed p.1 p.2 ∧ p.1 / 0x18000 ∉ groups) ∧
  (s.core c).unfilledParts (reads ++ scaleReads r scl) = false
/-- A routine after its scale slot: its load is in flight for three steps and its pointer advances (R179). -/
def Routine.loadScale (r : Routine) (co : Core) (from_ : Routine) (scl : Option MmScl) : Routine :=
  match scl with
  | none => r
  | some o =>
    let a := (from_.ptr o.p.toNat).toNat
    let n := if o.w = 1 then 256 else 128
    ({ r with flight := r.flight ++ [(3, o.d.toNat, n, BitVec.ofNat 2048 (co.sp a n), co.spAtoms a n)] } : Routine).adv o.p.toNat
/-- The machine after a word of a routine: the routine is `r1` with the scale slot's load, `steps` steps have passed and `next` is the
next index; MABORT ends it there (R199); a saturated word sets SAT of its strand (R125). -/
def State.microRan (s : State) (c : Nat) (r : Routine) (scl : Option MmScl) (steps next : Nat) (r1 : Routine)
    (co1 : Core) (cl1 : Cluster) (sat : Bool := false) : State :=
  let r2 : Routine := { landScales steps (r1.loadScale (s.core c) r scl) with pc := next }
  let r3 : Routine := if r2.abort && r2.done.isNone then { r2 with block := none, done := some none } else r2
  let t := (s.setCore c { co1 with run := some r3 }).setCluster (c / 4) cl1
  if sat && r.entry.live then t.onStrand (8 * c + r.entry.strand) (fun st => { st with sat := true }) else t
/-- The banks a routine's MCALL gave it, its ARG and its m registers (R178). -/
def Routine.gangOf (r : Routine) : Nat := r.call.1
def Routine.ownOf (r : Routine) : Nat := r.call.2.1
def Routine.argOf (r : Routine) : Nat := r.call.2.2.1
def Routine.mOf (r : Routine) : List Word := r.call.2.2.2
/-- A routine that has run a word that does not jump: its loops are examined (R192). -/
def Routine.past (r : Routine) : Routine := { r with ml := (afterWord r.pc r.ml).1 }

/-! ## The host's queues (chapter 17) -/

/-- The oldest entry of a host queue can be served: its bytes are `v`, unpoisoned, and its completion address at byte `off` is usable
(R335, R436, R437). -/
def Serves (s : State) (k off v : Nat) : Prop :=
  s.hasHead k = true ∧ s.readPa (s.headPa k) (entrySize k) = .ok v false ∧ usableFor k (byts v off 8) = true

end Sys2Proof.Machine
end

