-- ==== Sys2Proof/Certificates/Slice0/Obligations.lean ====
section
/-! DEFINITION. The statements of this model for its provers. -/

open Sys2Proof Sys2Proof.Machine


/-- R80: the integer operations of two and three operands, registers and sign-extended immediates. -/
def Obligations.ScalarIntegers : Prop :=
  Scalar2 .sadd 1 (fun _ a b => a + b) ∧
  Scalar2 .ssub 1 (fun _ a b => a - b) ∧
  Scalar2 .sand 1 (fun _ a b => a &&& b) ∧
  Scalar2 .sor 1 (fun _ a b => a ||| b) ∧
  Scalar2 .sxor 1 (fun _ a b => a ^^^ b) ∧
  Scalar2 .smin 1 (fun _ a b => if b.ult a then b else a) ∧
  Scalar2 .smax 1 (fun _ a b => if a.ult b then b else a) ∧
  Scalar2 .smins 1 (fun _ a b => if b.slt a then b else a) ∧
  Scalar2 .smaxs 1 (fun _ a b => if a.slt b then b else a) ∧
  ScalarImm .saddi (fun a i => a + i) ∧
  ScalarImm .sandi (fun a i => a &&& i) ∧
  ScalarImm .sori (fun a i => a ||| i) ∧
  ScalarImm .sxori (fun a i => a ^^^ i) ∧
  Scalar1 .sclz (fun _ a => BitVec.ofNat 64 (if a = 0 then 64 else 63 - Nat.log2 a.toNat)) ∧
  Scalar1 .spop (fun _ a => BitVec.ofNat 64 ((List.range 64).countP (fun i => a.getLsbD i)))

/-- R81, R82: products and their upper halves after 3 strand cycles; quotients and remainders after 12, every result defined, division by
zero too. -/
def Obligations.ProductsAndQuotients : Prop :=
  Scalar2 .smul 3 (fun _ a b => a * b) ∧
  Scalar2 .smulh 3 (fun _ a b => BitVec.ofNat 64 (a.toNat * b.toNat / 2 ^ 64)) ∧
  Scalar2 .smulhs 3 (fun _ a b => BitVec.ofInt 64 (a.toInt * b.toInt / 2 ^ 64)) ∧
  Scalar2 .sdiv 12 (fun _ a b => if b = 0 then BitVec.allOnes 64 else a / b) ∧
  Scalar2 .srem 12 (fun _ a b => if b = 0 then a else a % b) ∧
  Scalar2 .sdivs 12 (fun _ a b => if b = 0 then BitVec.allOnes 64 else BitVec.ofInt 64 (a.toInt.tdiv b.toInt)) ∧
  Scalar2 .srems 12 (fun _ a b => if b = 0 then a else BitVec.ofInt 64 (a.toInt - b.toInt * a.toInt.tdiv b.toInt))

/-- R78, R83 to R86: shifts by (s[B][5:0] + F) mod 64, canonical addresses, bit fields, constants, moves. -/
def Obligations.ScalarFieldsAndMoves : Prop :=
  Scalar2 .sshl 1 (fun o a b => a <<< ((b.toNat % 64 + o.f.toNat) % 64)) ∧
  Scalar2 .sshr 1 (fun o a b => a >>> ((b.toNat % 64 + o.f.toNat) % 64)) ∧
  Scalar2 .ssra 1 (fun o a b => a.sshiftRight ((b.toNat % 64 + o.f.toNat) % 64)) ∧
  Scalar2 .srot 1 (fun o a b => a.rotateLeft ((b.toNat % 64 + o.f.toNat) % 64)) ∧
  Scalar2 .saddr 1 (fun o a b => ((a + b <<< (o.f.toNat % 8)).setWidth 57).signExtend 64) ∧
  Scalar1 .sbfx (fun o a =>
    let f := a.extractLsb' (bfPos o) (bfLen o)
    if bitOf (extOf o) 12 then f.signExtend 64 else f.setWidth 64) ∧
  Scalar2 .sbfi 1 (fun o a b =>
    let m : Word := (BitVec.allOnes (bfLen o)).setWidth 64
    (a &&& ~~~(m <<< bfPos o)) ||| ((b &&& m) <<< bfPos o)) ∧
  (∀ u o, Delivers (.smovi u o) [] [.s o.d.toNat] 0 (fun st => [sres st o.d 1 o.value])) ∧
  (∀ u o w, o.x = some w → Delivers (.slui u o) [.s o.a.toNat] [.s o.d.toNat] 0
    (fun st => [sres st o.d 1 (w ++ (st.getS o.a.toNat).setWidth 32)])) ∧
  Scalar1 .smov (fun _ a => a) ∧
  (∀ u o, Delivers (.ssel u o) [.s o.a.toNat, .s o.b.toNat] [.s o.d.toNat] 0 (fun st =>
    [sres st o.d 1 (if st.getB (o.f.toNat % 8) then st.getS o.a.toNat else st.getS o.b.toNat)]))

/-- R87, R88: compares and predicate operations write a predicate, or the scalar of `pmov sD, bA`. -/
def Obligations.ComparesAndPredicates : Prop :=
  (∀ u o, Delivers (.scmp u o) [.s o.a.toNat, .s o.b.toNat] [] 0 (fun st =>
    [bres st o.d 1 (holdsCond (o.f.toNat % 16) (st.getS o.a.toNat) (st.getS o.b.toNat))])) ∧
  (∀ u o w, o.x = some w → Delivers (.scmpi u o) [.s o.a.toNat] [] 0 (fun st =>
    [bres st o.d 1 (holdsCond (o.imm.toNat % 16) (st.getS o.a.toNat) (w.signExtend 64))])) ∧
  Pred2 .pand (fun a b => a && b) ∧ Pred2 .por (fun a b => a || b) ∧ Pred2 .pxor (fun a b => a ^^ b) ∧
  (∀ u o, Delivers (.pnot u o) [] [] 0 (fun st => [bres st o.d 1 (!st.getB o.a.toNat)])) ∧
  (∀ u o, Delivers (.pmovPred u o) [] [] 0 (fun st => [bres st o.d 1 (st.getB o.a.toNat)])) ∧
  (∀ u o, Delivers (.pmovFromScalar u o) [.s o.a.toNat] [] 0 (fun st => [bres st o.d 1 (st.getS o.a.toNat != 0)])) ∧
  (∀ u o, Delivers (.pmovToScalar u o) [] [.s o.d.toNat] 0 (fun st => [sres st o.d 1 (if st.getB o.a.toNat then 1 else 0)]))

/-- R115, R116, R117, R118, R119, R120, R130, R131, R132, R133, R134, R135: scalar floating point rounds the exact result once, in the
precision P, and ORs its flags into FSTAT. Rounding delivers a value of the format once, as its mode asks; sums, products, quotients,
square roots and fused products round their exact value; not-a-number, infinities, invalid operations and divisions by zero; conversions
to narrow formats saturate, and to integers round and clamp. -/
def Obligations.ScalarFloat : Prop :=
  (let ab (o : RG) : List Reg := [.s o.a.toNat, .s o.b.toNat]
  ScalarFp .sfadd ab (fun o q st => fAdd (prec o) (fRm o) q (fpVal o st o.a) (fpVal o st o.b)) ∧
  ScalarFp .sfsub ab (fun o q st => fAdd (prec o) (fRm o) q (fpVal o st o.a) (fpVal o st o.b).negate) ∧
  ScalarFp .sfmul ab (fun o q st => fMul (prec o) (fRm o) q (fpVal o st o.a) (fpVal o st o.b)) ∧
  ScalarFp .sfdiv ab (fun o q st => fDiv (prec o) (fRm o) q (fpVal o st o.a) (fpVal o st o.b)) ∧
  ScalarFp .sfsqrt (fun o => [.s o.a.toNat]) (fun o q st => fSqrt (prec o) (fRm o) q (fpVal o st o.a)) ∧
  ScalarFp .sfma (fun o => ab o ++ (match o.x with | some x => [.s x.c.toNat] | none => [])) (fun o q st =>
    let c := match o.x with | some x => fpVal o st x.c | none => fpVal o st 0
    fFma (prec o) (fRm o) q (o.f.getLsbD 0) (fpVal o st o.a) (fpVal o st o.b) (if o.f.getLsbD 1 then c.negate else c)) ∧
  ScalarFp .sfmin ab (fun o _ st => fMinMax (prec o) false (o.f.toNat % 4 = 1) (fpCode o st o.a) (fpCode o st o.b)) ∧
  ScalarFp .sfmax ab (fun o _ st => fMinMax (prec o) true (o.f.toNat % 4 = 1) (fpCode o st o.a) (fpCode o st o.b)) ∧
  ScalarFp .sfclass (fun o => [.s o.a.toNat]) (fun o _ st => (fClass (prec o) (fpCode o st o.a), 0)) ∧
  ScalarFp .sfcvt (fun o => [.s o.a.toNat]) (fun o q st => sfcvt o q (st.getS o.a.toNat).toNat) ∧
  (∀ u o s n, WellFormed (.sfcmp u o) = true → Issues s n (ab o) [] 1 →
    let st := s.strand n
    let a := fpVal o st o.a
    let b := fpVal o st o.b
    let quiet := o.f.toNat % 4 = 0 ∨ o.f.toNat % 4 = 3
    let unordered := a.isNan || b.isNan
    exec (.sfcmp u o) s = .next (s.issued n (bundleLen (.sfcmp u o)) [bres st o.d (if o.f.getLsbD 5 then 6 else 4)
      (match o.f.toNat % 4 with
        | 0 => !unordered && cmpF a b == 0
        | 1 => !unordered && cmpF a b < 0
        | 2 => !unordered && cmpF a b ≤ 0
        | _ => unordered)
      (if (if quiet then a.isSig || b.isSig else unordered) then 16 else 0)]))) ∧
  ((∀ f ∈ floatFormats, ∀ sat rm q neg (m : Nat) (e : Int), rm ≤ 4 → q < 2 ^ 32 → m ≠ 0 →
    Rounds f sat rm q neg (· ≤ (m : ℚ) * 2 ^ e) ((m : ℚ) * 2 ^ e ≤ ·) (roundF f sat rm q neg m e false)) ∧
  (∀ f ∈ arithmeticFormats, ∀ rm q x y z, rm ≤ 4 → q < 2 ^ 32 →
    let a := decodeF f x
    let b := decodeF f y
    let c := decodeF f z
    (a.finite = true → b.finite = true →
      (a.rat + b.rat ≠ 0 → RoundsTo f false rm q (a.rat + b.rat) (fAdd f rm q a b)) ∧
      (a.rat + b.rat = 0 → fAdd f rm q a b = (signOf f (if a.neg = b.neg then a.neg else decide (rm = 2)), 0)) ∧
      (a.rat * b.rat ≠ 0 → RoundsTo f false rm q (a.rat * b.rat) (fMul f rm q a b)) ∧
      (a.rat * b.rat = 0 → fMul f rm q a b = (signOf f (a.neg != b.neg), 0)) ∧
      (a.rat ≠ 0 → b.rat ≠ 0 → RoundsTo f false rm q (a.rat / b.rat) (fDiv f rm q a b)) ∧
      (a.rat = 0 → b.rat ≠ 0 → fDiv f rm q a b = (signOf f (a.neg != b.neg), 0)) ∧
      (a.rat ≠ 0 → b.rat = 0 → fDiv f rm q a b = (signOf f (a.neg != b.neg) + f.infCode, flagDZ)) ∧
      (c.finite = true → ∀ negp : Bool, let t := (if negp then -1 else 1) * (a.rat * b.rat) + c.rat
        t ≠ 0 → RoundsTo f false rm q t (fFma f rm q negp a b c))) ∧
    (a.finite = true → 0 < a.rat → Rounds f false rm q false (fun v => v * v ≤ a.rat) (fun v => a.rat ≤ v * v) (fSqrt f rm q a) ∧
      ∃ fl, Rounds f false rm q false (fun v => v * v * a.rat ≤ 1) (fun v => 1 ≤ v * v * a.rat) (fRsq f rm q a, fl)) ∧
    (a.finite = true → a.rat = 0 → fSqrt f rm q a = (signOf f a.neg, 0)) ∧
    (a.finite = true → a.rat < 0 → fSqrt f rm q a = (f.nanCode, flagNV)) ∧
    (a.isNan = true ∨ b.isNan = true → let r := (f.nanCode, if a.isSig || b.isSig then flagNV else 0)
      fAdd f rm q a b = r ∧ fMul f rm q a b = r ∧ fDiv f rm q a b = r) ∧
    (a = .inf false → b = .inf true → fAdd f rm q a b = (f.nanCode, flagNV)) ∧
    (a = .inf false ∨ a = .inf true → b.finite = true → b.rat = 0 → fMul f rm q a b = (f.nanCode, flagNV) ∧ fMul f rm q b a = (f.nanCode, flagNV)) ∧
    (a.finite = true → a.rat = 0 → b.finite = true → b.rat = 0 → fDiv f rm q a b = (f.nanCode, flagNV))) ∧
  (∀ f ∈ arithmeticFormats, ∀ g ∈ arithmeticFormats ++ [e4m3, e5m2], ∀ rm q x, rm ≤ 4 → q < 2 ^ 32 →
    let a := decodeF f x
    let narrow := decide (g ∈ [e4m3, e5m2])
    (a.finite = true → a.rat ≠ 0 → RoundsTo g narrow rm q a.rat (fCvt f g rm q x)) ∧
    (a.finite = true → a.rat = 0 → fCvt f g rm q x = (signOf g a.neg, 0)) ∧
    (∀ neg, a = .inf neg → fCvt f g rm q x = if g = e4m3 then (g.nanCode, flagNV) else (signOf g neg + g.infCode, 0)) ∧
    (a.isNan = true → fCvt f g rm q x = (g.nanCode, if a.isSig then flagNV else 0))) ∧
  (∀ f ∈ arithmeticFormats, ∀ rm q x (lo hi : Int), rm ≤ 4 → q < 2 ^ 32 → lo ≤ 0 → 0 ≤ hi →
    let a := decodeF f x
    (a.isNan = true → fToInt rm q lo hi a = (0, flagNV)) ∧
    (∀ neg, a = .inf neg → fToInt rm q lo hi a = (if neg then lo else hi, flagNV)) ∧
    (a.finite = true → let k := ⌊|a.rat|⌋₊
      ∃ up : Bool, (up = true ↔ |a.rat| ≠ k ∧ roundsUp rm q a.neg (bitOf k 0) k (k + 1) (· ≤ |a.rat|) (|a.rat| ≤ ·)) ∧
        let v : Int := (if a.neg then -1 else 1) * ((if up then k + 1 else k : Nat) : Int)
        fToInt rm q lo hi a = if v < lo then (lo, flagNV) else if hi < v then (hi, flagNV)
          else (v, if |a.rat| = k then 0 else flagNX))) ∧
  (∀ f ∈ arithmeticFormats, ∀ rm q (v : Int), rm ≤ 4 → q < 2 ^ 32 → v ≠ 0 → RoundsTo f false rm q v (fOfInt f rm q v)))

/-- R142, R143, R155: floating-point lanes round the exact result once by RM. -/
def Obligations.VectorFloat : Prop :=
  let two (f : FFmt → Nat → Nat → FVal → FVal → Nat × Nat) (o : VR) (st : Strand) (q : Nat → Nat) (j : Nat) : Nat :=
    (f (tF o.ty) o.rm (q j) (o.fel st o.a j) (o.fel st o.b j)).1
  let fun1 (f : Nat → Nat → FVal → Nat) (o : VR) (st : Strand) (q : Nat → Nat) (j : Nat) : Nat :=
    f o.rm (q j) (decodeF f32 (elem (st.getV o.a.toNat) 0 j))
  Elementwise .vadd VR.rab 4 VR.ty (two fAdd) ∧
  Elementwise .vsub VR.rab 4 VR.ty (two (fun f rm q a b => fAdd f rm q a b.negate)) ∧
  Elementwise .vmul VR.rab 4 VR.ty (two fMul) ∧
  Elementwise .vmin VR.rab 2 VR.ty (fun o st _ j => (fMinMax (tF o.ty) false (bitOf o.extN 0) (o.el st o.a j) (o.el st o.b j)).1) ∧
  Elementwise .vmax VR.rab 2 VR.ty (fun o st _ j => (fMinMax (tF o.ty) true (bitOf o.extN 0) (o.el st o.a j) (o.el st o.b j)).1) ∧
  Elementwise .vfma VR.rabc 4 VR.ty (fun o st q j =>
    (fFma (tF o.ty) o.rm (q j) false (o.fel st o.a j) (o.fel st o.b j) (o.fel st o.c j)).1) ∧
  Elementwise .vfms VR.rabc 4 VR.ty (fun o st q j =>
    (fFma (tF o.ty) o.rm (q j) true (o.fel st o.a j) (o.fel st o.b j) (o.fel st o.c j)).1) ∧
  Elementwise .vexp2 VR.ra 8 (fun _ => 0) (fun1 (fExp2 f32)) ∧ Elementwise .vlog2 VR.ra 8 (fun _ => 0) (fun1 (fLog2 f32)) ∧
  Elementwise .vrcp VR.ra 8 (fun _ => 0) (fun1 (fun rm q x => (fDiv f32 rm q (.num false 1 0) x).1)) ∧
  Elementwise .vrsq VR.ra 8 (fun _ => 0) (fun1 (fRsq f32)) ∧
  Elementwise .vsqrt VR.ra 8 (fun _ => 0) (fun1 (fun rm q x => (fSqrt f32 rm q x).1)) ∧
  Elementwise .vdiv VR.rab 8 (fun _ => 0) (fun o st q j =>
    (fDiv f32 o.rm (q j) (decodeF f32 (elem (st.getV o.a.toNat) 0 j)) (decodeF f32 (elem (st.getV o.b.toNat) 0 j))).1)

/-- R144, R146, R147, R148, R149: integer lanes compute exactly and then wrap, or clamp with SAT; float signs are set without rounding.
Bitwise operations, shifts and moves, lane by lane. -/
def Obligations.VectorIntegers : Prop :=
  (let int2 (f : VR → Int → Int → Nat) (o : VR) (st : Strand) (_ : Nat → Nat) (j : Nat) : Nat := f o (o.iel st o.a j) (o.iel st o.b j)
  let sat (o : VR) : Bool := bitOf o.extN 0
  Elementwise .viadd VR.rab 2 VR.ty (int2 (fun o a b => o.narrow (sat o) (a + b))) ∧
  Elementwise .visub VR.rab 2 VR.ty (int2 (fun o a b => o.narrow (sat o) (a - b))) ∧
  Elementwise .vimul VR.rab 2 VR.ty (int2 (fun o a b =>
    match o.extN % 4 with
    | 0 => o.narrow false (a * b)
    | 1 => o.narrow false (a * b / (2 ^ tW o.ty : Nat))
    | _ => o.narrow true (a * b))) ∧
  Elementwise .vimad VR.rabc 2 VR.ty (fun o st _ j =>
    o.narrow (sat o) (o.iel st o.a j * o.iel st o.b j + o.iel st o.c j)) ∧
  Elementwise .vimin VR.rab 2 VR.ty (int2 (fun o a b => o.narrow false (min a b))) ∧
  Elementwise .vimax VR.rab 2 VR.ty (int2 (fun o a b => o.narrow false (max a b))) ∧
  Elementwise .vabs VR.ra 2 VR.ty (fun o st _ j =>
    if tIsF o.ty then o.el st o.a j % 2 ^ (tW o.ty - 1) else o.narrow (sat o) ((o.iel st o.a j).natAbs : Int)) ∧
  Elementwise .vneg VR.ra 2 VR.ty (fun o st _ j =>
    if tIsF o.ty then o.el st o.a j ^^^ 2 ^ (tW o.ty - 1) else o.narrow (sat o) (-(o.iel st o.a j)))) ∧
  (let bits (f : Nat → Nat → Nat) (o : VR) (st : Strand) (_ : Nat → Nat) (j : Nat) : Nat :=
    f (elem (st.getV o.a.toNat) 0 j) (elem (st.getV o.b.toNat) 0 j)
  let amtReads (o : VR) : List Reg := if bitOf o.extN 5 then o.ra else o.rab
  let shift (f : Nat → Nat → Nat → Nat) (o : VR) (st : Strand) (_ : Nat → Nat) (j : Nat) : Nat := f (tW o.ty) (o.el st o.a j) (o.amount st j)
  Elementwise .vand VR.rab 2 (fun _ => 0) (bits (fun a b => a &&& b)) ∧
  Elementwise .vor VR.rab 2 (fun _ => 0) (bits (fun a b => a ||| b)) ∧
  Elementwise .vxor VR.rab 2 (fun _ => 0) (bits (fun a b => a ^^^ b)) ∧
  Elementwise .vnot VR.ra 2 (fun _ => 0) (fun o st _ j => 2 ^ 32 - 1 - elem (st.getV o.a.toNat) 0 j) ∧
  Elementwise .vshl amtReads 2 VR.ty (shift (fun _ x n => x * 2 ^ n)) ∧
  Elementwise .vshr amtReads 2 VR.ty (shift (fun _ x n => x / 2 ^ n)) ∧
  Elementwise .vsra amtReads 2 VR.ty (shift (fun w x n => wrap w (sext w x / (2 ^ n : Nat)))) ∧
  Elementwise .vrotl amtReads 2 VR.ty (shift (fun w x n => (x * 2 ^ n) % 2 ^ w ||| x / 2 ^ (w - n))) ∧
  EveryElement .vsel VR.rab 2 VR.ty (fun o st j => if actEl (st.getK o.k.toNat) o.ty j then o.el st o.a j else o.el st o.b j) ∧
  Elementwise .vmov VR.ra 2 (fun _ => 0) (fun o st _ j => elem (st.getV o.a.toNat) 0 j) ∧
  Elementwise .vbcast (fun o => [.s o.a.toNat]) 2 VR.ty (fun o st _ _ => (st.getS o.a.toNat).toNat) ∧
  Elementwise .vidx (fun o => [.s o.a.toNat, .s o.b.toNat]) 2 VR.ty (fun o st _ j =>
    (st.getS o.a.toNat).toNat + j * (st.getS o.b.toNat).toNat) ∧
  VecToScalar .vextr (fun o => [.v o.a.toNat, .s o.b.toNat]) 2 (fun o st =>
    BitVec.ofInt 64 (o.iel st o.a (((st.getS o.b.toNat).toNat + o.extN % 128) % tN o.ty))))

/-- R145, R164, R165: compares write a lane mask, zero at inactive elements; lane-mask operations take and give scalars by EXT. -/
def Obligations.LaneMasks : Prop :=
  (∀ u o s n, WellFormed (.vcmp u o) = true → Issues s n o.rab [] 1 →
    let st := s.strand n
    ∃ r, exec (.vcmp u o) s = .next (s.issued n (bundleLen (.vcmp u o)) [kres st (o.d.toNat % 8) 2 r]) ∧
      ∀ i < 64, let j := if o.ty = 3 then i / 2 else i
        r.getLsbD i = (actEl (st.getK o.k.toNat) o.ty j && vcond o.ty (o.d.toNat / 8) (o.el st o.a j) (o.el st o.b j))) ∧
  MaskOp .kand true (fun a b => a &&& b) ∧ MaskOp .kor true (fun a b => a ||| b) ∧ MaskOp .kxor true (fun a b => a ^^^ b) ∧
  MaskOp .knot false (fun a _ => ~~~a) ∧
  VecToScalar .kpop (fun _ => []) 2 (fun o st => BitVec.ofNat 64 ((List.range 64).countP (fun i => (st.getK o.a.toNat).getLsbD i))) ∧
  VecToScalar .kfirst (fun _ => []) 2 (fun o st =>
    BitVec.ofNat 64 (((List.range 64).find? (fun i => (st.getK o.a.toNat).getLsbD i)).getD 64))

/-- R126, R127, R134, R150, R151, R152, R153, R154, R156, R157, R158, R159, R160, R161, R162, R163: conversions between element types,
packing, and microscaled blocks. The element numbers by which an 8-bit VPACK draws are the model's reading (log 84). Quantisation of 32
values to a microscaled block takes the scale of the largest and to each element the nearest value, of two equally near the even one,
within the bound of its format; conversions of elements go by the kinds of their types, and packed integers clamp. Operations across
lanes. The sums form the balanced tree and the running stages the rules fix. -/
def Obligations.AcrossLanes : Prop :=
  (Elementwise .vcvt VR.ra 3 VR.ty (fun o st q j => cvtEl o.ty (o.extN % 8) o.rm (q j) (elem (st.getV o.a.toNat) (o.extN % 8) j))
    (fun o => o.ty ≠ 3 ∧ o.extN % 8 ≠ 3) ∧
  Elementwise .vcvt VR.ra 3 (fun _ => 3) (fun o st q j =>
    cvtEl 3 (o.extN % 8) o.rm (q j) (elem (st.getV o.a.toNat) (o.extN % 8) (2 * j))) (fun o => o.ty = 3) ∧
  Elementwise .vcvt VR.ra 3 (fun _ => 3) (fun o st q j =>
    cvtEl o.ty 3 o.rm (q (2 * j)) (elem (st.getV o.a.toNat) 3 j) % 2 ^ 32) (fun o => o.ty ≠ 3 ∧ o.extN % 8 = 3) ∧
  (∀ u o s n, WellFormed (.vpack u o) = true → Issues s n o.rab [.v o.d.toNat] 1 →
    let st := s.strand n
    let q := randomAt s n u.slot
    let k := st.getK o.k.toNat
    let half := if bitOf o.extN 4 then 1 else 0
    ∃ r, (exec (.vpack u o) s = .next (s.issued n (bundleLen (.vpack u o))
        [vres st o.d 3 r k (if bitOf o.extN 3 then (if bitOf o.extN 4 then 12 else 3) else 15)])) ∧
      ∀ i < 64, k.getLsbD i = true →
        if bitOf o.extN 3 then
          fld (lane r i) (16 * half) 8 = narrow8 (o.extN % 8) o.rm (q (2 * i)) (lane (st.getV o.a.toNat) i) % 2 ^ 8 ∧
          fld (lane r i) (16 * half + 8) 8 = narrow8 (o.extN % 8) o.rm (q (2 * i + 1)) (lane (st.getV o.b.toNat) i) % 2 ^ 8
        else
          fld (lane r i) 0 16 = narrow16 o.ty o.rm (q (2 * i)) (lane (st.getV o.a.toNat) i) % 2 ^ 16 ∧
          fld (lane r i) 16 16 = narrow16 o.ty o.rm (q (2 * i + 1)) (lane (st.getV o.b.toNat) i) % 2 ^ 16) ∧
  Elementwise .vunpack VR.ra 3 (fun _ => 0) (fun o st _ i =>
    let x := lane (st.getV o.a.toNat) i
    let byte := fld x (8 * fld o.extN 4 2) 8
    let word := if bitOf o.extN 0 then x / 2 ^ 16 else x % 2 ^ 16
    if bitOf o.extN 3 then
      match o.extN % 8 with
      | 0 => (fCvt e4m3 f32 0 0 byte).1
      | 1 => (fCvt e5m2 f32 0 0 byte).1
      | 2 => wrap 32 (sext 8 byte)
      | _ => byte
    else if o.ty = 6 then wrap 32 (sext 16 word) else (fCvt (tF o.ty) f32 0 0 word).1) ∧
  (∀ u o s n, WellFormed (.vqmx u o) = true → Issues s n [.v o.a.toNat] [.v o.d.toNat, .s o.c.toNat] 2 →
    let st := s.strand n
    let x (j : Nat) : Nat := if (st.getK o.k.toNat).getLsbD j then lane (st.getV o.a.toNat) j else 0
    let lo := quantBlock (o.extN % 16) x
    let hi := quantBlock (o.extN % 16) (fun j => x (32 + j))
    exec (.vqmx u o) s = .next (s.issued n (bundleLen (.vqmx u o))
      [vres st o.d 6 (BitVec.ofNat 2048 (lo.1 + hi.1 * 2 ^ (32 * efmtWidth (o.extN % 16)))) 0xFFFFFFFFFFFFFFFF,
       ⟨.s o.c.toNat, BitVec.ofNat 2048 (lo.2.1 + hi.2.1 * 2 ^ 8 + lo.2.2 * 2 ^ 16 + hi.2.2 * 2 ^ 24), 0, 15, 6, st.tl, 0, false⟩])) ∧
  Elementwise .vdqmx (fun o => [.v o.a.toNat, .s o.c.toNat]) 4 (fun _ => 0) (fun o st q j =>
    let w := efmtWidth (o.extN % 16)
    let scale := fld (st.getS o.c.toNat).toNat (8 * (j / 32)) 8
    if scale = 0xFF then f32.nanCode
    else match elemVal (o.extN % 16) (fld (st.getV o.a.toNat).toNat (w * j) w) with
      | .num neg m e => (roundF f32 false o.rm (q j) neg m (e + scale - 127) false).1
      | v => (deliver f32 false o.rm (q j) v).1)) ∧
  ((∀ c x, 2 ≤ c → c ≤ 9 →
    let v (j : Nat) : FVal := decodeF f32 (x j)
    let r := quantBlock c x
    let w := efmtWidth c
    let shift : Int := (r.2.1 : Int) - 127
    ((∃ j < 32, (v j).finite = false) → r = (0, 0xFF, 0)) ∧
    ((∀ j < 32, (v j).finite = true) → r.2.1 ≤ 254 ∧ ((∀ j < 32, (v j).rat = 0) → shift = -127) ∧
      (∀ j < 32, (v j).rat ≠ 0 → (∀ i < 32, |(v i).rat| ≤ |(v j).rat|) → shift = max (Int.log 2 |(v j).rat| - efmtEmax c) (-127)) ∧
      ∀ j < 32,
        let code := fld r.1 (w * j) w
        let t := (v j).rat * 2 ^ (-shift)
        (∀ z < 2 ^ w, (elemVal c z).finite = true → |(elemVal c code).rat - t| ≤ |(elemVal c z).rat - t| ∧
          (|(elemVal c code).rat - t| = |(elemVal c z).rat - t| → (elemVal c code).rat = (elemVal c z).rat ∨ code % 2 = 0)) ∧
        |(elemVal c code).rat - t| <
          (match c with | 2 => 64 | 3 => 8192 | 4 => 4 | 5 => 1 / 2 | 6 => 2 | 7 => 1 / 64 | 8 => 1 / 16 | _ => 1 / 4 : ℚ))) ∧
  (∀ d s rm q x, tIsF s = true → tIsF d = true → cvtEl d s rm q x = (fCvt (tF s) (tF d) rm q x).1) ∧
  (∀ d s rm q x, tIsF s = true → tIsF d = false → cvtEl d s rm q x = wrap (tW d) (fToInt rm q
    (if tSigned d then -(2 ^ (tW d - 1) : Nat) else 0) (if tSigned d then (2 ^ (tW d - 1) : Nat) - 1 else (2 ^ tW d : Nat) - 1)
    (decodeF (tF s) x)).1) ∧
  (∀ d s rm q x, tIsF s = false → tIsF d = true →
    cvtEl d s rm q x = (fOfInt (tF d) rm q (if tSigned s then sext (tW s) x else (x : Int))).1) ∧
  (∀ rm q x, narrow8 0 rm q x = (fCvt f32 e4m3 rm q x).1 ∧ narrow8 1 rm q x = (fCvt f32 e5m2 rm q x).1 ∧
    narrow8 2 rm q x = wrap 8 (max (-128) (min 127 (sext 32 x))) ∧ narrow8 3 rm q x = wrap 8 (max 0 (min 255 (sext 32 x))) ∧
    narrow16 6 rm q x = wrap 16 (max (-32768) (min 32767 (sext 32 x))) ∧ narrow16 4 rm q x = (fCvt f32 f16 rm q x).1 ∧
    narrow16 5 rm q x = (fCvt f32 bf16 rm q x).1)) ∧
  (EveryElement .vperm (fun o => if o.x.isSome ∧ fld o.extN 6 2 ≠ 0 then o.ra else o.rab) 3 (fun _ => 0) (fun o st i =>
    let mode := if o.x.isSome then fld o.extN 6 2 else 0
    let ix := lane (st.getV o.b.toNat) i
    let from_ := match mode with | 0 => ix % 64 | 1 => i ^^^ (o.extN % 64) | 2 => (i + o.extN % 64) % 64 | _ => o.extN % 64
    if (mode = 0 ∧ bitOf ix 7 = true) ∨ (st.getK o.k.toNat).getLsbD from_ = false then 0 else lane (st.getV o.a.toNat) from_) ∧
  EveryElement .vsum VR.ra 6 VR.ty (fun o st _ => treeOver o.add (o.src st) o.levels 0) ∧
  EveryElement .vscan VR.ra 6 VR.ty (fun o st i =>
    if bitOf o.extN 0 then (if i = 0 then 0 else scanAfter o.add (o.src st) o.levels (i - 1)) else scanAfter o.add (o.src st) o.levels i) ∧
  EveryElement .vmaxr VR.ra 6 VR.ty (fun o st _ =>
    match o.active st with
    | [] => if o.ty = 1 then 2 ^ 31 else if o.ty = 2 then 0 else signOf (tF o.ty) true + (tF o.ty).infCode
    | i :: l =>
      if tIsF o.ty then
        l.foldl (fun x j => (fMinMax (tF o.ty) true (bitOf o.extN 0) x (o.el st o.a j)).1)
          (if (o.fel st o.a i).isNan then (tF o.ty).nanCode else o.el st o.a i)
      else l.foldl (fun x j => if intT o.ty x ≥ o.iel st o.a j then x else o.el st o.a j) (o.el st o.a i)) ∧
  VecToScalar .vargmax VR.ra 4 (fun o st =>
    match o.active st with
    | [] => BitVec.allOnes 64
    | i :: l => BitVec.ofNat 64 (l.foldl (fun b j => if argLess o.ty (o.el st o.a b) (o.el st o.a j) then j else b) i)) ∧
  VecToScalar .vsrch (fun o => [.v o.a.toNat, .s o.b.toNat]) 4 (fun o st =>
    BitVec.ofNat 64 (((o.active st).find? (fun j =>
      vcond o.ty (if bitOf o.extN 0 then 5 else 4) (o.el st o.a j) ((st.getS o.b.toNat).toNat % 2 ^ 32))).getD (tN o.ty))) ∧
  Elementwise .vrng (fun _ => []) 4 (fun _ => 0) (fun o _ q i =>
    if o.ty = 2 then q i else (roundF f32 false 0 0 false (q i / 2 ^ 8) (-24) false).1) ∧
  EveryElement .vacpt VR.rab 4 (fun _ => 0) (fun o st i =>
    let len := 2 ^ (o.extN % 8)
    let seg := (List.range len).map (fun j => i / len * len + j)
    (seg.takeWhile (fun j => (st.getK o.k.toNat).getLsbD j && o.el st o.a j == o.el st o.b j)).length))

/-- R89, R166: a duplicate-and-compare check of equal values does nothing; of different ones it traps SILENT_MISMATCH. -/
def Obligations.SilentChecks : Prop :=
  (∀ u o s n, WellFormed (.schk u o) = true → Issues s n [.s o.a.toNat, .s o.b.toNat] [] 0 →
    let st := s.strand n
    exec (.schk u o) s = .next (if st.getS o.a.toNat = st.getS o.b.toNat then s.issued n (bundleLen (.schk u o)) []
      else s.trapsAt n (bundleLen (.schk u o)) { cause := 0x08, detail := 0x0000, slot := u.slot })) ∧
  (∀ u o s n, WellFormed (.schkP u o) = true → Issues s n [] [] 0 →
    let st := s.strand n
    exec (.schkP u o) s = .next (if st.getB o.a.toNat = st.getB o.b.toNat then s.issued n (bundleLen (.schkP u o)) []
      else s.trapsAt n (bundleLen (.schkP u o)) { cause := 0x08, detail := 0x0001, slot := u.slot })) ∧
  (∀ u o s n, WellFormed (.vchk u o) = true → Issues s n o.rab [] 0 →
    let st := s.strand n
    let differ := (List.range 64).filter (fun i => (actLanes (st.getK o.k.toNat) o.ty).getLsbD i &&
      lane (st.getV o.a.toNat) i != lane (st.getV o.b.toNat) i)
    exec (.vchk u o) s = .next (match differ with
      | [] => s.issued n (bundleLen (.vchk u o)) []
      | i :: _ => s.trapsAt n (bundleLen (.vchk u o)) { cause := 0x08, detail := 0x0002 + 0x100 * i, slot := u.slot }))

/-- R60, R97, R98, R99, R100, R101, R183: a NOP of any slot does nothing but end its strand cycle. YIELD counts a voluntary switch and
leaves the core where another strand of it is ELIGIBLE. WAIT consumes the oldest completions of a semaphore, blocks while there are too
few and traps with what the oldest mark among them recorded, consuming nothing; WAITANY takes one of the lowest selected semaphore that
holds one, or traps with its mark; SIGNAL appends. -/
def Obligations.NopYieldAndSemaphores : Prop :=
  (∀ sl, Delivers (.nop sl) [] [] 0 (fun _ => [])) ∧
  (∀ s n, Issues s n [] [] 0 →
    let t := (s.issued n 2 []).onStrand n (fun st => { st with course := st.course + 1 })
    exec .yield s = .next (if (List.range 8).any (fun k => k != n % 8 && decide ((t.strand (n / 8 * 8 + k)).run = .eligible))
      then t.leave n .eligible 0xF0 else t)) ∧
  ((∀ o s n, WellFormed (.wait o) = true → Issues s n [] [] 0 →
    let st := s.strand n
    (o.imm.toNat ≤ st.count o.e.toNat → (∀ c ∈ st.oldestOf o.e.toNat o.imm.toNat, c.mark = none) →
      exec (.wait o) s = .next (s.issued n 2 [] (consumes n o.e.toNat o.imm.toNat))) ∧
    (o.imm.toNat ≤ st.count o.e.toNat → ∀ c m, c ∈ st.oldestOf o.e.toNat o.imm.toNat → c.mark = some m →
      (∀ d ∈ st.oldestOf o.e.toNat o.imm.toNat, d.mark.isSome = true → d ≠ c → c.order < d.order) →
      exec (.wait o) s = .next (s.trapsAt n 2
        { cause := m.cause, detail := m.index * 2 ^ 20 + 2 ^ 16 + m.detail, faddr := m.addr, slot := 0 })) ∧
    (st.count o.e.toNat < o.imm.toNat → exec (.wait o) s = .next (s.blocksAt n (.sem o.e.toNat o.imm.toNat)))) ∧
  (∀ o s n, WellFormed (.waitany o) = true → Issues s n [] [] 0 →
    let st := s.strand n
    match (List.range 16).find? (fun i => o.imm.getLsbD i && decide (0 < st.count i)) with
    | none => exec (.waitany o) s = .next (s.blocksAt n (.semAny o.imm.toNat))
    | some k => ((∀ c ∈ st.oldestOf k 1, c.mark = none) → exec (.waitany o) s = .next (s.issued n 2 [] (fun t =>
        (consumes n k 1 t).onStrand n (fun st => { st with wsem := BitVec.ofNat 4 k })))) ∧
      ∀ c m, c ∈ st.oldestOf k 1 → c.mark = some m → exec (.waitany o) s = .next (s.trapsAt n 2
        { cause := m.cause, detail := m.index * 2 ^ 20 + 2 ^ 16 + m.detail, faddr := m.addr, slot := 0 })) ∧
  (∀ o s n, WellFormed (.signal o) = true → Issues s n [] [] 0 → (s.strand n).count o.e.toNat + o.imm.toNat ≤ 0xFFFF →
    exec (.signal o) s = .next (s.issued n 2 [] (fun t => t.onStrand n (fun st => (List.range o.imm.toNat).foldl
      (fun st _ => st.append o.e.toNat none none none) st)))) ∧
  (∀ o s n, WellFormed (.signal o) = true → Issues s n [] [] 0 → 0xFFFF < (s.strand n).count o.e.toNat + o.imm.toNat →
    exec (.signal o) s = .next (s.trapsAt n 2 { cause := 0x02, detail := 0x0104, slot := 0 })))

/-- R91, R93, R94, R95, R96: a transfer outside a delay bundle makes the bundle behind it the delay bundle, with the target it names;
LOOPI and LOOP count; CALL and CALLI leave the address behind their delay bundle in s63. BRV takes a branch its active lanes agree on, and
traps NONUNIFORM_BRANCH on the first that differs from the lowest. A call reads the word at its delay bundle, whose header gives the
length to skip. -/
def Obligations.Transfers : Prop :=
  ((∀ o s n, WellFormed (.br o) = true → Issues s n [] [] 0 → (s.strand n).delay = none →
    exec (.br o) s = .next (s.issued n 2 [] id (toward true (s.relative n o.off)))) ∧
  (∀ o s n, WellFormed (.brc o) = true → Issues s n [] [] 0 → (s.strand n).delay = none →
    let st := s.strand n
    exec (.brc o) s = .next (s.issued n 2 [] id
      (toward ((st.getB o.p.toNat && st.getB o.q.toNat) == (o.sense == 1)) (s.relative n o.off)))) ∧
  (∀ o s n, WellFormed (.bri o) = true → Issues s n [.s o.a.toNat] [] 0 → (s.strand n).delay = none →
    mayTarget ((s.strand n).getS o.a.toNat) →
    exec (.bri o) s = .next (s.issued n 2 [] id (toward true ((s.strand n).getS o.a.toNat)))) ∧
  (∀ s n, WellFormed .ret = true → Issues s n [.s 63] [] 0 → (s.strand n).delay = none → mayTarget ((s.strand n).getS 63) →
    exec .ret s = .next (s.issued n 2 [] id (toward true ((s.strand n).getS 63)))) ∧
  (∀ o s n, WellFormed (.loopi o) = true → Issues s n [.s o.a.toNat] [] 0 → (s.strand n).delay = none →
    let c : BitVec 32 := ((s.strand n).getS o.a.toNat).setWidth 32 + (match o.x with | some w => w | none => 0)
    exec (.loopi o) s = .next (s.issued n (bundleLen (.loopi o)) []
      (fun t => t.onStrand n (fun st => { st with lc := put 0 st.lc o.l.toNat c })) (toward (c == 0) (s.relative n o.off)))) ∧
  (∀ o s n, WellFormed (.loop o) = true → Issues s n [] [] 0 → (s.strand n).delay = none →
    let c := (s.strand n).getLc o.l.toNat
    exec (.loop o) s = .next (s.issued n 2 []
      (fun t => t.onStrand n (fun st => { st with lc := put 0 st.lc o.l.toNat (if 1 < c.toNat then c - 1 else 0) }))
      (toward (decide (1 < c.toNat)) (s.relative n o.off))))) ∧
  (∀ o s n, WellFormed (.brv o) = true → Issues s n [] [] 0 → (s.strand n).delay = none →
    let act := (s.strand n).getK o.q.toNat
    let x := (s.strand n).getK o.p.toNat &&& act
    let lanes := (List.range 64).filter (fun i => act.getLsbD i)
    exec (.brv o) s = .next (match lanes.find? (fun i => x.getLsbD i != x.getLsbD (lanes.headD 0)) with
      | none => s.issued n 2 [] id (toward ((act != 0 && x == act) == (o.sense == 1)) (s.relative n o.off))
      | some i => s.trapsAt n 2 { cause := 0x06, detail := i, slot := 0 })) ∧
  ((∀ o s n w, WellFormed (.call o) = true → s.pkg.viral = false → s.activeOf s.cur = some n →
    let at_ := canonVa ((s.strand n).pc + 8)
    let t := (s.fetchWord n at_).1
    (s.fetchWord n at_).2 = .word w → Issues t n [] [.s 63] 0 → (t.strand n).delay = none →
    exec (.call o) s = .next (t.issued n 2 [sres (t.strand n) 63 1 (canonVa (canonVa ((t.strand n).pc + 8) + BitVec.ofNat 64 (4 * fld w.toNat 22 6)))] id
      (toward true (t.relative n o.off)))) ∧
  (∀ o s n w, WellFormed (.calli o) = true → s.pkg.viral = false → s.activeOf s.cur = some n →
    let at_ := canonVa ((s.strand n).pc + 8)
    let t := (s.fetchWord n at_).1
    (s.fetchWord n at_).2 = .word w → Issues t n [.s o.a.toNat] [.s 63] 0 → (t.strand n).delay = none →
    mayTarget ((t.strand n).getS o.a.toNat) →
    exec (.calli o) s = .next (t.issued n 2 [sres (t.strand n) 63 1 (canonVa (canonVa ((t.strand n).pc + 8) + BitVec.ofNat 64 (4 * fld w.toNat 22 6)))] id
      (toward true ((t.strand n).getS o.a.toNat)))))

/-- R22, R24, R25, R28, R29, R30, R57, R58, R60, R355, R356: an iteration of a bundle. A primed sticky engine whose slot is absent
re-issues from its current address and steps, without reading its base again, and in an iteration after the first it does so where its
slot is present too; a NOP in its slot clears it, CLR clears all engines before the first iteration. Several operations of a bundle read
the registers as they stood before any of them, in every iteration anew; two that write one register with one latency trap ILLEGAL_BUNDLE
0x0005, a transfer in a repeated bundle traps 0x0006, and CSWITCH and PARK there trap ILLEGAL_OP 0x0702. -/
def Obligations.Bundles : Prop :=
  let left (t : State) (n : Nat) (hd : Header) : Nat := leftOf (t.strand n).res hd.repeats
  let first (t : State) (n : Nat) (hd : Header) : Bool := firstOf (t.strand n).res hd.repeats
  let free (t : State) (n : Nat) (r : Reg) : Prop := (t.strand n).pending r = false
  let clean (t : State) (n : Nat) (r : Reg) : Prop := (t.strand n).pending r = false ∧ (t.strand n).poisoned r = false
  (∀ s n t ws hd ops o a, Bundle s n t ws 1 → frame ws = .ok (hd, ops) → (first t n hd && hd.clr) = false →
    ops = [] ∨ first t n hd = false ∧ (∃ o', ops = [(.ld, .ok (.splds o'))]) →
    (t.strand n).eng = [(5, ⟨.splds o, a⟩)] → free t n (.s o.q.toNat) → a.toNat % 8 = 0 → (t.core (n / 8)).open_ a.toNat 8 →
    exec (.bundleIssue (n / 8)) s = .next (t.iterated n hd.len (left t n hd) ws [(5, ⟨.splds o, o.step a 8⟩)]
      [lres (t.strand n) o.q 5 (getBytes (t.core (n / 8)).spad a.toNat 8) ((t.core (n / 8)).spPoison a.toNat 8)])) ∧
  (∀ s n t ws hd o' eng, Bundle s n t ws 1 → frame ws = .ok (hd, [(.ld, .ok (.splds o'))]) → first t n hd = true →
    (t.strand n).eng = eng → eng = [] ∨ (∃ g, eng = [(5, g)]) → clean t n (.s o'.a.toNat) → free t n (.s o'.q.toNat) →
    let a := o'.addr (t.strand n) 8
    a.toNat % 8 = 0 → (t.core (n / 8)).open_ a.toNat 8 →
    exec (.bundleIssue (n / 8)) s = .next (t.iterated n hd.len (left t n hd) ws [(5, ⟨.splds o', o'.step a 8⟩)]
      [lres (t.strand n) o'.q 5 (getBytes (t.core (n / 8)).spad a.toNat 8) ((t.core (n / 8)).spPoison a.toNat 8)])) ∧
  (∀ s n t ws hd o a, Bundle s n t ws 0 → frame ws = .ok (hd, []) → (first t n hd && hd.clr) = false →
    (t.strand n).eng = [(6, ⟨.spsts o, a⟩)] → clean t n (.s o.q.toNat) → a.toNat % 8 = 0 → (t.core (n / 8)).open_ a.toNat 8 →
    exec (.bundleIssue (n / 8)) s = .next (t.iterated n hd.len (left t n hd) ws [(6, ⟨.spsts o, o.step a 8⟩)] []
      (fun u => u.onCore (n / 8) (fun co => co.spWrite a.toNat 8 ((t.strand n).getS o.q.toNat).toNat false)))) ∧
  (∀ s n t ws hd sl g, Bundle s n t ws 0 → frame ws = .ok (hd, [(sl, .ok (.nop sl))]) → (t.strand n).eng = [(sl.num, g)] →
    sl = .ld ∨ sl = .st ∨ sl = .ar ∨ sl = .aw →
    exec (.bundleIssue (n / 8)) s = .next (t.iterated n hd.len (left t n hd) ws [] [])) ∧
  (∀ s n t ws hd, Bundle s n t ws 0 → frame ws = .ok (hd, []) → first t n hd = true ∧ hd.clr = true ∨ (t.strand n).eng = [] →
    exec (.bundleIssue (n / 8)) s = .next (t.iterated n hd.len (left t n hd) ws [] [])) ∧
  (∀ s n t ws hd o p, Bundle s n t ws 0 → frame ws = .ok (hd, [(.sa, .ok (.sadd .a o)), (.sb, .ok (.ssub .b p))]) →
    (t.strand n).eng = [] → (∀ r ∈ [o.a, o.b, p.a, p.b], clean t n (.s r.toNat)) → free t n (.s o.d.toNat) → free t n (.s p.d.toNat) →
    let st := t.strand n
    (o.d ≠ p.d ∨ o.d = 0 →
      exec (.bundleIssue (n / 8)) s = .next (t.iterated n hd.len (left t n hd) ws []
        [sres st o.d 1 (st.getS o.a.toNat + st.getS o.b.toNat), sres st p.d 1 (st.getS p.a.toNat - st.getS p.b.toNat)])) ∧
    (o.d = p.d → o.d ≠ 0 → exec (.bundleIssue (n / 8)) s = .next ((counted t n).takeTrap n { cause := 0x01, detail := 0x0005 }
      (canonVa (st.pc + BitVec.ofNat 64 (4 * hd.len))) (left t n hd)))) ∧
  (∀ s n t ws hd i o, Bundle s n t ws 0 → i = .cswitch o ∨ i = .park o → frame ws = .ok (hd, [(.ct, .ok i)]) → hd.repeats ≠ 0 →
    (t.strand n).eng = [] → (t.strand n).tl = false →
    exec (.bundleIssue (n / 8)) s = .next ((counted t n).takeTrap n { cause := 0x02, detail := 0x0702, slot := 0 }
      (canonVa ((t.strand n).pc + BitVec.ofNat 64 (4 * hd.len))) (left t n hd))) ∧
  (∀ s n t ws hd o, Bundle s n t ws 0 → frame ws = .ok (hd, [(.ct, .ok (.br o))]) → hd.repeats ≠ 0 → (t.strand n).eng = [] →
    exec (.bundleIssue (n / 8)) s = .next ((counted t n).takeTrap n { cause := 0x01, detail := 0x0006 }
      (canonVa ((t.strand n).pc + BitVec.ofNat 64 (4 * hd.len))) (left t n hd)))

/-- R24, R92, R95, R104, R212, R221, R223, R236, R241, R255, R256, R258, R259, R265: a transfer in a delay bundle traps ILLEGAL_BUNDLE
0x0007, RTE and calls too; a register target that is not aligned or not canonical, RTE's own among them, traps ALIGNMENT 0x0100 or 0x0101.
SLOT 0xFF of ILLEGAL_BUNDLE is the model's reading (log 14). A misaligned scratchpad access traps ALIGNMENT 0x0300, one past the end
SCRATCH_RANGE 0x0300, each with the lowest failing address; one above a watermark blocks. Only the bytes of active lanes are checked; of a
gather or scatter, each lane's own sum. A global access of a non-canonical or misaligned address traps ALIGNMENT, one its page forbids
traps what the translation gives, one without a translation blocks, a durable store outside the non-volatile tier traps PERMISSION 0x0300,
and one that finds its queue full blocks. Of the checks that a Hod command meets before commit, in their order, the first that fails is
taken; a full channel blocks. A watermark channel with bad bounds traps ILLEGAL_OP 0x0401. -/
def Obligations.RefusedOperands : Prop :=
  ((∀ i s n, (∃ o, i = .br o) ∨ (∃ o, i = .brc o) ∨ (∃ o, i = .brv o) ∨ (∃ o, i = .bri o) ∨ i = .ret ∨ (∃ o, i = .loopi o) ∨
      (∃ o, i = .loop o) →
    WellFormed i = true → Issues s n [] [] 0 → (s.strand n).delay ≠ none →
    exec i s = .next (s.trapsAt n (bundleLen i) { cause := 0x01, detail := 0x0007 })) ∧
  (∀ i s n, (∃ o, i = .call o) ∨ (∃ o, i = .calli o) → WellFormed i = true → s.pkg.viral = false → s.activeOf s.cur = some n →
    let t := (s.fetchWord n (canonVa ((s.strand n).pc + 8))).1
    Issues t n [] [] 0 → (t.strand n).delay ≠ none →
    exec i s = .next (t.trapsAt n (bundleLen i) { cause := 0x01, detail := 0x0007 })) ∧
  (∀ s n, Issues s n [] [] 0 → (s.strand n).tl = true → (s.strand n).delay ≠ none →
    exec .rte s = .next (s.trapsAt n 2 { cause := 0x01, detail := 0x0007 })) ∧
  (∀ s n, Issues s n [] [] 0 → (s.strand n).tl = true → (s.strand n).delay = none →
    ∀ a, ¬ mayTarget (s.strand n).xpc ∧ a = (s.strand n).xpc ∨
      mayTarget (s.strand n).xpc ∧ (s.strand n).dslot = true ∧ ¬ mayTarget (s.strand n).xnpc ∧ a = (s.strand n).xnpc →
    exec .rte s = .next (s.trapsAt n 2
      { cause := 0x0A, detail := if a.toNat % 4 ≠ 0 then 0x0100 else 0x0101, faddr := a, slot := 0 })) ∧
  (∀ o s n, WellFormed (.call o) = true → s.pkg.viral = false → s.activeOf s.cur = some n →
    let at_ := canonVa ((s.strand n).pc + 8)
    let t := (s.fetchWord n at_).1
    Issues t n [] [.s 63] 0 → (t.strand n).delay = none →
    (∀ c d, (s.fetchWord n at_).2 = .trap c d → exec (.call o) s = .next (t.trapsAt n 2
      { cause := c, detail := d, faddr := canonVa ((t.strand n).pc + 8), slot := 0 })) ∧
    ((s.fetchWord n at_).2 = .miss → exec (.call o) s = .next (t.blocksAt n (.fetchWalk (canonVa ((t.strand n).pc + 8)))))) ∧
  (∀ o s n, WellFormed (.calli o) = true → s.pkg.viral = false → s.activeOf s.cur = some n →
    let t := (s.fetchWord n (canonVa ((s.strand n).pc + 8))).1
    Issues t n [.s o.a.toNat] [.s 63] 0 → (t.strand n).delay = none →
    let a := (t.strand n).getS o.a.toNat
    ¬ mayTarget a → exec (.calli o) s = .next (t.trapsAt n (bundleLen (.calli o))
      { cause := 0x0A, detail := if a.toNat % 4 ≠ 0 then 0x0100 else 0x0101, faddr := a, slot := 0 })) ∧
  (∀ o s n, WellFormed (.bri o) = true → Issues s n [.s o.a.toNat] [] 0 → (s.strand n).delay = none →
    let a := (s.strand n).getS o.a.toNat
    ¬ mayTarget a → exec (.bri o) s = .next (s.trapsAt n 2
      { cause := 0x0A, detail := if a.toNat % 4 ≠ 0 then 0x0100 else 0x0101, faddr := a, slot := 0 })) ∧
  (∀ s n, Issues s n [.s 63] [] 0 → (s.strand n).delay = none →
    let a := (s.strand n).getS 63
    ¬ mayTarget a → exec .ret s = .next (s.trapsAt n 2
      { cause := 0x0A, detail := if a.toNat % 4 ≠ 0 then 0x0100 else 0x0101, faddr := a, slot := 0 }))) ∧
  (let a (o : MS) (s : State) (n unit : Nat) : Nat := (o.addr (s.strand n) unit).toNat
  let lanes (o : MS) (s : State) (n : Nat) : List Nat := activeLanes (o.mask (s.strand n))
  let once (o : MS) (s : State) (n unit : Nat) : List Nat := if lanes o s n = [] then [] else [a o s n unit]
  let words (o : MS) (s : State) (n : Nat) : List (Nat × Nat) := (lanes o s n).map (fun i => (a o s n 256 + 4 * i, 4))
  let sums (o : MS) (s : State) (n : Nat) : List Nat :=
    (lanes o s n).map (fun i => (a o s n 256 + lane ((s.strand n).getV o.index.toNat) i) % 2 ^ 64)
  (∀ o s n, WellFormed (.spld o) = true → Issues s n [.s o.a.toNat] [.v o.q.toNat] 1 →
    SpadRefuses (.spld o) s n 5 128 (once o s n 256) (words o s n)) ∧
  (∀ o s n, WellFormed (.spldb o) = true → Issues s n [.s o.a.toNat] [.v o.q.toNat] 1 →
    SpadRefuses (.spldb o) s n 5 4 (once o s n 4) ((once o s n 4).map (fun x => (x, 4)))) ∧
  (∀ o s n, WellFormed (.spldx o) = true → Issues s n [.s o.a.toNat, .v o.index.toNat] [.v o.q.toNat] 1 →
    SpadRefuses (.spldx o) s n 5 4 (sums o s n) ((sums o s n).map (fun x => (x, 4)))) ∧
  (∀ o s n, WellFormed (.splds o) = true → Issues s n [.s o.a.toNat] [.s o.q.toNat] 1 →
    SpadRefuses (.splds o) s n 5 8 [a o s n 8] [(a o s n 8, 8)]) ∧
  (∀ o s n, WellFormed (.spst o) = true → Issues s n [.s o.a.toNat, .v o.q.toNat] [] 0 →
    SpadRefuses (.spst o) s n 6 128 (once o s n 256) (words o s n)) ∧
  (∀ o s n, WellFormed (.spstx o) = true → Issues s n [.s o.a.toNat, .v o.q.toNat, .v o.index.toNat] [] 0 →
    SpadRefuses (.spstx o) s n 6 4 (sums o s n) ((sums o s n).map (fun x => (x, 4)))) ∧
  (∀ o s n, WellFormed (.spsts o) = true → Issues s n [.s o.a.toNat, .s o.q.toNat] [] 0 →
    SpadRefuses (.spsts o) s n 6 8 [a o s n 8] [(a o s n 8, 8)])) ∧
  (let du (o : MG) : Bool := decide ((match o.x with | some x => x.scope.toNat | none => 0) = 7)
  let size (o : RG) : Nat := if fld (match o.x with | some x => x.ext.toNat | none => 0) 4 2 = 0 then 4 else 8
  let reads (o : RG) : List Reg := [.s o.a.toNat, .s o.b.toNat] ++
    if fld (match o.x with | some x => x.ext.toNat | none => 0) 0 4 = 9 then [.s (match o.x with | some x => x.c.toNat | none => 0)] else []
  (∀ o s n, WellFormed (.gld o) = true → Issues s n [.s o.a.toNat] [.v o.q.toNat] 0 →
    GlobalRefuses (.gld o) s n true (o.addr (s.strand n)) 256 .read false) ∧
  (∀ o s n, WellFormed (.glds o) = true → Issues s n [.s o.a.toNat] [.s o.q.toNat] 0 →
    GlobalRefuses (.glds o) s n true (o.addr (s.strand n)) 8 .read false) ∧
  (∀ o s n, WellFormed (.glda o) = true → Issues s n [.s o.a.toNat] [.s o.q.toNat] 0 →
    GlobalRefuses (.glda o) s n true (o.addr (s.strand n)) 8 .read false) ∧
  (∀ o s n, WellFormed (.gst o) = true → Issues s n [.s o.a.toNat, .v o.q.toNat] [] 0 →
    GlobalRefuses (.gst o) s n false (o.addr (s.strand n)) 256 .write (du o)) ∧
  (∀ o s n, WellFormed (.gsts o) = true → Issues s n [.s o.a.toNat, .s o.q.toNat] [] 0 →
    GlobalRefuses (.gsts o) s n false (o.addr (s.strand n)) 8 .write (du o)) ∧
  (∀ o s n, WellFormed (.gstl o) = true → Issues s n [.s o.a.toNat, .s o.q.toNat] [] 0 →
    GlobalRefuses (.gstl o) s n false (o.addr (s.strand n)) 8 .write false) ∧
  (∀ o s n, WellFormed (.atom o) = true → Issues s n (reads o) [] 0 →
    GlobalRefuses (.atom o) s n false ((s.strand n).getS o.a.toNat) (size o) .both false) ∧
  (∀ o s n, WellFormed (.atomr o) = true → Issues s n (reads o) [.s o.d.toNat] 0 →
    GlobalRefuses (.atomr o) s n false ((s.strand n).getS o.a.toNat) (size o) .both false)) ∧
  (let ab (o : HC) : List Reg := [.s o.a.toNat, .s o.b.toNat]
  let pub (o : HC) : List Reg := ab o ++ if (match o.x with | some x => x.ext.toNat | none => 0) % 2 = 1 then o.rc else []
  let a (o : HC) (st : Strand) : Word := st.getS o.a.toNat
  let b (o : HC) (st : Strand) : Word := st.getS o.b.toNat
  HodRefuses .hcopyS2s (fun o => ab o ++ o.rc) (fun o st => [badLength (o.c st) 393216, badSpad (a o st) 128, badSpad (b o st) 128,
    pastSpad (a o st) (o.c st).toNat, pastSpad (b o st) (o.c st).toNat]) ∧
  HodRefuses .hcopyG2s (fun o => ab o ++ o.rc) (fun o st => [badLength (o.c st) 393216, badSpad (a o st) 128, badGlobal (b o st),
    pastSpad (a o st) (o.c st).toNat]) ∧
  HodRefuses .hcopyG2t (fun o => ab o ++ o.rd) (fun o st => [badGlobal (b o st)]) ∧
  HodRefuses .hfill (fun o => ab o ++ o.rc) (fun o st => [badLength (o.c st) 393216, badSpad (a o st) 128,
    pastSpad (a o st) (o.c st).toNat]) ∧
  HodRefuses .hfillT (fun o => ab o ++ o.rd) (fun _ _ => []) ∧
  HodRefuses .htile (fun o => ab o ++ o.rc) (fun o st => [badSpad (a o st) 128]) ∧
  HodRefuses .htwr (fun o => ab o ++ o.rc) (fun o st => [badSpad (a o st) 128]) ∧
  HodRefuses .hsched (fun o => [.s o.a.toNat]) (fun o st => if a o st = 0 then [] else [badGlobal (a o st)]) ∧
  HodRefuses .hstep (fun o => [.s o.a.toNat]) (fun o st => [(decide (((a o st).toNat + o.f.toNat) % 2 ^ 32 = 0), 0x02, 0x0402, 0)]) ∧
  HodRefuses .hmcast (fun o => ab o ++ o.rc) (fun o st => [badLength (o.c st) 65536,
    (decide ((match o.x with | some x => x.ext.toNat | none => 0) % 16 = 0), 0x02, 0x0402, 0), badSpad (a o st) 128, badSpad (b o st) 128,
    pastSpad (a o st) (o.c st).toNat, pastSpad (b o st) (o.c st).toNat]) ∧
  HodRefuses .hmwait (fun _ => []) (fun _ _ => []) ∧
  HodRefuses .hadd (fun o => ab o ++ o.rc) (fun o st =>
    (decide ((o.c st).toNat = 0 ∨ 1024 < (o.c st).toNat), 0x02, 0x0402, 0) ::
      (if o.f.toNat % 2 = 1 then [badGlobal (a o st)] else [badSpad (a o st) 128, pastSpad (a o st) (256 * (o.c st).toNat)])) ∧
  HodRefuses .hpub pub (fun _ _ => []) ∧
  HodRefuses .hpubRing pub (fun o st => [badSpad (a o st) 64, pastSpad (a o st) 64]) ∧
  (∀ o s n, WellFormed (.hwm o) = true → Issues s n (ab o ++ o.rc) [] 0 →
    let st := s.strand n
    let lo := (st.getS o.a.toNat).toNat
    let hi := (st.getS o.b.toNat).toNat
    let off := (o.c st).toNat
    ¬ (lo % 128 = 0 ∧ (hi + 1) % 128 = 0 ∧ lo ≤ hi ∧ hi < 0x60000 ∧ hi - lo + 1 ≤ 131072 ∧ off % 128 = 0 ∧ off ≤ hi + 1 - lo) →
    exec (.hwm o) s = .next (s.trapsAt n (bundleLen (.hwm o)) { cause := 0x02, detail := 0x0401, slot := 10 })))

/-- R36, R37, R38, R39, R40, R41, R42, R102, R104: TRAP commits its iteration and then takes SOFTWARE (0x20) with its immediate as DETAIL,
before anything else issues. In RTE's delay bundle the strand is already at XPC and still at level 1, and RTE's return is given up: the
model's reading (log 15). RTE in a handler makes its next bundle the last of the handler; at its end the strand is back at level 0, at
XPC, with its engines reloaded and the results of level 0 in flight again. That XSTK is then empty is the model's choice (log 86). A trap
whose cause XMASK delivers, at level 0 and with a record buffer in the scratchpad, saves the pc, the pending next bundle and the remaining
iterations, enters the handler at XVEC at level 1 and changes no register the program computes with. That XNPC keeps what it held where
DSLOT is 0 is the model's choice (log 77). -/
def Obligations.Traps : Prop :=
  ((∀ o s n, WellFormed (.trap o) = true → Issues s n [] [] 0 → (s.strand n).delay ≠ some .ret →
    let t := s.issued n 2 []
    exec (.trap o) s = .next (t.takeTrap n { cause := 0x20, detail := o.imm.toNat, slot := 0 } (canonVa ((t.strand n).pc + 8)) 0)) ∧
  (∀ o s n, WellFormed (.trap o) = true → Issues s n [] [] 0 → (s.strand n).delay = some .ret → mayTarget (s.strand n).xpc →
    let t := ((counted s n).onStrand n (fun st => { st with walk := none })).onStrand n (fun st =>
      { st.cycle with pc := st.xpc, res := .fresh, words := [], delay := none })
    exec (.trap o) s = .next (t.takeTrap n { cause := 0x20, detail := o.imm.toNat, slot := 0 } (canonVa ((s.strand n).xpc + 8)) 0))) ∧
  ((∀ s n, Issues s n [] [] 0 → (s.strand n).tl = true → (s.strand n).delay = none → mayTarget (s.strand n).xpc →
      ((s.strand n).dslot = true → mayTarget (s.strand n).xnpc) →
    exec .rte s = .next (s.issued n 2 [] id (some .ret))) ∧
  (∀ s n, Issues s n [] [] 0 → (s.strand n).tl = false →
    exec .rte s = .next (s.trapsAt n 2 { cause := 0x02, detail := 0x0006, slot := 0 })) ∧
  (∀ (st : Strand) len j, st.delay = some .ret →
    let r := st.onward len j
    r.tl = false ∧ (mayTarget st.xpc → r.pc = st.xpc) ∧ r.eng = st.xstk ∧ r.xstk = [] ∧ r.res = .byHeader st.xrpt.toNat ∧
      (st.dslot = false → r.delay = none) ∧ (st.dslot = true → mayTarget st.xnpc → r.delay = some (.taken st.xnpc)) ∧ r.xvec = st.xvec ∧ r.xmask = st.xmask ∧ r.xrec = st.xrec ∧
      (∀ q ∈ r.z, q.2.tl = true) ∧ ∀ q ∈ st.z, q.2.tl = false → q.2 ∈ r.pipe)) ∧
  (∀ (s : State) n (t : Trap) after left, (s.strand n).tl = false → delivered (s.strand n).xmask t.cause = true →
      recAddr (s.strand n).xrec ≤ 0x5FFC0 →
    let st := s.strand n
    let r := (s.takeTrap n t after left).strand n
    r.xpc = st.pc ∧ (mayTarget st.xvec → r.pc = st.xvec) ∧ r.tl = true ∧ r.xrpt = BitVec.ofNat 8 left ∧ r.dslot = st.delay.isSome ∧
      (∀ a, st.delay = some (.taken a) → r.xnpc = a) ∧ (st.delay = some .notTaken → r.xnpc = after) ∧
      (st.delay = none → r.xnpc = st.xnpc) ∧ r.delay = none ∧ r.xstk = st.eng ∧ r.eng = [] ∧ r.pipe = [] ∧ r.run = st.run ∧
      r.s = st.s ∧ r.v = st.v ∧ r.b = st.b ∧ r.k = st.k ∧ r.m = st.m ∧ r.lc = st.lc ∧ r.sem = st.sem ∧ r.fstat = st.fstat ∧
      r.xvec = st.xvec ∧ r.xmask = st.xmask ∧ r.xrec = st.xrec ∧ (s.takeTrap n t after left).mem = s.mem)

/-- R38, R103, R105: SRD reads each status register a task may read. SWR writes each status register a task may write, and traps
PERMISSION on one of the system. That XVEC keeps bits 63 to 57 as they are written is the model's reading (log 76). -/
def Obligations.StatusRegisters : Prop :=
  ((∀ e ∈ statusTable, ∀ o s n, o.srn.toNat = e.1 → WellFormed (.srd o) = true → Issues s n [] [.s o.d.toNat] 0 →
    exec (.srd o) s = .next (s.issued n 2 [sres (s.strand n) o.d 1 (e.2 s n)])) ∧
  (∀ i < 4, ∀ o s n, o.srn.toNat = 0x010 + i → WellFormed (.srd o) = true → Issues s n [] [.s o.d.toNat] 0 →
    exec (.srd o) s = .next (s.issued n 2 [sres (s.strand n) o.d 1 (((s.strand n).getLc i).setWidth 64)])) ∧
  (∀ i < 16, ∀ o s n, o.srn.toNat = 0x020 + i → WellFormed (.srd o) = true → Issues s n [] [.s o.d.toNat] 0 →
    (s.strand n).count i < 2 ^ 64 →
    exec (.srd o) s = .next (s.issued n 2 [sres (s.strand n) o.d 1 (BitVec.ofNat 64 ((s.strand n).count i))])) ∧
  (∀ o s n, srnAccess o.srn.toNat = .system → WellFormed (.srd o) = true → Issues s n [] [.s o.d.toNat] 0 →
    exec (.srd o) s = .next (s.trapsAt n 2 { cause := 0x11, detail := 0x0100, slot := 0 }))) ∧
  ((∀ e ∈ writeTable, ∀ o s n, o.srn.toNat = e.1 → WellFormed (.swr o) = true → Issues s n [.s o.a.toNat] [] 0 →
    exec (.swr o) s = .next (s.issued n 2 [] (fun t => t.onStrand n (e.2 ((s.strand n).getS o.a.toNat))))) ∧
  (∀ i < 4, ∀ o s n, o.srn.toNat = 0x010 + i → WellFormed (.swr o) = true → Issues s n [.s o.a.toNat] [] 0 →
    exec (.swr o) s = .next (s.issued n 2 [] (fun t => t.onStrand n (fun st =>
      { st with lc := put 0 st.lc i (((s.strand n).getS o.a.toNat).setWidth 32) })))) ∧
  (∀ o s n, srnAccess o.srn.toNat = .system → WellFormed (.swr o) = true → Issues s n [.s o.a.toNat] [] 0 →
    exec (.swr o) s = .next (s.trapsAt n 2 { cause := 0x11, detail := 0x0100, slot := 0 })))

/-- R57, R207, R208, R209, R210, R211, R212: scratchpad loads deliver the bytes at their addresses to the active lanes, five strand cycles
later. Scratchpad stores write the words of their active lanes, in ascending lane, at their addresses. -/
def Obligations.ScratchpadAccesses : Prop :=
  ((∀ o s n, WellFormed (.spld o) = true → Issues s n [.s o.a.toNat] [.v o.q.toNat] 1 →
    let st := s.strand n
    let co := s.core (n / 8)
    let a := o.addr st 256
    (∀ i ∈ activeLanes (o.mask st), a.toNat % 128 = 0 ∧ co.open_ (a.toNat + 4 * i) 4) →
    ∃ r, exec (.spld o) s = .next (s.issued n (bundleLen (.spld o))
        [vres st o.q 5 r (o.mask st) 15 ((activeLanes (o.mask st)).any (fun i => co.spPoison (a.toNat + 4 * i) 4))]
        (primed n .ld (.spld o) (o.step a 256))) ∧
      ∀ i ∈ activeLanes (o.mask st), lane r i = getBytes co.spad (a.toNat + 4 * i) 4 % 2 ^ 32) ∧
  (∀ o s n, WellFormed (.spldb o) = true → Issues s n [.s o.a.toNat] [.v o.q.toNat] 1 →
    let st := s.strand n
    let co := s.core (n / 8)
    let a := o.addr st 4
    (o.mask st ≠ 0 → a.toNat % 4 = 0 ∧ co.open_ a.toNat 4) →
    ∃ r, exec (.spldb o) s = .next (s.issued n (bundleLen (.spldb o))
        [vres st o.q 5 r (o.mask st) 15 (o.mask st != 0 && co.spPoison a.toNat 4)]
        (primed n .ld (.spldb o) (o.step a 4))) ∧
      ∀ i ∈ activeLanes (o.mask st), lane r i = getBytes co.spad a.toNat 4 % 2 ^ 32) ∧
  (∀ o s n, WellFormed (.spldx o) = true → Issues s n [.s o.a.toNat, .v o.index.toNat] [.v o.q.toNat] 1 →
    let st := s.strand n
    let co := s.core (n / 8)
    let a := o.addr st 256
    let at_ (i : Nat) : Nat := (a.toNat + lane (st.getV o.index.toNat) i) % 2 ^ 64
    (∀ i ∈ activeLanes (o.mask st), at_ i % 4 = 0 ∧ co.open_ (at_ i) 4) →
    ∃ r, exec (.spldx o) s = .next (s.issued n (bundleLen (.spldx o))
        [vres st o.q 5 r (o.mask st) 15 ((activeLanes (o.mask st)).any (fun i => co.spPoison (at_ i) 4))]
        (primed n .ld (.spldx o) (o.step a 256))) ∧
      ∀ i ∈ activeLanes (o.mask st), lane r i = getBytes co.spad (at_ i) 4 % 2 ^ 32) ∧
  (∀ o s n, WellFormed (.splds o) = true → Issues s n [.s o.a.toNat] [.s o.q.toNat] 1 →
    let st := s.strand n
    let co := s.core (n / 8)
    let a := o.addr st 8
    a.toNat % 8 = 0 → co.open_ a.toNat 8 →
    exec (.splds o) s = .next (s.issued n (bundleLen (.splds o))
      [lres st o.q 5 (getBytes co.spad a.toNat 8) (co.spPoison a.toNat 8)] (primed n .ld (.splds o) (o.step a 8))))) ∧
  ((∀ o s n, WellFormed (.spst o) = true → Issues s n [.s o.a.toNat, .v o.q.toNat] [] 0 →
    let st := s.strand n
    let a := o.addr st 256
    (∀ i ∈ activeLanes (o.mask st), a.toNat % 128 = 0 ∧ (s.core (n / 8)).open_ (a.toNat + 4 * i) 4) →
    exec (.spst o) s = .next (s.issued n (bundleLen (.spst o)) [] (primed n .st (.spst o) (o.step a 256)
      (fun t => t.onCore (n / 8) (fun co => co.spWords ((activeLanes (o.mask st)).map (fun i =>
        (a.toNat + 4 * i, lane (st.getV o.q.toNat) i)))))))) ∧
  (∀ o s n, WellFormed (.spstx o) = true → Issues s n [.s o.a.toNat, .v o.q.toNat, .v o.index.toNat] [] 0 →
    let st := s.strand n
    let a := o.addr st 256
    let at_ (i : Nat) : Nat := (a.toNat + lane (st.getV o.index.toNat) i) % 2 ^ 64
    (∀ i ∈ activeLanes (o.mask st), at_ i % 4 = 0 ∧ (s.core (n / 8)).open_ (at_ i) 4) →
    exec (.spstx o) s = .next (s.issued n (bundleLen (.spstx o)) [] (primed n .st (.spstx o) (o.step a 256)
      (fun t => t.onCore (n / 8) (fun co => co.spWords ((activeLanes (o.mask st)).map (fun i =>
        (at_ i, lane (st.getV o.q.toNat) i)))))))) ∧
  (∀ o s n, WellFormed (.spsts o) = true → Issues s n [.s o.a.toNat, .s o.q.toNat] [] 0 →
    let st := s.strand n
    let a := o.addr st 8
    a.toNat % 8 = 0 → (s.core (n / 8)).open_ a.toNat 8 →
    exec (.spsts o) s = .next (s.issued n (bundleLen (.spsts o)) [] (primed n .st (.spsts o) (o.step a 8)
      (fun t => t.onCore (n / 8) (fun co => co.spWrite a.toNat 8 (st.getS o.q.toNat).toNat false))))))

/-- R208, R209: what a scratchpad write leaves unchanged and what reads back. Every byte outside the words written reads as before; of the
words of a vector store, each reads as the last lane written to it; a scalar write's bytes read as written; a poisoned atom stays poisoned
unless all of it is written. -/
def Obligations.ScratchpadBytes : Prop :=
  (∀ (co : Core) ws a, (∀ w ∈ ws, a < w.1 ∨ w.1 + 4 ≤ a) → look 0 (co.spWords ws).spad a = look 0 co.spad a) ∧
  (∀ (co : Core) front a v back, Memory.wf co.spad → (∀ w ∈ back, w.1 + 4 ≤ a ∨ a + 4 ≤ w.1) →
    getBytes (co.spWords (front ++ (a, v) :: back)).spad a 4 = v % 2 ^ 32) ∧
  (∀ (co : Core) a n v p b, b < a ∨ a + n ≤ b → look 0 (co.spWrite a n v p).spad b = look 0 co.spad b) ∧
  (∀ (co : Core) a n v p, Memory.wf co.spad → getBytes (co.spWrite a n v p).spad a n = v % 256 ^ n) ∧
  (∀ (co : Core) ws, Memory.wf co.spad → Memory.wf (co.spWords ws).spad) ∧
  (∀ (co : Core) a n v p, Memory.wf co.spad → Memory.wf (co.spWrite a n v p).spad) ∧
  (∀ (co : Core) a n v k, look false co.spadP k = true → ¬ (a ≤ 32 * k ∧ 32 * k + 32 ≤ a + n) →
    look false (co.spWrite a n v false).spadP k = true)

/-- R215 to R219: a lookup answers the own entry of its key, or a miss with a hint; TLOOK.WM reads a channel register; TINS writes an
entry, TDEL frees one. TINS checks LEN, then the range of the slot (for which ILLEGAL_OP yields, log 27), then the key. -/
def Obligations.TagTable : Prop :=
  (∀ o s n, WellFormed (.tlook o) = true → Issues s n [.s o.a.toNat] [.s o.d.toNat] 1 →
    let st := s.strand n
    let key : BitVec 48 := (st.getS o.a.toNat).setWidth 48
    let r := (s.core (n / 8)).tlook st.ctxh key
    exec (.tlook o) s = .next (s.issued n (bundleLen (.tlook o)) [lres st o.d 3 r.1 false]
      (primed n .ld (.tlook o) 0 (fun t => match r.2 with
        | none => t
        | some k => t.onCore (n / 8) (fun co => { co with vptr := BitVec.ofNat 8 (k + 1) }))))) ∧
  (∀ (co : Core) h key k, co.findKey h key = some k →
    (co.tlook h key).2 = none ∧ (co.tlook h key).1 = (co.tag k).state.toNat * 2 ^ 56 + (co.tag k).len.toNat * 2 ^ 52 + k * 2 ^ 40
      + (co.tag k).base.toNat * 2 ^ 7 ∧ (co.tag k).key = key ∧ (co.tag k).ctxh = h ∧ (co.tag k).state ≠ 0) ∧
  (∀ (co : Core) h key, co.findKey h key = none → 2 ^ 63 ≤ (co.tlook h key).1 ∧
    ∀ k < 256, (co.tag k).state ≠ 0 → (co.tag k).ctxh = h → (co.tag k).key ≠ key) ∧
  (∀ o s n, WellFormed (.tlookWm o) = true → Issues s n [] [.s o.d.toNat] 1 →
    let w := look .off (s.core (n / 8)).wm o.a.toNat
    exec (.tlookWm o) s = .next (s.issued n (bundleLen (.tlookWm o))
      [lres (s.strand n) o.d 3 ((if w.en then 2 ^ 63 else 0) + w.lo.toNat * 2 ^ 41 + w.hi.toNat * 2 ^ 22 + w.wm.toNat) false]
      (primed n .ld (.tlookWm o) 0))) ∧
  (∀ o s n, WellFormed (.tins o) = true → Issues s n [.s o.d.toNat, .s o.a.toNat, .s o.b.toNat] [] 0 →
    let st := s.strand n
    let co := s.core (n / 8)
    let idx := (st.getS o.d.toNat).toNat % 256
    let key : BitVec 48 := (st.getS o.a.toNat).setWidth 48
    let d := st.getS o.b.toNat
    let len := (d >>> 20).toNat % 16
    let base := (d >>> 7).toNat % 4096
    let state := (d >>> 24).toNat % 4
    len ≤ 9 → (state ≠ 0 → base * 128 + 128 * 2 ^ len ≤ 0x60000) →
    (state ≠ 0 → ∀ k < 256, k ≠ idx → ¬ ((co.tag k).state ≠ 0 ∧ (co.tag k).ctxh = st.ctxh ∧ (co.tag k).key = key)) →
    exec (.tins o) s = .next (s.issued n (bundleLen (.tins o)) [] (primed n .st (.tins o) 0 (fun t => t.onCore (n / 8) (fun co =>
      { co with tags := put .free co.tags idx ⟨key, st.ctxh, BitVec.ofNat 12 base, BitVec.ofNat 4 len, BitVec.ofNat 2 state⟩ }))))) ∧
  (∀ o s n, WellFormed (.tins o) = true → Issues s n [.s o.d.toNat, .s o.a.toNat, .s o.b.toNat] [] 0 →
    let st := s.strand n
    let co := s.core (n / 8)
    let idx := (st.getS o.d.toNat).toNat % 256
    let key : BitVec 48 := (st.getS o.a.toNat).setWidth 48
    let d := st.getS o.b.toNat
    let len := (d >>> 20).toNat % 16
    let base := (d >>> 7).toNat % 4096
    let state := (d >>> 24).toNat % 4
    let past := state ≠ 0 ∧ 0x60000 < base * 128 + 128 * 2 ^ len
    let traps (c dt a : Nat) : Prop := exec (.tins o) s = .next (s.trapsAt n (bundleLen (.tins o))
      { cause := c, detail := dt, faddr := BitVec.ofNat 64 a, slot := 6 })
    (9 < len → traps 0x02 0x0301 0) ∧ (len ≤ 9 → past → traps 0x0B 0x0301 (base * 128)) ∧
    (len ≤ 9 → ¬ past → state ≠ 0 →
      (∃ k < 256, k ≠ idx ∧ (co.tag k).state ≠ 0 ∧ (co.tag k).ctxh = st.ctxh ∧ (co.tag k).key = key) → traps 0x02 0x0300 0)) ∧
  (∀ o s n, WellFormed (.tdel o) = true → Issues s n [.s o.a.toNat] [] 0 →
    let st := s.strand n
    exec (.tdel o) s = .next (s.issued n (bundleLen (.tdel o)) [] (primed n .st (.tdel o) 0 (fun t =>
      match (s.core (n / 8)).findKey st.ctxh ((st.getS o.a.toNat).setWidth 48) with
      | some k => t.onCore (n / 8) (fun co => { co with tags := del co.tags k })
      | none => t)))) ∧
  (∀ o s n, WellFormed (.tdelIdx o) = true → Issues s n [.s o.a.toNat] [] 0 →
    let st := s.strand n
    let k := (st.getS o.a.toNat).toNat % 256
    exec (.tdelIdx o) s = .next (s.issued n (bundleLen (.tdelIdx o)) [] (primed n .st (.tdelIdx o) 0 (fun t =>
      if ((s.core (n / 8)).tag k).own st.ctxh then t.onCore (n / 8) (fun co => { co with tags := del co.tags k }) else t))))

/-- R221, R222, R223, R224, R225, R226, R405: a load that meets no check enters the load queue with its address translated, its register
becomes pending, and PREF enters or is discarded, and blocks where it finds the queue full. That PREF walks and fills both TLBs in its own
step and is dropped on any fault is the model's reading (log 20). A store enters the store queue with its data as it stood; scope .NV asks
for durability. -/
def Obligations.GlobalAccesses : Prop :=
  ((∀ o s n pa l, WellFormed (.gld o) = true → Issues s n [.s o.a.toNat] [.v o.q.toNat] 0 →
    let st := s.strand n
    let a := o.addr st
    Passes s n true a 256 .read pa l →
    exec (.gld o) s = .next (s.issued n (bundleLen (.gld o)) [] (primed n .ld (.gld o) (o.step a 256)
      (enters n true { asked .load o.e a pa 256 with reg := some (.v o.q.toNat), lanes := o.mask st } l)))) ∧
  (∀ o s n pa l, WellFormed (.glds o) = true → Issues s n [.s o.a.toNat] [.s o.q.toNat] 0 →
    let a := o.addr (s.strand n)
    Passes s n true a 8 .read pa l →
    exec (.glds o) s = .next (s.issued n (bundleLen (.glds o)) [] (primed n .ld (.glds o) (o.step a 8)
      (enters n true { asked .load o.e a pa 8 with reg := some (.s o.q.toNat) } l)))) ∧
  (∀ o s n pa l, WellFormed (.glda o) = true → Issues s n [.s o.a.toNat] [.s o.q.toNat] 0 →
    let a := o.addr (s.strand n)
    Passes s n true a 8 .read pa l →
    exec (.glda o) s = .next (s.issued n (bundleLen (.glda o)) [] (primed n .ld (.glda o) (o.step a 8)
      (enters n true { asked .acquire o.e a pa 8 with
        reg := some (.s o.q.toNat), scope := (match o.x with | some x => x.scope.toNat | none => 0), acq := true } l)))) ∧
  (∀ o s n, WellFormed (.pref o) = true → Issues s n [.s o.a.toNat] [] 0 → (s.strand n).loadQ.length < 64 →
    let a := o.addr (s.strand n)
    let va := a.toNat % 2 ^ 57
    let c := s.ctxOf n
    let d := dieOfStrand n
    let key := tlbKey (s.ctx c).asid va
    let found := match s.coreTlb n va with
      | some e => s.judgeLeaf (s.ctx c).keydom e.leaf va .read
      | none => s.translate d c va .read
    let effect (t : State) : State := match found with
      | .ok pa l =>
        if window (s.place pa) = .peer then t
        else ((t.onStrand n (fun st => st.queue true (asked .pref 0 a pa 1) none)).onCore (n / 8) (fun co =>
          { co with tlb := tlbPut co.tlb 256 key l.tlb })).onDie d (fun x => { x with tlb := tlbPut x.tlb 16384 key l.tlb })
      | _ => t
    exec (.pref o) s = .next (s.issued n (bundleLen (.pref o)) [] (primed n .ld (.pref o) (o.step a 1024)
      (if (a.setWidth 57).signExtend 64 = a then effect else id)))) ∧
  (∀ o s n pa l, WellFormed (.pref o) = true → Issues s n [.s o.a.toNat] [] 0 → 64 ≤ (s.strand n).loadQ.length →
    let a := o.addr (s.strand n)
    let va := a.toNat % 2 ^ 57
    (a.setWidth 57).signExtend 64 = a → (match s.coreTlb n va with
      | some e => s.judgeLeaf (s.ctx (s.ctxOf n)).keydom e.leaf va .read
      | none => s.translate (dieOfStrand n) (s.ctxOf n) va .read) = .ok pa l → window (s.place pa) ≠ .peer →
    exec (.pref o) s = .next (s.blocksAt n .loadFull))) ∧
  ((∀ o s n pa l, WellFormed (.gst o) = true → Issues s n [.s o.a.toNat, .v o.q.toNat] [] 0 →
    let st := s.strand n
    let a := o.addr st
    let nv := decide ((match o.x with | some x => x.scope.toNat | none => 0) = 7)
    Passes s n false a 256 .write pa l → (nv = true → window (s.place pa) = .nv) →
    exec (.gst o) s = .next (s.issued n (bundleLen (.gst o)) [] (primed n .st (.gst o) (o.step a 256)
      (enters n false { asked .store o.e a pa 256 with lanes := o.mask st, data := st.getV o.q.toNat, dur := nv } l)))) ∧
  (∀ o s n pa l, WellFormed (.gsts o) = true → Issues s n [.s o.a.toNat, .s o.q.toNat] [] 0 →
    let st := s.strand n
    let a := o.addr st
    let nv := decide ((match o.x with | some x => x.scope.toNat | none => 0) = 7)
    Passes s n false a 8 .write pa l → (nv = true → window (s.place pa) = .nv) →
    exec (.gsts o) s = .next (s.issued n (bundleLen (.gsts o)) [] (primed n .st (.gsts o) (o.step a 8)
      (enters n false { asked .store o.e a pa 8 with data := (st.getS o.q.toNat).setWidth 2048, dur := nv } l)))) ∧
  (∀ o s n pa l, WellFormed (.gstl o) = true → Issues s n [.s o.a.toNat, .s o.q.toNat] [] 0 →
    let st := s.strand n
    let a := o.addr st
    Passes s n false a 8 .write pa l →
    exec (.gstl o) s = .next (s.issued n (bundleLen (.gstl o)) [] (primed n .st (.gstl o) (o.step a 8)
      (enters n false { asked .release o.e a pa 8 with
        data := (st.getS o.q.toNat).setWidth 2048, scope := (match o.x with | some x => x.scope.toNat | none => 0), rel := true } l)))))

/-- R59, R233, R302: a MARK in one slot whose other slot's engine holds the same MARK enters both queues, LD's half first; with another
MARK there it traps MARK_UNPAIRED 0x0001, alone 0x0000. The SLOT recorded, 5 for a mismatch and otherwise the slot that executes, is the
model's reading (log 14). A TAGPUB within its tensor enters the store queue, and its operation goes to the readiness table of its
context's home die; one that finds the queue full blocks, and one that leaves the tensor traps ILLEGAL_OP 0x0502. -/
def Obligations.MarksAndPublications : Prop :=
  ((∀ (o : MK) (s : State) n a, WellFormed (.mark .ld o) = true → s.pkg.viral = false → s.activeOf s.cur = some n →
    (s.strand n).eng = [(6, ⟨.mark .st o, a⟩)] → (s.strand n).barWait = none → (s.strand n).inFlight [] ≤ 16 →
    (s.strand n).loadQ.length < 64 → (s.strand n).storeQ.length < 64 →
    let st := s.strand n
    let half : GEntry := { asked (.mark o.kind.toNat) 0 0 0 0 with scope := o.scope.toNat }
    ∃ t, exec (.mark .ld o) s = .next t ∧ (t.strand n).loadQ = st.loadQ ++ [{ half with num := st.gnum }] ∧
      (t.strand n).storeQ = st.storeQ ++ [{ half with num := st.gnum + 1 }] ∧ (t.strand n).gnum = st.gnum + 2 ∧ t.mem = s.mem ∧
      (t.strand n).eng = [(5, ⟨.mark .ld o, 0⟩), (6, ⟨.mark .st o, 0⟩)]) ∧
  (∀ (o : MK) (s : State) n a, WellFormed (.mark .st o) = true → s.pkg.viral = false → s.activeOf s.cur = some n →
    (s.strand n).eng = [(5, ⟨.mark .ld o, a⟩)] → (s.strand n).barWait = none → (s.strand n).inFlight [] ≤ 16 →
    (s.strand n).loadQ.length < 64 → (s.strand n).storeQ.length < 64 →
    let st := s.strand n
    let half : GEntry := { asked (.mark o.kind.toNat) 0 0 0 0 with scope := o.scope.toNat }
    ∃ t, exec (.mark .st o) s = .next t ∧ (t.strand n).loadQ = st.loadQ ++ [{ half with num := st.gnum }] ∧
      (t.strand n).storeQ = st.storeQ ++ [{ half with num := st.gnum + 1 }] ∧ (t.strand n).gnum = st.gnum + 2 ∧ t.mem = s.mem ∧
      (t.strand n).eng = [(5, ⟨.mark .ld o, 0⟩), (6, ⟨.mark .st o, 0⟩)]) ∧
  (∀ h (o o' : MK) (s : State) n a, WellFormed (.mark h o) = true → s.pkg.viral = false → s.activeOf s.cur = some n →
    (s.strand n).eng = [if h = .ld then (6, ⟨.mark .st o', a⟩) else (5, ⟨.mark .ld o', a⟩)] → (s.strand n).inFlight [] ≤ 16 →
    o.kind ≠ o'.kind ∨ o.scope ≠ o'.scope →
    exec (.mark h o) s = .next (s.trapsAt n (bundleLen (.mark h o)) { cause := 0x09, detail := 0x0001, slot := 5 })) ∧
  (∀ h o s n, WellFormed (.mark h o) = true → Issues s n [] [] 0 →
    exec (.mark h o) s = .next (s.trapsAt n (bundleLen (.mark h o))
      { cause := 0x09, detail := 0x0000, slot := if h = .ld then 5 else 6 }))) ∧
  (let nm1 (o : RG) : Nat := (match o.x with | some x => x.ext.toNat | none => 0) % 4096
  let publishes (mk : RG → Instr) (fn : Nat) : Prop := (∀ o s n, WellFormed (mk o) = true → Issues s n [.s o.a.toNat] [] 0 →
    let st := s.strand n
    let key := (st.getS o.a.toNat).toNat
    (key % 2 ^ 36 + nm1 o ≤ 2 ^ 36 - 1 → st.storeQ.length < 64 →
      exec (mk o) s = .next (s.issued n (bundleLen (mk o)) [] (primed n .st (mk o) 0 (fun t =>
        (t.onStrand n (fun st => st.queue false { asked (.tagset fn (nm1 o)) (BitVec.ofNat 4 o.d.toNat) (BitVec.ofNat 64 key) 0 0 with
          sem := o.d.toNat, scope := o.f.toNat % 8, rel := decide (fn = 0) } none)).onDie (s.ctxOf n % 4) (fun x =>
          { x with tagOps := x.tagOps ++ [⟨fn, s.ctxOf n, st.launch.toNat, st.task.toNat, key, nm1 o + 1, o.f.toNat % 8, n, st.gnum, none, 0xFFFFFFFF⟩] }))))) ∧
    (key % 2 ^ 36 + nm1 o ≤ 2 ^ 36 - 1 → 64 ≤ st.storeQ.length → exec (mk o) s = .next (s.blocksAt n .storeFull)) ∧
    (2 ^ 36 - 1 < key % 2 ^ 36 + nm1 o → exec (mk o) s = .next (s.trapsAt n (bundleLen (mk o))
      { cause := 0x02, detail := 0x0502, slot := 6 })))
  publishes .tagpubSet 0 ∧ publishes .tagpubClearTile 1 ∧ publishes .tagpubClearTensor 2)

/-- R265: an atomic is a read and a write of its 4 or 8 bytes, checked before commit; ATOMR's register becomes pending. -/
def Obligations.Atomics : Prop :=
  let field (o : RG) (lo len : Nat) : Nat := fld (match o.x with | some x => x.ext.toNat | none => 0) lo len
  let c (o : RG) : BitVec 6 := match o.x with | some x => x.c | none => 0
  let reads (o : RG) : List Reg := [.s o.a.toNat, .s o.b.toNat] ++ if field o 0 4 = 9 then [.s (c o).toNat] else []
  let entry (o : RG) (st : Strand) (pa : Nat) (ret : Bool) : GEntry :=
    { asked (.atomic (field o 0 4) ret) (BitVec.ofNat 4 (field o 11 4)) (st.getS o.a.toNat) pa (if field o 4 2 = 0 then 4 else 8) with
      reg := if ret then some (.s o.d.toNat) else none, data := (st.getS o.b.toNat).setWidth 2048, cmp := st.getS (c o).toNat,
      scope := field o 6 3, acq := decide (field o 9 2 % 2 = 1), rel := decide (2 ≤ field o 9 2) }
  (∀ o s n pa l, WellFormed (.atom o) = true → Issues s n (reads o) [] 0 →
    Passes s n false ((s.strand n).getS o.a.toNat) (if field o 4 2 = 0 then 4 else 8) .both pa l →
    exec (.atom o) s = .next (s.issued n (bundleLen (.atom o)) []
      (primed n .st (.atom o) 0 (enters n false (entry o (s.strand n) pa false) l)))) ∧
  (∀ o s n pa l, WellFormed (.atomr o) = true → Issues s n (reads o) [.s o.d.toNat] 0 →
    Passes s n false ((s.strand n).getS o.a.toNat) (if field o 4 2 = 0 then 4 else 8) .both pa l →
    exec (.atomr o) s = .next (s.issued n (bundleLen (.atomr o)) []
      (primed n .st (.atomr o) 0 (enters n false (entry o (s.strand n) pa true) l))))

/-- R98, R177, R183, R196, R197, R198, R199: MX operations enter the core's queue with their banks, up to four entries a strand; MABORT
takes the strand's unstarted MCALLs out, and their unmarked completions are appended, or held where the semaphore is full. An MCALL of an
invalid entry, of another gang or of a fifth entry traps ILLEGAL_OP 0x0200 to 0x0202; a load of the stores traps 0x0203 outside its store,
0x0202 for a fifth entry, ALIGNMENT or SCRATCH_RANGE for its source, in that order (the place of 0x0202 after the operation's own
conditions, logs 26 and 87, and the held completions, log 75, are the model's reading). MSTAT's status word, the M registers, and the
fault record, whose fields are those of the marked completion appended earliest among the strand's; taking it clears that mark and nothing
else. -/
def Obligations.MatrixQueue : Prop :=
  (let pushes (s : State) (n : Nat) (sem : BitVec 4) (k : MxKind) (banks : Nat) (t : State) : State :=
    let st := s.strand n
    t.onCore (n / 8) (fun co => { co with
      mxq := co.mxq ++ [⟨co.mxid, n % 8, true, st.ctxh, st.launch, st.task, sem.toNat, k⟩],
      owned := if banks = 0 then co.owned else upd co.owned co.mxid (n % 8, banks), mxid := co.mxid + 1 })
  (∀ o s n, WellFormed (.mcall o) = true → Issues s n [] [] 0 →
    let st := s.strand n
    let e := (look 0 (s.core (n / 8)).rtab o.rt.toNat).toNat
    let banks := match o.x with | some w => w.toNat / 2 ^ 16 | none => fld e 48 16
    let arg := match o.x with | some w => w.toNat % 2 ^ 16 | none => 0
    bitOf e 12 = true → fld e 46 2 = o.gang.toNat → (s.core (n / 8)).outstanding (n % 8) < 4 →
    exec (.mcall o) s = .next (s.issued n (bundleLen (.mcall o)) []
      (pushes s n o.e (.call (fld e 0 12) o.gang.toNat banks arg ((List.range 8).map st.getM)) banks))) ∧
  (∀ o s n, WellFormed (.mlduc o) = true → Issues s n [.s o.a.toNat, .s o.b.toNat] [] 0 →
    let a := ((s.strand n).getS o.a.toNat).toNat
    let d := ((s.strand n).getS o.b.toNat).toNat
    0 < fld d 12 13 → fld d 0 12 + fld d 12 13 ≤ 4096 → (s.core (n / 8)).outstanding (n % 8) < 4 → a % 8 = 0 →
    a + 8 * fld d 12 13 ≤ 0x60000 →
    exec (.mlduc o) s = .next (s.issued n (bundleLen (.mlduc o)) []
      (pushes s n (o.d.setWidth 4) (.ldUc a (fld d 0 12) (fld d 12 13)) 0))) ∧
  (∀ o s n, WellFormed (.mldrt o) = true → Issues s n [.s o.a.toNat, .s o.b.toNat] [] 0 →
    let a := ((s.strand n).getS o.a.toNat).toNat
    let d := ((s.strand n).getS o.b.toNat).toNat
    0 < fld d 8 9 → fld d 0 8 + fld d 8 9 ≤ 256 → (s.core (n / 8)).outstanding (n % 8) < 4 → a % 8 = 0 →
    a + 8 * fld d 8 9 ≤ 0x60000 →
    exec (.mldrt o) s = .next (s.issued n (bundleLen (.mldrt o)) []
      (pushes s n (o.d.setWidth 4) (.ldRt a (fld d 0 8) (fld d 8 9)) 0))) ∧
  (∀ s n, Issues s n [] [] 0 →
    let co := s.core (n / 8)
    let mine (m : MxEntry) : Bool := m.strand = n % 8 && m.live && (match m.kind with | .call _ _ _ _ _ => true | _ => false)
    exec .mabort s = .next (s.issued n 2 [] (fun t => (co.mxq.filter mine).foldl (fun t m => mxComplete m (n / 8) t)
      (t.onCore (n / 8) (fun co => { co with
        mxq := co.mxq.filter (fun m => !mine m)
        run := co.run.map (fun r => if mine r.entry then { r with abort := true } else r) }))))) ∧
  (∀ (s : State) (m : MxEntry) c, m.live = true →
    let full := (s.strand (8 * c + m.strand)).count m.sem ≥ 0xFFFF ∨
      ∃ p ∈ (s.core c).mxheld, p.1.live = true ∧ p.1.strand = m.strand ∧ p.1.sem = m.sem
    (¬ full → mxComplete m c s = s.onStrand (8 * c + m.strand) (fun st => st.append m.sem none none (some m.id))) ∧
    (full → mxComplete m c s = s.onCore c (fun co => { co with mxheld := co.mxheld ++ [(m, none)] }))) ∧
  (∀ o s n, WellFormed (.mcall o) = true → Issues s n [] [] 0 →
    let e := (look 0 (s.core (n / 8)).rtab o.rt.toNat).toNat
    let traps (d : Nat) : Prop := exec (.mcall o) s = .next (s.trapsAt n (bundleLen (.mcall o)) { cause := 0x02, detail := d, slot := 7 })
    (bitOf e 12 = false → traps 0x0200) ∧ (bitOf e 12 = true → fld e 46 2 ≠ o.gang.toNat → traps 0x0201) ∧
    (bitOf e 12 = true → fld e 46 2 = o.gang.toNat → 4 ≤ (s.core (n / 8)).outstanding (n % 8) → traps 0x0202)) ∧
  (let loads (mk : RG → Instr) (w size : Nat) : Prop := (∀ o s n, WellFormed (mk o) = true →
      Issues s n [.s o.a.toNat, .s o.b.toNat] [] 0 →
      let a := ((s.strand n).getS o.a.toNat).toNat
      let d := ((s.strand n).getS o.b.toNat).toNat
      let count := fld d w (w + 1)
      let fits := 0 < count ∧ fld d 0 w + count ≤ size
      let full := 4 ≤ (s.core (n / 8)).outstanding (n % 8)
      let traps (c x : Nat) (f : Word) : Prop :=
        exec (mk o) s = .next (s.trapsAt n (bundleLen (mk o)) { cause := c, detail := x, faddr := f, slot := 7 })
      (¬ fits → traps 0x02 0x0203 0) ∧ (fits → full → traps 0x02 0x0202 0) ∧
      (fits → ¬ full → a % 8 ≠ 0 → traps 0x0A 0x0201 ((s.strand n).getS o.a.toNat)) ∧
      (fits → ¬ full → a % 8 = 0 → 0x60000 < a + 8 * count →
        traps 0x0B 0x0201 (BitVec.ofNat 64 (if 0x60000 ≤ a then a else 0x60000))))
   loads .mlduc 12 4096 ∧ loads .mldrt 8 256)) ∧
  (let word (s : State) (n : Nat) : Nat :=
    let st := s.strand n
    let co := s.core (n / 8)
    co.ownedBy (n % 8) * 2 ^ 48 + (if st.marked.isEmpty then 0 else 16) + (if st.sat then 8 else 0) + co.outstanding (n % 8)
  (∀ o s n, WellFormed (.mstat o) = true → Issues s n [] [.s o.d.toNat] 0 →
    exec (.mstat o) s = .next (s.issued n (bundleLen (.mstat o)) [lres (s.strand n) o.d 1 (word s n) false])) ∧
  (∀ o s n, WellFormed (.mstatCsat o) = true → Issues s n [] [.s o.d.toNat] 0 →
    exec (.mstatCsat o) s = .next (s.issued n (bundleLen (.mstatCsat o)) [lres (s.strand n) o.d 1 (word s n) false]
      (fun t => t.onStrand n (fun st => { st with sat := false })))) ∧
  (∀ o s n, WellFormed (.mstatFault o) = true → Issues s n [] [.s o.d.toNat] 0 →
    exec (.mstatFault o) s = .next (s.issued n (bundleLen (.mstatFault o)) [lres (s.strand n) o.d 1 (faultWord (s.strand n)) false])) ∧
  (∀ o s n, WellFormed (.mstatTake o) = true → Issues s n [] [.s o.d.toNat] 0 →
    exec (.mstatTake o) s = .next (s.issued n (bundleLen (.mstatTake o)) [lres (s.strand n) o.d 1 (faultWord (s.strand n)) false]
      (fun t => t.onStrand n Strand.takeMark))) ∧
  (∀ o s n, WellFormed (.mstatSetm o) = true → Issues s n [.s o.a.toNat] [] 0 →
    exec (.mstatSetm o) s = .next (s.issued n (bundleLen (.mstatSetm o))
      [⟨.m o.d.toNat, ((s.strand n).getS o.a.toNat).setWidth 2048, 0, 15, 1, (s.strand n).tl, 0, false⟩])) ∧
  (∀ o s n, WellFormed (.mstatGetm o) = true → Issues s n [] [.s o.d.toNat] 0 →
    exec (.mstatGetm o) s = .next (s.issued n (bundleLen (.mstatGetm o)) [sres (s.strand n) o.d 1 ((s.strand n).getM o.a.toNat)])) ∧
  (∀ st : Strand, (∀ p ∈ st.sem, ∀ c ∈ p.2, c.mark = none) → faultWord st = 0 ∧ st.takeMark = st) ∧
  (∀ (st : Strand) k (c : Completion) (m : Mark), c ∈ st.getE k → c.mark = some m →
    (∀ p ∈ st.sem, ∀ d ∈ p.2, d.mark ≠ none → (p.1, d) = (k, c) ∨ c.order < d.order) →
    faultWord st = m.cause * 2 ^ 56 + m.detail % 2 ^ 16 * 2 ^ 40 + m.index % 2 ^ 12 * 2 ^ 28 + k * 2 ^ 24 + m.addr.toNat % 2 ^ 24 ∧
    st.takeMark = { st with sem := st.takeMark.sem } ∧
    ∀ e, st.takeMark.getE e = (st.getE e).map (fun d => if e = k ∧ d = c then { d with mark := none } else d)))

/-- R200 to R205: the accumulator operations on a row whose bank no routine owns; on one that a routine owns they trap PORT_CLASH 0x0001,
AOW SCHEDULE_VIOLATION 0x0000, and ADRN of a slot that does not accept the core traps SCHEDULE_VIOLATION 0x0400 (AACC rounds by the mode
R202 gives it, where R121 names one alone: the model's reading, log 83). -/
def Obligations.Accumulators : Prop :=
  let writes (n row : Nat) (k : Word) (v : Core → Vec) (whole poison : Bool) (t : State) : State :=
    t.onCore (n / 8) (fun co => co.setRow row (mergeVec (co.row row) (v co) k 15) whole poison)
  AccOp .ard .ar (fun _ => []) (fun o => [.v o.v.toNat]) 1
    (fun o s n row => [vres (s.strand n) o.v 4 ((s.core (n / 8)).row row) (o.mask (s.strand n)) 15 ((s.core (n / 8)).rowP row)])
    (fun _ _ _ _ t => t) ∧
  AccOp .aclr .aw (fun _ => []) (fun _ => []) 0 (fun _ _ _ _ => [])
    (fun o s n row => writes n row (o.mask (s.strand n)) (fun _ => 0) (o.mask (s.strand n) = 0xFFFFFFFFFFFFFFFF) false) ∧
  AccOp .awr .aw (fun o => [.v o.v.toNat]) (fun _ => []) 0 (fun _ _ _ _ => [])
    (fun o s n row => writes n row (o.mask (s.strand n)) (fun _ => (s.strand n).getV o.v.toNat)
      (o.mask (s.strand n) = 0xFFFFFFFFFFFFFFFF) false) ∧
  (∀ o s n, WellFormed (.aacc o) = true → Issues s n (o.reads ++ [.v o.v.toNat]) [] 0 →
    let st := s.strand n
    let row := o.at_ st
    let ext := match o.x with | some x => x.ext.toNat | none => 0
    let k := if ext % 8 = 3 then actLanes (o.mask st) 3 else o.mask st
    bankFree s n row →
    ∃ t sum, exec (.aacc o) s = .next t ∧ (t.core (n / 8)).row row = mergeVec ((s.core (n / 8)).row row) sum k 15 ∧
      (∀ r < 1024, r ≠ row → (t.core (n / 8)).row r = (s.core (n / 8)).row r) ∧ t.mem = s.mem ∧ (t.core (n / 8)).spad = (s.core (n / 8)).spad ∧
      (ext % 8 ≠ 1 → ext % 8 ≠ 3 → ∀ i < 64, lane sum i = (fAdd f32 (fld ext 3 3) 0 (decodeF f32 (lane ((s.core (n / 8)).row row) i))
        (decodeF f32 (lane (st.getV o.v.toNat) i))).1 % 2 ^ 32) ∧
      (ext % 8 = 1 → bitOf ext 6 = false → ∀ i < 64,
        lane sum i = (lane ((s.core (n / 8)).row row) i + lane (st.getV o.v.toNat) i) % 2 ^ 32) ∧
      (ext % 8 = 1 → bitOf ext 6 = true → ∀ i < 64, lane sum i = wrap 32 (max (-2147483648) (min 2147483647
        (sext 32 (lane ((s.core (n / 8)).row row) i) + sext 32 (lane (st.getV o.v.toNat) i))))) ∧
      (ext % 8 = 3 → ∀ j < 32, fld sum.toNat (64 * j) 64 = (fAdd f64 (fld ext 3 3) 0
        (decodeF f64 (fld ((s.core (n / 8)).row row).toNat (64 * j) 64)) (decodeF f64 (fld (st.getV o.v.toNat).toNat (64 * j) 64))).1 % 2 ^ 64)) ∧
  (∀ o s n, WellFormed (.adrn o) = true → Issues s n o.reads [] 0 →
    let row := o.at_ (s.strand n)
    let slot := o.v.toNat % 16
    let co := s.core (n / 8)
    bankFree s n row → (s.cluster (n / 32)).accepts slot (n / 8) = true →
    exec (.adrn o) s = .next (s.issued n (bundleLen (.adrn o)) [] (primed n .ar (.adrn o) (o.step row) (fun t =>
      let t1 := t.onCluster (n / 32) (fun x => { x with drains := x.drains ++ [(n / 8, slot, row % 256, co.row row, co.rowP row)] })
      if bitOf o.v.toNat 4 then t1.onCore (n / 8) (fun co => co.clearRow row) else t1)))) ∧
  (∀ o s n, WellFormed (.aow o) = true → Issues s n o.reads [] 0 →
    let row := o.at_ (s.strand n)
    bankFree s n row → (∀ g ∈ (s.core (n / 8)).staging, g.row ≠ row) →
    exec (.aow o) s = .next (s.issued n (bundleLen (.aow o)) [] (primed n .aw (.aow o) (o.step row)))) ∧
  (∀ o s n g, WellFormed (.aow o) = true → Issues s n o.reads [] 0 →
    let row := o.at_ (s.strand n)
    bankFree s n row → (s.core (n / 8)).staging.find? (fun g => decide (g.row = row)) = some g →
    ∃ t, exec (.aow o) s = .next t ∧ (t.core (n / 8)).staging.length + 1 = (s.core (n / 8)).staging.length ∧
      (t.core (n / 8)).row row = (addStaged g ((s.core (n / 8)).row row)).1 ∧ t.mem = s.mem) ∧
  (let owned (mk : AC → Instr) (slot : Nat) (reads writes : AC → List Reg) (more c x : Nat) : Prop := (∀ o s n, WellFormed (mk o) = true →
      Issues s n (o.reads ++ reads o) (writes o) more → ¬ bankFree s n (o.at_ (s.strand n)) →
      exec (mk o) s = .next (s.trapsAt n (bundleLen (mk o)) { cause := c, detail := x, slot := slot }))
   owned .ard 8 (fun _ => []) (fun o => [.v o.v.toNat]) 1 0x03 0x0001 ∧ owned .adrn 8 (fun _ => []) (fun _ => []) 0 0x03 0x0001 ∧
   owned .aclr 9 (fun _ => []) (fun _ => []) 0 0x03 0x0001 ∧ owned .awr 9 (fun o => [.v o.v.toNat]) (fun _ => []) 0 0x03 0x0001 ∧
   owned .aacc 9 (fun o => [.v o.v.toNat]) (fun _ => []) 0 0x03 0x0001 ∧ owned .aow 9 (fun _ => []) (fun _ => []) 0 0x05 0x0000) ∧
  (∀ o s n, WellFormed (.adrn o) = true → Issues s n o.reads [] 0 → bankFree s n (o.at_ (s.strand n)) →
    (s.cluster (n / 32)).accepts (o.v.toNat % 16) (n / 8) = false →
    exec (.adrn o) s = .next (s.trapsAt n (bundleLen (.adrn o)) { cause := 0x05, detail := 0x0400, slot := 8 }))

/-- R236, R238, R239, R241, R248, R249, R250, R251, R252, R254, R255, R256, R257, R258, R259, R260: commands whose operands meet the
checks before commit enter their channel. HWM opens a watermark channel at its commit, HWM.OFF disables it and keeps its bounds, and HSTAT
reads a channel. -/
def Obligations.HodCommands : Prop :=
  (let ab (o : HC) : List Reg := [.s o.a.toNat, .s o.b.toNat]
  let pub (o : HC) : List Reg := ab o ++ if (match o.x with | some x => x.ext.toNat | none => 0) % 2 = 1 then o.rc else []
  let regs (st : Strand) (o : HC) : Word × Word := (st.getS o.a.toNat, st.getS o.b.toNat)
  HodEnters .hcopyS2s 0 (fun o => ab o ++ o.rc) (fun o _ st =>
    lengthOk (o.c st) 393216 ∧ spOk (regs st o).1 128 (o.c st).toNat ∧ spOk (regs st o).2 128 (o.c st).toNat) ∧
  HodEnters .hcopyG2s 0 (fun o => ab o ++ o.rc) (fun o _ st =>
    lengthOk (o.c st) 393216 ∧ spOk (regs st o).1 128 (o.c st).toNat ∧ glOk (regs st o).2) ∧
  HodEnters .hcopyG2t 0 (fun o => ab o ++ o.rd) (fun o _ st => glOk (regs st o).2) ∧
  HodEnters .hfill 0xA (fun o => ab o ++ o.rc) (fun o _ st => lengthOk (o.c st) 393216 ∧ spOk (regs st o).1 128 (o.c st).toNat) ∧
  HodEnters .hfillT 0xA (fun o => ab o ++ o.rd) (fun _ _ _ => True) ∧
  HodEnters .htile 1 (fun o => ab o ++ o.rc) (fun o _ st => (regs st o).1.toNat % 128 = 0) ∧
  HodEnters .htwr 2 (fun o => ab o ++ o.rc) (fun o _ st => (regs st o).1.toNat % 128 = 0) ∧
  HodEnters .hsched 3 (fun o => [.s o.a.toNat]) (fun o _ st => (regs st o).1 = 0 ∨ glOk (regs st o).1) ∧
  HodEnters .hstep 4 (fun o => [.s o.a.toNat]) (fun o _ st => ((regs st o).1.toNat + o.f.toNat) % 2 ^ 32 ≠ 0) ∧
  HodEnters .hmcast 5 (fun o => ab o ++ o.rc) (fun o _ st =>
    (match o.x with | some x => x.ext.toNat | none => 0) % 16 ≠ 0 ∧ lengthOk (o.c st) 65536 ∧ spOk (regs st o).1 128 (o.c st).toNat ∧ spOk (regs st o).2 128 (o.c st).toNat) ∧
  HodEnters .hmwait 6 (fun _ => []) (fun _ _ _ => True) ∧
  HodEnters .hadd 7 (fun o => ab o ++ o.rc) (fun o _ st =>
    0 < (o.c st).toNat ∧ (o.c st).toNat ≤ 1024 ∧
    (if o.f.toNat % 2 = 1 then glOk (regs st o).1 else spOk (regs st o).1 128 (256 * (o.c st).toNat))) ∧
  HodEnters .hpub 8 pub (fun _ _ _ => True) ∧
  HodEnters .hpubRing 8 pub (fun o _ st => spOk (regs st o).1 64 64)) ∧
  ((∀ o s n, WellFormed (.hwm o) = true → Issues s n ([.s o.a.toNat, .s o.b.toNat] ++ o.rc) [] 0 →
    let st := s.strand n
    let lo := (st.getS o.a.toNat).toNat
    let hi := (st.getS o.b.toNat).toNat
    let off := (o.c st).toNat
    lo % 128 = 0 → (hi + 1) % 128 = 0 → lo ≤ hi → hi < 0x60000 → hi - lo + 1 ≤ 131072 → off % 128 = 0 → off ≤ hi + 1 - lo →
    exec (.hwm o) s = .next (s.issued n (bundleLen (.hwm o)) [] (fun t => t.onCore (n / 8) (fun co =>
      { co with wm := put .off co.wm o.ch.toNat ⟨true, BitVec.ofNat 19 lo, BitVec.ofNat 19 hi, BitVec.ofNat 19 (lo + off), []⟩ })))) ∧
  (∀ o s n, WellFormed (.hwmOff o) = true → Issues s n [] [] 0 →
    exec (.hwmOff o) s = .next (s.issued n (bundleLen (.hwmOff o)) [] (fun t => t.onCore (n / 8) (fun co =>
      let w := look .off co.wm o.ch.toNat
      { co with wm := put .off co.wm o.ch.toNat ⟨false, w.lo, w.hi, w.wm, []⟩ })))) ∧
  (∀ o s n, WellFormed (.hstat o) = true → Issues s n [] [.s o.a.toNat] 0 →
    let h := (s.cluster (n / 32)).chan (n / 8 % 4 * 16 + o.ch.toNat)
    let head := match h.queue with | m :: _ => m.id | [] => 0xFFFFFFFF
    exec (.hstat o) s = .next (s.issued n (bundleLen (.hstat o)) [lres (s.strand n) o.a 1
      (head * 2 ^ 32 + (if h.halted then 2 ^ 31 else 0) + (if h.bound.isSome then 2 ^ 30 else 0) + h.queue.length) false])) ∧
  (∀ o s n, WellFormed (.hstatStage o) = true → Issues s n [] [.s o.a.toNat] 0 →
    let h := (s.cluster (n / 32)).chan (n / 8 % 4 * 16 + o.ch.toNat)
    exec (.hstatStage o) s = .next (s.issued n (bundleLen (.hstatStage o)) [lres (s.strand n) o.a 1 (h.stage % 2 ^ 32) false])) ∧
  (∀ o s n, WellFormed (.hstatLast o) = true → Issues s n [] [.s o.a.toNat] 0 →
    let h := (s.cluster (n / 32)).chan (n / 8 % 4 * 16 + o.ch.toNat)
    exec (.hstatLast o) s = .next (s.issued n (bundleLen (.hstatLast o)) [lres (s.strand n) o.a 1 (h.last.getD 0xFFFFFFFF) false])))

/-- R41, R274, R291, R292, R293: LAUNCH leaves for its home slice and makes its register pending, and traps ALIGNMENT for an address that
is not canonical or not aligned to 64; SPAWN makes a child with half its parent's weight, or answers that the queue is full; without
weight to share it traps, and with an entry that may not be a target it does. EXIT commits, ends the task without an error and lets the
core select; EXIT.ERR gives its launch its error code, in a repeated bundle at the commit of each iteration, and ends the task with the
last. The first code of a launch stays, and its STATUS is at least ERROR. A strand whose task ends drops its results in flight and issues
nothing more: it drains, or is FREE. -/
def Obligations.LaunchSpawnAndExit : Prop :=
  ((∀ o s n, WellFormed (.launch o) = true → Issues s n [.s o.a.toNat] [.s o.d.toNat] 0 →
    let st := s.strand n
    let a := st.getS o.a.toNat
    let sem := (match o.x with | some x => x.ext.toNat | none => 0) % 16
    (a.setWidth 57).signExtend 64 = a → a.toNat % 64 = 0 →
    exec (.launch o) s = .next (s.issued n (bundleLen (.launch o)) [] (fun t =>
      (t.onStrand n (fun st => { st.setPending (.s o.d.toNat) true with answers := st.answers ++ [⟨a, .s o.d.toNat, sem, none⟩] })).onDie
        (launchDie t (dieOfStrand n) (s.ctxOf n) a.toNat) (fun x => { x with
          launches := x.launches ++ [⟨.task n st.ctxh.toNat st.launch.toNat st.task.toNat, a, st.ctxh.toNat, none,
            match s.taskOf n with | some (l, _) => l.iter | none => false⟩] })))) ∧
  (∀ o s n, WellFormed (.launch o) = true → Issues s n [.s o.a.toNat] [.s o.d.toNat] 0 →
    let a := (s.strand n).getS o.a.toNat
    let traps (d : Nat) : Prop := exec (.launch o) s = .next (s.trapsAt n (bundleLen (.launch o))
      { cause := 0x0A, detail := d, faddr := a, slot := 0 })
    ((a.setWidth 57).signExtend 64 ≠ a → traps 0x0501) ∧
    ((a.setWidth 57).signExtend 64 = a → a.toNat % 64 ≠ 0 → traps 0x0500)) ∧
  (let kid (o : RG) (s : State) (n : Nat) (l : Launch) (p : Task) (at_ : Option Word) : Task :=
    { id := l.nextChild % 2 ^ 32, die := dieOfStrand n, weight := p.weight / 2, run := .ready,
      child := some ((s.strand n).getS o.a.toNat, at_, match o.x with | some x => (s.strand n).getS x.c.toNat | none => 0) }
   let made (o : RG) (s : State) (n : Nat) (l : Launch) (p : Task) (at_ : Option Word) (t : State) : State :=
    t.onLaunch (s.ctxOf n) (s.strand n).launch.toNat (fun x =>
      let y := x.onTask (s.strand n).task.toNat (fun q => { q with weight := q.weight - p.weight / 2 })
      { y with nextChild := (y.nextChild + 1) % 2 ^ 32, tasks := y.tasks ++ [kid o s n l p at_] })
   (∀ o s n l p, WellFormed (.spawn o) = true →
      Issues s n ([.s o.a.toNat] ++ (match o.x with | some x => [.s x.c.toNat] | none => [])) [.s o.d.toNat] 0 →
      s.taskOf n = some (l, p) → 2 ≤ p.weight →
      exec (.spawn o) s = .next (if s.childQueue (dieOfStrand n) < 65536
        then s.issued n (bundleLen (.spawn o)) [lres (s.strand n) o.d 1 (l.nextChild % 2 ^ 32) false] (made o s n l p none)
        else s.issued n (bundleLen (.spawn o)) [lres (s.strand n) o.d 1 (2 ^ 56) false])) ∧
   (∀ o s n l p, WellFormed (.spawnAt o) = true →
      Issues s n ([.s o.a.toNat, .s o.b.toNat] ++ (match o.x with | some x => [.s x.c.toNat] | none => [])) [.s o.d.toNat] 0 →
      s.taskOf n = some (l, p) → 2 ≤ p.weight → mayTarget ((s.strand n).getS o.b.toNat) →
      exec (.spawnAt o) s = .next (if s.childQueue (dieOfStrand n) < 65536
        then s.issued n (bundleLen (.spawnAt o)) [lres (s.strand n) o.d 1 (l.nextChild % 2 ^ 32) false]
          (made o s n l p (some ((s.strand n).getS o.b.toNat)))
        else s.issued n (bundleLen (.spawnAt o)) [lres (s.strand n) o.d 1 (2 ^ 56) false]))) ∧
  (∀ o s n l p, WellFormed (.spawn o) = true →
    Issues s n ([.s o.a.toNat] ++ (match o.x with | some x => [.s x.c.toNat] | none => [])) [.s o.d.toNat] 0 →
    s.taskOf n = some (l, p) → p.weight < 2 →
    exec (.spawn o) s = .next (s.trapsAt n (bundleLen (.spawn o)) { cause := 0x0C, detail := 0, slot := 0 })) ∧
  (∀ o s n l p, WellFormed (.spawnAt o) = true →
    Issues s n ([.s o.a.toNat, .s o.b.toNat] ++ (match o.x with | some x => [.s x.c.toNat] | none => [])) [.s o.d.toNat] 0 →
    s.taskOf n = some (l, p) →
    let a := (s.strand n).getS o.b.toNat
    (p.weight < 2 → exec (.spawnAt o) s = .next (s.trapsAt n (bundleLen (.spawnAt o)) { cause := 0x0C, detail := 0, slot := 0 })) ∧
    (2 ≤ p.weight → ¬ mayTarget a → exec (.spawnAt o) s = .next (s.trapsAt n (bundleLen (.spawnAt o))
      { cause := 0x0A, detail := if a.toNat % 4 ≠ 0 then 0x0100 else 0x0101, faddr := a, slot := 0 })))) ∧
  ((∀ o s n, WellFormed (.exit o) = true → Issues s n [] [] 0 →
    exec (.exit o) s = .next (((s.issued n (bundleLen (.exit o)) []).endTask n 0 none).select (n / 8))) ∧
  (∀ o s n, WellFormed (.exitErr o) = true → Issues s n [.s o.a.toNat] [] 0 →
    let code := ((s.strand n).getS o.a.toNat).toNat % 65536
    exec (.exitErr o) s = .next ((((s.issued n (bundleLen (.exitErr o)) []).exitErr n code).endTask n 1 (some code)).select (n / 8))) ∧
  (∀ s n t ws hd o, Bundle s n t ws 0 → frame ws = .ok (hd, [(.ct, .ok (.exitErr o))]) → (t.strand n).eng = [] →
    (t.strand n).pending (.s o.a.toNat) = false → (t.strand n).poisoned (.s o.a.toNat) = false → leftOf (t.strand n).res hd.repeats ≠ 0 →
    exec (.bundleIssue (n / 8)) s = .next ((t.iterated n hd.len (leftOf (t.strand n).res hd.repeats) ws [] []).exitErr n
      (((t.strand n).getS o.a.toNat).toNat % 65536))) ∧
  (∀ (s : State) n code l k, s.taskOf n = some (l, k) →
    (s.exitErr n code).taskOf n = some ({ l with status := max 1 l.status, errcode := some (l.errcode.getD code) }, k)) ∧
  (∀ (s : State) n status err, let st := (s.endTask n status err).strand n
    (st.run = .blocked .ending ∨ st.run = .free) ∧ st.pipe = [] ∧ st.z = [] ∧ st.delay = none ∧ st.save = none))

/-- R295, R296, R297, R299, R304: BAR and BAR.ARRIVE arrive in the open phase of the task's domain, BAR.ARRIVE blocking while the phase of
its last arrival is open; BAR.WAIT goes on when the phase of its arrival has completed and blocks before; without an arrival it traps
ILLEGAL_OP 0x0501; outside a domain they trap ILLEGAL_OP 0x0500. TAGWAIT goes on when its tag or its producer is there, blocks while it
may come, and traps STALE_TAG when it is past. -/
def Obligations.BarriersAndTagWaits : Prop :=
  ((∀ o s n, WellFormed (.bar o) = true → Issues s n [] [] 0 → domLevel (s.strand n).domain ≠ 0 →
    exec (.bar o) s = .next (s.issued n (bundleLen (.bar o)) [] (fun t => t.arrive n true))) ∧
  (∀ o s n, WellFormed (.barArrive o) = true → Issues s n [] [] 0 → domLevel (s.strand n).domain ≠ 0 →
    exec (.barArrive o) s = .next (if (s.strand n).barPhase = some (s.phaseOf n) then s.blocksAt n (.phase (s.phaseOf n))
      else s.issued n (bundleLen (.barArrive o)) [] (fun t => t.arrive n false))) ∧
  (∀ o s n, WellFormed (.barWait o) = true → Issues s n [] [] 0 → domLevel (s.strand n).domain ≠ 0 → (s.strand n).barPhase = none →
    exec (.barWait o) s = .next (s.trapsAt n (bundleLen (.barWait o)) { cause := 0x02, detail := 0x0501, slot := 0 })) ∧
  (∀ o s n ph, WellFormed (.barWait o) = true → Issues s n [] [] 0 → domLevel (s.strand n).domain ≠ 0 →
    (s.strand n).barPhase = some ph →
    exec (.barWait o) s = .next (if ph = s.phaseOf n then s.blocksAt n (.phase ph)
      else s.issued n (bundleLen (.barWait o)) [] (fun t => t.observePhase n))) ∧
  (∀ i s n, (∃ o, i = .bar o) ∨ (∃ o, i = .barArrive o) ∨ (∃ o, i = .barWait o) →
    WellFormed i = true → Issues s n [] [] 0 → domLevel (s.strand n).domain = 0 →
    exec i s = .next (s.trapsAt n (bundleLen i) { cause := 0x02, detail := 0x0500, slot := 0 })) ∧
  (∀ (s : State) n w, let t := s.arrive n w
    (t.strand n).barPhase = some (s.phaseOf n) ∧ (t.strand n).gnum = (s.strand n).gnum + 1 ∧
    (t.strand n).arrivals = (s.strand n).arrivals ++ [((s.strand n).gnum, levelScope (domLevel (s.strand n).domain))] ∧
    (t.strand n).barWait = (if w then some (s.phaseOf n) else (s.strand n).barWait) ∧ t.mem = s.mem)) ∧
  (∀ o s n, WellFormed (.tagwait o) = true →
    Issues s n ([.s o.a.toNat] ++ (match o.x with | some x => [.s x.c.toNat] | none => [])) [] 0 →
    let st := s.strand n
    let key := st.getS o.a.toNat
    let prod : BitVec 32 := match o.x with | some x => (st.getS x.c.toNat).setWidth 32 | none => 0
    exec (.tagwait o) s = .next (match s.judgeKey (s.ctxOf n) key.toNat prod.toNat with
      | .stale => s.trapsAt n (bundleLen (.tagwait o)) { cause := 0x12, detail := 0x0504, slot := 0 }
      | .waits => s.blocksAt n (.tag key prod)
      | .satisfied _ => s.issued n (bundleLen (.tagwait o)) [] (fun t =>
          if o.f.toNat % 8 = 4 then t.onDie (dieOfStrand n) Die.dropClean else t)))

/-- R351, R354, R355, R356, R357: CSWITCH outside a handler, of a task that does not persist, to a live context of its key domain, answers
2 without a free save area, 1 without a task to run, and otherwise gives its strand to the task chosen, a READY one of the context: the
strand is being saved with s[D] = 0 and the chosen task is on offer. It blocks while the read of a task's kernel descriptor waits. CSWITCH
traps ILLEGAL_OP in a handler (0x0700) and in a task of a persistent launch (0x0701), STALE_HANDLE 0x0700 for a stale handle and
PERMISSION 0x0700 for a context of another key domain, in that order. PARK in a handler traps ILLEGAL_OP 0x0700; outside one it takes a
pending wake, answers 2 at once for a deadline that has passed, and otherwise parks its task: its strand is being saved, or waits in place
where the launch persists or no save area is free, and its context counts it. WAKE of a live handle of the same key domain sends its
request to the home slice; a stale handle and one of another domain trap. -/
def Obligations.SwitchParkAndWake : Prop :=
  ((∀ o s n, WellFormed (.cswitch o) = true → Issues s n [.s o.a.toNat] [.s o.d.toNat] 0 → (s.strand n).tl = false →
    (∀ l p, s.taskOf n = some (l, p) → l.persist = false) →
    let h := ((s.strand n).getS o.a.toNat).toNat % 2 ^ 32
    let c := s.ctxOf n
    s.liveHandle h = true → (s.ctx (ctxIdx h)).keydom = (s.ctx c).keydom →
    exec (.cswitch o) s = .next (if (s.ctx c).freeArea.isNone then
        s.issued n (bundleLen (.cswitch o)) [lres (s.strand n) o.d 1 2 false]
      else match (counted s n).cswitchPick n (ctxIdx h) with
        | .none => s.issued n (bundleLen (.cswitch o)) [lres (s.strand n) o.d 1 1 false] (fun t => t.used (.choose n))
        | .wait _ => s.blocksAt n (.choosing (ctxIdx h))
        | .task l t => (s.issued n (bundleLen (.cswitch o)) [] (fun t => t.used (.choose n))).switchTo n o.d.toNat (ctxIdx h) l.id t.id)) ∧
  (∀ (s : State) n c l t, s.cswitchPick n c = .task l t →
    l ∈ (s.ctx c).launches ∧ t ∈ l.tasks ∧ t.run = .ready ∧ t.held = false ∧ l.persist = false ∧ (s.ctx c).state ≠ 2) ∧
  (∀ (s : State) n d c lid t, let u := s.switchTo n d c lid t
    (u.strand n).run = .blocked .saving ∧ (u.strand n).save = some (.cswitch c lid t d) ∧ (u.strand n).swhy = 0xF1 ∧
    (u.strand n).getS d = 0 ∧ (∀ i, i ≠ d → (u.strand n).getS i = (s.strand n).getS i) ∧ (u.strand n).pipe = [] ∧
    (u.die (c % 4)).spent = true ∧ u.mem = s.mem ∧
    ∀ l k, s.task? c lid t = some (l, k) →
      u.task? c lid t = some (l.onTask t (fun q => { q with run := .offered }), { k with run := .offered }))) ∧
  (∀ o s n, WellFormed (.cswitch o) = true → Issues s n [.s o.a.toNat] [.s o.d.toNat] 0 →
    let h := ((s.strand n).getS o.a.toNat).toNat % 2 ^ 32
    let stays := match s.taskOf n with | some (l, _) => l.persist | none => false
    let traps (c d : Nat) : Prop := exec (.cswitch o) s = .next (s.trapsAt n (bundleLen (.cswitch o)) { cause := c, detail := d, slot := 0 })
    ((s.strand n).tl = true → traps 0x02 0x0700) ∧
    ((s.strand n).tl = false → stays = true → traps 0x02 0x0701) ∧
    ((s.strand n).tl = false → stays = false → s.liveHandle h = false → traps 0x13 0x0700) ∧
    ((s.strand n).tl = false → stays = false → s.liveHandle h = true → (s.ctx (ctxIdx h)).keydom ≠ (s.ctx (s.ctxOf n)).keydom →
      traps 0x11 0x0700)) ∧
  ((∀ o s n, WellFormed (.park o) = true → Issues s n [.s o.a.toNat] [.s o.d.toNat] 0 → (s.strand n).tl = true →
    exec (.park o) s = .next (s.trapsAt n (bundleLen (.park o)) { cause := 0x02, detail := 0x0700, slot := 0 })) ∧
  (∀ (s : State) n d deadline l k, s.taskOf n = some (l, k) →
    let c := s.ctxOf n
    let here := l.persist = true ∨ (s.ctx c).freeArea = none
    let u := s.parkTask n d deadline
    (here → (u.strand n).run = .blocked (.parked false) ∧ (u.strand n).save = (s.strand n).save) ∧
    (¬ here → (u.strand n).run = .blocked .saving ∧ (u.strand n).save = some .park) ∧ (u.strand n).swhy = 0xF1 ∧
    (u.strand n).s = (s.strand n).s ∧ (u.strand n).pipe = [] ∧ (u.ctx c).pkev = (s.ctx c).pkev + 1 ∧
    u.task? c (s.strand n).launch.toNat (s.strand n).task.toNat = some (l.onTask (s.strand n).task.toNat (fun q =>
      { q with parked := .park deadline d }), { k with parked := .park deadline d })) ∧
  ∀ o s n, WellFormed (.park o) = true → Issues s n [.s o.a.toNat] [.s o.d.toNat] 0 → (s.strand n).tl = false →
    let a := (s.strand n).getS o.a.toNat
    exec (.park o) s = .next (if (s.ctx (s.ctxOf n)).wakepend then
        s.issued n (bundleLen (.park o)) [lres (s.strand n) o.d 1 1 false]
          (fun t => t.onCtx (s.ctxOf n) (fun x => { x with wakepend := false }))
      else if a ≠ 0 ∧ a.toNat ≤ s.gtime.toNat then s.issued n (bundleLen (.park o)) [lres (s.strand n) o.d 1 2 false]
      else (s.issued n (bundleLen (.park o)) []).parkTask n o.d.toNat a)) ∧
  (let us (o : RG) : Nat := match o.x with | some x => x.ext.toNat | none => 0
  let sends (mk : RG → Instr) (f : Nat) (reads : RG → List Reg) (time : RG → Strand → Word) : Prop := (∀ o s n,
    WellFormed (mk o) = true → Issues s n (.s o.a.toNat :: reads o) [] 0 →
    let st := s.strand n
    let h := (st.getS o.a.toNat).toNat % 2 ^ 32
    exec (mk o) s = .next (if s.liveHandle h = false then
        s.trapsAt n (bundleLen (mk o)) { cause := 0x13, detail := 0x0700, slot := 0 }
      else if (s.ctx (ctxIdx h)).keydom ≠ (s.ctx (s.ctxOf n)).keydom then
        s.trapsAt n (bundleLen (mk o)) { cause := 0x11, detail := 0x0700, slot := 0 }
      else s.issued n (bundleLen (mk o)) [] (fun t => (t.onStrand n (fun st => { st with gnum := st.gnum + 1 })).onDie (h % 4) (fun x =>
        { x with wakes := x.wakes ++ [⟨h, f, time o st, n, st.gnum⟩] }))))
  sends .wake 0 (fun _ => []) (fun _ _ => 0) ∧ sends .wakeAt 1 (fun o => [.s o.b.toNat]) (fun o st => st.getS o.b.toNat) ∧
  sends .wakeIn 2 (fun o => [.s o.b.toNat]) (fun o st => st.getS o.b.toNat + BitVec.ofNat 64 (1000 * us o)))

/-- R358, R405: ESTSET states the work left, saturating, with the strand cycle it counts from; ESTSET.WAKE predicts the context's next
need; PBAR enters the store queue. -/
def Obligations.EstimatesAndPersistBarrier : Prop :=
  let ext (o : RG) : Nat := match o.x with | some x => x.ext.toNat | none => 0
  (∀ o s n, WellFormed (.estset o) = true → Issues s n [.s o.a.toNat] [] 0 →
    let v := ((s.strand n).getS o.a.toNat).toNat + ext o
    exec (.estset o) s = .next (s.issued n (bundleLen (.estset o)) [] (fun t => t.onStrand n (fun st =>
      { st with est := BitVec.ofNat 64 (min v (2 ^ 64 - 1)), estBase := (s.strand n).scyc })))) ∧
  (∀ o s n, WellFormed (.estsetWake o) = true → Issues s n [.s o.a.toNat] [] 0 →
    exec (.estsetWake o) s = .next (s.issued n (bundleLen (.estsetWake o)) [] (fun t => t.onCtx (s.ctxOf n) (fun x =>
      { x with wake := s.gtime + (s.strand n).getS o.a.toNat + BitVec.ofNat 64 (1000 * ext o) })))) ∧
  (∀ o s n, WellFormed (.pbar o) = true → Issues s n [] [] 0 →
    exec (.pbar o) s = .next (if 64 ≤ (s.strand n).storeQ.length then s.blocksAt n .storeFull
      else s.issued n (bundleLen (.pbar o)) [] (fun t => t.onStrand n (fun st =>
        st.queue false { asked .pbar 0 0 0 0 with sem := o.d.toNat } none))))

/-- R179, R186, R188 to R195: every micro-op word but MM.MAC, with or without a scale slot. -/
def Obligations.MicroOps : Prop :=
  (∀ c s r, MicroReady s c r none [] [] → (afterWord r.pc r.ml).2 < 4096 →
    exec (.mmNop c) s = .next (s.microRan c r none 1 (afterWord r.pc r.ml).2 r.past (s.core c) (s.cluster (c / 4)))) ∧
  (∀ c o s r, MicroReady s c r (some o) [] [] → (afterWord r.pc r.ml).2 < 4096 →
    exec (.mmScl c o) s = .next (s.microRan c r (some o) 1 (afterWord r.pc r.ml).2 r.past (s.core c) (s.cluster (c / 4)))) ∧
  (∀ c o scl s r, MicroReady s c r scl [] [] → (afterWord r.pc r.ml).2 < 4096 →
    let n := o.nm1.toNat + 1
    let a := (r.ptr o.p.toNat).toNat % 1024
    (∀ i < n, bitOf r.ownOf (bankOf (a + i)) = true) →
    exec (.mmClr c o scl) s = .next (s.microRan c r scl ((n + 15) / 16) (afterWord r.pc r.ml).2 (r.past.adv o.p.toNat)
      ((List.range n).foldl (fun co i => co.clearRow (a + i)) (s.core c)) (s.cluster (c / 4)))) ∧
  (∀ c o scl s r, MicroReady s c r scl [] [] → (afterWord r.pc r.ml).2 < 4096 →
    let n := o.nm1.toNat + 1
    let a := (r.ptr o.p.toNat).toNat % 1024
    let co := s.core c
    o.pos.toNat + n ≤ 256 → (∀ i < n, bitOf r.ownOf (bankOf (a + i)) = true) →
    (s.cluster (c / 4)).accepts o.slot.toNat c = true →
    exec (.mmDrn c o scl) s = .next (s.microRan c r scl ((n + 3) / 4) (afterWord r.pc r.ml).2 (r.past.adv o.p.toNat)
      (if o.clr = 1 then (List.range n).foldl (fun co i => co.clearRow (a + i)) co else co)
      ((List.range n).foldl (fun cl i => cl.drain c o.slot.toNat (o.pos.toNat + i) (co.row (a + i)) (co.rowP (a + i)))
        (s.cluster (c / 4))))) ∧
  (∀ c o scl s r, MicroReady s c r scl [] [] → (afterWord r.pc r.ml).2 < 4096 → setpRsv o = false →
    let v : BitVec 32 := if o.src.toNat < 8 then
        (if o.half = 1 then (r.mOf.getD o.src.toNat 0 >>> 32).setWidth 32 else (r.mOf.getD o.src.toNat 0).setWidth 32)
      else if o.src.toNat = 8 then BitVec.ofNat 32 r.argOf else 0
    let r1 : Routine := { r.past with mp := put 0 r.mp o.p.toNat (if o.add = 1 then r.ptr o.p.toNat + v else v) }
    exec (.mmSetp c o scl) s = .next (s.microRan c r scl 1 (afterWord r.pc r.ml).2
      (if o.keep = 1 then r1 else { r1 with stride := put 0 r1.stride o.p.toNat o.stride.toInt }) (s.core c) (s.cluster (c / 4)))) ∧
  (∀ c o scl s r, MicroReady s c r scl [] [] → mloopRsv o = false → r.pc < o.fin.toNat →
    let n := if o.src.toNat < 8 then (r.mOf.getD o.src.toNat 0).toNat % 65536 else if o.src.toNat = 8 then r.argOf else o.imm.toNat
    let l := if n = 0 then afterWord o.fin.toNat (del r.ml o.l.toNat)
      else afterWord r.pc (upd r.ml o.l.toNat (n, r.pc + 1, o.fin.toNat))
    l.2 < 4096 →
    exec (.mmLoop c o scl) s = .next (s.microRan c r scl 1 l.2 { r with ml := l.1 } (s.core c) (s.cluster (c / 4)))) ∧
  (∀ c o scl s r, MicroReady s c r scl [] [] →
    (o.cond = 0 ∨ bitOf r.argOf o.bit.toNat = true) ∨ (afterWord r.pc r.ml).2 < 4096 →
    exec (.mmJmp c o scl) s = .next (if o.cond = 0 ∨ bitOf r.argOf o.bit.toNat = true
      then s.microRan c r scl 1 o.target.toNat r (s.core c) (s.cluster (c / 4))
      else s.microRan c r scl 1 (afterWord r.pc r.ml).2 r.past (s.core c) (s.cluster (c / 4)))) ∧
  (∀ c scl s r, MicroReady s c r scl [] [] → r.pc < 4096 →
    let done : Routine := { r with block := none, kphase := 0, ml := [], done := some none }
    exec (.mmEnd c scl) s = .next (match r.block with
      | none => s.microRan c r scl 1 r.pc done (s.core c) (s.cluster (c / 4))
      | some b => s.microRan c r scl 1 r.pc done (completeBlock b r (s.core c)).1 (s.cluster (c / 4)) (completeBlock b r (s.core c)).2))

/-- R170, R172, R175, R187: MM.MAC adds the product step of its operands to the open block of its routine, and completes the block where
its class needs no more or KLAST asks for it. -/
def Obligations.MatrixMac : Prop :=
  ∀ c (o : MmMac) scl (s : State) (r : Routine) m n k,
    let ea := o.ea.toNat
    let eb := o.eb.toNat
    let cls := mmClass ea
    let pa := (r.ptr o.pa.toNat).toNat
    let pb := (r.ptr o.pb.toNat).toNat
    let d := r.ptr o.pd.toNat
    let na := m * k * efmtWidth ea / 8
    let nb := n * k * efmtWidth eb / 8
    let co := s.core c
    mmClass eb = cls → mmShape cls o.shape.toNat = some (m, n, k) → (cls = 5 ↔ r.gangOf = 1) → (cls = 6 ↔ r.gangOf = 2) →
    (o.satm = 1 → cls = 1) →
    (∀ b, r.block = some b → r.kphase ≠ 0 → b.d = d ∧ b.ea = ea ∧ b.eb = eb ∧ b.shape = o.shape.toNat) →
    placed pa na → placed pb nb → pa / 0x18000 ≠ pb / 0x18000 →
    (∀ i < m * n * (if cls = 6 then 2 else 1) / 64, bitOf r.ownOf (bankOf (d.toNat % 1024 + i)) = true) →
    MicroReady s c r scl [(pa, na), (pb, nb)] [pa / 0x18000, pb / 0x18000] → (afterWord r.pc r.ml).2 < 4096 →
    let b0 : Block := match r.block with
      | some b => b
      | none => ⟨d, ea, eb, o.shape.toNat, o.zero = 1, o.satm = 1, 0, 0, [], false⟩
    let b : Block := { b0 with
      sca := o.sca.toNat, scb := o.scb.toNat, steps := b0.steps ++ [(co.sp pa na, co.sp pb nb)],
      poison := b0.poison || co.spPoison pa na || co.spPoison pb nb }
    let moved := ((if cls = 5 ∨ cls = 6 ∨ r.kphase + k = 32 ∨ o.klast = 1 then [o.pd.toNat] else []) ++
      [o.pa.toNat, o.pb.toNat]).eraseDups.foldl Routine.adv r.past
    exec (.mmMac c o scl) s = .next (if cls = 5 ∨ cls = 6 ∨ r.kphase + k = 32 ∨ o.klast = 1
      then s.microRan c r scl 1 (afterWord r.pc r.ml).2 { moved with kphase := 0, block := none }
        (completeBlock b r co).1 (s.cluster (c / 4)) (completeBlock b r co).2
      else s.microRan c r scl 1 (afterWord r.pc r.ml).2 { moved with kphase := r.kphase + k, block := some b } co (s.cluster (c / 4)))

/-- R122, R123, R124, R125, R171, R175, R176: completing an integer block adds to each word of its tile the exact sum of the products of
its row of A and its row of B, wrapping or saturating as SATM says, and changes no other row. Completing a block of a floating-point or
microscaled class adds to each word of its tile the sum of the products of its rows, each cut toward zero 30 places below the greatest,
scaled and rounded once; NaN scales, NaN elements and infinities give what R123 says; a ganged block adds one fused product. The rows
written carry the poison of what they are made of, and no other row changes. -/
def Obligations.CompletedBlocks : Prop :=
  (∀ (b : Block) (r : Routine) (co : Core) (m n k : Nat), mmClass b.ea = 1 → mmClass b.eb = 1 → mmShape 1 b.shape = some (m, n, k) →
    let d := b.d.toNat % 1024
    let sum (i j : Nat) : Int := (b.steps.flatMap (fun st => (List.range k).map (fun q =>
      (if b.ea = 0xC then sext 8 (fld st.1 (8 * (i * k + q)) 8) else (fld st.1 (8 * (i * k + q)) 8 : Nat)) *
        (if b.eb = 0xC then sext 8 (fld st.2 (8 * (j * k + q)) 8) else (fld st.2 (8 * (j * k + q)) 8 : Nat))))).sum
    d + m * n / 64 ≤ 1024 →
    (∀ i < m, ∀ j < n,
      let old : Int := if b.zero then 0 else sext 32 (lane (co.row (d + (n * i + j) / 64)) (j % 64))
      lane ((completeBlock b r co).1.row (d + (n * i + j) / 64)) (j % 64) =
        if b.satm then clampT 32 true (old + sum i j) else wrap 32 (old + sum i j)) ∧
    ((completeBlock b r co).2 = true ↔ b.satm = true ∧ ∃ i < m, ∃ j < n,
      let v : Int := (if b.zero then 0 else sext 32 (lane (co.row (d + (n * i + j) / 64)) (j % 64))) + sum i j
      v < -(2 ^ 31) ∨ 2 ^ 31 ≤ v) ∧
    (∀ x < 1024, x < d ∨ d + m * n / 64 ≤ x → (completeBlock b r co).1.row x = co.row x)) ∧
  ((∀ (b : Block) (r : Routine) (co : Core) (m n k : Nat),
    let cls := mmClass b.ea
    cls = 0 ∨ cls = 2 ∨ cls = 3 ∨ cls = 4 → mmClass b.eb = cls → mmShape cls b.shape = some (m, n, k) →
    let d := b.d.toNat % 1024
    let wa := efmtWidth b.ea
    let wb := efmtWidth b.eb
    let pairs (i j : Nat) : List (FVal × FVal) := b.steps.flatMap (fun st => (List.range k).map (fun q =>
      (elemVal b.ea (fld st.1 (wa * (i * k + q)) wa), elemVal b.eb (fld st.2 (wb * (j * k + q)) wb))))
    let sa (i : Nat) : Nat := if efmtScaled b.ea then fld (r.scale b.sca).toNat (8 * i) 8 else 127
    let sb (j : Nat) : Nat := if efmtScaled b.eb then fld (r.scale b.scb).toNat (8 * j) 8 else 127
    let infinite (x : FVal) : Bool := !x.finite && !x.isNan
    d + m * n / 64 ≤ 1024 → ∀ i < m, ∀ j < n,
      let old : Nat := if b.zero then 0 else lane (co.row (d + (n * i + j) / 64)) (j % 64)
      let new := lane ((completeBlock b r co).1.row (d + (n * i + j) / 64)) (j % 64)
      let a := decodeF f32 old
      let ps : List ℚ := (pairs i j).map (fun p => p.1.rat * p.2.rat)
      let nan : Prop := sa i = 0xFF ∨ sb j = 0xFF ∨ ∃ p ∈ pairs i j, p.1.isNan = true ∨ p.2.isNan = true ∨
        (infinite p.1 = true ∧ p.2.isZero = true) ∨ (p.1.isZero = true ∧ infinite p.2 = true)
      let inf (neg : Bool) : Prop := ∃ p ∈ pairs i j, (infinite p.1 || infinite p.2) = true ∧ (p.1.neg != p.2.neg) = neg
      (sa i ≠ 0xFF → sb j ≠ 0xFF → (∀ p ∈ pairs i j, p.1.finite = true ∧ p.2.finite = true) →
        ((∀ x ∈ ps, x = 0) → new = old) ∧
        (∀ top : Int, (∃ x ∈ ps, x ≠ 0 ∧ Int.log 2 |x| = top) → (∀ x ∈ ps, x ≠ 0 → Int.log 2 |x| ≤ top) →
          let g : ℚ := 2 ^ (top - 30)
          let sum : ℚ := (ps.map (fun x => (if x < 0 then -1 else 1) * (⌊|x| / g⌋ : ℚ) * g)).sum
          let t := a.rat + sum * 2 ^ ((sa i : Int) - 127 + ((sb j : Int) - 127))
          (a.finite = true → t ≠ 0 → ∃ fl, RoundsTo f32 false 0 0 t (new, fl)) ∧
          (a.finite = true → t = 0 → new % 2 ^ 31 = 0) ∧ (a.finite = false → new = if a.isNan then f32.nanCode else old))) ∧
      (nan → new = f32.nanCode) ∧ (¬ nan → inf true → inf false → new = f32.nanCode) ∧
      (¬ nan → ∀ neg, inf neg → ¬ inf (!neg) →
        new = if a.isNan ∨ a = .inf (!neg) then f32.nanCode else signOf f32 neg + f32.infCode)) ∧
  (∀ (b : Block) (r : Routine) (co : Core) st, mmClass b.ea = 5 → mmClass b.eb = 5 → b.shape = 0 → b.steps = [st] →
    let d := b.d.toNat % 1024
    d + 128 ≤ 1024 → ∀ i < 128, ∀ j < 64,
      lane ((completeBlock b r co).1.row (d + i)) j = (fFma f32 0 0 false (decodeF f32 (fld st.1 (32 * i) 32))
        (decodeF f32 (fld st.2 (32 * j) 32)) (decodeF f32 (if b.zero then 0 else lane (co.row (d + i)) j))).1) ∧
  (∀ (b : Block) (r : Routine) (co : Core) st, mmClass b.ea = 6 → mmClass b.eb = 6 → b.shape = 0 → b.steps = [st] →
    let d := b.d.toNat % 1024
    d + 64 ≤ 1024 → ∀ i < 64, ∀ j < 32,
      fld ((completeBlock b r co).1.row (d + i)).toNat (64 * j) 64 = (fFma f64 0 0 false (decodeF f64 (fld st.1 (64 * i) 64))
        (decodeF f64 (fld st.2 (64 * j) 64)) (decodeF f64 (if b.zero then 0 else fld (co.row (d + i)).toNat (64 * j) 64))).1) ∧
  (∀ (b : Block) (r : Routine) (co : Core) (m n k : Nat), mmShape (mmClass b.ea) b.shape = some (m, n, k) →
    let d := b.d.toNat % 1024
    let rows := m * n * (if mmClass b.ea = 6 then 2 else 1) / 64
    let bad (scaled : Bool) (reg bytes : Nat) : Bool := scaled && decide ((look 0 r.scP reg).toNat % 2 ^ (bytes / 32) ≠ 0)
    d + rows ≤ 1024 →
    (∀ x < rows, (completeBlock b r co).1.rowP (d + x) = (b.poison || bad (efmtScaled b.ea) b.sca m || bad (efmtScaled b.eb) b.scb n ||
      (!b.zero && co.rowP (d + x)))) ∧
    (∀ x < 1024, x < d ∨ d + rows ≤ x → (completeBlock b r co).1.row x = co.row x ∧ (completeBlock b r co).1.rowP x = co.rowP x)))

/-- R98, R172, R173, R177, R178, R180, R182, R186, R190, R191, R192, R193, R197: a word that fails a check ends its routine there with a
mark of the cause, the detail, its index and the address; nothing else of the word happens. A word that reads above a watermark, or drains
to a slot that does not accept it, waits. The checks of R172 on MM.MAC's operands are made one after the other, each over both operands
(the address recorded where both fail is the model's choice, log 74). The head of a free unit's queue begins; a waiting routine goes on
once nothing it reads is missing; an entry that has ended appends its completion, with its mark, and frees the unit; where its semaphore
is full the completion is held, and appended once there is room, before a later one; that the unit goes on meanwhile is the model's
reading (log 75). -/
def Obligations.MatrixRoutines : Prop :=
  (let fails (s : State) (c : Nat) (r : Routine) (cause detail addr : Nat) : State :=
    s.setCore c { (s.core c) with
      run := some { r with block := none, done := some (some ⟨cause, detail, r.pc, 0, BitVec.ofNat 64 addr⟩) } }
  let waits (s : State) (c : Nat) (r : Routine) : State := s.setCore c { (s.core c) with run := some { r with wait := true } }
  let runs (s : State) (c : Nat) (r : Routine) : Prop := (s.core c).run = some r ∧ r.wait = false ∧ r.done = none
  (∀ c o scl s r, runs s c r → mmClass o.ea.toNat ≠ mmClass o.eb.toNat → exec (.mmMac c o scl) s = .next (fails s c r 0x02 0x0211 0)) ∧
  (∀ c (o : MmMac) scl s r m n k, runs s c r →
    let cls := mmClass o.ea.toNat
    let pa := (r.ptr o.pa.toNat).toNat
    let pb := (r.ptr o.pb.toNat).toNat
    let na := m * k * efmtWidth o.ea.toNat / 8
    let nb := n * k * efmtWidth o.eb.toNat / 8
    let mac (cause detail addr : Nat) : Prop := exec (.mmMac c o scl) s = .next (fails s c r cause detail addr)
    mmClass o.eb.toNat = cls → mmShape cls o.shape.toNat = some (m, n, k) → (cls = 5 ↔ r.gangOf = 1) → (cls = 6 ↔ r.gangOf = 2) →
    (o.satm = 1 → cls = 1) → r.kphase = 0 →
    (pa % 128 ≠ 0 → mac 0x0A 0x0200 pa) ∧
    (pa % 128 = 0 → pb % 128 ≠ 0 → mac 0x0A 0x0200 pb) ∧
    (pa % 128 = 0 → pb % 128 = 0 →
      (0x60000 < pa + na → mac 0x0B 0x0200 pa) ∧ (pa + na ≤ 0x60000 → 0x60000 < pb + nb → mac 0x0B 0x0200 pb) ∧
      (pa + na ≤ 0x60000 → pb + nb ≤ 0x60000 →
        (pa / 0x18000 ≠ (pa + na - 1) / 0x18000 → mac 0x04 0x0001 pa) ∧
        (pa / 0x18000 = (pa + na - 1) / 0x18000 → pb / 0x18000 ≠ (pb + nb - 1) / 0x18000 → mac 0x04 0x0001 pb) ∧
        (placed pa na → placed pb nb → pa / 0x18000 = pb / 0x18000 → mac 0x04 0x0000 pb)))) ∧
  (∀ c (o : MmMac) scl s r, runs s c r →
    let cls := mmClass o.ea.toNat
    let pa := (r.ptr o.pa.toNat).toNat
    let pb := (r.ptr o.pb.toNat).toNat
    let d := r.ptr o.pd.toNat
    let gangs := (cls = 5 ↔ r.gangOf = 1) ∧ (cls = 6 ↔ r.gangOf = 2)
    let mac (cause detail addr : Nat) : Prop := exec (.mmMac c o scl) s = .next (fails s c r cause detail addr)
    mmClass o.eb.toNat = cls →
    (mmShape cls o.shape.toNat = none → mac 0x02 0x0211 0) ∧
    (∀ m n k, mmShape cls o.shape.toNat = some (m, n, k) →
      (¬ gangs → mac 0x02 0x0213 0) ∧ (gangs → o.satm = 1 → cls ≠ 1 → mac 0x02 0x0214 0) ∧
      (gangs → (o.satm = 1 → cls = 1) →
        (∀ b, r.block = some b → r.kphase ≠ 0 → b.d ≠ d ∨ b.ea ≠ o.ea.toNat ∨ b.eb ≠ o.eb.toNat ∨ b.shape ≠ o.shape.toNat →
          mac 0x02 0x0212 0) ∧
        (r.block = none → placed pa (m * k * efmtWidth o.ea.toNat / 8) → placed pb (n * k * efmtWidth o.eb.toNat / 8) →
          pa / 0x18000 ≠ pb / 0x18000 →
          (∃ i < m * n * (if cls = 6 then 2 else 1) / 64, bitOf r.ownOf (bankOf (d.toNat % 1024 + i)) = false) →
          mac 0x03 0x0002 (d.toNat % 1024))))) ∧
  (∀ c o scl s r, runs s c r → mloopRsv o = true → exec (.mmLoop c o scl) s = .next (fails s c r 0x02 0x0210 0)) ∧
  (∀ c o scl s r, runs s c r → o.pos.toNat + (o.nm1.toNat + 1) ≤ 256 →
    let a := (r.ptr o.p.toNat).toNat % 1024
    ((∃ i ≤ o.nm1.toNat, bitOf r.ownOf (bankOf (a + i)) = false) → exec (.mmDrn c o scl) s = .next (fails s c r 0x03 0x0002 a)) ∧
    ((∀ i ≤ o.nm1.toNat, bitOf r.ownOf (bankOf (a + i)) = true) → (afterWord r.pc r.ml).2 < 4096 → scl = none →
      (s.cluster (c / 4)).accepts o.slot.toNat c = false → exec (.mmDrn c o scl) s = .next (waits s c r))) ∧
  (∀ c o s r, runs s c r → (afterWord r.pc r.ml).2 < 4096 → (∀ p ∈ scaleReads r (some o), placed p.1 p.2) →
    (s.core c).unfilledParts (scaleReads r (some o)) = true → exec (.mmScl c o) s = .next (waits s c r)) ∧
  (∀ c o scl s r, runs s c r → setpRsv o = true → exec (.mmSetp c o scl) s = .next (fails s c r 0x02 0x0210 0)) ∧
  (∀ c o scl s r, runs s c r → mloopRsv o = false → o.fin.toNat ≤ r.pc → exec (.mmLoop c o scl) s = .next (fails s c r 0x02 0x0215 0)) ∧
  (∀ c o scl s r, runs s c r → 256 < o.pos.toNat + (o.nm1.toNat + 1) → exec (.mmDrn c o scl) s = .next (fails s c r 0x02 0x0215 0)) ∧
  (∀ c o scl s r, runs s c r → (∃ i ≤ o.nm1.toNat, bitOf r.ownOf (bankOf ((r.ptr o.p.toNat).toNat % 1024 + i)) = false) →
    exec (.mmClr c o scl) s = .next (fails s c r 0x03 0x0002 ((r.ptr o.p.toNat).toNat % 1024))) ∧
  (∀ c o s r, runs s c r → (afterWord r.pc r.ml).2 < 4096 → (r.ptr o.p.toNat).toNat % 128 ≠ 0 →
    exec (.mmScl c o) s = .next (fails s c r 0x0A 0x0200 (r.ptr o.p.toNat).toNat)) ∧
  (∀ c s r, runs s c r → 4096 ≤ (afterWord r.pc r.ml).2 → exec (.mmNop c) s = .next (fails s c r 0x02 0x0216 0))) ∧
  ((∀ c s m q start gang own arg regs, (s.core c).run = none → (s.core c).mxq = m :: q → m.kind = .call start gang own arg regs →
    ∃ t r, exec (.mxEntryBegin c) s = .next t ∧ (t.core c).run = some r ∧ (t.core c).mxq = q ∧ r.entry = m ∧ r.pc = start ∧
      r.done = none ∧ r.wait = false ∧ r.kphase = 0 ∧ r.block = none ∧ (∀ p, r.ptr p = 0 ∧ r.str p = 0) ∧
      (∀ k, ∀ i < 256, fld (r.scale k).toNat (8 * i) 8 = 0x7F) ∧ (t.core c).acc = (s.core c).acc ∧ t.mem = s.mem) ∧
  (∀ c s m q src first n, (s.core c).run = none → (s.core c).mxq = m :: q → m.kind = .ldUc src first n → m.live = true →
    s.mxRoom c m = true →
    ∃ t, exec (.mxEntryBegin c) s = .next t ∧ (t.core c).mxq = q ∧ (t.core c).run = none ∧
      (∀ i < n, (t.core c).word (first + i) = (s.core c).sp (src + 8 * i) 8) ∧
      (∀ k, k < first ∨ first + n ≤ k → (t.core c).word k = (s.core c).word k) ∧
      t.strand (8 * c + m.strand) = (s.strand (8 * c + m.strand)).append m.sem none none (some m.id)) ∧
  (∀ c s m q src first n, (s.core c).run = none → (s.core c).mxq = m :: q → m.kind = .ldRt src first n → m.live = true →
    s.mxRoom c m = true → (∀ i < n, fld ((s.core c).sp (src + 8 * i) 8) 13 33 = 0) →
    ∃ t, exec (.mxEntryBegin c) s = .next t ∧ (t.core c).mxq = q ∧ (t.core c).run = none ∧
      (∀ i < n, (look 0 (t.core c).rtab (first + i)).toNat = (s.core c).sp (src + 8 * i) 8) ∧
      (∀ k, k < first ∨ first + n ≤ k → look 0 (t.core c).rtab k = look 0 (s.core c).rtab k) ∧
      t.strand (8 * c + m.strand) = (s.strand (8 * c + m.strand)).append m.sem none none (some m.id)) ∧
  (∀ c s r, (s.core c).run = some r → r.wait = true → stillWaits c s r = false →
    exec (.routineWatermarkResume c) s = .next (s.setCore c { (s.core c) with run := some { r with wait := false } })) ∧
  (∀ c s r mark, s.mxReleasable c = none → (s.core c).run = some r → r.done = some mark → s.mxRoom c r.entry = false →
    exec (.routineComplete c) s = .next (s.onCore c (fun co => { co with run := none, mxheld := co.mxheld ++ [(r.entry, mark)] }))) ∧
  (∀ c s i m mark, s.mxReleasable c = some i → (s.core c).mxheld[i]? = some (m, mark) → m.live = true →
    (((s.strand (8 * c + m.strand)).sem.map (fun p => (p.2.filter (fun c => c.mark.isSome)).length)).sum < 64) →
    ∃ t, exec (.routineComplete c) s = .next t ∧ (t.core c).run = (s.core c).run ∧
      (t.core c).mxheld.length + 1 = (s.core c).mxheld.length ∧
      t.strand (8 * c + m.strand) = (s.strand (8 * c + m.strand)).append m.sem none mark (some m.id)) ∧
  (∀ (s : State) c i, s.mxReleasable c = some i → ∃ m mark, (s.core c).mxheld[i]? = some (m, mark) ∧
    (m.live = false ∨ (s.strand (8 * c + m.strand)).count m.sem < 0xFFFF)) ∧
  (∀ c s r mark, s.mxReleasable c = none → (s.core c).run = some r → r.done = some mark → r.entry.live = true →
    s.mxRoom c r.entry = true →
    (((s.strand (8 * c + r.entry.strand)).sem.map (fun p => (p.2.filter (fun c => c.mark.isSome)).length)).sum < 64) →
    ∃ t, exec (.routineComplete c) s = .next t ∧ (t.core c).run = none ∧
      t.strand (8 * c + r.entry.strand) = (s.strand (8 * c + r.entry.strand)).append r.entry.sem none mark (some r.entry.id) ∧
      (t.core c).acc = (s.core c).acc ∧ t.mem = s.mem))

/-- R15, R16, R18, R25, R326: a bundle held for its next iteration issues; a strand whose condition is met becomes ELIGIBLE; an idle core
takes the first ELIGIBLE strand after the last; after 65,536 active cycles the core leaves its strand where another can run; a walk's page
enters the core's TLB as its latest entry, and from a full TLB the least recently used one goes (R328). -/
def Obligations.CoreTurns : Prop :=
  (∀ s c k i ws, k < 8 → (s.core c).active = some k → (s.core c).count < 65536 → (slotOf i).isSome = true → WellFormed i = true →
    ws.map BitVec.toNat = encode i → (s.strand (8 * c + k)).words = ws → (s.strand (8 * c + k)).res = .fresh →
    ∃ t, exec (.bundleIssue c) s = .next t ∧ exec i { s with cur := c } = .next t) ∧
  (∀ s n why, (s.strand n).run = .blocked why →
    ((∃ k m, why = .sem k m ∧ m ≤ (s.strand n).count k) ∨
      (∃ mask, why = .semAny mask ∧ ∃ k < 16, bitOf mask k = true ∧ 1 ≤ (s.strand n).count k) ∨
      (why = .loadFull ∧ (s.strand n).loadQ.length < 64) ∨ (why = .storeFull ∧ (s.strand n).storeQ.length < 64) ∨
      (∃ ch, why = .hodFull ch ∧ ((s.cluster (n / 32)).chan (n / 8 % 4 * 16 + ch)).queue.length < 8) ∨
      (∃ l, why = .watermark l ∧ (s.core (n / 8)).unfilledParts l = false) ∨
      (∃ ph, why = .phase ph ∧ s.phaseOf n ≠ ph) ∨
      (∃ key prod, why = .tag key prod ∧ s.judgeKey (s.ctxOf n) key.toNat prod.toNat ≠ .waits)) →
    exec (.strandUnblock n) s = .next (s.setStrand n { s.strand n with run := .eligible })) ∧
  (∀ s c k, (s.core c).active = none → 1 ≤ k → k ≤ 8 → (s.strand (8 * c + ((s.core c).last + k) % 8)).run = .eligible →
    (∀ j, 1 ≤ j → j < k → (s.strand (8 * c + ((s.core c).last + j) % 8)).run ≠ .eligible) →
    let a := ((s.core c).last + k) % 8
    exec (.idleCoreSelect c) s = .next ((s.setStrand (8 * c + a) { (s.strand (8 * c + a)).reinject with run := .active }).setCore c
      { s.core c with active := some a, last := a, count := 0 })) ∧
  (∀ s c k, k < 8 → (s.core c).active = some k → 65536 ≤ (s.core c).count →
    (∀ j < 8, j ≠ k → (s.strand (8 * c + j)).run ≠ .eligible) →
    exec (.forcedYield c) s = .next (s.setCore c { s.core c with count := 0 })) ∧
  (∀ s c k j, k < 8 → (s.core c).active = some k → 65536 ≤ (s.core c).count → j < 8 → j ≠ k →
    (s.strand (8 * c + j)).run = .eligible →
    ∃ t a, exec (.forcedYield c) s = .next t ∧ (t.core c).active = some a ∧ a ≠ k ∧ a < 8 ∧ (t.core c).count = 0 ∧
      (t.strand (8 * c + a)).run = .active ∧ (t.strand (8 * c + k)).run = .eligible ∧ (t.strand (8 * c + k)).swhy = 0x17 ∧ t.mem = s.mem) ∧
  (∀ s n va w e, (s.strand n).run = .blocked (.walk va w) → (s.strand n).walk = none →
    s.inReplay n = false →
    let key := tlbKey (s.ctx (s.ctxOf n)).asid (va.toNat % 2 ^ 57)
    find? (s.core (n / 8)).tlb key = none → find? (s.die (dieOfStrand n)).tlb key = some e →
    ∃ t u, exec (.translationWalkReturn n) s = .next t ∧ find? (t.core (n / 8)).tlb key = some { e with use := u } ∧
      (∀ k x, find? (s.core (n / 8)).tlb k = some x → x.use < u) ∧ t.mem = s.mem ∧ t.strand n = s.strand n) ∧
  (∀ (m : SMap TlbEntry) cap key e, keysRise m = true → find? m key = none → m.length = cap → 0 < cap →
    ∃ k x, find? m k = some x ∧ (∀ p ∈ m, x.use ≤ p.2.use) ∧ find? (tlbPut m cap key e) k = none ∧
      (∀ j, j ≠ k → j ≠ key → find? (tlbPut m cap key e) j = find? m j))

/-- R224, R225, R233, R317, R318, R319, R333, R334: a load that may be performed reads its copies and homes and writes its active lanes;
where no older load of its strand is outstanding its completion, which names its register, is appended and its entry frees, and the
register stays pending until the completion is consumed; a store to a home of its own die changes exactly its active bytes there; one to
another die's home leaves as a write-through; a MARK retires once what its KIND orders is done, and the acquire of an AR alone takes
effect before (an access performed whole in one move is log 21; what a MARK of KIND ST orders, log 24). A fill brings the home's bytes, as
they are when it returns, into a copy sector without touching its local bytes, and nothing where the home cannot be read (the model's
reading, log 36); a write-through changes exactly its bytes at the home, and its acknowledgement makes clean those local bytes that no
other write-through carries; a copy sector ages out of its clean bytes. An access through a leaf with CNT counts in its die's counter of
the page; a count that reaches THR returns to 0 and appends a notification with its event, or is dropped where the ring is full; with THR
0 a count stops at 65,535. An access through a leaf without CNT counts nothing. -/
def Obligations.GlobalAccessSteps : Prop :=
  ((∀ s n idx g r v p l, (s.strand n).loadQ[idx]? = some g → g.phase = 0 → g.kind = .load → g.acq = false → g.reg = some r →
    s.mayPerform n g = true → window (s.place g.pa) ≠ .peer → (s.strand n).run ≠ .blocked .ending →
    s.readDie (dieOfStrand n) g.mask (sectorParts g.pa g.size) 0 false [] = .data v p l →
    s.anyOwned = false → (∀ q ∈ g.parts, s.devPoison q.1 q.2.1 = false) →
    let w := (s.strand n).write r (BitVec.ofNat 2048 v) g.lanes 15 p
    ∃ t, exec (.globalLoadArrival n idx) s = .next t ∧ (t.strand n).s = w.s ∧ (t.strand n).v = w.v ∧ (t.strand n).poisS = w.poisS ∧
      (t.strand n).poisV = w.poisV ∧ (∀ m, m ≠ n → t.strand m = s.strand m) ∧ t.mem = s.mem ∧
      (t.strand n).pendS = (s.strand n).pendS ∧ (t.strand n).pendV = (s.strand n).pendV ∧
      ((s.strand n).count g.sem < 0xFFFF →
        (∀ h ∈ (s.strand n).entries, h = g ∨ h.num ≠ g.num ∧ h.phase ≠ 2 ∧ (h.loads = true → g.num < h.num)) →
        (t.strand n).sem = ((s.strand n).append g.sem (some r) none none).sem ∧
        (t.strand n).loadQ = (s.strand n).loadQ.filter (fun h => h.num ≠ g.num))) ∧
  (∀ (s : State) d a n mask, homeDie a = d → 0 < n → a % 128 + n ≤ 128 → fld mask 0 n ≠ 0 → s.shadows = [] → s.pkg.remap = [] →
    s.anyOwned = false → (s.gate a n false).2 = .ready → s.hBad a n = false → s.devPoison a n = false →
    s.readDie d mask (sectorParts a n) 0 false [] = .data (getBytes s.mem a n) (s.maskPoison a n (fld mask 0 n)) []) ∧
  (∀ s s1 n idx g, (s.strand n).storeQ[idx]? = some g → g.phase = 0 → g.kind = .store ∨ g.kind = .release →
    s.mayPerform n g = true → 0 < g.size → g.pa % 128 + g.size ≤ 128 → fld g.mask 0 g.size ≠ 0 →
    window (s.place g.pa) ≠ .peer → s.homeOf g.pa = dieOfStrand n → s.gate g.pa g.size true = (s1, .ready) →
    s1.mustHold g.pa = false → s.anyOwned = false → look false s.badTag (s.place g.pa / 128) = false →
    ∃ t, exec (.globalStorePerformed n idx) s = .next t ∧ ∀ a,
      t.cell a = if s.place g.pa ≤ a ∧ a < s.place g.pa + g.size ∧ bitOf g.mask (a - s.place g.pa) = true
        then fld g.data.toNat (8 * (a - s.place g.pa)) 8 else s.cell a) ∧
  (∀ s n idx g, (s.strand n).storeQ[idx]? = some g → g.phase = 0 → g.kind = .store ∨ g.kind = .release →
    s.mayPerform n g = true → 0 < g.size → g.pa % 128 + g.size ≤ 128 → fld g.mask 0 g.size ≠ 0 →
    window (s.place g.pa) ≠ .peer → s.homeOf g.pa ≠ dieOfStrand n →
    ∃ t f, exec (.globalStorePerformed n idx) s = .next t ∧ t.mem = s.mem ∧
      (t.die (dieOfStrand n)).flights = (s.die (dieOfStrand n)).flights ++ [f] ∧ f.sector = g.pa / 128) ∧
  (∀ s n idx g, (s.strand n).loadQ[idx]? = some g → g.kind = .pref → (s.strand n).run ≠ .blocked .ending → s.anyOwned = false →
    ∃ t, exec (.prefAccepted n idx) s = .next t ∧ (t.strand n).loadQ = (s.strand n).loadQ.filter (fun h => h.num ≠ g.num) ∧
      t.mem = s.mem ∧ (t.strand n).s = (s.strand n).s ∧ (t.strand n).v = (s.strand n).v) ∧
  (∀ s n g l k, (s.strand n).loadQ = g :: l → g.kind = .mark k → (s.strand n).run ≠ .blocked .ending →
    (g.scope = 0 ∨ (if k = 0 then s.loadsDone n g.num else s.releaseOk n g.num g.scope) = true) →
    ∃ t, exec (.markRetire n) s = .next t ∧ (∀ h ∈ (t.strand n).entries, h.num ≠ g.num ∧ h.num ≠ g.num + 1) ∧
      (∀ h ∈ (s.strand n).entries, h.num ≠ g.num → h.num ≠ g.num + 1 → h ∈ (t.strand n).entries) ∧ t.mem = s.mem ∧
      (g.scope ≥ 4 → k ≠ 1 → g.phase = 0 → ∀ q ∈ (t.die (dieOfStrand n)).copies, q.2.clean = 0)) ∧
  (∀ s n g l, (s.strand n).loadQ = g :: l → g.kind = .mark 2 → g.phase = 0 → g.scope ≠ 0 → s.loadsDone n g.num = true →
    s.releaseOk n g.num g.scope = false →
    ∃ t, exec (.markRetire n) s = .next t ∧ (∀ h ∈ (t.strand n).entries, h.num = g.num ∨ h.num = g.num + 1 → h.phase = 1) ∧
      (t.strand n).entries.length = (s.strand n).entries.length ∧ t.mem = s.mem ∧
      (g.scope ≥ 4 → ∀ q ∈ (t.die (dieOfStrand n)).copies, q.2.clean = 0))) ∧
  ((∀ s s1 d idx sec, (s.die d).flights[idx]? = some (.fill sec) → (s.die d).firstOf idx = true →
    s.gate (128 * sec) 128 false = (s1, .ready) → s1.hBad (128 * sec) 128 = false → s.anyOwned = false →
    2 * (s.die d).copies.length + (s.pkg.linesOn d).length < 3145728 →
    let old := (s.die d).copy sec
    ∃ t, exec (.copyFillReturn d idx) s = .next t ∧ ((t.die d).copy sec).loc = old.loc ∧ ((t.die d).copy sec).clean = ~~~ old.loc ∧
      (∀ i < 128, ((t.die d).copy sec).get (128 * sec + i) 1 =
        if old.loc.getLsbD i then old.get (128 * sec + i) 1 else s.cell (s.place (128 * sec + i))) ∧
      (∀ k, k ≠ sec → (t.die d).copy k = (s.die d).copy k) ∧ t.mem = s.mem) ∧
  (∀ s s1 d idx sec m data poison n num, (s.die d).flights[idx]? = some (.through sec m data poison n num) →
    (s.die d).firstOf idx = true → s.gate (128 * sec) 128 true = (s1, .ready) → s1.mustHold (128 * sec) = false →
    s.anyOwned = false → look false s.badTag (s.place (128 * sec) / 128) = false →
    let q := s.place (128 * sec)
    ∃ t, exec (.writeThroughAck d idx) s = .next t ∧
      (∀ a, t.cell a = if q ≤ a ∧ a < q + 128 ∧ m.getLsbD (a - q) = true then fld data.toNat (8 * (a - q)) 8 else s.cell a) ∧
      ((∀ g ∈ (s.strand n).entries, g.num = num → g.rel = false) → ((s.die d).copy sec).loc ≠ 0 →
        let k := m &&& ~~~(((s.die d).dropFlight idx).flying sec)
        let old := (s.die d).copy sec
        ((t.die d).copy sec).loc = old.loc &&& ~~~k ∧ ((t.die d).copy sec).clean = old.clean ||| (old.loc &&& k) ∧
          ((t.die d).copy sec).data = old.data)) ∧
  (∀ s d idx sec, (s.die d).flights[idx]? = some (.fill sec) → (s.die d).firstOf idx = true →
    (∃ x y, (s.gate (128 * sec) 128 false).2 = .dead x y) →
    ∃ t, exec (.copyFillReturn d idx) s = .next t ∧ (t.die d).copies = (s.die d).copies ∧ t.mem = s.mem ∧
      (t.die d).flights.length + 1 = (s.die d).flights.length) ∧
  (∀ s d sec, ((s.die d).copy sec).clean ≠ 0 →
    ∃ t, exec (.copySectorAgeout d sec) s = .next t ∧ ((t.die d).copy sec).clean = 0 ∧
      ((t.die d).copy sec).loc = ((s.die d).copy sec).loc ∧ (∀ k, k ≠ sec → (t.die d).copy k = (s.die d).copy k) ∧ t.mem = s.mem)) ∧
  ((∀ (s : State) d asid va l, bitOf l.bits 3 = false → s.touch d asid va l = s) ∧
  (∀ (s : State) d asid va l, bitOf l.bits 3 = true →
    let key := asid * 2 ^ 41 + fld va 16 41
    let counter (s : State) (k : Nat) : Option (Nat × Nat) := (s.die d).counters.find? (fun p => p.1 = k)
    let old := ((counter s key).map (fun p => p.2)).getD 0
    let thr := s.threshold d asid
    let due := thr ≠ 0 ∧ thr ≤ old + 1
    let q := s.pkg.queue 5
    ∃ u : State, u = s.setDie d { s.die d with counters := (u.die d).counters } ∧
      (due → counter u key = some (key, 0)) ∧ (¬ due → counter u key = some (key, min (old + 1) 65535)) ∧
      ((counter s key).isSome = true ∨ (s.die d).counters.length < 4096 → ∀ k, k ≠ key → counter u k = counter s k) ∧
      ((u.die d).counters.length ≤ max (s.die d).counters.length 4096) ∧
      (¬ due → s.touch d asid va l = u) ∧
      (due → s.pkg.posted = [] → q.en = true → q.held < 2 ^ q.log2n → s.touch d asid va l =
        (u.post (q.base + 32 * (q.prod.toNat % 2 ^ q.log2n)) 32 (asid + d * 2 ^ 16 + thr * 2 ^ 32 +
          (canonVa (BitVec.ofNat 64 (va / 65536 * 65536))).toNat * 2 ^ 64 + s.gtime.toNat * 2 ^ 128) (some 5)).event 2 d 1) ∧
      (due → q.en = false ∨ 2 ^ q.log2n ≤ q.held →
        s.touch d asid va l = (u.onQueue 5 (fun q => { q with dropped := q.dropped + 1 })).onDie d
          (fun x => { x with notesDropped := x.notesDropped + 1 }))))

/-- R263 to R265: the atomic engine takes the first waiting atomic that can be performed after the core it served last, replaces the value
in the sector it holds by the operation's result, and a recall brings the sector back to memory. -/
def Obligations.AtomicEngine : Prop :=
  (∀ (s t : State) cl i n g op ret, s.pkg.viral = false → i < 4 →
    (∀ j < i, ∀ n g op ret u, s.waitingAtomic (4 * cl + ((s.cluster cl).served + 1 + j) % 4) = some (n, g, op, ret) →
      s.performAtomic n g op ret ≠ .served u) →
    s.waitingAtomic (4 * cl + ((s.cluster cl).served + 1 + i) % 4) = some (n, g, op, ret) → s.performAtomic n g op ret = .served t →
    exec (.atomicEngineAccept cl) s = .next (t.onCluster cl (fun c =>
      { c with served := ((s.cluster cl).served + 1 + i) % 4, cycles := c.cycles + 1 }))) ∧
  (∀ (s : State) n (g : GEntry) op ret, window g.pa = .hbm → homeDie g.pa = dieOfStrand n → g.size = 4 ∨ g.size = 8 → g.pa % g.size = 0 →
    s.shadows = [] → s.pkg.remap = [] → s.anyOwned = false → s.gateAt g.pa g.size true = (s, .ready) → s.hBad g.pa g.size = false →
    s.hPoison g.pa g.size = false →
    ∃ t, s.performAtomic n g op ret = .served t ∧ t.mem = s.mem ∧
      t.hGet g.pa g.size = atomNew op g.size (s.hGet g.pa g.size) (g.data.toNat % 2 ^ (8 * g.size)) (g.cmp.toNat % 2 ^ (8 * g.size)) ∧
      (∀ a, a < g.pa ∨ g.pa + g.size ≤ a → t.cell a = s.cell a) ∧
      (ret = true → (s.strand n).run ≠ .blocked .ending → ∀ r, g.reg = some (.s r) → r ≠ 0 →
        (t.strand n).getS r = BitVec.ofNat 64 (s.hGet g.pa g.size))) ∧
  (∀ s cl sec a, (s.cluster cl).store.any (fun b => b.sector = sec) = true → s.owned? sec = some a → a.dirty = true →
    s.canRecall sec = true →
    ∃ t, exec (.atomicRecall cl sec) s = .next t ∧ t.owned? sec = none ∧
      (∀ i < 128, (look 0 t.mem (128 * sec + i)).toNat = fld a.data.toNat (8 * i) 8) ∧
      (∀ b, b / 128 ≠ sec → look 0 t.mem b = look 0 s.mem b))

/-- R293, R300, R302, R405, R411: the next operation of a tag table sets or clears its key, a set behind a newer generation being recorded
as STALE_TAG 0x0505 with the identifier of the command that asks for it; a PBAR completes once no non-volatile store before it is owed,
with a mark where an image was dropped; a LAUNCH's answer reaches its register. -/
def Obligations.TablesAndAnswers : Prop :=
  (∀ s d i o, s.nextTag d = some (i, o) → o.fn = 0 → (s.ctx o.ctx).life = .live →
    (s.tagRow o.ctx o.key = none ∧ (s.die (o.ctx % 4)).hasCoarse o.ctx o.key = false ∧ (s.die (o.ctx % 4)).tags.length < 65536) ∨
      (∃ t, s.tagRow o.ctx o.key = some t ∧ genOlder t.gen (keyGen o.key) = true) ∨
      (∃ t, s.tagRow o.ctx o.key = some t ∧ t.gen = keyGen o.key) →
    ∃ t, exec (.tagSetAct d) s = .next t ∧ ∀ prod, t.judgeKey o.ctx o.key prod = .satisfied true) ∧
  (∀ s d i o r, s.nextTag d = some (i, o) → o.fn = 0 → (s.ctx o.ctx).life = .live → s.tagRow o.ctx o.key = some r →
    r.gen ≠ keyGen o.key → genOlder r.gen (keyGen o.key) = false →
    exec (.tagSetAct d) s = .next
      (((s.dieRecord (o.ctx % 4) o.ctx o.launch o.task 0x12 0x0505 0 o.command).rejudge o.ctx).tagActed d i o)) ∧
  (∀ s d i o, s.nextTag d = some (i, o) → o.fn = 1 → (s.ctx o.ctx).life = .live →
    ∃ t, exec (.tagClearAct d) s = .next t ∧ ∀ r, r ∈ (t.die d).tags ↔ r ∈ (s.die d).tags ∧
      ¬(r.ctx = o.ctx ∧ r.handle = keyHandle o.key ∧ r.tile = keyTile o.key ∧
        (r.gen = keyGen o.key ∨ genOlder r.gen (keyGen o.key) = true))) ∧
  (∀ s d i o, s.nextTag d = some (i, o) → o.fn ≠ 0 → o.fn ≠ 1 → (s.ctx o.ctx).life = .live →
    ∃ t, exec (.tagClearAct d) s = .next t ∧
      ∀ r, r ∈ (t.die d).tags ↔ r ∈ (s.die d).tags ∧ ¬(r.ctx = o.ctx ∧ r.handle = keyHandle o.key)) ∧
  (∀ s n g, firstNum ((s.strand n).storeQ.filter (fun g => g.kind = .pbar)) = some g → s.nvPending n g.num = false →
    (s.strand n).run ≠ .blocked .ending → (s.strand n).count g.sem < 0xFFFF → g.poison = false → (s.strand n).nvFail = [] →
    exec (.pbarComplete n) s = .next (s.setStrand n (((s.strand n).dropEntry g.num).append g.sem none none none))) ∧
  (∀ s n g, firstNum ((s.strand n).storeQ.filter (fun g => g.kind = .pbar)) = some g → s.nvPending n g.num = false →
    (s.strand n).run ≠ .blocked .ending → (s.strand n).count g.sem < 0xFFFF → g.poison = true →
    ((s.strand n).sem.map (fun p => (p.2.filter (fun c => c.mark.isSome)).length)).sum < 64 →
    exec (.pbarComplete n) s = .next (s.setStrand n
      (((s.strand n).dropEntry g.num).append g.sem none (some ⟨0x16, 0x0902, 0, 2, g.va⟩) none))) ∧
  (∀ s n i rec' reg sem w, (s.strand n).answers.findIdx? (fun a => a.answer.isSome) = some i →
    (s.strand n).answers[i]? = some ⟨rec', reg, sem, some w⟩ → (s.strand n).run ≠ .blocked .ending → (s.strand n).count sem < 0xFFFF →
    exec (.launchAnswer n) s = .next (s.setStrand n
      ((({ s.strand n with answers := dropNth (s.strand n).answers i } : Strand).write reg (w.setWidth 2048)
        0xFFFFFFFFFFFFFFFF 15 false).append sem (some reg) none none)))

/-- R237, R238, R248, R252, R255: a channel's next command begins, turns go round the channels in order, a turn of a scratchpad copy
carries the next bytes of its source, each write lands with its bytes, and a command whose writes have landed completes. -/
def Obligations.HodExecution : Prop :=
  (∀ s s1 cl ch m q p, s.pkg.viral = false → ((s.cluster cl).chan ch).halted = false → ((s.cluster cl).chan ch).queue = m :: q →
    ((s.cluster cl).chan ch).prog = none → m.isGlobal = false ∨ s.hodHeld m = false → s.hodQueued cl ch = false →
    s.beginCmd cl ch m = (s1, .go p) →
    exec (.hodCommandBegin cl ch) s =
      .next ((s1.onCluster cl (fun x => x.setChan ch { (x.chan ch) with prog := some p })).used (.hod cl ch m.id))) ∧
  (∀ (s : State) cl ch (m : HodCmd), m.op = 0 → m.f % 4 ≠ 2 →
    s.beginCmd cl ch m = (s, .go ⟨m, none, 0, m.c.toNat, [], 0, 0, [], false, false⟩)) ∧
  (∀ s t cl i, s.pkg.viral = false → i < 64 → (∀ j < i, s.turn cl (((s.cluster cl).turn + 1 + j) % 64) = none) →
    s.turn cl (((s.cluster cl).turn + 1 + i) % 64) = some t →
    exec (.hodTurn cl) s = .next (t.onCluster cl (fun c => { c with turn := ((s.cluster cl).turn + 1 + i) % 64 }))) ∧
  (∀ (s : State) cl ch p, ((s.cluster cl).chan ch).halted = false → ((s.cluster cl).chan ch).prog = some p → p.pos < p.total →
    p.cmd.op = 0 → p.cmd.f % 4 = 0 → p.tensor = none → s.hodAsked cl ch = false → s.hodQueued cl ch = false →
    let n := if p.total - p.pos < 1024 then p.total - p.pos else 1024
    ∃ t r l, s.turn cl ch = some t ∧ ((t.cluster cl).chan ch).prog = some r ∧ r.pos = p.pos + n ∧ r.total = p.total ∧
      r.writes = p.writes ++ l ∧ (l.map (fun w => w.n)).sum = n ∧ t.mem = s.mem ∧
      ∀ w ∈ l, w.core = p.cmd.strand / 8 % 4 ∧ ∃ o, o + w.n ≤ n ∧ w.addr = p.cmd.a.toNat + p.pos + o ∧
        w.value = (s.core (p.cmd.strand / 8)).sp (p.cmd.b.toNat + p.pos + o) w.n) ∧
  (∀ s cl ch p w l, ((s.cluster cl).chan ch).mcast = [] → ((s.cluster cl).chan ch).prog = some p →
    ((s.cluster cl).chan ch).halted = false → p.cmd.op ≠ 7 → p.cmd.op ≠ 8 → p.writes = w :: l →
    exec (.hodWriteLand cl ch) s = .next ((s.onCore (4 * cl + w.core) (fun co => co.hodLand w)).onCluster cl (fun x =>
      x.setChan ch { ((s.cluster cl).chan ch) with prog := some { p with writes := l } }))) ∧
  (∀ s cl ch i w l, ((s.cluster cl).chan ch).mcast = (i, w) :: l →
    exec (.hodWriteLand cl ch) s = .next ((s.onCore (4 * cl + w.core) (fun co => co.hodLand w)).onCluster cl (fun x =>
      x.setChan ch { ((s.cluster cl).chan ch) with mcast := l }))) ∧
  (∀ (co : Core) (w : HodWrite), (co.hodLand w).sp w.addr w.n = w.value % 2 ^ (8 * w.n) ∧
    (∀ a, a < w.addr ∨ w.addr + w.n ≤ a → look 0 (co.hodLand w).spad a = look 0 co.spad a) ∧
    (co.hodLand w).acc = co.acc ∧ (co.hodLand w).tags = co.tags) ∧
  (∀ s cl ch p q, ((s.cluster cl).chan ch).halted = false → ((s.cluster cl).chan ch).prog = some p →
    ((s.cluster cl).chan ch).queue = p.cmd :: q → p.inRec = false → p.cmd.op = 0 → p.cmd.f % 4 ≠ 2 → p.pos = p.total → p.writes = [] →
    p.cmd.live = true → (s.strand p.cmd.strand).count p.cmd.sem < 0xFFFF → (s.strand p.cmd.strand).run ≠ .blocked .ending →
    s.hodQueued cl ch = false →
    ∃ t, exec (.hodCommandComplete cl ch) s = .next t ∧ ((t.cluster cl).chan ch).queue = q ∧ ((t.cluster cl).chan ch).prog = none ∧
      t.strand p.cmd.strand = (s.strand p.cmd.strand).append p.cmd.sem none none none ∧ t.mem = s.mem)

/-- R244, R245, R246, R255, R256, R258, R266, R267, R268: publishing a marked tile inverts its bit of the tile map, so that its shadow
becomes its current copy, and clears its mark. A stage of a schedule completes, a receiver acknowledges a multicast, a row of an HADD is
staged, a drained row lands in the ring, and a discarded slot is freed. The epilogue of a slot without a bias writes the slot's words,
converted from integers where SRC says so, through the activation and into the format of OUTF, to the tile's shadow (of one page that the
core's TLB holds) and marks it; nothing else in memory changes. -/
def Obligations.PublicationAndRing : Prop :=
  (∀ (s s1 : State) d c index tile id e,
    s.shadow? c index = some e → e.marks.contains tile = true →
    let a := s.remapped (pageList e.pm (e.tmap + tile / 8))
    (find? e.pm ((e.tmap + tile / 8) / 65536)).isSome = true → look false s.badTag (a / 128) = false →
    window a ≠ .nv ∨ s.durable (s.shadowSectors e tile) = true → s.gateAt a 1 true = (s1, .ready) → s1.rawHold a = false →
    ∃ t, s.publish d c index tile id = (t, .ready) ∧ t.tileBit e tile = !s.tileBit e tile ∧
      (∀ f, t.shadow? c index = some f → f.marks.contains tile = false) ∧
      (∀ k, k / 8 = tile / 8 → k ≠ tile → t.tileBit e k = s.tileBit e k) ∧
      (s.anyOwned = false → ∀ b, b ≠ a → t.cell b = s.cell b)) ∧
  ((∀ s cl ch m q p, s.pkg.viral = false → ((s.cluster cl).chan ch).halted = false → ((s.cluster cl).chan ch).queue = m :: q →
    ((s.cluster cl).chan ch).prog = some p → m.op = 4 → p.inRec = false → p.ready = true → p.recs = [] → m.live = true →
    (s.strand m.strand).count m.sem < 0xFFFF → (s.strand m.strand).run ≠ .blocked .ending →
    ∃ t, exec (.hstepStageComplete cl ch) s = .next t ∧
      t.strand m.strand = (s.strand m.strand).append m.sem none none none ∧
      ((t.cluster cl).chan ch).stage = (((s.cluster cl).chan ch).stage + 1) % 2 ^ 32 ∧
      (p.stages ≤ 1 → ((t.cluster cl).chan ch).queue = q ∧ ((t.cluster cl).chan ch).prog = none) ∧
      (1 < p.stages → ((t.cluster cl).chan ch).queue = m :: q ∧
        ((t.cluster cl).chan ch).prog = some { p with cmd := m, stages := p.stages - 1, ready := false })) ∧
  (∀ s cl ch rcv i id l, ((s.cluster cl).chan ch).acks.findIdx? (fun a => a.2.contains rcv) = some i →
    ((s.cluster cl).chan ch).acks[i]? = some (id, l) →
    (∀ p, ((s.cluster cl).chan ch).prog = some p → p.cmd.op = 5 → p.cmd.id = id → p.total ≤ p.pos) →
    (∀ w ∈ ((s.cluster cl).chan ch).mcast, w.1 = id → w.2.core ≠ rcv) →
    ∃ t, exec (.hmcastAck cl ch rcv) s = .next t ∧
      ((t.cluster cl).chan ch).acks = (if l.all (fun k => k == rcv) then dropNth ((s.cluster cl).chan ch).acks i
        else setNth ((s.cluster cl).chan ch).acks i (id, l.filter (fun k => k ≠ rcv))) ∧ t.mem = s.mem) ∧
  (∀ s cl ch p, s.pkg.viral = false → ((s.cluster cl).chan ch).halted = false → ((s.cluster cl).chan ch).prog = some p →
    p.cmd.op = 7 → p.cmd.f % 2 = 0 → p.pos < p.total → (s.core (4 * cl + p.cmd.ext % 4)).staging.length < 16 →
    s.hodAsked cl ch = false →
    let a := p.cmd.a.toNat + 256 * p.pos
    let from_ := s.core (p.cmd.strand / 8)
    ∃ t, exec (.haddRowStage cl ch) s = .next t ∧ ((t.cluster cl).chan ch).prog = some { p with pos := p.pos + 1, writes := [] } ∧
      (t.core (4 * cl + p.cmd.ext % 4)).staging = (s.core (4 * cl + p.cmd.ext % 4)).staging ++
        [⟨ch, p.cmd.id, (p.cmd.b.toNat + p.pos) % 1024, BitVec.ofNat 2048 (from_.sp a 256), from_.spPoison a 256,
          fld p.cmd.ext 2 3 = 1, bitOf p.cmd.ext 5, decide (p.pos + 1 = p.total)⟩] ∧ t.mem = s.mem) ∧
  (∀ s cl core k pos v poison l, (s.cluster cl).drains = (core, k, pos, v, poison) :: l →
    ∃ t, exec (.ringDrainLand cl) s = .next t ∧ (t.cluster cl).drains = l ∧ look 0 ((t.cluster cl).slot k).rows pos = v ∧
      look false ((t.cluster cl).slot k).poison pos = poison ∧
      (∀ r, r ≠ pos → look 0 ((t.cluster cl).slot k).rows r = look 0 ((s.cluster cl).slot k).rows r) ∧
      ((t.cluster cl).slot k).state = (if ((s.cluster cl).slot k).state = .free then .opened core else ((s.cluster cl).slot k).state) ∧
      (∀ j, j ≠ k → (t.cluster cl).slot j = (s.cluster cl).slot j) ∧ t.mem = s.mem) ∧
  (∀ s cl k ch q p, s.pkg.viral = false → (s.cluster cl).submitted = (k, ch) :: q → ((s.cluster cl).chan ch).prog = some p →
    ((s.cluster cl).chan ch).halted = false → s.hodAsked cl ch = false → bitOf (p.recs.headD 0) 41 = true →
    ∃ t, exec (.epilogueSlot cl) s = .next t ∧ ((t.cluster cl).slot k).state = .free ∧
      (∀ x ∈ (t.cluster cl).submitted, x.2 ≠ ch) ∧ ((t.cluster cl).chan ch).prog = some { p with ready := true, writes := [] } ∧
      t.mem = s.mem) ∧
  (∀ s t cl k ch q p tensor, s.pkg.viral = false → (s.cluster cl).submitted = (k, ch) :: q → ((s.cluster cl).chan ch).prog = some p →
    ((s.cluster cl).chan ch).halted = false → s.hodAsked cl ch = false → bitOf (p.recs.headD 0) 41 = false →
    bitOf (p.recs.headD 0) 40 = false → p.ready = false → p.added = 0 → p.tensor = some tensor → p.pos = 0 → s.hodQueued cl ch = false →
    s.epilogueWrite cl ch p tensor (epilogueTile (p.recs.headD 0) ((s.cluster cl).slot k) none tensor.tbytes) = some t →
    exec (.epilogueSlot cl) s = .next t)) ∧
  (∀ (s : State) cl k ch q p (tensor : Tensor) e (x : TlbEntry) pa, s.pkg.viral = false → (s.cluster cl).submitted = (k, ch) :: q →
    ((s.cluster cl).chan ch).prog = some p → ((s.cluster cl).chan ch).halted = false → s.hodAsked cl ch = false → s.hodQueued cl ch = false →
    p.ready = false → p.added = 0 → p.tensor = some tensor → p.pos = 0 → (s.cluster (p.cmd.strand / 32)).spoilt = [] →
    s.pkg.remap = [] → s.pkg.transit = none → s.anyOwned = false → (∀ d, (s.die d).filter = [] ∧ (s.die d).flights = []) →
    let v := p.recs.headD 0
    let outf := byts v 4 1
    let w := outWidth outf
    let tile := fld v 192 36
    let c := p.cmd.ctx
    bitOf v 40 = false → bitOf v 41 = false → outf ≤ 4 → 0 < byts v 0 2 → tensor.tbytes = 64 * byts v 0 2 * (w / 8) →
    s.shadow? c (fld v 128 16) = some e →
    let va := s.shadowVa e tile 0 % 2 ^ 57
    find? (s.core (p.cmd.strand / 8)).tlb (tlbKey (s.ctx c).asid va) = some x → bitOf x.bits 3 = false →
    s.judgeLeaf (s.ctx c).keydom x.leaf va .write = .ok pa x.leaf → window pa = .hbm →
    va % 65536 + tensor.tbytes ≤ 65536 → pa % 65536 + tensor.tbytes ≤ 65536 → s.shadowVa e tile 0 < 2 ^ 57 →
    let act (y : Nat) : Nat :=
      let f (z : Nat) : FVal := decodeF f32 z
      match byts v 3 1 with
      | 1 => if (f y).isNan then f32.nanCode else if (f y).rat < 0 ∨ f y = .inf true then 0 else y
      | 2 =>
        let t := (fMul f32 0 0 (f y) (f 0x3FB8AA3B)).1
        let d := (fAdd f32 0 0 (f 0x3F800000) (f (fExp2 f32 0 0 (f t).negate))).1
        (fMul f32 0 0 (f y) (f (fRcp f32 0 0 (f d)).1)).1
      | _ => y
    let word (n : Nat) : Nat :=
      let y := lane (look 0 ((s.cluster cl).slot k).rows (n / 64)) (n % 64)
      act (if byts v 2 1 = 1 then (fOfInt f32 0 0 (sext 32 y)).1 else y)
    let out (n : Nat) : Nat := match outf with
      | 0 => word n
      | 1 => (fCvt f32 bf16 0 0 (word n)).1
      | 2 => (fCvt f32 f16 0 0 (word n)).1
      | 3 => (fCvt f32 e4m3 0 0 (word n)).1
      | _ => (fCvt f32 e5m2 0 0 (word n)).1
    ∃ t, exec (.epilogueSlot cl) s = .next t ∧
      (∀ n < 64 * byts v 0 2, getBytes t.mem (pa + n * (w / 8)) (w / 8) = out n) ∧
      (∀ a, a < pa ∨ pa + tensor.tbytes ≤ a → look 0 t.mem a = look 0 s.mem a) ∧
      (∀ f, t.shadow? c (fld v 128 16) = some f → f.marks.contains tile = true))

/-- R274, R275, R276, R277, R281, R290, R293, R294, R295: a launch that passes its tests is accepted under the context's next identifier,
and its issuer is answered with it; one that fails is answered with its status and reason, and has no other effect but the records of the
failures it read; weight returns, and a launch all of whose weight is back sets its done bit and completes with its record, which is in
memory then where its line can be written; a phase completes once its arrivals, with the members that ended before arriving, reach
MEMBERS. The tests of a launch in their order: context, generation, reads (STATUS 3, REASON 5), fields (1), the key domain of a task's
launch (4), room on an idle package (3), the window of identifiers (2); what a field must be. -/
def Obligations.Launches : Prop :=
  ((∀ s d m l st re, (s.die d).launches = m :: l → s.issuerGone m = false → m.src ≠ .gs → s.verdict d m = .answer st re none →
    exec (.launchValidate d) s =
      .next (((s.onDie d (fun x => { x with launches := l })).answerLaunch m (st * 2 ^ 56 + re * 2 ^ 48)).used (.launch d))) ∧
  (∀ s d m l st re c va n, (s.die d).launches = m :: l → s.issuerGone m = false → m.src ≠ .gs →
    s.verdict d m = .answer st re (some (c, va, n)) →
    exec (.launchValidate d) s =
      .next ((((s.onDie d (fun x => { x with launches := l })).recordReads (.launch d) d c va n).answerLaunch m
        (st * 2 ^ 56 + re * 2 ^ 48)).used (.launch d))) ∧
  (∀ s d m l, (s.die d).launches = m :: l → s.issuerGone m = true →
    exec (.launchValidate d) s = .next ((s.onDie d (fun x => { x with launches := l })).used (.launch d))) ∧
  (∀ s d m l c la, (s.die d).launches = m :: l → s.issuerGone m = false → s.verdict d m = .accept c la →
    la.id = (s.ctx c).nextId ∧
    ∃ u : State, exec (.launchValidate d) s = .next ((u.answerLaunch m la.id).used (.launch d)) ∧
      (u.ctx c).nextId = (if (s.ctx c).nextId + 1 ≥ 0xFFFFFFFF then 1 else (s.ctx c).nextId + 1) ∧
      (∃ x ∈ (u.ctx c).launches, x.id = la.id ∧ x.tasks.length = la.tasks.length ∧ x.kdesc = la.kdesc ∧ x.args = la.args)) ∧
  (∀ (s : State) n h l k rec' ch made iter w i reg sem, (s.strand n).ctxh.toNat = h → (s.strand n).launch.toNat = l → (s.strand n).task.toNat = k →
    (s.strand n).answers.findIdx? (fun a => a.answer.isNone && a.record = rec') = some i →
    (s.strand n).answers[i]? = some ⟨rec', reg, sem, none⟩ →
    s.answerLaunch ⟨.task n h l k, rec', ch, made, iter⟩ w = s.setStrand n { s.strand n with
      answers := setNth (s.strand n).answers i ⟨rec', reg, sem, some (BitVec.ofNat 64 w)⟩ }) ∧
  (∀ s c lid k l t n, s.task? c lid k = some (l, t) → t.run = .ended n → t.again = false → s.taskQuiet c lid t n = true →
    exec (.taskWeightReturn c lid k) s = .next (s.onLaunch c lid (fun l =>
      ({ l with returned := l.returned + t.weight } : Launch).onTask k (fun t => { t with run := .done, weight := 0, seen := [] })))) ∧
  (∀ s c lid l, (s.ctx c).launch? lid = some l → 2 ^ 62 ≤ l.returned → l.compl = 0 →
    ∃ t, exec (.launchComplete c lid) s = .next t ∧ (t.ctx c).launch? lid = none ∧ (t.ctx c).complete lid = true) ∧
  (∀ s c lid l pa lf, (s.ctx c).launch? lid = some l → 2 ^ 62 ≤ l.returned → l.compl ≠ 0 → l.compl % 32 = 0 →
    let u := (s.launchDone c l).onCtx c (fun x => { x with rewrite := x.rewrite ++ [(l.compl, l.record s.gtime)] })
    u.translate (c % 4) c (l.compl % 2 ^ 57) .write = .ok pa lf → window pa = .hbm → pa % 128 + 32 ≤ 128 → u.shadows = [] →
    u.pkg.remap = [] → u.pkg.transit = none → u.anyOwned = false → (∀ q, u.filterOf q = none) → u.agentBusy (c % 4) pa 32 = false →
    look false u.badTag (pa / 128) = false →
    ∃ t, exec (.launchComplete c lid) s = .next t ∧ getBytes t.mem pa 32 = l.record s.gtime % 2 ^ 256 ∧
      (∀ a, a < pa ∨ pa + 32 ≤ a → look 0 t.mem a = look 0 u.mem a) ∧ (t.ctx c).launch? lid = none ∧ (t.ctx c).complete lid = true ∧
      (t.ctx c).rewrite = (u.ctx c).rewrite.filter (fun q => q ≠ (l.compl, l.record s.gtime))) ∧
  (∀ (l : Launch) g, l.id < 2 ^ 32 → l.status < 2 ^ 32 → l.errcode.getD 0 < 2 ^ 32 →
    fld (l.record g) 0 32 = l.id ∧ fld (l.record g) 32 32 = l.status ∧ fld (l.record g) 64 32 = l.errcode.getD 0 ∧
      fld (l.record g) 96 32 = l.failed % 2 ^ 32 ∧ fld (l.record g) 128 64 = g.toNat) ∧
  (∀ s c lid k l, (s.ctx c).launch? lid = some l → l.dlevel ≠ 0 → (l.domain k).arrived ≠ [] →
    let ended := l.tasks.filter (fun t => t.child.isNone && decide (t.id / l.dsize = k) &&
      (l.domain k).arrived.all (fun a => decide (a.2.2 ≠ t.id)) &&
      (match t.run with | .done => true | .ended _ => !t.again | _ => false))
    l.dsize ≤ (l.domain k).arrived.length + ended.length →
    (∀ a ∈ (l.domain k).arrived, s.arrivalDone c lid (levelScope l.dlevel) a = true) →
    ∃ t x, exec (.barPhaseComplete c lid k) s = .next t ∧ (t.ctx c).launch? lid = some x ∧
      x.domain k = ⟨(l.domain k).phase + 1, []⟩ ∧ (∀ j, j ≠ k → x.domain j = l.domain j) ∧ x.tasks = l.tasks ∧ t.mem = s.mem)) ∧
  ((∀ r kd gvalid, launchBad r kd gvalid = true ↔
    (byts r 0 8 % 128 ≠ 0 ∨ byts r 8 8 % 128 ≠ 0 ∨ byts r 16 8 % 32 ≠ 0 ∨ byts r 28 4 = 0 ∨ 2 ^ 31 < byts r 28 4 ∨ 7 < byts r 32 1 ∨
      3 < byts r 33 1 ∨ 5 < byts r 34 1 ∨ byts r 35 1 ≠ 0 ∨ byts r 46 2 ≠ 0 ∨ badKernel kd = true ∨
      (byts r 34 1 = 0 ∧ byts r 36 4 ≠ 0) ∨
      (byts r 34 1 ≠ 0 ∧ (bitOf (byts r 33 1) 0 = false ∨ byts r 36 4 = 0 ∨ byts r 28 4 % byts r 36 4 ≠ 0)) ∨
      (byts r 34 1 = 5 ∧ gvalid = false))) ∧
  (∀ kd, badKernel kd = true ↔
    (byts kd 0 8 % 4 ≠ 0 ∨ canonVa (BitVec.ofNat 64 (byts kd 0 8)) ≠ BitVec.ofNat 64 (byts kd 0 8) ∨ byts kd 22 1 = 0 ∨ 8 < byts kd 22 1 ∨
      byts kd 23 1 ≠ 0 ∨ byts kd 24 8 % 8 ≠ 0 ∨ (byts kd 34 2 = 0 ∧ byts kd 24 8 ≠ 0) ∨ 4095 < byts kd 32 2 ∨
      4096 < byts kd 32 2 + byts kd 34 2 ∨ 255 < byts kd 36 2 ∨ 256 < byts kd 36 2 + byts kd 38 2 ∨ byts kd 40 8 % 8 ≠ 0 ∨
      (byts kd 38 2 = 0 ∧ byts kd 40 8 ≠ 0) ∨ byts kd 48 16 ≠ 0 ∨ byts kd 112 16 ≠ 0 ∨
      (∃ i < 4, bitOf (byts kd (64 + 8 * i) 8) 63 = false ∧ byts kd (64 + 8 * i) 8 ≠ 0) ∨
      (∃ i < 2, bitOf (byts kd (96 + 8 * i) 8) 63 = false ∧ byts kd (96 + 8 * i) 8 ≠ 0))) ∧
  (∀ (s : State) d m r c, m.made = some r → m.src = .gs → byts r 24 4 % 65536 = c →
    ((s.ctx c).life ≠ .live → s.verdict d m = .answer 1 0) ∧
    ((s.ctx c).life = .live → (s.ctx c).gen.toNat ≠ byts r 24 4 / 65536 → s.verdict d m = .answer 2 0)) ∧
  (∀ (s : State) d n h l k ch iter rec' va x y, s.readStruct (.launch d) d (h % 65536) rec'.toNat 64 0x0500 = .fault x y va →
    s.verdict d ⟨.task n h l k, rec', ch, none, iter⟩ = .answer 3 5 (some (h % 65536, rec'.toNat, 64))) ∧
  (∀ (s : State) d m r c, m.made = some r → m.src = .gs → byts r 24 4 % 65536 = c → (s.ctx c).life = .live →
    (s.ctx c).gen.toNat = byts r 24 4 / 65536 →
    let read (va : Nat) := s.readStruct (.launch d) d c va 128 0x0500
    let full (x : Ctx) := ∃ p ∈ x.launches, 1024 < ((if x.nextId + 1 ≥ 2 ^ 32 - 1 then 1 else x.nextId + 1) + 2 ^ 32 - p.id) % 2 ^ 32
    (∀ va x y, read (byts r 0 8) = .fault x y va → s.verdict d m = .answer 3 5 (some (c, byts r 0 8, 128))) ∧
    (∀ kd, read (byts r 0 8) = .ok kd →
      (∀ va x y, read (byts r 8 8) = .fault x y va → s.verdict d m = .answer 3 5 (some (c, byts r 8 8, 128))) ∧
      (∀ args, read (byts r 8 8) = .ok args →
        let room := s.fitsIdle (c % 4) (parseKernel c (byts r 0 8) kd) (byts r 34 1) (byts r 28 4)
          (if byts r 34 1 = 0 then byts r 28 4 else byts r 36 4)
        (launchBad r kd s.pkg.gvalid = true → s.verdict d m = .answer 3 1) ∧
        (launchBad r kd s.pkg.gvalid = false → bitOf (byts r 33 1) 0 = true → room = false → s.verdict d m = .answer 3 3) ∧
        (launchBad r kd s.pkg.gvalid = false → bitOf (byts r 33 1) 0 = false ∨ room = true → full (s.ctx c) →
          s.verdict d m = .answer 3 2) ∧
        (launchBad r kd s.pkg.gvalid = false → bitOf (byts r 33 1) 0 = false ∨ room = true → ¬ full (s.ctx c) →
          ∃ la, s.verdict d m = .accept c la ∧ la.id = (s.ctx c).nextId ∧ la.kdesc = BitVec.ofNat 64 (byts r 0 8) ∧
            la.args = BitVec.ofNat 64 (byts r 8 8) ∧ la.compl = byts r 16 8 ∧ la.ntasks = byts r 28 4 ∧
            la.tasks.length = byts r 28 4 ∧ la.level = min (byts r 32 1) (s.ctx c).pclass ∧
            la.argw = (List.range 16).map (fun i => BitVec.ofNat 64 (byts args (8 * i) 8)))))) ∧
  (∀ (s : State) d n h l k ch iter rec' r kd args, s.readStruct (.launch d) d (h % 65536) rec'.toNat 64 0x0500 = .ok r →
    let c := byts r 24 4 % 65536
    (s.ctx c).life = .live → (s.ctx c).gen.toNat = byts r 24 4 / 65536 →
    s.readStruct (.launch d) d c (byts r 0 8) 128 0x0500 = .ok kd → s.readStruct (.launch d) d c (byts r 8 8) 128 0x0500 = .ok args →
    launchBad r kd s.pkg.gvalid = false → (s.ctx c).keydom ≠ (s.ctx (h % 65536)).keydom →
    s.verdict d ⟨.task n h l k, rec', ch, none, iter⟩ = .answer 3 4) ∧
  (∀ (s : State) d n h l k ch iter rec' r kd args, s.readStruct (.launch d) d (h % 65536) rec'.toNat 64 0x0500 = .ok r →
    let c := byts r 24 4 % 65536
    (s.ctx c).life = .live → (s.ctx c).gen.toNat = byts r 24 4 / 65536 →
    s.readStruct (.launch d) d c (byts r 0 8) 128 0x0500 = .ok kd → s.readStruct (.launch d) d c (byts r 8 8) 128 0x0500 = .ok args →
    launchBad r kd s.pkg.gvalid = true → s.verdict d ⟨.task n h l k, rec', ch, none, iter⟩ = .answer 3 1))

/-- R279, R280, R284, R286, R287, R288, R343, R361, R362: a cycle of a dispatcher offers the first candidate with an eligible core to that
core; a core that accepts a binding starts the task at its kernel's entry with its registers as R279 lists them, its DOMAIN as R280 lays
it out and every other register reset; one that is not eligible, or whose task's context is PARKED by then, sends it back as READY. The
placement of a PERSIST launch gives every task a strand of its own that is free to it, and puts each domain in one core, one cluster or
one die as its level says; the cycle that finds it reserves those strands and marks the launch placed. A candidate without an eligible
core pre-empts, with a token, the victim of the lowest level, then of the greatest remaining estimate, then of the highest strand, which
drains, is killed or is saved, and whose strand is reserved for it. -/
def Obligations.DispatchAndBinding : Prop :=
  ((∀ s d lv c l t rest v core, s.pkg.viral = false → (∀ p ∈ s.strands, p.2.freed = false) → (s.die d).spent = false →
    s.candidates d = (lv, c, l, t) :: rest → s.readStruct (.dispatch d) d c l.kdesc.toNat 128 0x0500 = .ok v →
    (∀ va, s.hintWait d c l t (parseKernel c l.kdesc.toNat v) ≠ .held va) →
    (∀ s1, s.hintWait d c l t (parseKernel c l.kdesc.toNat v) ≠ .wait s1) →
    l.persist = false ∨ l.placed = true → s.coreFor d c l t (parseKernel c l.kdesc.toNat v) = some core →
    exec (.dispatchCycle d) s = .next (((s.onTask c l.id t.id (fun t => { t with run := .offered })).onCore core
      (fun co => { co with bindings := co.bindings ++ [(d, c, l.id, t.id)] })).used (.dispatch d))) ∧
  (∀ s s1 core d c l t n v, s.pkg.viral = false → (∀ p ∈ s.strands, p.2.freed = false) →
    (s.core core).nextBinding = some (d, c, l.id, t.id) → (s.ctx c).state ≠ 2 →
    s.task? c l.id t.id = some (l, t) → s.readStruct (.binding core) d c l.kdesc.toNat 128 0x0500 = .ok v →
    s.eligible core c l.id t (parseKernel c l.kdesc.toNat v) = true →
    (s.keptStrand core c l t <|> s.strandFor core c l.id t.id) = some n →
    s.loadImages d c core (parseKernel c l.kdesc.toNat v) = .ok s1 → t.area = none →
    let k := parseKernel c l.kdesc.toNat v
    let holds (i : Nat) := (∃ q < 8, (s.strand (8 * core + q)).run ≠ .free ∧ ∃ l' t', s.taskOf (8 * core + q) = some (l', t') ∧
        t'.kernel.any (fun o => o.same k) = true ∧ t'.slot = i) ∨
      (∃ p ∈ s.contexts, ∃ l' ∈ p.2.launches, ∃ t' ∈ l'.tasks, t'.area.isSome ∧ t'.core = core ∧ t'.kernel.any Kernel.pins = true ∧
        t'.kernel.any (fun o => o.same k) = true ∧ t'.slot = i)
    ∃ r, exec (.bindingJudge core) s = .next r ∧ (r.strand n).run = .eligible ∧
      (r.strand n).pc = (match t.child with | some (_, some a, _) => a | _ => k.entry) ∧
      (r.strand n).ctxh = BitVec.ofNat 32 (s.handleOf c) ∧ (r.strand n).launch = BitVec.ofNat 32 l.id ∧
      (r.strand n).task = BitVec.ofNat 32 t.id ∧ (r.strand n).getS 2 = l.args ∧
      (∀ i < 8, ¬ holds i → (∀ j < i, holds j) → (r.strand n).getS 3 = BitVec.ofNat 64 i) ∧
      (t.child = none → (r.strand n).getS 1 = BitVec.ofNat 64 t.id ∧ (r.strand n).getS 4 = 0 ∧
        (∀ i < 4, (r.strand n).getS (23 + i) = BitVec.ofNat 64 (slotKey (l.tagin.getD i 0) (l.gens.getD i 0) l.argw t.id)) ∧
        (∀ i < 2, (r.strand n).getS (27 + i) = BitVec.ofNat 64 (slotKey (l.tagout.getD i 0) (l.ogens.getD i 0) l.argw t.id))) ∧
      (∀ a x y, t.child = some (a, x, y) → (r.strand n).getS 1 = a ∧ (r.strand n).getS 4 = y ∧
        ∀ i, 23 ≤ i → i < 29 → (r.strand n).getS i = 0) ∧
      (r.strand n).getS 5 = 0 ∧ (r.strand n).getS 6 = 0 ∧
      (∀ i < 16, (r.strand n).getS (7 + i) = l.argw.getD i 0) ∧ (∀ i, 29 ≤ i → (r.strand n).getS i = 0) ∧
      (l.dlevel = 0 ∨ t.child.isSome → (r.strand n).domain = 0) ∧
      (t.child = none → l.dlevel ≠ 0 → l.dlevel < 8 → 0 < l.dsize → l.dsize < 2 ^ 21 → t.id / l.dsize < 2 ^ 19 →
        fld (r.strand n).domain.toNat 61 3 = l.dlevel ∧ fld (r.strand n).domain.toNat 40 21 = l.dsize ∧
        fld (r.strand n).domain.toNat 21 19 = t.id / l.dsize ∧ fld (r.strand n).domain.toNat 0 21 = t.id % l.dsize) ∧
      (∀ i < 64, (r.strand n).getV i = 0) ∧ (r.strand n).sem = [] ∧ (r.strand n).tl = false ∧
      ((r.task? c l.id t.id).map (fun p => p.2.run)) = some (.bound n) ∧ (d, c, l.id, t.id) ∉ (r.core core).bindings) ∧
  (∀ s core d c l t v, s.pkg.viral = false → (∀ p ∈ s.strands, p.2.freed = false) →
    (s.core core).nextBinding = some (d, c, l.id, t.id) → s.task? c l.id t.id = some (l, t) →
    s.readStruct (.binding core) d c l.kdesc.toNat 128 0x0500 = .ok v →
    (s.ctx c).state = 2 ∨ s.eligible core c l.id t (parseKernel c l.kdesc.toNat v) = false →
    ∃ r, exec (.bindingJudge core) s = .next r ∧ (d, c, l.id, t.id) ∉ (r.core core).bindings ∧
      ((r.task? c l.id t.id).map (fun p => p.2.run)) = some .ready ∧ ∀ n, (r.strand n).run = (s.strand n).run) ∧
  (∀ s c lid k l t n, s.task? c lid k = some (l, t) → t.run = .ended n → t.again = true → s.taskQuiet c lid t n = true →
    ∃ r x, exec (.taskReexecute c lid k) s = .next r ∧ ((r.task? c lid k).map (fun p => p.2)) = some x ∧ x.run = .ready ∧
      x.again = false ∧ x.area = none ∧ x.weight = t.weight ∧ x.banned = t.banned ∧ r.mem = s.mem)) ∧
  ((∀ (s : State) c (l : Launch) k plan, s.placement c l k = some plan → 0 < l.group →
    (plan.map Prod.fst).Nodup ∧ (∀ q ∈ plan, (s.strand q.1).freeFor c l.id q.2 = true) ∧
    (∀ t ∈ l.tasks, t.id < l.ntasks → ∃ n, (n, t.id) ∈ plan) ∧
    (∀ q ∈ plan, ∀ p ∈ plan, q.2 / l.group = p.2 / l.group →
      (l.dlevel = 1 → q.1 / 8 = p.1 / 8) ∧ (l.dlevel = 2 → q.1 / 32 = p.1 / 32) ∧ (l.dlevel = 3 → q.1 / 384 = p.1 / 384))) ∧
  (∀ s d lv c l t rest v plan, s.pkg.viral = false → (∀ p ∈ s.strands, p.2.freed = false) → (s.die d).spent = false →
    s.candidates d = (lv, c, l, t) :: rest → (s.ctx c).launch? l.id = some l →
    s.readStruct (.dispatch d) d c l.kdesc.toNat 128 0x0500 = .ok v →
    (∀ va, s.hintWait d c l t (parseKernel c l.kdesc.toNat v) ≠ .held va) →
    (∀ s1, s.hintWait d c l t (parseKernel c l.kdesc.toNat v) ≠ .wait s1) →
    l.persist = true → l.placed = false → s.placement c l (parseKernel c l.kdesc.toNat v) = some plan → 0 < l.group →
    ∃ r, exec (.dispatchCycle d) s = .next r ∧ (∀ q ∈ plan, (r.strand q.1).reserved = some (c, l.id, some q.2)) ∧
      (((r.ctx c).launch? l.id).map (fun x => x.placed)) = some true ∧ (∀ n, (r.strand n).run = (s.strand n).run) ∧ r.mem = s.mem)) ∧
  ((∀ l b, bestVictim l = some b → b ∈ l ∧ ∀ a ∈ l, ¬ (a.1 < b.1 ∨ (a.1 = b.1 ∧ (b.2.1 < a.2.1 ∨ (a.2.1 = b.2.1 ∧ b.2.2 < a.2.2))))) ∧
  (∀ (s : State) d c l t k, ∀ x ∈ s.victims d c l t k, x.2.2 / 8 ∈ (s.searchCores d c l t).flatten ∧
    ∃ lv v, s.taskOf x.2.2 = some (lv, v) ∧ v.run = .bound x.2.2 ∧ x.1 = lv.level ∧ lv.level < l.level ∧ lv.persist = false ∧
      s.eligibleFreed x.2.2 c l.id t k v = true) ∧
  (∀ s d lv c l t v n y z lw w, s.pkg.viral = false → (∀ p ∈ s.strands, p.2.freed = false) → (s.die d).spent = false →
    s.candidates d = [(lv, c, l, t)] → s.task? c l.id t.id = some (l, t) →
    s.readStruct (.dispatch d) d c l.kdesc.toNat 128 0x0500 = .ok v →
    (∀ va, s.hintWait d c l t (parseKernel c l.kdesc.toNat v) ≠ .held va) →
    (∀ s1, s.hintWait d c l t (parseKernel c l.kdesc.toNat v) ≠ .wait s1) →
    l.persist = false → s.coreFor d c l t (parseKernel c l.kdesc.toNat v) = none →
    (s.ctx c).tokens ≠ 0 → t.preempting = false → (s.ctx c).life = .live →
    bestVictim (s.victims d c l t (parseKernel c l.kdesc.toNat v)) = some (y, z, n) → s.taskOf n = some (lw, w) →
    (s.strand n).save = none →
    let drains := (s.strand n).remaining ≤ s.pkg.draint
    let kills := ¬ drains ∧ lw.restart = true ∧ (s.strand n).scyc.toNat < s.pkg.killt
    let saves := ¬ drains ∧ ¬ kills ∧ (s.ctx (s.ctxOf n)).freeArea.isSome
    ∃ r, exec (.dispatchCycle d) s = .next r ∧ (r.ctx c).tokens = (s.ctx c).tokens - 1 ∧
      ((r.task? c l.id t.id).map (fun p => p.2.preempting)) = some true ∧ (r.strand n).reserved = some (c, l.id, some t.id) ∧
      (kills → ((r.task? (s.ctxOf n) lw.id w.id).map (fun p => (p.2.run, p.2.again))) = some (.ended n, true) ∧
        ((r.strand n).run = .free ∨ (r.strand n).run = .blocked .ending)) ∧
      (saves → (r.strand n).run = .blocked .saving ∧ (r.strand n).save = some (.preempt c l.id t.id)) ∧
      (¬ kills → ¬ saves → (r.strand n).run = (s.strand n).run)))

/-- R348, R349, R350, R351, R353, R354, R356, R357, R371: a stopped and quiet strand's task is written to its save area and leaves the
strand; where none is free a CSWITCH writes 2; a WAKE sets the context's register or wakes its parked tasks with reason 1, a deadline with
reason 2, each as an acquire; a torn-down context's entry becomes free. A relative WAKE counts from its arrival (log 19), a save is judged
and made at CHECKPOINT_SAVE (log 41), and the bundle after CSWITCH's choice is judged by its core (log 47). After the save the area holds
the image of the task: its registers, where it resumes, its counters and flags, the special completions, marks and replay entries, each at
its place. -/
def Obligations.SavesAndWakes : Prop :=
  ((∀ s s1 n why l t a, (s.strand n).run = .blocked .saving → (s.strand n).save = some why → s.taskOf n = some (l, t) →
    (s.ctx (s.ctxOf n)).freeArea = some a → s.quiet n = true →
    let pa := (s.ctx (s.ctxOf n)).savebase + 24576 * a
    s.areaOk (s.ctxOf n) pa = true → s.gateAt (s.place pa) 24576 true = (s1, .ready) → s1.areaBad pa (s1.image n t.weight) = [] →
    ∃ r x, exec (.checkpointSave n) s = .next r ∧ (r.strand n).run = .free ∧ (r.ctx (s.ctxOf n)).savefree.getLsbD a = false ∧
      ((r.task? (s.ctxOf n) l.id t.id).map (fun p => p.2)) = some x ∧ x.run = .ready ∧ x.area = some a ∧ x.core = n / 8 ∧
      x.weight = t.weight) ∧
  (∀ s n l t x y z d, (s.strand n).run = .blocked .saving → (s.strand n).save = some (.cswitch x y z d) → s.taskOf n = some (l, t) →
    (s.ctx (s.ctxOf n)).freeArea = none → s.quiet n = true → d ≠ 0 →
    ∃ r, exec (.checkpointSave n) s = .next r ∧ (r.strand n).run = .eligible ∧ (r.strand n).getS d = 2 ∧ (r.strand n).save = none ∧
      r.mem = s.mem) ∧
  (∀ s d i w, (s.die d).wakes.findIdx? (fun w => w.f ≠ 0 || s.releaseOk w.strand w.num 4) = some i →
    (s.die d).wakes[i]? = some w → s.liveHandle w.handle = true → w.f ≠ 0 →
    let c := w.handle % 65536
    ∃ r, exec (.wakeRequestArrival d) s = .next r ∧ (r.ctx c).wake = (if w.f = 1 then w.time else s.gtime + w.time) ∧
      (r.die d).wakes = dropNth (s.die d).wakes i ∧ (r.ctx c).launches = (s.ctx c).launches ∧ r.strands = s.strands ∧ r.mem = s.mem) ∧
  (∀ s d i w, (s.die d).wakes.findIdx? (fun w => w.f ≠ 0 || s.releaseOk w.strand w.num 4) = some i →
    (s.die d).wakes[i]? = some w → s.liveHandle w.handle = true → w.f = 0 → (s.ctx (w.handle % 65536)).parkedTasks = [] →
    ∃ r, exec (.wakeRequestArrival d) s = .next r ∧ (r.ctx (w.handle % 65536)).wake = s.gtime ∧
      (r.ctx (w.handle % 65536)).wakepend = true ∧ r.strands = s.strands ∧ r.mem = s.mem) ∧
  (∀ s d i w lid l t dl g, (s.die d).wakes.findIdx? (fun w => w.f ≠ 0 || s.releaseOk w.strand w.num 4) = some i →
    (s.die d).wakes[i]? = some w → s.liveHandle w.handle = true → w.f = 0 →
    let c := w.handle % 65536
    (s.ctx c).parkedTasks = [(lid, t)] → s.task? c lid t.id = some (l, t) → t.parked = .park dl g → g ≠ 0 →
    ∃ r, exec (.wakeRequestArrival d) s = .next r ∧ (r.ctx c).wake = s.gtime ∧ (r.ctx c).wakepend = (s.ctx c).wakepend ∧
      (r.ctx c).pkev = (s.ctx c).pkev - 1 ∧ ((r.task? c lid t.id).map (fun p => p.2.parked)) = some .no ∧ r.mem = s.mem ∧
      (∀ n, t.run = .bound n → (s.strand n).run = .blocked (.parked false) →
        (r.strand n).run = .eligible ∧ (r.strand n).getS g = 1 ∧ ∀ k, ((r.die (n / 384)).copy k).clean = 0) ∧
      (t.run = .ready → ((r.task? c lid t.id).map (fun p => p.2.wakeReg)) = some (some (g, 1)) ∧ r.strands = s.strands)) ∧
  (∀ s d i w, (s.die d).wakes.findIdx? (fun w => w.f ≠ 0 || s.releaseOk w.strand w.num 4) = some i →
    (s.die d).wakes[i]? = some w → s.liveHandle w.handle = false →
    exec (.wakeRequestArrival d) s = .next (s.onDie d (fun x => { x with wakes := dropNth x.wakes i }))) ∧
  (∀ s c lid k l t n dl d, s.task? c lid k = some (l, t) → t.parked = .park dl d → dl ≠ 0 → dl.toNat ≤ s.gtime.toNat →
    t.run = .bound n → (s.strand n).run = .blocked (.parked false) → d ≠ 0 → t.id = k →
    ∃ r, exec (.parkDeadline c lid k) s = .next r ∧ (r.strand n).run = .eligible ∧ (r.strand n).getS d = 2 ∧
      (r.ctx c).pkev = (s.ctx c).pkev - 1 ∧ ((r.task? c lid k).map (fun p => p.2.parked)) = some .no ∧
      (∀ j, ((r.die (n / 384)).copy j).clean = 0) ∧ r.mem = s.mem) ∧
  (∀ s c, (s.ctx c).life = .dying → (s.strandsOf c) = [] → (s.ctx c).destroy = none →
    ∃ r, exec (.teardownComplete c) s = .next r ∧ (r.ctx c).life = .free ∧ (∀ q ∈ r.pkg.fqWait, q.1 ≠ c) ∧ r.mem = s.mem) ∧
  (∀ s c, (s.ctx c).life = .dying → (s.strandsOf c) = [] → (s.ctx c).destroy = some 0 →
    ∃ r, exec (.teardownComplete c) s = .next r ∧ (r.ctx c).life = .free ∧ (r.pkg.queue 1).cons = (s.pkg.queue 1).cons + 1) ∧
  (∀ s c a, (s.ctx c).life = .dying → (s.strandsOf c) = [] → (s.ctx c).destroy = some a → a ≠ 0 →
    let handle := ((s.ctx c).gen.toNat + 65535) % 65536 * 65536 + c
    ∃ r : State, exec (.teardownComplete c) s = .next (r.post a 16 (handle * 2 ^ 32 + s.gtime.toNat * 2 ^ 64) (some 1)) ∧
      (r.ctx c).life = .free ∧ r.mem = s.mem ∧ r.pkg.posted = s.pkg.posted ∧ (r.pkg.queue 1).cons = (s.pkg.queue 1).cons)) ∧
  ((∀ s s1 n why l t a, (s.strand n).run = .blocked .saving → (s.strand n).save = some why → s.taskOf n = some (l, t) →
    (s.ctx (s.ctxOf n)).freeArea = some a → s.quiet n = true →
    let pa := (s.ctx (s.ctxOf n)).savebase + 24576 * a
    s.areaOk (s.ctxOf n) pa = true → s.gateAt (s.place pa) 24576 true = (s1, .ready) → s1.areaBad pa (s1.image n t.weight) = [] →
    s1.shadows = [] → s1.pkg.remap = [] → s1.anyOwned = false → (s.strand n).special.length ≤ 192 → (s.strand n).markList.length ≤ 64 →
    (s.strand n).z.length ≤ 16 →
    ∃ r, exec (.checkpointSave n) s = .next r ∧
      (∀ p ∈ s1.image n t.weight, getBytes r.mem (pa + p.1) p.2.1 = p.2.2 % 2 ^ (8 * p.2.1)) ∧
      ∀ k, k < pa ∨ pa + 24576 ≤ k → look 0 r.mem k = look 0 s1.mem k) ∧
  (∀ (s : State) n w, let st := s.strand n
    let has (o len v : Nat) := (o, len, v) ∈ s.image n w
    has 0 16384 (pack 2048 (fun i => (st.getV i).toNat) 64 0) ∧ has 0x4000 512 (pack 64 (fun i => (st.getS i).toNat) 64 0) ∧
    has 0x4200 64 (pack 64 (fun i => (st.getK i).toNat) 8 0) ∧ has 0x4240 64 (pack 64 (fun i => (st.getM i).toNat) 8 0) ∧
    has 0x4280 16 (pack 32 (fun i => (st.getLc i).toNat) 4 0) ∧ has 0x4290 32 (pack 16 st.count 16 0) ∧ has 0x42B0 8 st.pc.toNat ∧
    has 0x42C8 8 st.scyc.toNat ∧ has 0x42D0 16 (st.p0.toNat + st.p1.toNat * 2 ^ 64) ∧ has 0x42E8 8 st.fstat.toNat ∧ has 0x42F0 8 w ∧
    (∀ i p, st.special[i]? = some p → has (0x4480 + 4 * i) 4 (specialEntry st.markList p)) ∧
    (∀ i p, st.markList[i]? = some p → has (0x4780 + 16 * i) 16 (markRecord p)) ∧
    (∀ i p, st.z[i]? = some p → ∀ f ∈ replayImage (0x4B80 + 272 * i) p.2, f ∈ s.image n w)) ∧
  (∀ (s : State) n w h, let st := s.strand n
    st.words.head? = some h → st.res = .fresh → st.delay = none →
    (0x42C0, 8, fld h.toNat 11 8 % 256 * 256 + 4 + b2n st.tl) ∈ s.image n w ∧ (0x42B8, 8, 0) ∈ s.image n w) ∧
  (∀ (s : State) n w h k f a, let st := s.strand n
    st.words.head? = some h → st.res = .at k f → st.delay = some (.taken a) →
    (0x42C0, 8, k % 256 * 256 + 4 * b2n f + 2 + b2n st.tl) ∈ s.image n w ∧ (0x42B8, 8, a.toNat) ∈ s.image n w))

/-- R208, R228, R272, R322, R330, R363, R364, R396, R399, R400, R403, R414, R415, R416, R417, R421, R448: a hardware error of a core
starts its affected tasks again where their launch allows it, elsewhere; parity errors also reset the tables and channels they are in; one
in an instruction-cache sector drops the sector; an uncorrectable error of a scratchpad atom, of an atom an engine holds or of a row of
the ring poisons it. What an error of an engine's state reaches is the model's reading (log 56). Errors of slices and stored sectors
poison what they hit, are counted and are recorded for their requester, a strand, a Hod command under its identifier, or another agent of
a die; those of a structure of the device, of a structure without a poison path and of the firmware make the package viral; a stack
retires page by page, and what waited for a page goes on after it; exhausted cores are retired; the clock follows the power limit; scrub
counts add up. The model's choices: a dirty line is a free value (log 6), one page in transit at a time (log 52), VREASON 4 and 7 by
SLICE_ERROR (log 60), the fault noMemory (log 72). -/
def Obligations.ErrorsAndHealth : Prop :=
  ((∀ s c, s.hwTasks c = [] → (s.core c).active.isSome = true →
    ∃ r, exec (.coreHardwareError c) s = .next r ∧ r.strands = s.strands ∧ r.mem = s.mem ∧ r.contexts = s.contexts ∧
      r.core c = s.core c) ∧
  (∀ s core c lid l t, s.hwTasks core = [(c, lid, t)] → s.task? c lid t.id = some (l, t) → l.restart = true → t.errors < 4 →
    ∃ r x, exec (.coreHardwareError core) s = .next r ∧ ((r.task? c lid t.id).map (fun p => p.2)) = some x ∧
      x.errors = t.errors + 1 ∧ x.banned = t.banned ++ [core] ∧
      (∀ b ∈ (r.core core).bindings, ¬ (b.2.1 = c ∧ b.2.2.1 = lid ∧ b.2.2.2 = t.id)) ∧
      (t.run = .ready ∨ t.run = .offered → x.run = .ready ∧ x.area = none ∧ x.weight = t.weight) ∧
      (∀ n, t.run = .bound n → s.ctxOf n = c → (s.strand n).launch.toNat = lid → (s.strand n).task.toNat = t.id →
        (s.strand n).save = none → x.run = .ended n ∧ x.again = true ∧ ((r.strand n).run = .free ∨ (r.strand n).run = .blocked .ending))) ∧
  (∀ s core c lid l t, s.hwTasks core = [(c, lid, t)] → s.task? c lid t.id = some (l, t) → l.restart = false ∨ 4 ≤ t.errors →
    t.run = .ready ∨ t.run = .offered →
    let s1 := s.coreRecord core (BitVec.ofNat 32 (s.handleOf c)) (BitVec.ofNat 32 lid) (BitVec.ofNat 32 t.id) 0xFFFFFFFF 0x16 0x0701 0
    exec (.coreHardwareError core) s = .next ((((s1.unpark c t).endOff c lid t.id).onCore core (fun co =>
      { co with bindings := co.bindings.filter (fun b => !(b.2.1 = c && b.2.2.1 = lid && b.2.2.2 = t.id)) })).select core) ∧
    ∃ x k, (((s1.unpark c t).endOff c lid t.id).ctx c).launch? lid = some x ∧ 3 ≤ x.status ∧ x.failed = l.failed + 1 ∧
      x.returned = l.returned + t.weight ∧ x.task? t.id = some k ∧ k.run = .done ∧ k.area = none) ∧
  (∀ s core c lid l t n, s.hwTasks core = [(c, lid, t)] → s.task? c lid t.id = some (l, t) → l.restart = false ∨ 4 ≤ t.errors →
    t.run = .bound n → s.ctxOf n = c → (s.strand n).launch.toNat = lid → (s.strand n).task.toNat = t.id → (s.strand n).save = none →
    ∃ r, exec (.coreHardwareError core) s = .next r ∧ ((r.task? c lid t.id).map (fun p => p.2.run)) = some (.ended n) ∧
      (∃ x, (r.ctx c).launch? lid = some x ∧ 3 ≤ x.status ∧ x.failed = l.failed + 1) ∧
      ((r.strand n).run = .free ∨ (r.strand n).run = .blocked .ending)) ∧
  (∀ s c, ∃ r, exec (.coreHardwareError c) s = .next r) ∧
  (∀ s c, ∃ r, exec (.coreParityError ⟨c, .held⟩) s = .next r ∧ (r.core c).tags = [] ∧ (r.core c).vptr = 0 ∧ (r.core c).wm = []) ∧
  (∀ s c asid va, ∃ r, exec (.coreParityError ⟨c, .icache asid va⟩) s = .next r ∧ find? (r.core c).icache (icacheKey asid va) = none ∧
    (∀ k, k ≠ icacheKey asid va → find? (r.core c).icache k = find? (s.core c).icache k) ∧ r.strands = s.strands ∧ r.mem = s.mem) ∧
  (∀ s c a, exec (.coreParityError ⟨c, .spad a true⟩) s = .next (s.setCore c { s.core c with ce := (s.core c).ce + 1 })) ∧
  (∀ s c a, ∃ r, exec (.coreParityError ⟨c, .spad a false⟩) s = .next r ∧ (r.core c).ue = (s.core c).ue + 1 ∧
    look false (r.core c).spadP (a % 12288) = true ∧ (r.core c).spad = (s.core c).spad ∧ r.strands = s.strands ∧ r.mem = s.mem) ∧
  (∀ s cl mask engine, ∃ r, exec (.clusterParityError cl (.state mask engine)) s = .next r ∧
    ∀ ch, bitOf mask (ch / 16) = true → ((r.cluster cl).chan ch).bound = none ∧ ((r.cluster cl).chan ch).stage = 0) ∧
  (∀ s cl sec a, ∃ r, exec (.clusterParityError cl (.atom sec a)) s = .next r ∧ r.mem = s.mem ∧
    (∀ x ∈ (r.cluster cl).store, x.sector = sec → x.poison.getLsbD (a % 4) = true) ∧
    ((r.cluster cl).store.map (fun x => (x.sector, x.data))) = (s.cluster cl).store.map (fun x => (x.sector, x.data))) ∧
  (∀ s cl k pos, ∃ r, exec (.clusterParityError cl (.row k pos)) s = .next r ∧ look false ((r.cluster cl).slot k).poison pos = true ∧
    ((r.cluster cl).slot k).rows = ((s.cluster cl).slot k).rows ∧ r.mem = s.mem)) ∧
  ((∀ s d sec, exec (.sliceError d sec .single) s = .next (s.setDie d { s.die d with ce := (s.die d).ce + 1 })) ∧
  (∀ s d sec k, homeDie (128 * sec) = d → ∃ t, exec (.sliceError d sec (.data k)) s = .next t ∧ t.atomP (4 * sec + k % 4) = true ∧
    (t.die d).ue = (s.die d).ue + 1 ∧ (s.anyOwned = false → t.mem = s.mem)) ∧
  (∀ s d sec k, homeDie (128 * sec) ≠ d → ∃ t, exec (.sliceError d sec (.data k)) s = .next t ∧ t.mem = s.mem ∧ t.memP = s.memP ∧
    (t.die d).ue = (s.die d).ue + 1 ∧ (∀ q ∈ (t.die d).copies, q.1 = sec → q.2.poison.getLsbD (k % 4) = true)) ∧
  (∀ s d sec, homeDie (128 * sec) ≠ d → ∃ t, exec (.sliceError d sec .tag) s = .next t ∧ t.mem = s.mem ∧
    (∀ q ∈ (t.die d).copies, q.1 / 8 ≠ sec / 8)) ∧
  (∀ (s : State) d sec, homeDie (128 * sec) = d →
    let r : State := { s with freeN := s.freeN + 1 }
    exec (.sliceError d sec .tag) s = .next (if Config.lineDirty s.freeN
      then ((List.range 8).foldl (fun s k => s.poisonSector (8 * (sec / 8) + k) 15) r).event 7 d 0 else r)) ∧
  (∀ s d sec, exec (.sliceError d sec .structure) s = .next (s.goViral 4) ∧ exec (.sliceError d sec .firmware) s = .next (s.goViral 7)) ∧
  (∀ s sec ecc tb, window (128 * sec) = .hbm → s.domainOf (128 * sec) ≠ 0 →
    exec (.hbmSectorRead sec .device ecc tb) s = .next (s.goViral 2)) ∧
  (∀ s sec who ce, window (128 * sec) = .hbm → who ≠ .device ∨ s.domainOf (128 * sec) = 0 → look false s.badTag sec = false →
    exec (.hbmSectorRead sec who ⟨0, ce⟩ false) s = .next (s.onStack (stackOf (128 * sec)) (fun x =>
      { x with ce := if x.ce + popCount ce 4 0 < 65536 then x.ce + popCount ce 4 0 else 65535 }))) ∧
  (let poisoned (s t : State) (sec ue : Nat) : Prop := (∀ i < 128, look 0 t.mem (128 * sec + i) = 0) ∧
      (∀ k < 4, look false t.memP (4 * sec + k) = true) ∧ look false t.badTag sec = false ∧
      (t.pkg.stack (stackOf (128 * sec))).ue = min ((s.pkg.stack (stackOf (128 * sec))).ue + popCount ue 4 0) 65535 ∧
      (∀ a, a / 128 ≠ sec → s.anyOwned = false → look 0 t.mem a = look 0 s.mem a)
   (∀ s sec who ue ce tb, window (128 * sec) = .hbm → fld ue 0 4 ≠ 0 → who = .device ∧ s.domainOf (128 * sec) = 0 ∨ who = .outside →
      ∃ t, exec (.hbmSectorRead sec who ⟨ue, ce⟩ tb) s = .next t ∧ poisoned s t sec ue) ∧
   (∀ s sec n va ue ce tb, window (128 * sec) = .hbm → fld ue 0 4 ≠ 0 → (s.strand n).run ≠ .free →
      s.liveHandle (s.strand n).ctxh.toNat = true →
      let st := s.strand n
      ∃ t, exec (.hbmSectorRead sec (.strand n va) ⟨ue, ce⟩ tb) s = .next
        (t.coreRecord (n / 8) st.ctxh st.launch st.task 0xFFFFFFFF 0x16 0x0900 va (st.slotOf sec)) ∧ poisoned s t sec ue) ∧
   (∀ s sec cl ch m q va ue ce tb, window (128 * sec) = .hbm → fld ue 0 4 ≠ 0 → ((s.cluster cl).chan ch).queue = m :: q →
      s.liveHandle m.ctxh.toNat = true →
      ∃ t, exec (.hbmSectorRead sec (.hod cl ch va) ⟨ue, ce⟩ tb) s = .next
        (t.coreRecord (m.strand / 8) m.ctxh m.launch m.task m.id 0x16 0x0900 va 0x0A) ∧ poisoned s t sec ue) ∧
   (∀ s sec die h va ue ce tb, window (128 * sec) = .hbm → fld ue 0 4 ≠ 0 → s.liveHandle h = true →
      ∃ t, exec (.hbmSectorRead sec (.agent die h va) ⟨ue, ce⟩ tb) s = .next
        (t.dieRecord die (h % 65536) 0 0 0x16 0x0900 va) ∧ poisoned s t sec ue)) ∧
  (let failed (s t : State) (sec : Nat) : Prop := look false t.badTag sec = true ∧ t.mem = s.mem ∧
      (t.pkg.stack (stackOf (128 * sec))).int = min ((s.pkg.stack (stackOf (128 * sec))).int + 1) 65535
   (∀ s sec ce, window (128 * sec) = .hbm → s.domainOf (128 * sec) = 0 →
      ∃ t, exec (.hbmSectorRead sec .device ⟨0, ce⟩ true) s = .next (t.goViral 1) ∧ failed s t sec) ∧
   (∀ s sec ce, window (128 * sec) = .hbm →
      ∃ t, exec (.hbmSectorRead sec .outside ⟨0, ce⟩ true) s = .next t ∧ failed s t sec) ∧
   (∀ s sec n va ce, window (128 * sec) = .hbm → (s.strand n).run ≠ .free → s.liveHandle (s.strand n).ctxh.toNat = true →
      let st := s.strand n
      ∃ t, exec (.hbmSectorRead sec (.strand n va) ⟨0, ce⟩ true) s = .next
        (t.integrity (n / 8) (s.ctxOf n) st.launch st.task va (st.slotOf sec)) ∧ failed s t sec) ∧
   (∀ s sec cl ch m q va ce, window (128 * sec) = .hbm → ((s.cluster cl).chan ch).queue = m :: q → s.liveHandle m.ctxh.toNat = true →
      ∃ t, exec (.hbmSectorRead sec (.hod cl ch va) ⟨0, ce⟩ true) s = .next
        (t.integrity (m.strand / 8) m.ctx m.launch m.task va 0x0A m.id) ∧ failed s t sec) ∧
   (∀ s sec die h va ce, window (128 * sec) = .hbm → s.liveHandle h = true →
      ∃ t, exec (.hbmSectorRead sec (.agent die h va) ⟨0, ce⟩ true) s = .next
        ((t.dieRecord die (h % 65536) 0 0 0x15 0x0900 va).teardown (h % 65536)) ∧ failed s t sec)) ∧
  (∀ s sec who ecc tb, window (128 * sec) ≠ .hbm → exec (.hbmSectorRead sec who ecc tb) s = .fault (.noMemory (128 * sec))) ∧
  (∀ s k l, k < 16 → (s.pkg.stack k).retired = false → (s.pkg.stack k).retiring = false →
    exec (.stackRetire k l) s = .next (s.onStack k (fun x => { x with retiring := true }))) ∧
  (∀ s k l page dest rest, k < 16 → (s.pkg.stack k).retired = false → (s.pkg.stack k).retiring = true → s.pkg.transit = none →
    l = (page, dest) :: rest → window (65536 * page) = .hbm → stackOf (65536 * page) = k → find? s.pkg.remap page = none →
    window (65536 * dest) = .hbm → s.leavingStack (65536 * dest) = false →
    exec (.stackRetire k l) s = .next (s.beginTransit page dest)) ∧
  (∀ s k l page dest, k < 16 → (s.pkg.stack k).retired = false → (s.pkg.stack k).retiring = true →
    s.pkg.transit = some (page, dest) → window (65536 * page) = .hbm → stackOf (65536 * page) = k → page ≠ dest → s.anyOwned = false →
    s.pageQuiet page = true → (∀ i < 512, look false s.badTag (512 * page + i) = false) →
    let s0 := s.onPkg (fun p => { p with transit := none })
    s0.gatePage page true = (s0, .ready) → s0.gatePage dest true = (s0, .ready) →
    ∃ t : State, exec (.stackRetire k l) s = .next t.resumeTransit ∧ t.pkg.transit = none ∧ find? t.pkg.remap page = some dest ∧
      (∀ i < 65536, look 0 t.mem (65536 * dest + i) = look 0 s.mem (65536 * page + i)) ∧
      (∀ a, a / 65536 ≠ dest → look 0 t.mem a = look 0 s.mem a)) ∧
  (∀ s k, k < 16 → (s.pkg.stack k).retired = false → (s.pkg.stack k).retiring = true → s.pkg.transit = none →
    ∃ t, exec (.stackRetire k []) s = .next t ∧ (t.pkg.stack k).retired = true ∧ (t.pkg.stack k).retiring = false ∧
      t.pkg.replace = true) ∧
  (∀ s cores, ∃ t, exec (.marginPlan cores) s = .next t ∧ ∀ c ∈ cores, c < 192 → (t.core c).retired = true) ∧
  (∀ s avg, ∃ t, exec (.powerManagerSample avg) s = .next t ∧ t.mem = s.mem ∧ t.strands = s.strands ∧
    (let limit := 10 * (if 1000 < s.pkg.pwrlim then 1000 else if s.pkg.pwrlim < 100 then 100 else s.pkg.pwrlim)
     (limit < avg → t.pkg.clock = (if s.pkg.clock < 1600 then 1500 else s.pkg.clock - 100)) ∧
       (100 * avg < 95 * limit → t.pkg.clock = (if 2900 ≤ s.pkg.clock then 3000 else s.pkg.clock + 100)) ∧
       (avg ≤ limit → 95 * limit ≤ 100 * avg → t.pkg.clock = s.pkg.clock))) ∧
  (∀ s l, ∃ t, exec (.scrubCountPoll l) s = .next t ∧ ∀ k < 16, (t.pkg.stack k).ecs =
    if (s.pkg.stack k).retired then (s.pkg.stack k).ecs
    else if (s.pkg.stack k).ecs + l.getD k 0 < 2 ^ 32 then (s.pkg.stack k).ecs + l.getD k 0 else 2 ^ 32 - 1))

/-- R325, R329, R335 to R338, R368, R369: a request that passes its tests stops its leaf in memory, one that does not is answered with its
status; the page is copied once the accesses to it are done; the leaf in memory restarts at the new page as it was but for V, MIG and the
page; a page that Trowel freed is cleared and returns to its pool. The model's readings: Trowel's pages and skips (log 49), the host's
migrations one at a time and none while an invalidation runs (log 50), a refused step (log 73). -/
def Obligations.Migrations : Prop :=
  (∀ s v m, Serves s 2 24 v → (∀ q ∈ s.pkg.migs, q.trowel.isSome = true) → s.invalidating = false → migFields v = true →
    s.judgeMig 0 (byts v 0 2) (bitOf (byts v 2 1) 0) (BitVec.ofNat 64 (byts v 8 8)) (byts v 16 8) (byts v 24 8) none = .go m →
    s.gateAt m.leaf 8 true = (s, .ready) →
    exec (.migrationRequest false) s = .next (s.beginMig m) ∧ (s.beginMig m).pkg.migs = s.pkg.migs ++ [m]) ∧
  (∀ s v s1 st, Serves s 2 24 v → (∀ q ∈ s.pkg.migs, q.trowel.isSome = true) → s.invalidating = false → migFields v = true →
    s.judgeMig 0 (byts v 0 2) (bitOf (byts v 2 1) 0) (BitVec.ofNat 64 (byts v 8 8)) (byts v 16 8) (byts v 24 8) none = .status s1 st →
    exec (.migrationRequest false) s = .next (s1.completion 2 (byts v 24 8) st 0)) ∧
  (∀ (s : State) d asid big va new compl tr m, s.judgeMig d asid big va new compl tr = .go m →
    let size := if big then 0x200000 else 0x10000
    va.toNat % size = 0 ∧ (va.setWidth 57).signExtend 64 = va ∧ new % size = 0 ∧ m.new = new ∧ m.va = va ∧ m.asid = asid ∧ m.big = big ∧
      window m.old ≠ .nv ∧ window m.old ≠ .peer ∧ m.stage = 1 ∧
      s.migrating asid (fld va.toNat 16 41) m.pages = false ∧
      (s.shadows = [] → s.pkg.remap = [] → s.anyOwned = false → m.word = BitVec.ofNat 64 (stopLeaf (getBytes s.mem m.leaf 8)))) ∧
  (∀ (s : State) (m : Mig), m.leaf % 8 = 0 → window m.leaf = .hbm → s.shadows = [] → s.pkg.remap = [] → s.anyOwned = false →
    look false s.badTag (m.leaf / 128) = false →
    (getBytes (s.beginMig m).mem m.leaf 8 = m.word.toNat ∧
      (∀ a, a < m.leaf ∨ m.leaf + 8 ≤ a → look 0 (s.beginMig m).mem a = look 0 s.mem a)) ∧
    (getBytes (s.restart m).mem m.leaf 8 = restartLeaf m.word.toNat m.new % 2 ^ 64 ∧
      ∀ a, a < m.leaf ∨ m.leaf + 8 ≤ a → look 0 (s.restart m).mem a = look 0 s.mem a)) ∧
  (∀ w, bitOf (stopLeaf w) 0 = false ∧ bitOf (stopLeaf w) 6 = true ∧ ∀ i, i ≠ 0 → i ≠ 6 → bitOf (stopLeaf w) i = bitOf w i) ∧
  (∀ s trowel, s.invalidating = true → exec (.migrationRequest trowel) s = .refused .notEnabled) ∧
  (∀ s c obj va up rest new m, s.invalidating = false →
    s.pkg.trowel = (c, obj, va, up) :: rest → s.pkg.viral = false → s.trowelCount < 16 →
    (s.ctx c).life = .live → (up = true ∨ (s.ctx c).busy = false) →
    s.moves c ⟨obj, 0, 0, false, true⟩ (if up then .pooled else .hbm) up [va.toNat] ≠ [] → s.takePage up = some new →
    s.judgeMig (c % 4) (s.ctx c).asid false va new 0 (some (c, obj, up)) = .go m → s.gateAt m.leaf 8 true = (s, .ready) →
    exec (.migrationRequest true) s = .next (((s.onPkg (fun p => { p with trowel := rest })).onPool up
      (fun l => l.filter (fun p => p ≠ new))).beginMig m)) ∧
  (∀ s i m, s.pkg.migs[i]? = some m → m.stage = 1 → m.big = false → m.old % 65536 = 0 → m.new % 65536 = 0 → s.pkg.remap = [] →
    s.anyOwned = false → s.pageQuiet (m.old / 65536) = true → s.drainedFor m.cover = true → s.gateMig m = (s, true) →
    (∀ k < 512, s.deadAt (m.new + 128 * k) = none) →
    (∀ k < 512, look false s.badTag (m.old / 128 + k) = false) →
    ∃ t, exec (.migrationCopy i) s = .next t ∧ (∀ k < 65536, look 0 t.mem (m.new + k) = look 0 s.mem (m.old + k)) ∧
      (∀ a, a < m.new ∨ m.new + 65536 ≤ a → look 0 t.mem a = look 0 s.mem a) ∧
      (t.pkg.migs[i]?.map (fun m => m.stage)) = some 3) ∧
  (∀ s i m q, s.pkg.migs[i]? = some m → m.stage = 3 → m.status ≠ 5 → m.trowel = some q → m.compl = 0 →
    s.gateAt m.leaf 8 true = (s, .ready) →
    exec (.migrationRestart i) s = .next ((s.restart m).walkAll.setMig i { m with stage := 4 })) ∧
  (∀ s i m, s.pkg.migs[i]? = some m → m.stage = 3 → m.status ≠ 5 → m.trowel = none →
    s.gateAt m.leaf 8 true = (s, .ready) →
    exec (.migrationRestart i) s = .next
      (((s.restart m).walkAll.onPkg (fun p => { p with migs := dropNth p.migs i })).completion 2 m.compl m.status 0)) ∧
  (∀ w new, new % 65536 = 0 → new < 2 ^ 52 → bitOf (restartLeaf (stopLeaf w) new) 0 = true ∧
    bitOf (restartLeaf (stopLeaf w) new) 6 = false ∧ fld (restartLeaf (stopLeaf w) new) 8 44 * 256 = new ∧
    fld (restartLeaf (stopLeaf w) new) 1 5 = fld w 1 5 ∧ fld (restartLeaf (stopLeaf w) new) 52 12 = fld w 52 12) ∧
  (∀ s i m c obj up, s.pkg.migs[i]? = some m → m.stage = 4 → m.trowel = some (c, obj, up) → m.status ≠ 5 →
    s.gateAt (s.remapped m.old) 65536 true = (s, .ready) → (s.ctx c).life ≠ .live →
    exec (.trowelMigrationDone i) s = .next ((s.freePage i m up).used .trowel)) ∧
  (∀ s s2 i m c obj up os o, s.pkg.migs[i]? = some m → m.stage = 4 → m.trowel = some (c, obj, up) → m.status ≠ 5 →
    s.gateAt (s.remapped m.old) 65536 true = (s, .ready) → (s.ctx c).life = .live → s.kvObjs c = .ok os → os[obj]? = some o →
    o.ok = true → s.storeVa .trowel (c % 4) c ((s.ctx c).kvlist.toNat + 32 * obj + 13) 1 (s.tierOf c o) = (s2, none) →
    exec (.trowelMigrationDone i) s = .next (((s2.setPooled c os).freePage i m up).used .trowel)) ∧
  (∀ s i m c obj up, s.pkg.migs[i]? = some m → m.stage = 4 → m.trowel = some (c, obj, up) → m.status = 5 →
    exec (.trowelMigrationDone i) s = .next
      (((s.onPkg (fun p => { p with migs := dropNth p.migs i })).onPool up (fun l => m.new :: l)).used .trowel)) ∧
  (∀ (s : State) i m up, (s.freePage i m up).pkg.migs = dropNth s.pkg.migs i ∧
    (if up then (s.freePage i m up).pkg.ppool = m.old :: s.pkg.ppool ∧ (s.freePage i m up).pkg.hpool = s.pkg.hpool
      else (s.freePage i m up).pkg.hpool = m.old :: s.pkg.hpool ∧ (s.freePage i m up).pkg.ppool = s.pkg.ppool) ∧
    (∀ p, p = s.remapped m.old / 65536 → window (65536 * p) ≠ .nv →
      (∀ k < 65536, look 0 (s.freePage i m up).mem (65536 * p + k) = 0) ∧ look 0 (s.freePage i m up).pkg.domains p = 0)) ∧
  (∀ s objs, s.pkg.viral = false → s.kvAll ((s.contexts.filter (fun p => p.2.life = .live)).map (fun p => p.1)) [] = .ok objs →
    ∃ t, exec .trowelScan s = .next t ∧ t.pkg.trowel = s.scanMoves objs) ∧
  (∀ (s : State) objs, ((s.scanMoves objs).filter (fun q => q.2.2.2)).length ≤ s.pkg.hpool.length ∧
    ((s.scanMoves objs).filter (fun q => !q.2.2.2)).length ≤ s.pkg.ppool.length)

/-- R405, R406, R407, R410, R411, R412, R418, R419, R424: a held write enters its home with its image; an image that both halves have
acknowledged is on the device; one refused or timed out is dropped and counted, and FAIL is set. Losing power leaves host and pooled
memory and the devices; a warm reset keeps memory and retained keys and trains the links (all of them: the model's choice, log 53), the
non-volatile tier reading as its devices hold it; a cold boot starts with HBM4E zero and the tier as its devices hold it, repairs applied
and links trained; a flush empties Kiln and writes back the host's lines. -/
def Obligations.KilnAndReset : Prop :=
  ((∀ s h w l, (s.die (2 + h % 2)).heldWrites = w :: l → s.pkg.viral = false →
    (s.die (2 + h % 2)).kilnRoom = true → w.store = none →
    exec (.kilnImageAccept h) s = .next ((s.onDie (2 + h % 2) (fun x => { x with heldWrites := l })).homeWrite
      w.pa w.n w.mask w.data w.poison none)) ∧
  (∀ s h w l i, (s.die (2 + h % 2)).heldWrites = w :: l → s.pkg.viral = false →
    (s.die (2 + h % 2)).kilnRoom = true → w.store = some i →
    exec (.kilnImageAccept h) s = .next (((s.onDie (2 + h % 2) (fun x => { x with heldWrites := l })).homeWrite
      w.pa w.n w.mask w.data w.poison (some i)).storeArrived i.1 i.2.2.2.2)) ∧
  (∀ s h sec part im, (s.die (2 + h % 2)).images.find? (fun j => j.sector = sec) = some im →
    (if part % 2 = 0 then im.ack1 else im.ack0) = true →
    ∃ t, exec (.kilnImageAck h sec part) s = .next t ∧ getBytes t.nvm (128 * sec) 128 = im.data.toNat ∧
      (∀ k < 4, look false t.nvmP (4 * sec + k) = im.poison.getLsbD k) ∧
      (t.die (2 + h % 2)).images = (s.die (2 + h % 2)).images.filter (fun j => j.sector ≠ sec) ∧ t.mem = s.mem ∧
      (∀ a, a / 128 ≠ sec → look 0 t.nvm a = look 0 s.nvm a)) ∧
  (∀ s h sec part im, (s.die (2 + h % 2)).images.find? (fun j => j.sector = sec) = some im →
    (if part % 2 = 0 then im.ack1 else im.ack0) = false →
    ∃ t, exec (.kilnImageAck h sec part) s = .next t ∧ t.nvm = s.nvm ∧ t.mem = s.mem ∧
      ((t.die (2 + h % 2)).images.find? (fun j => j.sector = sec)) =
        some (if part % 2 = 0 then { im with ack0 := true } else { im with ack1 := true })) ∧
  (∀ s h sec, (s.die (2 + h % 2)).images.any (fun j => j.sector = sec) = true →
    ∃ t, exec (.kilnImageRefused h sec) s = .next t ∧ t.pkg.fail = true ∧
      t.pkg.failcnt = (if s.pkg.failcnt + 1 < 65536 then s.pkg.failcnt + 1 else 65535) ∧ t.nvm = s.nvm ∧
      (s.pkg.fail = true → (∀ im ∈ (s.die (2 + h % 2)).images, im.stores = []) →
        (t.die (2 + h % 2)).images = (s.die (2 + h % 2)).images.filter (fun j => j.sector ≠ sec) ∧
          sec ∈ (t.die (2 + h % 2)).nvLost)) ∧
  (∀ (s : State) units, let gone (im : KilnImage) : Bool := units.contains ((128 * im.sector - 0x80000000000) / 0x10000000)
    let lost (d : Nat) := (s.die d).images.filter gone
    lost 2 ++ lost 3 ≠ [] →
    ∃ t, exec (.kilnDeviceTimeout units) s = .next t ∧ t.pkg.fail = true ∧ t.nvm = s.nvm ∧
      (s.pkg.failcnt < t.pkg.failcnt ∨ t.pkg.failcnt = 65535) ∧
      (s.pkg.fail = true → (∀ d, d = 2 ∨ d = 3 → ∀ im ∈ (s.die d).images, im.stores = []) →
        (∀ d, d = 2 ∨ d = 3 → (t.die d).images = (s.die d).images.filter (fun im => !gone im) ∧
          ∀ im ∈ lost d, im.sector ∈ (t.die d).nvLost) ∧
        (((lost 2).map (fun im => im.sector)).Nodup → ((lost 3).map (fun im => im.sector)).Nodup →
          t.pkg.failcnt = min (s.pkg.failcnt + (lost 2).length + (lost 3).length) 65535))) ∧
  (∀ s units, ([2, 3].all (fun d => (s.die d).images.all (fun im => !units.contains ((128 * im.sector - 0x80000000000) / 0x10000000)))) = true →
    exec (.kilnDeviceTimeout units) s = .refused .notEnabled)) ∧
  ((∀ s, s.pkg.powered = true → ∃ t, exec .powerLoss s = .next t ∧ t.pkg.powered = false ∧ t.strands = [] ∧ t.contexts = [] ∧
    t.pkg.keys = [] ∧ (∀ a, window a = .hbm → look 0 t.mem a = 0) ∧
    (∀ a, window a = .host ∨ window a = .pooled → look 0 t.mem a = look 0 s.mem a) ∧
    ((s.die 2).images = [] → (s.die 3).images = [] → t.nvm = s.nvm)) ∧
  (∀ s, s.pkg.powered = true → ∃ t, exec .warmReset s = .next t ∧ t.pkg.powered = true ∧ t.strands = [] ∧ t.contexts = [] ∧
    t.gtime = s.gtime ∧ t.pkg.viral = false ∧ (∀ p ∈ t.pkg.keys, p.2.retain = true) ∧
    (∀ p ∈ s.pkg.keys, p.2.retain = true → p ∈ t.pkg.keys) ∧
    t.pkg.link0 = true ∧ t.pkg.link1 = true ∧ t.pkg.link2 = true ∧ t.pkg.link3 = true ∧
    (s.anyOwned = false → s.lostPages = [] → (s.die 2).images = [] → (s.die 3).images = [] → keysRise s.nvm = true →
      (∀ p ∈ s.nvm, window p.1 = .nv) → t.badTag = s.badTag ∧ t.nvm = s.nvm ∧
      (∀ a, window a = .hbm ∨ window a = .host ∨ window a = .pooled → look 0 t.mem a = look 0 s.mem a) ∧
      (∀ a, window a = .nv → look 0 t.mem a = look 0 s.nvm a))) ∧
  (∀ s, s.pkg.powered = false → exec (.coldBoot false) s = .next s) ∧
  (∀ s, s.pkg.powered = false → ∃ t, exec (.coldBoot true) s = .next t ∧ t.pkg.powered = true ∧ t.pkg.viral = false ∧
    t.strands = [] ∧ t.contexts = [] ∧ t.pkg.keys = [] ∧ t.pkg.link0 = true ∧ t.pkg.link1 = true ∧ t.pkg.link2 = true ∧
    t.pkg.link3 = true ∧ t.pkg.signKeys = s.pkg.signKeys ∧ t.pkg.repaired = s.pkg.repair ∧ t.nvm = s.nvm ∧
    ((∀ p ∈ s.nvm, window p.1 = .nv) → (∀ a, window a = .hbm → look 0 t.mem a = 0) ∧
      (∀ a, window a = .host ∨ window a = .pooled → look 0 t.mem a = look 0 s.mem a))) ∧
  (∀ s, ∃ t, exec .globalPersistentFlush s = .next t ∧ (t.die 2).images = [] ∧ (t.die 3).images = [] ∧ (∀ l, t.line l ≠ .m) ∧
    t.mem = s.mem ∧ (∀ q ∈ s.pkg.lines, q.2 ≠ .m → q ∈ t.pkg.lines)))

/-- R8, R311, R359, R398, R399, R407, R420, R432, R434, R435, R436, R439, R441: a register takes the bits it has; counts and
configurations of queues obey their rules; Trowel's pools take and give pages, the last first; a read of 4 or 8 aligned bytes answers with
the register, and in the viral state nothing outside DEV is written or answers. Accesses of 4 bytes and of a pool's POP register are the
model's reading (log 62); the reply's status numbers are its own (log 58). Inside a secure session keys are loaded and zeroed, pages are
cleared under a new key domain and signing keys change; the mailbox answers. KDSET acts in one step (log 51); whether a command is signed
and what SPDM answers are free values (log 9); the reply's status and SPDM's kinds 3 and 4 are the model's numbers (log 58). -/
def Obligations.RegistersAndKeys : Prop :=
  ((∀ p ∈ [(0x20, 16), (0x2000, 32), (0x2008, 32), (0x2010, 64), (0x2018, 64), (0x2020, 32), (0x2028, 32), (0x2030, 32)],
    ∀ s v, s.pkg.viral = false → ∃ t, exec (.registerWrite p.1 8 (some v)) s = .next t ∧ t.reg p.1 = v % 2 ^ p.2 ∧ t.mem = s.mem ∧
      t.strands = s.strands) ∧
  (∀ s v, s.pkg.viral = false →
    (∃ t, exec (.registerWrite 0x2010 4 (some v)) s = .next t ∧ t.reg 0x2010 = s.reg 0x2010 / 2 ^ 32 % 2 ^ 32 * 2 ^ 32 + v % 2 ^ 32) ∧
    ∃ t, exec (.registerWrite 0x2014 4 (some v)) s = .next t ∧ t.reg 0x2010 = s.reg 0x2010 % 2 ^ 32 + v % 2 ^ 32 * 2 ^ 32) ∧
  (∀ s off n v, n ≠ 4 ∧ n ≠ 8 ∨ (n = 4 ∨ n = 8) ∧ off % n ≠ 0 →
    exec (.registerWrite off n v) s = .next (s.onPkg (fun p => { p with reply := (2, 0) }))) ∧
  (∀ s off n v, s.pkg.viral = true → n = 4 ∨ n = 8 ∧ ownStep off n = false → off % n = 0 → 0x1000 ≤ off →
    exec (.registerWrite off n (some v)) s = .next s) ∧
  (∀ s off n, n = 4 ∨ n = 8 → off % n = 0 → s.pkg.viral = false ∨ off < 0x1000 → off / 8 * 8 ≠ 0x3008 → off / 8 * 8 ≠ 0x3048 →
    exec (.registerWrite off n none) s = .next (s.onPkg (fun p => { p with
      reply := (0, if n = 8 then s.reg off else s.reg (off / 8 * 8) / 2 ^ (8 * (off % 8)) % 2 ^ 32) }))) ∧
  (∀ s off n, n = 4 ∨ n = 8 → off % n = 0 → s.pkg.viral = true → 0x1000 ≤ off →
    exec (.registerWrite off n none) s = .next (s.onPkg (fun p => { p with reply := (1, 0) }))) ∧
  (∀ s off, off = 0x3008 ∨ off = 0x300C → s.pkg.viral = false →
    exec (.registerWrite off 4 none) s = .next (s.onPkg (fun p => { p with
      hpool := p.hpool.drop 1, reply := (0, p.hpool.headD 0 / 2 ^ (8 * (off % 8)) % 2 ^ 32) }))) ∧
  (∀ s off, off = 0x3048 ∨ off = 0x304C → s.pkg.viral = false →
    exec (.registerWrite off 4 none) s = .next (s.onPkg (fun p => { p with
      ppool := p.ppool.drop 1, reply := (0, p.ppool.headD 0 / 2 ^ (8 * (off % 8)) % 2 ^ 32) }))) ∧
  (∀ s q v, s.pkg.viral = false → q < 4 → (BitVec.ofNat 32 v - (s.pkg.queue q).cons).toNat ≤ 2 ^ (s.pkg.queue q).log2n →
    exec (.cqProdWrite q v) s = .next (s.onQueue q (fun x => { x with prod := BitVec.ofNat 32 v }))) ∧
  (∀ s q v, s.pkg.viral = false → q < 4 → 2 ^ (s.pkg.queue q).log2n < (BitVec.ofNat 32 v - (s.pkg.queue q).cons).toNat →
    ∃ t, exec (.cqProdWrite q v) s = .next t ∧ (t.pkg.queue q).err = true ∧ (t.pkg.queue q).prod = (s.pkg.queue q).prod) ∧
  (∀ s q v, s.pkg.viral = false → q < 6 → (s.pkg.queue q).en = false → bitOf v 8 = false ∨ 4 ≤ v % 32 ∧ v % 32 ≤ 16 →
    exec (.qcfgWrite q v) s = .next (s.onQueue q (fun x => { x with en := bitOf v 8, log2n := v % 32 }))) ∧
  (∀ s v, s.pkg.viral = false → v < 2 ^ 52 → v % 65536 = 0 → window v = .hbm → s.pkg.hpool.length < 1048576 →
    exec (.hppush v) s = .next (s.onPkg (fun p => { p with hpool := v :: p.hpool }))) ∧
  (∀ s v, s.pkg.viral = false → v < 2 ^ 52 → v % 65536 = 0 → window v = .pooled → s.pkg.ppool.length < 1048576 →
    exec (.pppush v) s = .next (s.onPkg (fun p => { p with ppool := v :: p.ppool }))) ∧
  (∀ s, s.pkg.viral = false → exec .hppop s = .next (s.onPkg (fun p => { p with hpool := p.hpool.drop 1, reply := (0, p.hpool.headD 0) }))) ∧
  (∀ s, s.pkg.viral = false → exec .pppop s = .next (s.onPkg (fun p => { p with ppool := p.ppool.drop 1, reply := (0, p.ppool.headD 0) }))) ∧
  (∀ s v, bitOf v 0 = true → s.pkg.viral = false →
    ∃ t, exec (.forcev v) s = .next t ∧ t.pkg.viral = true ∧ t.pkg.vreason = 6 ∧ t.mem = s.mem) ∧
  (∀ s v, s.pkg.viral = false → bitOf v 1 = false ∨ s.pkg.holdok = true →
    ∃ t, exec (.klctlGpfWrite v) s = .next t ∧ t.pkg.gpf = bitOf v 1 ∧ t.mem = s.mem ∧
      t.pkg.buffered = (if (s.die 2).images = [] ∧ (s.die 3).images = [] then bitOf v 1 else s.pkg.buffered))) ∧
  ((∀ s k b page n d x y, s.pkg.session = false → ∀ i ∈ [Instr.keyload k b, .keyzero k, .kdset page n d, .sigkey b x y],
    exec i s = .next (s.onPkg (fun p => { p with reply := (1, 0) }))) ∧
  (∀ s k b, s.pkg.session = true → 0 < k → k < 256 → (s.pkg.key k).valid = false →
    ∃ t, exec (.keyload k b) s = .next t ∧ t.pkg.key k = ⟨true, b⟩ ∧ (∀ j, j ≠ k → t.pkg.key j = s.pkg.key j) ∧ t.pkg.reply = (0, 0) ∧
      t.mem = s.mem) ∧
  (∀ s k, s.pkg.session = true → 0 < k → k < 256 → s.domainNamed k = false →
    ∃ t, exec (.keyzero k) s = .next t ∧ (t.pkg.key k).valid = false ∧ (∀ j, j ≠ k → t.pkg.key j = s.pkg.key j) ∧
      t.pkg.reply = (0, 0) ∧ t.mem = s.mem) ∧
  (∀ s page n d, s.pkg.session = true → 0 < n → n ≤ 2 ^ 24 → d < 256 → (s.pkg.key d).valid = true → s.pkg.remap = [] → s.anyOwned = false →
    (∀ k < n, window (65536 * (page + k)) = .hbm) ∨ (∀ k < n, window (65536 * (page + k)) = .pooled) →
    (∀ k < n, s.kdsetBarred (page + k) = false ∧ s.pageQuiet (page + k) = true ∧ s.gatePage (page + k) true = (s, .ready)) →
    ∃ t, exec (.kdset page n d) s = .next t ∧ t.pkg.reply = (0, 0) ∧ (∀ k < n, t.domainOf (65536 * (page + k)) = d) ∧
      (∀ a, page ≤ a / 65536 → a / 65536 < page + n → look 0 t.mem a = 0) ∧
      (∀ a, a / 65536 < page ∨ page + n ≤ a / 65536 → look 0 t.mem a = look 0 s.mem a)) ∧
  (∀ s b k x, s.pkg.session = true → k < 2 ^ 256 → x < 2 ^ 512 → ∃ t, exec (.sigkey b k x) s = .next t ∧ t.mem = s.mem ∧
    (Config.commandSigned s.pkg.firmware b k x = true → t.pkg.reply = (0, 0) ∧ (k ∈ t.pkg.signKeys ↔ b = true) ∧
      ∀ j, j ≠ k → (j ∈ t.pkg.signKeys ↔ j ∈ s.pkg.signKeys)) ∧
    (Config.commandSigned s.pkg.firmware b k x = false → t.pkg.reply = (1, 0) ∧ t.pkg.signKeys = s.pkg.signKeys)) ∧
  (∀ s k, ∃ t, exec (.spdmAttest k) s = .next t ∧ t.pkg.reply = (0, Config.attestation k s.pkg.measured s.freeN) ∧
    t.freeN = s.freeN + 1 ∧ t.pkg.session = (if k = 3 then true else if k = 4 then false else s.pkg.session) ∧ t.mem = s.mem))

/-- R341, R344, R347, R360, R371: the host's commands on contexts; a command that is INVALID is judged so before its handle is found
stale. CONS passes a command with no completion address at once, another once its completion is written. -/
def Obligations.HostCommands : Prop :=
  let plain (v op : Nat) : Prop := byts v 0 1 = op ∧ byts v 1 3 = 0 ∧ byts v 24 40 = 0
  (∀ s v d, s.cqBusy = false → Serves s 1 16 v → plain v 1 → (s.ctx (byts v 4 4 % 65536)).life = .free → byts v 8 8 % 128 = 0 →
    inHostOrHbm (byts v 8 8) 128 = true → s.readPa (byts v 8 8) 128 = .ok d false → s.pkg.ctxGood d = true →
    let i := byts v 4 4 % 65536
    ∀ os, ((s.onDie (i % 4) Die.dropClean).setCtx i (ctxOfDesc d (s.ctx i).gen)).kvObjs i = .ok os →
    ∃ t, exec .create s = .next t ∧ (t.ctx i).life = .live ∧ (t.ctx i).gen = (s.ctx i).gen ∧ (t.ctx i).asid = byts d 0 2 ∧
      (t.ctx i).keydom = byts d 2 1 ∧ (t.ctx i).pclass = byts d 3 1 ∧ (t.ctx i).tokens = byts d 4 2 ∧
      (t.ctx i).seed = BitVec.ofNat 64 (byts d 8 8) ∧ (t.ctx i).fqbase = byts d 40 8 ∧ (t.ctx i).savebase = byts d 56 8 ∧
      (t.ctx i).wake = BitVec.ofNat 64 (byts d 64 8) ∧ (t.ctx i).launches = [] ∧ (t.ctx i).pkf = 0 ∧
      (∀ a < 512, (t.ctx i).savefree.getLsbD a = decide (a < byts d 52 4)) ∧
      (byts v 16 8 = 0 → (t.pkg.queue 1).cons = (s.pkg.queue 1).cons + 1)) ∧
  (∀ s v, s.cqBusy = false → Serves s 1 16 v → plain v 2 → s.liveHandle (byts v 4 4) = true → byts v 8 8 = 0 →
    let i := byts v 4 4 % 65536
    ∃ t, exec .destroy s = .next t ∧ (t.ctx i).life = .dying ∧ (t.ctx i).gen = (s.ctx i).gen + 1 ∧ (t.ctx i).launches = [] ∧
      (t.ctx i).destroy = some (byts v 16 8) ∧ (∀ r ∈ (t.die (i % 4)).tags, r.ctx ≠ i) ∧ (∀ e ∈ t.shadows, e.ctx ≠ i)) ∧
  (∀ s v, s.cqBusy = false → Serves s 1 16 v → plain v 3 → s.liveHandle (byts v 4 4) = true → byts v 8 8 = 0 →
    (∀ q ∈ s.haltedOf (byts v 4 4 % 65536), ∀ m l, ((s.cluster q.1).chan q.2).queue = m :: l → s.hasRoom m = true) →
    (s.ctx (byts v 4 4 % 65536)).owed = [] →
    ∃ t, exec .resume s = .next t ∧ (t.ctx (byts v 4 4 % 65536)).pkf = 0 ∧ (t.ctx (byts v 4 4 % 65536)).pkev = 0 ∧
      (t.ctx (byts v 4 4 % 65536)).wakepend = false ∧
      (byts v 16 8 = 0 → (t.pkg.queue 1).cons = (s.pkg.queue 1).cons + 1)) ∧
  (∀ s v, s.cqBusy = false → Serves s 1 16 v → plain v 4 → s.liveHandle (byts v 4 4) = true →
    exec .setwake s = .next ((s.onCtx (byts v 4 4 % 65536) (fun x => { x with wake := BitVec.ofNat 64 (byts v 8 8) })).completion
      1 (byts v 16 8) 0 (byts v 4 4))) ∧
  (∀ s v, s.cqBusy = false → Serves s 1 16 v → plain v 5 → s.liveHandle (byts v 4 4) = true → byts v 8 8 < 65536 →
    exec .settok s = .next ((s.onCtx (byts v 4 4 % 65536) (fun x => { x with tokens := byts v 8 8 })).completion
      1 (byts v 16 8) 0 (byts v 4 4))) ∧
  (∀ s v, s.cqBusy = false → Serves s 1 16 v → plain v 6 → s.liveHandle (byts v 4 4) = true → byts v 8 8 < 8 →
    exec .setclass s = .next ((s.onCtx (byts v 4 4 % 65536) (fun x => { x with pclass := byts v 8 8 })).completion
      1 (byts v 16 8) 0 (byts v 4 4))) ∧
  (∀ s r v d x, s.cqBusy = false → Serves s 1 16 v → plain v 7 → s.liveHandle (byts v 4 4) = true → byts v 8 8 % 128 = 0 →
    inHostOrHbm (byts v 8 8) 128 = true → s.domainOf (byts v 8 8) = 0 → s.readPa (byts v 8 8) 128 = .ok d false →
    s.load? (byts v 4 4 % 65536) d = .done r x → x.check = 0 →
    exec .load s = .next (((r.post (byts v 8 8 + 60) 4 (resultWord x)).completion 1 (byts v 16 8) 0 (byts v 4 4)).used .loader)) ∧
  (∀ s v op i, s.cqBusy = false → Serves s 1 16 v → plain v op → (parseCmd v).badArg = false → s.liveHandle (byts v 4 4) = false →
    (op, i) ∈ [(2, Instr.destroy), (3, .resume), (4, .setwake), (5, .settok), (6, .setclass), (7, .load)] →
    exec i s = .next (s.completion 1 (byts v 16 8) 1 (byts v 4 4))) ∧
  (∀ s v i, s.cqBusy = false → Serves s 1 16 v → byts v 1 3 ≠ 0 ∨ byts v 24 40 ≠ 0 ∨ (parseCmd v).badArg = true →
    (byts v 0 1, i) ∈ [(1, Instr.create), (2, .destroy), (3, .resume), (4, .setwake), (5, .settok), (6, .setclass), (7, .load)] →
    exec i s = .next (s.completion 1 (byts v 16 8) 3 (byts v 4 4))) ∧
  (∀ s v, s.cqBusy = false → Serves s 1 16 v → plain v 1 → (s.ctx (byts v 4 4 % 65536)).life ≠ .free →
    exec .create s = .next (s.completion 1 (byts v 16 8) 2 (byts v 4 4)))

/-- R319, R329, R330, R436, R437: a served request leaves no translation that it covers, before the accesses that it released walk again;
a launch of LQ goes to its context's home slice, whose die then holds no clean byte older than the entry. -/
def Obligations.InvalidationAndLaunchQueue : Prop :=
  let plain (v op : Nat) : Prop := byts v 0 1 = op ∧ iqFields v = true
  (∀ s v, Serves s 3 24 v → plain v 1 → s.drainedFor (.pages (byts v 4 2) (fld (byts v 8 8) 16 41) (byts v 16 4)) = true →
    s.invalidating = false → s.canRecallAll = true →
    ∃ t : State, exec .invalidateRange s = .next (t.walkAll.completion 3 (byts v 24 8) 0 0) ∧ t.pkg.queue 3 = s.pkg.queue 3 ∧
      ((∀ d, (s.die d).replay = []) → t.walkAll = t) ∧
      ∀ k, fld (byts v 8 8) 16 41 ≤ k → k < fld (byts v 8 8) 16 41 + byts v 16 4 → k < 2 ^ 41 →
        (∀ c, find? (t.core c).tlb (byts v 4 2 * 2 ^ 41 + k) = none) ∧ (∀ d, find? (t.die d).tlb (byts v 4 2 * 2 ^ 41 + k) = none)) ∧
  (∀ s v, Serves s 3 24 v → plain v 2 → s.drainedFor (.asid (byts v 4 2)) = true → s.invalidating = false → s.canRecallAll = true →
    ∃ t : State, exec .invalidateAsid s = .next (t.walkAll.completion 3 (byts v 24 8) 0 0) ∧ t.pkg.queue 3 = s.pkg.queue 3 ∧
      ((∀ d, (s.die d).replay = []) → t.walkAll = t) ∧
      ∀ k, k / 2 ^ 41 = byts v 4 2 → (∀ c, find? (t.core c).tlb k = none) ∧ (∀ d, find? (t.die d).tlb k = none)) ∧
  (∀ s v, Serves s 3 24 v → plain v 3 → s.drainedFor .all = true → s.invalidating = false → s.canRecallAll = true →
    ∃ t : State, exec .invalidateAll s = .next (t.walkAll.completion 3 (byts v 24 8) 0 0) ∧ t.pkg.queue 3 = s.pkg.queue 3 ∧
      ((∀ d, (s.die d).replay = []) → t.walkAll = t) ∧
      (∀ c, (t.core c).tlb = [] ∧ (t.core c).icache = []) ∧ (∀ d, (t.die d).tlb = [] ∧ (t.die d).walker = []) ∧ t.anyOwned = false) ∧
  (∀ (s : State) k h, s.completion k 0 0 h = s.onQueue k (fun q => { q with cons := q.cons + 1 })) ∧
  (∀ s v, Serves s 3 24 v → plain v 4 →
    ∃ t, exec .icacheInvalidate s = .next t ∧ (byts v 24 8 = 0 → (t.pkg.queue 3).cons = (s.pkg.queue 3).cons + 1) ∧
      (∀ c, (t.core c).icache = [] ∧ (t.core c).tlb = (s.core c).tlb)) ∧
  (∀ s v p, s.hasHead 0 = true → s.lqBusy = false → s.readPa (s.headPa 0) 32 = .ok v p →
    let answers (st re : Nat) : Prop := exec .lqLaunch s = .next (s.post (s.headPa 0 + 16) 8 (answerWord st re 0 + 2 ^ 32) (some 0))
    (p = true → answers 3 5) ∧
    (p = false → (s.ctx (byts v 8 4 % 65536)).life ≠ .live → answers 1 0) ∧
    (p = false → (s.ctx (byts v 8 4 % 65536)).life = .live → s.liveHandle (byts v 8 4) = false → answers 2 0) ∧
    (p = false → (s.ctx (byts v 8 4 % 65536)).life = .live → s.liveHandle (byts v 8 4) = true → byts v 12 4 ≠ 0 ∨ byts v 24 8 ≠ 0 →
      answers 3 1) ∧
    (p = false → (s.ctx (byts v 8 4 % 65536)).life = .live → s.liveHandle (byts v 8 4) = true → byts v 12 4 = 0 → byts v 24 8 = 0 →
      exec .lqLaunch s = .next (s.onDie (byts v 8 4 % 65536 % 4) (fun x => { x.dropClean with
        launches := x.launches ++ [⟨.lq (s.headPa 0), BitVec.ofNat 64 (byts v 0 8), byts v 8 4, none, false⟩] })))) ∧
  (∀ (x : Die) k, (x.dropClean.copy k).clean = 0)

/-- R375, R377 to R381, R385 to R388: the sequencer starts, stops, attempts, waits, commits and abandons; an attempt's number, slot and
template are chosen once, and a write that waited goes on where it was left. LASTWHY 8 for EN 0 in RUN without an attempt, the recheck by
a write in WAIT, STOP over an abandonment and the first event kept are the model's order (log 54); a STOP that an abandonment left in HALT
ends with EN 1, and a handle gone stale is met by the attempt (log 91). -/
def Obligations.Sequencer : Prop :=
  let started (g : Gs) : Gs := { g with
    en := true, abcnt := 0, state := .run, attempt := none, submitted := false, stop := false,
    event := none, parked := false, recheck := false }
  let stopped (g : Gs) : Gs := { g with
    state := .off, attempt := none, submitted := false, event := none, stop := false, recheck := false, parked := false }
  let ready (s : State) : Prop := s.pkg.viral = false ∧ s.pkg.gs.state = .run ∧ s.pkg.gs.parked = false ∧ s.pkg.gs.event = none
  (∀ (s : State) v i, s.pkg.viral = true → i ∈ [Instr.gsEnable v, .gsDisable v, .gsStop v] → exec i s = .next s) ∧
  (∀ (s : State) v, s.pkg.viral = false → bitOf v 0 = true → bitOf v 1 = false → s.pkg.gs.state = .halt →
    exec (.gsEnable v) s = .next (s.onGs started)) ∧
  (∀ (s : State) v, s.pkg.viral = false → bitOf v 0 = true → bitOf v 1 = false → s.pkg.gs.state = .off →
    let s1 := s.onGs (fun g => { g with ctxh := BitVec.ofNat 32 (v / 2 ^ 32) })
    let no := exec (.gsEnable v) s = .next ((s1.onGs (fun g => { g with en := true })).gsHalt 10 0x0803)
    let walk := s1.walk 0 (s1.ctx s1.gsCtx).asid s1.gsBlock
    (s1.liveHandle s1.pkg.gs.ctxh.toNat = false ∨ bitOf s1.gsBlock 56 = true → no) ∧
    (s1.liveHandle s1.pkg.gs.ctxh.toNat = true → bitOf s1.gsBlock 56 = false →
      (∀ x y, walk = .fault x y → no) ∧
      (∀ l x y, walk = .leaf l x y → exec (.gsEnable v) s = .next (s1.onGs started)) ∧
      (∀ b, walk = .replay b → exec (.gsEnable v) s = .next (s1.onGs started)) ∧
      (∀ a, walk = .bad a → exec (.gsEnable v) s = .next (s1.gsLost s1.gsBlock)))) ∧
  (∀ (s : State) v, s.pkg.viral = false → bitOf v 0 = true → bitOf v 1 = false → s.pkg.gs.state = .run → exec (.gsEnable v) s = .next s) ∧
  (∀ (s : State) v a code, s.pkg.viral = false → s.pkg.gs.state = .wait → s.pkg.gs.attempt = some a → s.pkg.gs.event = some code →
    (bitOf v 0 = true → exec (.gsEnable v) s = (s.gsAbandoned code).writeGsctl v) ∧
    (bitOf v 0 = false → exec (.gsDisable v) s = (s.gsAbandoned code).writeGsctl v) ∧
    (bitOf v 1 = true → exec (.gsStop v) s = (s.gsAbandoned code).writeGsctl v)) ∧
  (∀ (s : State) v, s.pkg.viral = false → bitOf v 0 = true → bitOf v 1 = false → s.pkg.gs.state = .wait → s.pkg.gs.event = none →
    exec (.gsEnable v) s = .next (s.onGs (fun g => { g with recheck := true }))) ∧
  (∀ (s : State) v, s.pkg.viral = false → bitOf v 0 = false → bitOf v 1 = false → s.pkg.gs.state = .run → s.pkg.gs.attempt = none →
    exec (.gsDisable v) s = .next (s.onGs (fun g => { g with en := false, state := .off, lastWhy := 8 }))) ∧
  (∀ (s : State) v a, s.pkg.viral = false → bitOf v 0 = false → bitOf v 1 = false → s.pkg.gs.state = .run → s.pkg.gs.attempt = some a →
    exec (.gsDisable v) s = .next (s.onGs (fun g => { g with en := false, event := some (g.event.getD 8) }))) ∧
  (∀ (s : State) v, s.pkg.viral = false → bitOf v 0 = false → bitOf v 1 = false → s.pkg.gs.state = .wait ∨ s.pkg.gs.state = .halt →
    s.pkg.gs.event = none →
    ∃ t, exec (.gsDisable v) s = .next t ∧ t.pkg.gs = { stopped s.pkg.gs with en := false } ∧ t.mem = s.mem ∧ t.contexts = s.contexts) ∧
  (∀ (s : State) v, s.pkg.viral = false → bitOf v 0 = true → bitOf v 1 = true → s.pkg.gs.state = .run →
    exec (.gsStop v) s = .next (s.onGs (fun g => { g with stop := true }))) ∧
  (∀ (s : State) v, s.pkg.viral = false → bitOf v 0 = true → bitOf v 1 = true → s.pkg.gs.state = .wait →
    s.pkg.gs.event = none →
    ∃ t, exec (.gsStop v) s = .next t ∧ t.pkg.gs = stopped s.pkg.gs ∧ t.mem = s.mem ∧ t.contexts = s.contexts) ∧
  (∀ (s : State) v, ready s → s.pkg.gs.submitted = false → s.pkg.gs.attempt = none → s.liveHandle s.pkg.gs.ctxh.toNat = true →
    let s0 := s.onDie 0 Die.dropClean
    s0.readStruct .sequencer 0 s0.gsCtx s.gsBlock 11 0x0800 = .ok v →
    (byts v 8 2 = 0 → byts v 10 1 ≤ 7 →
      exec .gsAttempt s = .next ((s0.onGs (fun g => { g with state := .wait, recheck := false })).used .sequencer)) ∧
    (256 < byts v 8 2 ∨ 7 < byts v 10 1 → exec .gsAttempt s = .next ((s0.gsHalt 10 0x0803).used .sequencer)) ∧
    (0 < byts v 8 2 → byts v 8 2 ≤ 256 → byts v 10 1 ≤ 7 →
      chooseSlot (fun n => bitOf (s.pkg.gs.slot n) 0) (occBucket s.pkg.gs.occlim (byts v 8 2)) (byts v 10 1) = none →
      exec .gsAttempt s = .next ((s0.gsHalt 9 0x0802).used .sequencer))) ∧
  (∀ (s : State), ready s → s.pkg.gs.submitted = false → s.pkg.gs.attempt = none → s.liveHandle s.pkg.gs.ctxh.toNat = false →
    exec .gsAttempt s = .next ((s.gsHalt 10 0x0803).used .sequencer)) ∧
  (∀ (s : State) s1 cause d va, ready s → s.pkg.gs.submitted = false → s.pkg.gs.attempt = none → s.liveHandle s.pkg.gs.ctxh.toNat = true →
    let s0 := s.onDie 0 Die.dropClean
    (s0.structRead .sequencer 0 s0.gsCtx s.gsBlock 11 0x0800 = (s1, .fault cause d va) →
      exec .gsAttempt s = .next ((s1.gsFault cause va).used .sequencer)) ∧
    (s0.structRead .sequencer 0 s0.gsCtx s.gsBlock 11 0x0800 = (s1, .bad va) →
      exec .gsAttempt s = .next ((s1.gsLost va).used .sequencer))) ∧
  (∀ (s : State) cause va, (s.gsFault 0x10 va).pkg.gs.parked = true ∧
    ((s.gsFault 0x10 va).ctx s.gsCtx).pkf = ((s.gsRecord 0x10 0x0800 va).ctx s.gsCtx).pkf + 1 ∧
    (cause ≠ 0x10 → s.pkg.gs.event = none → s.pkg.gs.attempt = none → (s.gsFault cause va).pkg.gs.event = some 7 ∧
      (s.gsFault cause va).pkg.gs.attempt = some (0, 0)) ∧
    ((s.ctx s.gsCtx).life = .live → s.gsRecord cause 0x0800 va = s.dieRecord 0 s.gsCtx 0 0 cause 0x0800 (BitVec.ofNat 64 va))) ∧
  (∀ (s : State) v n s2 s3 w, ready s → s.pkg.gs.submitted = false → s.pkg.gs.attempt = none →
    s.liveHandle s.pkg.gs.ctxh.toNat = true →
    let s0 := s.onDie 0 Die.dropClean
    s0.readStruct .sequencer 0 s0.gsCtx s.gsBlock 11 0x0800 = .ok v →
    0 < byts v 8 2 → byts v 8 2 ≤ 256 → byts v 10 1 ≤ 7 →
    chooseSlot (fun n => bitOf (s.pkg.gs.slot n) 0) (occBucket s.pkg.gs.occlim (byts v 8 2)) (byts v 10 1) = some n →
    let s1 := s0.onGs (fun g => { g with
      att := g.att + 1, lastSlot := n, attempt := some (byts v 8 2, n % 8), stage := .mark,
      tmpl := BitVec.ofNat 64 (fld (g.slot n) 6 51 * 64) })
    s1.storeVa .sequencer 0 s1.gsCtx (s1.gsBlock + 0xB) 1 s1.pkg.gs.att.toNat = (s2, none) →
    (s2.onGs (fun g => { g with stage := .clear })).storeVa .sequencer 0 s2.gsCtx (s2.gsBlock + 0x840) 256 (2 ^ 2048 - 1) = (s3, none) →
    let s4 := s3.onGs (fun g => { g with stage := .submit })
    s4.readStruct .sequencer 0 s4.gsCtx s4.pkg.gs.tmpl.toNat 64 0x0800 = .ok w →
    exec .gsAttempt s = .next (((s4.onGs (fun g => { g with submitted := true })).onDie (s4.gsCtx % 4) (fun x =>
      { x with launches := x.launches ++
        [⟨.gs, s4.pkg.gs.tmpl, s4.pkg.gs.ctxh.toNat, some (madeRecord w s4.pkg.gs.ctxh.toNat s4.pkg.gs.att.toNat), true⟩] })).used
          .sequencer)) ∧
  (∀ (s : State) a s2 s3 w, ready s → s.pkg.gs.submitted = false → s.pkg.gs.attempt = some a →
    let send (u : State) := ((u.onGs (fun g => { g with submitted := true })).onDie (u.gsCtx % 4) (fun x =>
      { x with launches := x.launches ++
        [⟨.gs, u.pkg.gs.tmpl, u.pkg.gs.ctxh.toNat, some (madeRecord w u.pkg.gs.ctxh.toNat u.pkg.gs.att.toNat), true⟩] })).used .sequencer
    (s.pkg.gs.stage = .mark → s.storeVa .sequencer 0 s.gsCtx (s.gsBlock + 0xB) 1 s.pkg.gs.att.toNat = (s2, some .wait) → s2 ≠ s →
      exec .gsAttempt s = .next (s2.used .sequencer)) ∧
    (s.pkg.gs.stage = .clear → s.storeVa .sequencer 0 s.gsCtx (s.gsBlock + 0x840) 256 (2 ^ 2048 - 1) = (s3, none) →
      let s4 := s3.onGs (fun g => { g with stage := .submit })
      s4.readStruct .sequencer 0 s4.gsCtx s4.pkg.gs.tmpl.toNat 64 0x0800 = .ok w → exec .gsAttempt s = .next (send s4)) ∧
    (s.pkg.gs.stage = .submit → s.readStruct .sequencer 0 s.gsCtx s.pkg.gs.tmpl.toNat 64 0x0800 = .ok w →
      exec .gsAttempt s = .next (send s))) ∧
  (∀ valid ob draft n, draft ≤ 7 → chooseSlot valid ob draft = some n →
    valid n = true ∧ ob ≤ n / 8 ∧ n < 64 ∧ (n / 8 = ob → n % 8 ≤ draft) ∧
      (∀ j, n < j → j < 8 * (n / 8) + 8 → (n / 8 = ob → j % 8 ≤ draft) → valid j = false) ∧
      (∀ j, ob ≤ j / 8 → j / 8 < n / 8 → (j / 8 = ob → j % 8 ≤ draft) → valid j = false)) ∧
  (∀ (s : State) v, s.pkg.viral = false → s.pkg.gs.state = .wait → s.pkg.gs.recheck = true → s.pkg.gs.parked = false →
    s.pkg.gs.event = none →
    let s0 := s.onDie 0 Die.dropClean
    s0.readStruct .sequencer 0 s0.gsCtx s.gsBlock 11 0x0800 = .ok v →
    exec .gsWaitRecheck s = .next ((if 256 < byts v 8 2 ∨ 7 < byts v 10 1 then (s0.onGs (fun g => { g with recheck := false })).gsHalt 10 0x0803
      else s0.onGs (fun g => { g with recheck := false, state := if byts v 8 2 = 0 then .wait else .run })).used .sequencer)) ∧
  (∀ (s : State) occ d cur acc lens, ready s → s.pkg.gs.attempt = some (occ, d) → s.pkg.gs.submitted = true → s.iterating = false →
    let s0 := s.onDie 0 Die.dropClean
    s.readStruct .sequencer 0 s.gsCtx s.gsBlock 8 0x0800 = .ok cur →
    s0.readStruct .sequencer 0 s0.gsCtx (s.gsBlock + 0x840) occ 0x0800 = .ok acc →
    s0.readStruct .sequencer 0 s0.gsCtx (s.gsBlock + 0x40 + 0x400 * (cur % 2)) 1024 0x0800 = .ok lens →
    (commitLens occ d acc lens = none → exec .gsCommit s = .next (((s0.gsRecord 0x02 0x0801 0).gsEvent 6).used .sequencer)) ∧
    (∀ l s3 s4, commitLens occ d acc lens = some l →
      s0.storeVa .sequencer 0 s0.gsCtx (s.gsBlock + 0x40 + 0x400 * (1 - cur % 2)) 1024 (pack 32 (fun i => l.getD i 0) 256 0) = (s3, none) →
      s3.storeVa .sequencer 0 s3.gsCtx s.gsBlock 8 ((cur / 2 + 1) * 2 + (1 - cur % 2)) = (s4, none) →
      exec .gsCommit s = .next ((s4.onGs (fun g => { g with
        iter := BitVec.ofNat 32 (cur / 2 + 1), abcnt := 0, lastWhy := 0, attempt := none, submitted := false,
        state := if g.stop then .off else .run, stop := false })).used .sequencer))) ∧
  (∀ occ d acc lens l, commitLens occ d acc lens = some l → l.length = 256 ∧ ∀ i < 256,
    l.getD i 0 = (if i < occ ∧ byts acc i 1 ≠ 0xFF then byts lens (4 * i) 4 + byts acc i 1 + 1 else byts lens (4 * i) 4) ∧
    (i < occ → byts acc i 1 ≠ 0xFF → byts acc i 1 ≤ d ∧ l.getD i 0 < 2 ^ 32)) ∧
  (∀ (s : State) a code, s.pkg.gs.attempt = some a → s.pkg.gs.event = some code →
    ∃ t, exec .gsAbandon s = .next t ∧ t.pkg.gs.attempt = none ∧ t.pkg.gs.event = none ∧ t.pkg.gs.submitted = false ∧
      t.pkg.gs.lastWhy = code ∧ (∀ c, ∀ l ∈ (t.ctx c).launches, l.iter = false) ∧
      (∀ d, ∀ m ∈ (t.die d).launches, m.iter = false) ∧
      (code = 8 ∨ s.pkg.gs.en = false → t.pkg.gs.state = .off) ∧ (code = 8 → t.pkg.gs.abcnt = s.pkg.gs.abcnt) ∧
      (code ≠ 8 → t.pkg.gs.abcnt = s.pkg.gs.abcnt + 1) ∧
      (code ≠ 8 → s.pkg.gs.en = true →
        t.pkg.gs.state = if max 1 s.pkg.gs.ablim ≤ (s.pkg.gs.abcnt + 1).toNat then .halt else .run))

/-- R403, R423, R427, R434, R442, R448, R449, R452: the host's snoops of its lines, and its answers to the device's requests for them. The
reply's status numbers are the model's (log 58); data is taken only into a line that was I (log 59). Links, lost ports and dies, damaged
flits, and the viral state. What trains (log 53), what the viral state discards and stops (log 60), what a loss and a damaged flit reach
(log 61) and far atomics on an edge (log 68) are the model's readings. -/
def Obligations.LinesLinksAndViral : Prop :=
  (let data (s : State) (l : Nat) : Nat × Nat :=
    if s.pkg.viral = true ∨ s.hPoison (64 * l) 64 = true then (2, 0) else (1, s.hGet (64 * l) 64)
  (∀ s l, window (64 * l) = .host → ∃ t, exec (.snpInv l) s = .next t ∧ t.line l = .i ∧ (∀ k, k ≠ l → t.line k = s.line k) ∧
    t.mem = s.mem ∧ t.pkg.reply = if s.line l = .m then data s l else (0, 0)) ∧
  (∀ s l, window (64 * l) = .host → ∃ t, exec (.snpData l) s = .next t ∧ t.line l = (if s.line l = .i then .i else .s) ∧
    (∀ k, k ≠ l → t.line k = s.line k) ∧ t.mem = s.mem ∧ t.pkg.reply = if s.line l = .m then data s l else (0, 0)) ∧
  (∀ s l, window (64 * l) = .host → ∃ t, exec (.snpCur l) s = .next t ∧ (∀ k, t.line k = s.line k) ∧
    t.mem = s.mem ∧ t.pkg.reply = if s.line l = .i then (0, 0) else data s l) ∧
  (∀ s l own g d, s.pkg.posted = [] → s.pkg.fqWait = [] →
    s.pkg.lines.length + 2 * (s.die (homeDie (64 * l))).copies.length < 3145728 → s.pkg.cxlReqs.find? (fun r => r.1 = l) = some (l, own) → g ≠ .i →
    (own = true → g ≠ .s) → (own = false → g ≠ .m) → look false s.badTag (l / 2) = false →
    ∃ t, exec (.cxlResponse l g d) s = .next t ∧ t.line l = g ∧ (∀ k, k ≠ l → t.line k = s.line k) ∧
      t.pkg.cxlReqs = s.pkg.cxlReqs.filter (fun q => q ≠ (l, own)) ∧
      (∀ a, a / 64 ≠ l → look 0 t.mem a = look 0 s.mem a) ∧
      (∀ i < 64, look 0 t.mem (64 * l + i) =
        if s.line l = .i then BitVec.ofNat 8 (d.toNat / 2 ^ (8 * i)) else look 0 s.mem (64 * l + i)))) ∧
  ((∀ s up, ∃ t u, exec (if up then .linkTrained (.cxl 0) else .linkDown (.cxl 0)) s = .next t ∧ t.pkg.link0 = up ∧
    t.pkg.link1 = s.pkg.link1 ∧ exec (if up then .linkTrained (.cxl 1) else .linkDown (.cxl 1)) s = .next u ∧ u.pkg.link1 = up ∧
    u.pkg.link0 = s.pkg.link0 ∧ t.mem = s.mem ∧ u.mem = s.mem) ∧
  (∀ s up k, k < 128 → ∃ t, exec (if up then .linkTrained (.ual k) else .linkDown (.ual k)) s = .next t ∧
    t.pkg.fports.getLsbD k = up ∧ ∀ j, j ≠ k → t.pkg.fports.getLsbD j = s.pkg.fports.getLsbD j) ∧
  (∀ s k, exec (.linkTrained (.mortar k)) s = .next s ∧ ∃ t, exec (.linkDown (.mortar k)) s = .next t ∧ t.pkg.viral = true ∧
    t.pkg.vreason = (if s.pkg.viral then s.pkg.vreason else 3) ∧ t.mem = s.mem) ∧
  (∀ s e atoms, ∃ t, exec (.linkCrcFailure (.mortar e) atoms) s = .next t ∧ (s.anyOwned = false → t.mem = s.mem) ∧
    (∀ n g a r, g ∈ (s.strand n).storeQ → g.kind = .atomic a r → g.phase = 0 → g.pa / 32 ∈ atoms →
      s.atomCrosses (n / 384) e (g.pa / 32) = true → { g with poison := true } ∈ (t.strand n).storeQ) ∧
    ∀ d k m v n num, .through k m v false n num ∈ (t.die d).flights → s.onEdge d e (.through k m v false n num) = true →
      m &&& atomBytes k atoms = 0) ∧
  (∀ s k atoms r, k < 2 → s.pkg.posted = [] → s.pkg.fqWait = [] →
    s.pkg.lines.length + 2 * (s.die (homeDie (64 * r.1))).copies.length < 3145728 → s.pkg.cxlReqs = [r] →
    64 * r.1 / 65536 % 2 = k → (∃ a ∈ atoms, a / 2 = r.1) →
    ∃ t, exec (.linkCrcFailure (.cxl k) atoms) s = .next t ∧ t.mem = s.mem ∧ t.line r.1 = (if r.2 then .e else .s) ∧ t.pkg.cxlReqs = [] ∧
      ∀ a ∈ atoms, a / 2 = r.1 → look false t.memP a = true) ∧
  (∀ s k atoms i t, s.pkg.peers.findIdx? (fun q => decide (q.port = k) && atoms.any (fun a => a / 4 = q.sector)) = some i →
    s.peerAnswer i 0 true none = some t → exec (.linkCrcFailure (.ual k) atoms) s = .next t) ∧
  (∀ s port, port < 2 → ∃ t, exec (.hostPortLoss port) s = .next t ∧
    (∀ l, (64 * l) / 65536 % 2 = port → t.line l = .i) ∧ (∀ d, ∀ e ∈ (t.die d).filter, heldBy port e = false) ∧
    (port = 0 → t.pkg.link0 = false ∧ t.pkg.lost0 = true) ∧ (port = 1 → t.pkg.link1 = false ∧ t.pkg.lost1 = true)) ∧
  (∀ s port, port < 2 → ∃ t, exec (.hostViralIndication port) s = .next t ∧ t.pkg.viral = true ∧
    t.pkg.vreason = (if s.pkg.viral then s.pkg.vreason else 5) ∧ (∀ l, t.line l = .i) ∧ t.pkg.lost0 = true ∧ t.pkg.lost1 = true) ∧
  (∀ s d, d < 4 → ∃ t, exec (.dieLoss d) s = .next t ∧ t.pkg.viral = true ∧
    t.pkg.vreason = (if s.pkg.viral then s.pkg.vreason else 3) ∧ (t.die d).copies = [] ∧ (t.die d).flights = []) ∧
  (∀ (s : State) n, s.pkg.viral = true → (s.strands.map (fun p => p.1)).contains n = true → s.running n = true →
    ∃ t, exec .viralEntry s = .next t ∧ t.pkg.viral = true ∧ t.pkg.vreason = s.pkg.vreason ∧
      t.pkg.posted = [] ∧ t.pkg.cxlReqs = [] ∧ t.pkg.viralSent = true ∧ t.pkg.noticed = s.pkg.fports ∧ (∀ d, (t.die d).bisnp = []) ∧
      ∀ m, (s.strands.map (fun p => p.1)).contains m = true → s.running m = true →
        (t.strand m).run = .free ∨ (t.strand m).run = .blocked .ending))

/-- R263, R399, R403, R425, R428, R429, R430, R443, R444, R445, R450, R453: the host and the package's peers read and write device memory;
a sector that an atomic engine holds is recalled first, and a request for a page in transit is held where it arrives. Every reply's status
is the model's number (log 58); held requests stand in a die's replay queue (log 52). A peer answers, or does not; its fence. -/
def Obligations.RequestsAndPeers : Prop :=
  ((∀ s port off any, port < 2 → off < 0xC000000000 → s.pkg.viral = false → s.closed (hdmPa port (off / 64 * 64)) = false →
    s.mustQueue (.memrd port off any) = false →
    let pa := hdmPa port (off / 64 * 64)
    let l := s.place pa / 64
    (s.die (homeDie (64 * l))).filter.length < 65536 →
    ∃ t, exec (.hostMemrd port off any) s = .next t ∧
      (s.anyOwned = false → t.mem = s.mem ∧ t.pkg.reply = (if s.hPoison pa 64 = true then (2, 0) else (1, s.hGet pa 64))) ∧
      ((sectorsOf (s.place pa) 64).all s.canRecall = true → ∀ k ∈ sectorsOf (s.place pa) 64, t.owned? k = none) ∧
      ∃ b ports, (t.die (homeDie (64 * l))).filter.getLast? = some (l, b, ports) ∧ (any = true → b = true) ∧ bitOf ports port = true) ∧
  (∀ s port off any, port < 2 → off < 0xC000000000 → s.pkg.viral = true ∨ s.closed (hdmPa port (off / 64 * 64)) = true →
    ∃ t, exec (.hostMemrd port off any) s = .next t ∧ t.mem = s.mem ∧ t.pkg.reply = (2, 0) ∧ ∀ d, t.die d = s.die d) ∧
  (∀ s port off d, port < 2 → off < 0xC000000000 → s.pkg.viral = false → s.closed (hdmPa port (off / 64 * 64)) = false →
    let pa := hdmPa port (off / 64 * 64)
    (s.mustQueue (.memwr port off d) = false → exec (.hostMemwr port off d) s =
      .next ((((if s.mergesBad pa 64 (2 ^ 64 - 1) then s.countInt pa 64 else s).homeWrite pa 64 (2 ^ 64 - 1) d.data.toNat false
        none).comesPoisoned (s.place pa) d.poison).answer 0 0)) ∧
    (s.inTransit (s.place pa) 64 = true → window pa = .hbm →
      (∀ x, (s.die port).hold (.outside (.memwr port off d)) 65536 (s.place pa / 65536) = some x →
        exec (.hostMemwr port off d) s = .next (s.setDie port x)) ∧
      (∀ x any, (s.die port).hold (.outside (.memrd port off any)) 65536 (s.place pa / 65536) = some x →
        exec (.hostMemrd port off any) s = .next (s.setDie port x)))) ∧
  (∀ (s : State) q p, (s.comesPoisoned q p).mem = s.mem ∧ s.comesPoisoned q 0 = s ∧
    ∀ k < 2, p.getLsbD k = true → look false (s.comesPoisoned q p).memP (q / 32 + k) = true) ∧
  (∀ s port off d, port < 2 → off < 0xC000000000 → s.pkg.viral = true ∨ s.closed (hdmPa port (off / 64 * 64)) = true →
    ∃ t, exec (.hostMemwr port off d) s = .next t ∧ t.mem = s.mem ∧ t.pkg.reply = (if s.pkg.viral = true then 3 else 0, 0)) ∧
  (∀ (s : State) d e r t a, e.who = .outside r → s.turnsAway r = false → s.inTransit (s.place r.pa) r.bytes = false →
    (s.die d).replay.find? r.follows = some e → s.serveIn r = (t, some a) →
    (s.serveHeld d e).mem = t.mem ∧ (s.serveHeld d e).pkg.late = t.pkg.late ++ [(r, a)] ∧ e ∉ ((s.serveHeld d e).die d).replay) ∧
  (∀ s l any dirty, s.pkg.posted = [] → s.pkg.fqWait = [] → (∀ d, (s.die d).replay = []) →
    (s.die (homeDie (64 * l))).bisnp.find? (fun r => r.1 = l) = some (l, any) →
    ∃ t, exec (.bisnpAnswer l dirty) s = .next t ∧ (dirty = none → t.mem = s.mem) ∧
      (∀ v, dirty = some v → window (64 * l) = .hbm → s.anyOwned = false → look false s.badTag (l / 2) = false →
        (∀ i < 64, look 0 t.mem (64 * l + i) = BitVec.ofNat 8 (v.data.toNat / 2 ^ (8 * i))) ∧
        (∀ k < 2, v.poison.getLsbD k = true → look false t.memP (2 * l + k) = true) ∧
        ∀ a, a / 64 ≠ l → look 0 t.mem a = look 0 s.mem a) ∧
      (l, any) ∉ (t.die (homeDie (64 * l))).bisnp ∧ (any = true → ∀ b, (l, b) ∉ (t.die (homeDie (64 * l))).filter) ∧
      (any = false → ∀ ports, (l, true, ports) ∉ (t.die (homeDie (64 * l))).filter)) ∧
  (∀ s (q : PeerReq), q.peer < 1024 → 1 ≤ q.bytes → q.pa % 128 + q.bytes ≤ 128 → q.op = .read → s.pkg.viral = false →
    s.pkg.fenced q.peer = false → window q.pa = .hbm → s.closed q.pa = false → s.mustQueue (.peer q) = false →
    s.gate q.pa q.bytes false = (s, .ready) →
    exec (.peerInbound q) s = .next (if s.hPoison q.pa q.bytes = true then (s.countInt q.pa q.bytes).answer 1 0
      else (s.countInt q.pa q.bytes).answer 0 (s.hGet q.pa q.bytes))) ∧
  (∀ s (q : PeerReq), q.peer < 1024 → 1 ≤ q.bytes → q.pa % 128 + q.bytes ≤ 128 → q.op = .write → s.pkg.viral = false →
    s.pkg.fenced q.peer = false → window q.pa = .hbm → s.closed q.pa = false → s.mustQueue (.peer q) = false →
    s.gate q.pa q.bytes true = (s, .ready) →
    let m := q.mask.toNat % 2 ^ q.bytes
    exec (.peerInbound q) s = .next (((if s.mergesBad q.pa q.bytes m then s.countInt q.pa q.bytes else s).homeWrite q.pa q.bytes m
      q.data.toNat q.poison none).answer 0 0)) ∧
  (∀ s (q : PeerReq) aop, q.peer < 1024 → q.bytes = 4 ∨ q.bytes = 8 → q.pa % q.bytes = 0 → q.op = .atomic aop → aop ≤ 0xA →
    s.pkg.viral = false → s.pkg.fenced q.peer = false → window q.pa = .hbm → s.closed q.pa = false → s.mustQueue (.peer q) = false →
    s.gate q.pa q.bytes true = (s, .ready) → (q.poison = true → exec (.peerInbound q) s = .next (s.answer 1 0)) ∧
    (q.poison = false → s.hPoison q.pa q.bytes = false → s.devPoison q.pa q.bytes = false →
      exec (.peerInbound q) s = .next ((s.homeWrite q.pa q.bytes (2 ^ q.bytes - 1)
        (atomNew aop q.bytes (s.hGet q.pa q.bytes) (q.data.toNat % 2 ^ (8 * q.bytes)) (q.comparand.toNat % 2 ^ (8 * q.bytes)))
        false none).answer 0 (s.hGet q.pa q.bytes))) ∧
    (q.poison = false → s.hPoison q.pa q.bytes = true →
      exec (.peerInbound q) s = .next ((s.countInt q.pa q.bytes).answer 1 0))) ∧
  (∀ s (q : PeerReq), q.peer < 1024 → peerShaped q = true →
    (s.pkg.viral = true ∨ s.pkg.fenced q.peer = true → exec (.peerInbound q) s = .next (s.answer 2 0)) ∧
    (s.pkg.viral = false → s.pkg.fenced q.peer = false → window q.pa ≠ .hbm →
      exec (.peerInbound q) s = .next (s.answer (if q.op = .read then 1 else 2) 0)) ∧
    (s.pkg.viral = false → s.pkg.fenced q.peer = false → window q.pa = .hbm → s.closed q.pa = true →
      exec (.peerInbound q) s = .next ((s.countRefusal q.pa).answer (if q.op = .write then 0 else 1) 0)))) ∧
  ((∀ s idx d q g, s.pkg.peers[idx]? = some q → q.hod = none → q.engine = none →
    (s.strand q.strand).entries.find? (fun g => g.num = q.num) = some g → g.kind = .load → g.size ≤ 128 - g.pa % 128 → 0 < g.size →
    q.sector = g.pa / 128 →
    (∀ i r, i ≠ idx → s.pkg.peers[i]? = some r → ¬ (r.strand = q.strand ∧ r.num = q.num)) →
    exec (.peerResponse idx d .ok) s = .next ((s.onPkg (fun p => { p with peers := dropNth p.peers idx })).loaded q.strand
      { g with data := BitVec.ofNat 2048 (g.data.toNat + d.toNat / 2 ^ (8 * (g.pa % 128)) % 2 ^ (8 * g.size)) }
      (BitVec.ofNat 2048 (g.data.toNat + d.toNat / 2 ^ (8 * (g.pa % 128)) % 2 ^ (8 * g.size))).toNat g.poison)) ∧
  (∀ s idx q g, s.pkg.peers[idx]? = some q → q.hod = none → q.engine = none → q.peer < 1024 →
    (s.strand q.strand).entries.find? (fun g => g.num = q.num) = some g → g.kind = .store →
    (∀ i r, i ≠ idx → s.pkg.peers[i]? = some r → ¬ (r.strand = q.strand ∧ r.num = q.num)) →
    let s0 := s.onPkg (fun p => { p with peers := dropNth p.peers idx })
    exec (.peerTimeout idx) s = .next (((s0.accessRecord q.strand g 0x16 0x0A00).performed q.strand g.num).fence q.peer)) ∧
  (∀ s k, k < 1024 → ∃ t, exec (.fenceNotice k) s = .next t ∧ t.pkg.fenced k = true ∧
    (∀ j < 1024, j ≠ k → t.pkg.fenced j = s.pkg.fenced j) ∧ (s.pkg.fenced k = true → t = s)) ∧
  (∀ s reg v, reg < 16 → s.pkg.viral = false → ∃ t, exec (.fenceWrite reg v) s = .next t ∧
    (∀ j < 64, t.pkg.fenced (64 * reg + j) = bitOf v j) ∧ (∀ j < 1024, j / 64 ≠ reg → t.pkg.fenced j = s.pkg.fenced j)))

/-- R25, R46, R48, R186, R457: a step fetches, decodes and runs; what the agenda names runs as it is. The agenda and the time of a turn it
does not name are the model's choice (log 1, 4); what failed writes lead to before the turn is its reading (log 79). -/
def Obligations.StepRunsDecoded : Prop :=
  let turn (s : State) (n : Nat) (i : Instr) : Prop := s.agenda = [] ∧ s.pkg.powered = true ∧ s.pkg.failed = [] ∧
    s.activeOf s.cur = some n ∧
    (s.core s.cur).count < 65536 ∧ (s.strand n).words = [] ∧ (s.strand n).res = .fresh ∧ (slotOf i).isSome = true ∧ WellFormed i = true
  (∀ s u n i, turn s n i → (ready s).fetchBundle n = (u, .words ((encode i).map (BitVec.ofNat 32))) → step s = exec i u) ∧
  (∀ s n i, turn s n i → (∀ k < (encode i).length, (ready s).fetchWord n ((s.strand n).pc + BitVec.ofNat 64 (4 * k)) =
    (ready s, .word (BitVec.ofNat 32 ((encode i).getD k 0)))) → step s = exec i (ready s)) ∧
  (∀ s : State, s.agenda = [] → ready s = ({ s with
    freeN := s.freeN + 1, gtime := s.gtime + (Config.elapsed s.freeN).setWidth 64 } : State).settleFailed) ∧
  (∀ s : State, s.pkg.failed = [] → s.settleFailed = s) ∧
  (∀ (s : State) c l, s.pkg.failed = some c :: l → s.settleFailed =
    l.foldl (fun s f => match f with | some c => s.dieLost (c % 4) c 0 0 0 | none => s.goViral 1)
      ((s.onPkg (fun p => { p with failed := [] })).dieLost (c % 4) c 0 0 0)) ∧
  (∀ (s : State) dt i l, s.agenda = (dt, .event i) :: l → s.pkg.powered = true →
    step s = exec i ({ s with agenda := l, gtime := s.gtime + BitVec.ofNat 64 dt } : State).settleFailed) ∧
  (∀ (s : State) dt c l r i, s.agenda = (dt, .routine c) :: l → s.pkg.powered = true → s.pkg.failed = [] → (s.core c).run = some r →
    decodeMicro c ((s.core c).word r.pc) = some i → step s = exec i { s with agenda := l, gtime := s.gtime + BitVec.ofNat 64 dt })

/-- R46, R47, R53: words written out from the spec's encodings, and the operations they stand for. -/
def Obligations.DecodedWords : Prop :=
  (∀ p ∈ ([(.sa, 0x9E100000, 0x00010000, .smovi .a ⟨4, 0, 0, some 0x10000⟩), (.sa, 0x01145001, 0, .saddi .a ⟨5, 5, 1, none⟩),
      (.sb, 0xAC0C4144, 0x18000000, .sfma .b ⟨3, 4, 5, 4, some ⟨6, 0⟩⟩), (.va, 0xA7041008, 0x40, .vperm .a ⟨1, 1, 0, 1, 0, some ⟨0, 0, 0x40⟩⟩),
      (.vb, 0xB0040240, 1, .kand .b ⟨1, 0, 9, 0, 0, some ⟨0, 0, 1⟩⟩), (.ld, 0x081C4000, 0, .tlook ⟨7, 4, 0, 0, none⟩),
      (.st, 0x06204140, 0, .tins ⟨8, 4, 5, 0, none⟩), (.ld, 0x860C8100, 0x14000000, .glda ⟨3, 8, 1, 0, some ⟨0, 5, 0⟩⟩),
      (.st, 0x83119300, 0x1C000100, .gst ⟨4, 25, 3, 0, some ⟨0, 7, 0x100⟩⟩), (.ct, 0x0223FFF7, 0, .brc ⟨1, 0, 1, 0x1FFF7⟩),
      (.ct, 0x0B100001, 0, .wait ⟨1, 1⟩), (.ct, 0x1724C000, 0, .cswitch ⟨9, 12, 0, 0, none⟩),
      (.mx, 0x00071000, 0, .mcall ⟨7, 1, 0, none⟩), (.ar, 0x0004FF00, 0, .ard ⟨1, 255, 0, none⟩),
      (.hd, 0x801D5022, 0x01740000, .hcopyG2t ⟨7, 21, 0, 2, 2, some ⟨0, 23, 0x40000⟩⟩),
      (.hd, 0x82449010, 0x040C0000, .htwr ⟨17, 9, 0, 1, 0, some ⟨1, 0, 0xC0000⟩⟩)] : List (Slot × Nat × Nat × Instr)),
    decodeOp p.1 p.2.1 p.2.2.1 = .ok p.2.2.2) ∧
  decodeBundle1 [0xA0C00001, 0x8946000D, 0] = some (.loopi ⟨1, 6, 13, some 0⟩) ∧
  decodeBundle1 [0xA0800020, 0x081C4000] = some (.tlook ⟨7, 4, 0, 0, none⟩) ∧
  decodeHeader 0xA0C87842 = .ok ⟨3, true, 15, 0x42⟩ ∧ decodeHeader 0xA1000006 = .ok ⟨4, false, 0, 6⟩

/-- R46, R53, R185 to R193: the decoder reads back every operation and every micro-op that the encoder writes. -/
def Obligations.DecodeEncode : Prop :=
  (∀ i sl, slotOf i = some sl → WellFormed i = true → decodeBundle1 (encode i) = some i) ∧
  (∀ i sl w w2, slotOf i = some sl → WellFormed i = true → encodeOp i = some (w, w2) → decodeOp sl w (w2.getD 0) = .ok i) ∧
  (∀ i w, encodeMicro i = some w → WellFormed i = true → ∃ core, decodeMicro core w = some i)

/-- R37, R47, R449, R455: an operation that fails its encoding checks traps ILLEGAL_OP; in the viral state the task stops before any
operation (SLOT 0xFF: log 60); without an ACTIVE strand there is no operation to issue (the refusal noTask: log 73). The table of the
checks and their order where the spec states none is the model's reading (log 16, 17). -/
def Obligations.IllegalOperations : Prop :=
  (∀ i sl (s : State) n d, slotOf i = some sl → s.pkg.viral = false → s.activeOf s.cur = some n → (s.strand n).eng = [] →
    check i = some d → exec i s = .next (s.trapsAt n (bundleLen i) { cause := 2, detail := d, slot := sl.num })) ∧
  (∀ i sl (s : State) n, slotOf i = some sl → s.pkg.viral = true → s.activeOf s.cur = some n →
    exec i s = .next (s.takeTrap n { cause := 0x18, detail := 0x0A00, slot := 0xFF }
      (canonVa ((s.strand n).pc + BitVec.ofNat 64 (4 * bundleLen i))) 0)) ∧
  (∀ i sl (s : State), slotOf i = some sl → s.activeOf s.cur = none → exec i s = .refused .noTask)

/-- R12, R21, R22: a result of latency L is written at the commit of the L-th strand cycle counted from its own, and the later issued of
two that are due together remains; s0, b0 and k0 discard writes. -/
def Obligations.ResultLatency : Prop :=
  (∀ (st : Strand) (r : Result) j, 1 ≤ r.cnt → j < r.cnt →
    let t := Strand.cycle^[j] { st with pipe := [r] }
    t.pipe = [{ r with cnt := r.cnt - j }] ∧ t.s = st.s ∧ t.v = st.v ∧ t.b = st.b ∧ t.k = st.k ∧ t.fstat = st.fstat) ∧
  (∀ (st : Strand) (r : Result), 1 ≤ r.cnt →
    let t := Strand.cycle^[r.cnt] { st with pipe := [r] }
    t.pipe = [] ∧ t.fstat = st.fstat ||| r.flags ∧
    (∀ d, r.reg = .s d → d ≠ 0 → t.getS d = r.value.setWidth 64 ∧ t.poisoned (.s d) = (r.poison && decide (d < 64))) ∧
    (∀ d, r.reg = .v d → r.bytes = 15 → ∀ l < 64, ∀ b < 32,
      (t.getV d).getLsbD (32 * l + b) = if r.lanes.getLsbD l then r.value.getLsbD (32 * l + b) else (st.getV d).getLsbD (32 * l + b)) ∧
    (∀ d, r.reg = .k d → d ≠ 0 → t.getK d = r.value.setWidth 64) ∧
    (∀ d, r.reg = .b d → 0 < d → d < 8 → t.getB d = r.value.getLsbD 0)) ∧
  (∀ (st : Strand) (a b : Result) d, a.cnt = 1 → b.cnt = 1 → a.reg = .s d → b.reg = .s d → d ≠ 0 →
    ({ st with pipe := [a, b] } : Strand).cycle.getS d = b.value.setWidth 64) ∧
  (∀ (st : Strand) v lanes bytes p, st.getS 0 = 0 ∧ st.getB 0 = true ∧ st.getK 0 = 0xFFFFFFFFFFFFFFFF ∧
    st.write (.s 0) v lanes bytes p = st ∧ st.write (.b 0) v lanes bytes p = st ∧ st.write (.k 0) v lanes bytes p = st)

/-- R11, R18, R21, R103: what an operation that delivers its results leaves as it was. -/
def Obligations.IssueFrame : Prop :=
  ∀ (s : State) n len rs jump, let t := s.issued n len rs id jump
    let a := s.strand n
    let b := t.strand n
    (t.mem = s.mem ∧ t.memP = s.memP ∧ t.nvm = s.nvm ∧ t.nvmP = s.nvmP ∧ t.badTag = s.badTag ∧ t.version = s.version ∧
      t.clusters = s.clusters ∧ t.dies = s.dies ∧ t.contexts = s.contexts ∧ t.shadows = s.shadows ∧ t.pkg = s.pkg ∧
      t.gtime = s.gtime) ∧
    (∀ m, m ≠ n → t.strand m = s.strand m) ∧ (∀ c, c ≠ n / 8 → t.core c = s.core c) ∧
    t.core (n / 8) = { s.core (n / 8) with count := (s.core (n / 8)).count + 1 } ∧ b.scyc = a.scyc + 1 ∧
    (a.delay ≠ some .ret →
      (b.sem = a.sem ∧ b.eng = a.eng ∧ b.xstk = a.xstk ∧ b.z = a.z ∧ b.pendS = a.pendS ∧ b.pendV = a.pendV ∧ b.run = a.run ∧
        b.swhy = a.swhy ∧ b.ctxh = a.ctxh ∧ b.launch = a.launch ∧ b.task = a.task ∧ b.domain = a.domain ∧ b.course = a.course ∧
        b.wsem = a.wsem ∧ b.sat = a.sat ∧ b.est = a.est ∧ b.loadQ = a.loadQ ∧ b.storeQ = a.storeQ ∧ b.barPhase = a.barPhase ∧
        b.barWait = a.barWait ∧ b.arrivals = a.arrivals ∧ b.seen = a.seen ∧ b.nvFail = a.nvFail ∧ b.save = a.save ∧
        b.reserved = a.reserved) ∧
      (b.xvec = a.xvec ∧ b.xmask = a.xmask ∧ b.xpc = a.xpc ∧ b.xnpc = a.xnpc ∧ b.xrec = a.xrec ∧ b.xrpt = a.xrpt ∧
        b.dslot = a.dslot ∧ b.tl = a.tl) ∧
      (∀ d, (∀ r ∈ a.pipe ++ rs, r.reg ≠ .s d) → b.getS d = a.getS d ∧ b.poisoned (.s d) = a.poisoned (.s d)) ∧
      (∀ d, (∀ r ∈ a.pipe ++ rs, r.reg ≠ .v d) → b.getV d = a.getV d ∧ b.poisoned (.v d) = a.poisoned (.v d)) ∧
      (∀ d, (∀ r ∈ a.pipe ++ rs, r.reg ≠ .k d) → b.getK d = a.getK d) ∧
      (∀ d < 8, (∀ r ∈ a.pipe ++ rs, r.reg ≠ .b d) → b.getB d = a.getB d) ∧
      (∀ d, (∀ r ∈ a.pipe ++ rs, r.reg ≠ .m d) → b.getM d = a.getM d) ∧
      (∀ d, (∀ r ∈ a.pipe ++ rs, r.reg ≠ .lc d) → b.getLc d = a.getLc d) ∧
      ((∀ r ∈ a.pipe ++ rs, r.flags = 0) → b.fstat = a.fstat)) ∧
    (a.delay = none → jump = none → b.pc = canonVa (a.pc + BitVec.ofNat 64 (4 * len)) ∧ b.delay = none)

/-- R11, R185, R340, R359, R375, R413, R434, R435, R439, R450: what reset leaves in the registers for which the spec gives a value; and
memory after reset has its canonical form, which is the model's choice (log 2). -/
def Obligations.Reset : Prop :=
  let s := State.reset
  (∀ n, (∀ i, (s.strand n).getS i = 0 ∧ (s.strand n).getV i = 0 ∧ (s.strand n).getM i = 0 ∧ (s.strand n).getLc i = 0 ∧
      (s.strand n).count i = 0 ∧ (s.strand n).pending (.s i) = false ∧ (s.strand n).poisoned (.s i) = false ∧
      (0 < i → i < 8 → (s.strand n).getB i = false ∧ (s.strand n).getK i = 0)) ∧
    (s.strand n).z = [] ∧ (s.strand n).eng = [] ∧ (s.strand n).fstat = 0 ∧ (s.strand n).xmask = 0 ∧ (s.strand n).tl = false) ∧
  (∀ c i, decodeMicro c ((s.core c).word i) = some (.mmEnd c none)) ∧ (∀ c, (s.ctx c).life = .free ∧ (s.ctx c).gen = 0) ∧
  (∀ p ∈ [(0x00, 0x00020004), (0x08, 0), (0x18, 0), (0x20, 1000), (0x1000, 0), (0x1008, 0), (0x1010, 0), (0x1018, 0), (0x1020, 0),
      (0x2000, 20000), (0x2008, 50000), (0x2010, 2000000), (0x2018, 50000000), (0x2020, 65536), (0x2028, 4096), (0x2030, 8192),
      (0x3010, 0), (0x4000, 0), (0x4008, 0), (0x4020, 4), (0x6000, 0), (0x7000, 0), (0x7008, 0), (0x8000, 0)],
    s.reg p.1 = p.2) ∧
  Memory.wf s.mem

/-- R392, R391, R393, R415: each physical address of local HBM4E has one place in its stack, by fixed bits of the address; no two
addresses share a place, the rows that do not exist are never reached, and a block of 2 MiB lies in one stack. -/
def Obligations.HbmPlacement : Prop :=
  (∀ pa, hbmPlace pa = {
    byte := pa % 128, sector := pa / 2 ^ 7 % 8, channel := pa / 2 ^ 10 % 32 ^^^ pa / 2 ^ 25 % 32,
    pseudo := pa / 2 ^ 15 % 2 ^^^ pa / 2 ^ 30 % 2, group := pa / 2 ^ 16 % 4 ^^^ pa / 2 ^ 31 % 4,
    bank := pa / 2 ^ 18 % 4 ^^^ pa / 2 ^ 33 % 4, pair := pa / 2 ^ 20 % 2, stack := pa / 2 ^ 21 % 16 ^^^ pa / 2 ^ 25 % 16,
    row := pa / 2 ^ 25 % 2 ^ 16 }) ∧
  (∀ pa qa, pa < 2 ^ 41 → qa < 2 ^ 41 → hbmPlace pa = hbmPlace qa → pa = qa) ∧
  (∀ pa, window pa = .hbm ↔ pa < 2 ^ 41 ∧ (hbmPlace pa).row < 0xC000) ∧
  (∀ pa qa, pa / 2 ^ 21 = qa / 2 ^ 21 → (hbmPlace pa).stack = (hbmPlace qa).stack) ∧
  (∀ pa, (hbmPlace pa).stack < 16 ∧ (hbmPlace pa).channel < 32 ∧ (hbmPlace pa).pseudo < 2 ∧ (hbmPlace pa).group < 4 ∧
    (hbmPlace pa).bank < 4) ∧
  (∀ pa, window pa = .hbm → homeDie pa = (hbmPlace pa).stack / 4 ∧ stackOf pa = (hbmPlace pa).stack)

/-- R6, R314: every step keeps memory in its canonical form, whatever it stores; the form is the model's choice (log 2). -/
def Obligations.MemoryForm : Prop :=
  ∀ s t, Memory.wf s.mem → step s = .next t → Memory.wf t.mem
end

