-- ==== Sys2Proof/Laws/Map.lean ====
section
/-! SUPPORT. Sparse maps: reading after writing, and that every operation keeps the canonical form. -/

namespace Sys2Proof.Machine

variable {α : Type}

@[simp] theorem find?_upd_same (m : SMap α) (k : Nat) (v : α) : find? (upd m k v) k = some v := by
  induction m with
  | nil => simp [upd, find?]
  | cons p m ih => obtain ⟨j, w⟩ := p; simp only [upd]; split <;> simp_all [find?]; split <;> simp_all [find?]
theorem find?_upd_other (m : SMap α) {j k : Nat} (v : α) (h : j ≠ k) : find? (upd m k v) j = find? m j := by
  induction m with
  | nil => simp [upd, find?, h.symm]
  | cons p m ih =>
    obtain ⟨i, w⟩ := p
    simp only [upd]
    split
    · simp [find?, h.symm]
    · split
      · subst_vars; simp [find?, h.symm]
      · simp only [find?]; split <;> simp_all
theorem find?_del_other (m : SMap α) {j k : Nat} (h : j ≠ k) : find? (del m k) j = find? m j := by
  induction m with
  | nil => rfl
  | cons p m ih =>
    obtain ⟨i, w⟩ := p
    simp only [del]
    split
    · subst_vars; simp [find?, h.symm, ih]
    · simp only [find?]; split <;> simp_all
@[simp] theorem look_upd_same (d : α) (m : SMap α) (k : Nat) (v : α) : look d (upd m k v) k = v := by simp [look]
@[simp] theorem upd_upd_same (m : SMap α) (k : Nat) (v w : α) : upd (upd m k v) k w = upd m k w := by
  induction m with
  | nil => simp [upd]
  | cons p m ih =>
    obtain ⟨j, x⟩ := p
    simp only [upd]
    split
    · simp [upd]
    · split
      · simp [upd]
      · simp only [upd]; rw [if_neg ‹_›, if_neg ‹_›, ih]
theorem look_upd_other (d : α) (m : SMap α) {j k : Nat} (v : α) (h : j ≠ k) : look d (upd m k v) j = look d m j := by
  simp [look, find?_upd_other m v h]
theorem keysRise_tail {p : Nat × α} {m : SMap α} (h : keysRise (p :: m) = true) : keysRise m = true := by
  cases m with
  | nil => rfl
  | cons q m => obtain ⟨j, w⟩ := p; obtain ⟨k, x⟩ := q; simp [keysRise] at h ⊢; exact h.2
/-- A removed key is not listed. -/
theorem find?_del_same (m : SMap α) (k : Nat) : find? (del m k) k = none := by
  induction m with
  | nil => rfl
  | cons p m ih => obtain ⟨j, w⟩ := p; simp only [del]; split <;> simp_all [find?]
@[simp] theorem look_put_same [DecidableEq α] (d : α) (m : SMap α) (k : Nat) (v : α) : look d (put d m k v) k = v := by
  unfold put; split
  · subst_vars; simp [look, find?_del_same m k]
  · simp
theorem look_put_other [DecidableEq α] (d : α) (m : SMap α) {j k : Nat} (v : α) (h : j ≠ k) :
    look d (put d m k v) j = look d m j := by
  unfold put; split
  · simp [look, find?_del_other m h]
  · exact look_upd_other d m v h
/-- The keys of a map rise, and each is at least `n`. -/
theorem keysRise_cons (j : Nat) (w : α) (m : SMap α) :
    keysRise ((j, w) :: m) = true ↔ keysRise m = true ∧ ∀ p ∈ m, j < p.1 := by
  induction m generalizing j w with
  | nil => simp [keysRise]
  | cons q m ih =>
    obtain ⟨i, x⟩ := q
    simp only [keysRise, Bool.and_eq_true, decide_eq_true_eq, List.forall_mem_cons]
    constructor
    · rintro ⟨h1, h2⟩
      exact ⟨h2, h1, fun p hp => by have := ((ih i x).1 h2).2 p hp; omega⟩
    · rintro ⟨h1, h2, _⟩; exact ⟨h2, h1⟩
theorem mem_upd {m : SMap α} {k : Nat} {v : α} {p : Nat × α} (h : p ∈ upd m k v) : p = (k, v) ∨ p ∈ m := by
  induction m with
  | nil => simpa [upd] using h
  | cons q m ih =>
    obtain ⟨j, w⟩ := q
    simp only [upd] at h
    split at h
    · simpa using h
    · split at h
      · simp only [List.mem_cons] at h ⊢; tauto
      · simp only [List.mem_cons] at h ⊢
        rcases h with h | h
        · tauto
        · have := ih h; tauto
theorem mem_del {m : SMap α} {k : Nat} {p : Nat × α} (h : p ∈ del m k) : p ∈ m := by
  induction m with
  | nil => exact h
  | cons q m ih =>
    obtain ⟨j, w⟩ := q
    simp only [del] at h
    split at h
    · exact List.mem_cons_of_mem _ (ih h)
    · simp only [List.mem_cons] at h ⊢
      rcases h with h | h
      · exact Or.inl h
      · exact Or.inr (ih h)
theorem keysRise_upd (m : SMap α) (k : Nat) (v : α) (h : keysRise m = true) : keysRise (upd m k v) = true := by
  induction m with
  | nil => rfl
  | cons q m ih =>
    obtain ⟨j, w⟩ := q
    obtain ⟨h1, h2⟩ := (keysRise_cons j w m).1 h
    simp only [upd]
    split
    · rw [keysRise_cons]; exact ⟨h, fun p hp => by
        simp only [List.mem_cons] at hp
        rcases hp with rfl | hp
        · assumption
        · have := h2 p hp; omega⟩
    · split
      · subst_vars; rw [keysRise_cons]; exact ⟨h1, h2⟩
      · rw [keysRise_cons]; exact ⟨ih h1, fun p hp => by
          rcases mem_upd hp with rfl | hp
          · simp only; omega
          · exact h2 p hp⟩
theorem keysRise_del (m : SMap α) (k : Nat) (h : keysRise m = true) : keysRise (del m k) = true := by
  induction m with
  | nil => rfl
  | cons q m ih =>
    obtain ⟨j, w⟩ := q
    obtain ⟨h1, h2⟩ := (keysRise_cons j w m).1 h
    simp only [del]
    split
    · exact ih h1
    · rw [keysRise_cons]; exact ⟨ih h1, fun p hp => h2 p (mem_del hp)⟩
theorem canon_keysRise [DecidableEq α] {d : α} {m : SMap α} (h : canon d m = true) : keysRise m = true := by
  simp only [canon, Bool.and_eq_true] at h; exact h.1
/-- A write keeps the canonical form. -/
theorem canon_put [DecidableEq α] (d : α) (m : SMap α) (k : Nat) (v : α) (h : canon d m = true) : canon d (put d m k v) = true := by
  simp only [canon, Bool.and_eq_true, List.all_eq_true, decide_eq_true_eq] at h ⊢
  unfold put; split
  · exact ⟨keysRise_del m k h.1, fun p hp => h.2 p (mem_del hp)⟩
  · refine ⟨keysRise_upd m k v h.1, fun p hp => ?_⟩
    rcases mem_upd hp with rfl | hp
    · assumption
    · exact h.2 p hp
/-- A filter keeps the canonical form. -/
theorem canon_filter [DecidableEq α] (d : α) (m : SMap α) (q : Nat × α → Bool) (h : canon d m = true) :
    canon d (m.filter q) = true := by
  simp only [canon, Bool.and_eq_true, List.all_eq_true, decide_eq_true_eq] at h ⊢
  refine ⟨?_, fun p hp => h.2 p (List.mem_filter.1 hp).1⟩
  replace h := h.1
  induction m with
  | nil => rfl
  | cons p m ih =>
    obtain ⟨j, w⟩ := p
    obtain ⟨h1, h2⟩ := (keysRise_cons j w m).1 h
    rw [List.filter_cons]
    split
    · rw [keysRise_cons]; exact ⟨ih h1, fun p hp => h2 p (List.mem_filter.1 hp).1⟩
    · exact ih h1
/-- A write of bytes keeps the canonical form. -/
theorem canon_setBytes (m : SMap Byte) (a n v : Nat) (h : canon 0 m = true) : canon 0 (setBytes m a n v) = true := by
  induction n generalizing m a v with
  | zero => exact h
  | succ n ih => exact ih _ _ _ (canon_put 0 m a _ h)
/-- Setting flags keeps the canonical form. -/
theorem canon_setFlags (m : SMap Bool) (a n : Nat) (b : Bool) (h : canon false m = true) : canon false (setFlags m a n b) = true := by
  induction n generalizing m a with
  | zero => exact h
  | succ n ih => exact ih _ _ (canon_put false m a b h)
/-- A property that every turn of a loop keeps holds after it. -/
theorem loop_keeps {σ : Type} (P : σ → Prop) (f : Nat → σ → σ) (hf : ∀ i s, P s → P (f i s)) (n i : Nat) (s : σ) (h : P s) :
    P (loop f n i s) := by
  induction n generalizing i s with
  | zero => exact h
  | succ n ih => exact ih _ _ (hf i s h)
/-- A property that every step of a fold keeps holds after it. -/
theorem foldl_keeps {σ β : Type} (P : σ → Prop) (f : σ → β → σ) (hf : ∀ s x, P s → P (f s x)) (l : List β) (s : σ) (h : P s) :
    P (l.foldl f s) := by
  induction l generalizing s with
  | nil => exact h
  | cons x l ih => exact ih _ (hf s x h)
/-- Bytes outside those a write covers read as before. -/
theorem look_setBytes_other (m : SMap Byte) (a n v j : Nat) (h : j < a ∨ a + n ≤ j) : look 0 (setBytes m a n v) j = look 0 m j := by
  induction n generalizing m a v with
  | zero => rfl
  | succ n ih => rw [setBytes, ih _ _ _ (by omega), look_put_other 0 m _ (by omega)]
/-- The bytes a write covers read as they were written, little-endian (R6). -/
theorem getBytes_setBytes (m : SMap Byte) (a n v : Nat) : getBytes (setBytes m a n v) a n = v % 256 ^ n := by
  induction n generalizing m a v with
  | zero => simp [getBytes, Nat.mod_one]
  | succ n ih =>
    rw [getBytes, setBytes, ih, look_setBytes_other _ _ _ _ _ (by omega), look_put_same]
    rw [BitVec.toNat_ofNat, show (256 : Nat) ^ (n + 1) = 256 * 256 ^ n from Nat.pow_succ', Nat.mod_mul]

theorem pack_lt (w : Nat) (f : Nat → Nat) (n i : Nat) : pack w f n i < 2 ^ (w * n) := by
  induction n generalizing i with
  | zero => simp [pack]
  | succ n ih =>
    have h1 : f i % 2 ^ w < 2 ^ w := Nat.mod_lt _ (Nat.two_pow_pos w)
    have h2 := ih (i + 1)
    rw [pack, Nat.mul_succ, Nat.add_comm (w * n), Nat.pow_add]
    have : 2 ^ w * pack w f n (i + 1) + 2 ^ w ≤ 2 ^ w * 2 ^ (w * n) := by
      rw [← Nat.mul_succ]; exact Nat.mul_le_mul_left _ h2
    omega
/-- A field of a packed number. -/
theorem fld_pack (w : Nat) (f : Nat → Nat) (n i j : Nat) (h : j < n) : fld (pack w f n i) (w * j) w = f (i + j) % 2 ^ w := by
  induction n generalizing i j with
  | zero => omega
  | succ n ih =>
    cases j with
    | zero => simp [fld, pack, Nat.add_mul_mod_self_left]
    | succ j =>
      have h1 : f i % 2 ^ w < 2 ^ w := Nat.mod_lt _ (Nat.two_pow_pos w)
      have := ih (i + 1) j (by omega)
      simp only [fld] at this ⊢
      rw [pack, Nat.mul_succ, Nat.add_comm (w * j), Nat.pow_add, ← Nat.div_div_eq_div_mul,
        Nat.add_mul_div_left _ _ (Nat.two_pow_pos w), Nat.div_eq_of_lt h1, Nat.zero_add, this]
      congr 2; omega

end Sys2Proof.Machine
end

