-- ==== Sys2Proof/Laws/State.lean ====
section
/-! SUPPORT. One lemma per field of State for each update of one of its parts. -/

namespace Sys2Proof.Machine

@[simp] theorem State.setStrand_cores (s : State) (n : Nat) (st : Strand) : (s.setStrand n st).cores = s.cores := rfl
@[simp] theorem State.setStrand_clusters (s : State) (n : Nat) (st : Strand) : (s.setStrand n st).clusters = s.clusters := rfl
@[simp] theorem State.setStrand_dies (s : State) (n : Nat) (st : Strand) : (s.setStrand n st).dies = s.dies := rfl
@[simp] theorem State.setStrand_contexts (s : State) (n : Nat) (st : Strand) : (s.setStrand n st).contexts = s.contexts := rfl
@[simp] theorem State.setStrand_shadows (s : State) (n : Nat) (st : Strand) : (s.setStrand n st).shadows = s.shadows := rfl
@[simp] theorem State.setStrand_pkg (s : State) (n : Nat) (st : Strand) : (s.setStrand n st).pkg = s.pkg := rfl
@[simp] theorem State.setStrand_mem (s : State) (n : Nat) (st : Strand) : (s.setStrand n st).mem = s.mem := rfl
@[simp] theorem State.setStrand_memP (s : State) (n : Nat) (st : Strand) : (s.setStrand n st).memP = s.memP := rfl
@[simp] theorem State.setStrand_nvm (s : State) (n : Nat) (st : Strand) : (s.setStrand n st).nvm = s.nvm := rfl
@[simp] theorem State.setStrand_nvmP (s : State) (n : Nat) (st : Strand) : (s.setStrand n st).nvmP = s.nvmP := rfl
@[simp] theorem State.setStrand_badTag (s : State) (n : Nat) (st : Strand) : (s.setStrand n st).badTag = s.badTag := rfl
@[simp] theorem State.setStrand_version (s : State) (n : Nat) (st : Strand) : (s.setStrand n st).version = s.version := rfl
@[simp] theorem State.setStrand_gtime (s : State) (n : Nat) (st : Strand) : (s.setStrand n st).gtime = s.gtime := rfl
@[simp] theorem State.setStrand_agenda (s : State) (n : Nat) (st : Strand) : (s.setStrand n st).agenda = s.agenda := rfl
@[simp] theorem State.setStrand_freeN (s : State) (n : Nat) (st : Strand) : (s.setStrand n st).freeN = s.freeN := rfl
@[simp] theorem State.setStrand_cur (s : State) (n : Nat) (st : Strand) : (s.setStrand n st).cur = s.cur := rfl
@[simp] theorem State.setStrand_core (s : State) (n : Nat) (st : Strand) (j : Nat) : (s.setStrand n st).core j = s.core j := rfl
@[simp] theorem State.setStrand_cluster (s : State) (n : Nat) (st : Strand) (j : Nat) : (s.setStrand n st).cluster j = s.cluster j := rfl
@[simp] theorem State.setStrand_die (s : State) (n : Nat) (st : Strand) (j : Nat) : (s.setStrand n st).die j = s.die j := rfl
@[simp] theorem State.setStrand_ctx (s : State) (n : Nat) (st : Strand) (j : Nat) : (s.setStrand n st).ctx j = s.ctx j := rfl

@[simp] theorem State.setCore_strands (s : State) (c : Nat) (co : Core) : (s.setCore c co).strands = s.strands := rfl
@[simp] theorem State.setCore_clusters (s : State) (c : Nat) (co : Core) : (s.setCore c co).clusters = s.clusters := rfl
@[simp] theorem State.setCore_dies (s : State) (c : Nat) (co : Core) : (s.setCore c co).dies = s.dies := rfl
@[simp] theorem State.setCore_contexts (s : State) (c : Nat) (co : Core) : (s.setCore c co).contexts = s.contexts := rfl
@[simp] theorem State.setCore_shadows (s : State) (c : Nat) (co : Core) : (s.setCore c co).shadows = s.shadows := rfl
@[simp] theorem State.setCore_pkg (s : State) (c : Nat) (co : Core) : (s.setCore c co).pkg = s.pkg := rfl
@[simp] theorem State.setCore_mem (s : State) (c : Nat) (co : Core) : (s.setCore c co).mem = s.mem := rfl
@[simp] theorem State.setCore_memP (s : State) (c : Nat) (co : Core) : (s.setCore c co).memP = s.memP := rfl
@[simp] theorem State.setCore_nvm (s : State) (c : Nat) (co : Core) : (s.setCore c co).nvm = s.nvm := rfl
@[simp] theorem State.setCore_nvmP (s : State) (c : Nat) (co : Core) : (s.setCore c co).nvmP = s.nvmP := rfl
@[simp] theorem State.setCore_badTag (s : State) (c : Nat) (co : Core) : (s.setCore c co).badTag = s.badTag := rfl
@[simp] theorem State.setCore_version (s : State) (c : Nat) (co : Core) : (s.setCore c co).version = s.version := rfl
@[simp] theorem State.setCore_gtime (s : State) (c : Nat) (co : Core) : (s.setCore c co).gtime = s.gtime := rfl
@[simp] theorem State.setCore_agenda (s : State) (c : Nat) (co : Core) : (s.setCore c co).agenda = s.agenda := rfl
@[simp] theorem State.setCore_freeN (s : State) (c : Nat) (co : Core) : (s.setCore c co).freeN = s.freeN := rfl
@[simp] theorem State.setCore_cur (s : State) (c : Nat) (co : Core) : (s.setCore c co).cur = s.cur := rfl
@[simp] theorem State.setCore_strand (s : State) (c : Nat) (co : Core) (j : Nat) : (s.setCore c co).strand j = s.strand j := rfl
@[simp] theorem State.setCore_cluster (s : State) (c : Nat) (co : Core) (j : Nat) : (s.setCore c co).cluster j = s.cluster j := rfl
@[simp] theorem State.setCore_die (s : State) (c : Nat) (co : Core) (j : Nat) : (s.setCore c co).die j = s.die j := rfl
@[simp] theorem State.setCore_ctx (s : State) (c : Nat) (co : Core) (j : Nat) : (s.setCore c co).ctx j = s.ctx j := rfl

@[simp] theorem State.setCluster_strands (s : State) (c : Nat) (x : Cluster) : (s.setCluster c x).strands = s.strands := rfl
@[simp] theorem State.setCluster_cores (s : State) (c : Nat) (x : Cluster) : (s.setCluster c x).cores = s.cores := rfl
@[simp] theorem State.setCluster_dies (s : State) (c : Nat) (x : Cluster) : (s.setCluster c x).dies = s.dies := rfl
@[simp] theorem State.setCluster_contexts (s : State) (c : Nat) (x : Cluster) : (s.setCluster c x).contexts = s.contexts := rfl
@[simp] theorem State.setCluster_shadows (s : State) (c : Nat) (x : Cluster) : (s.setCluster c x).shadows = s.shadows := rfl
@[simp] theorem State.setCluster_pkg (s : State) (c : Nat) (x : Cluster) : (s.setCluster c x).pkg = s.pkg := rfl
@[simp] theorem State.setCluster_mem (s : State) (c : Nat) (x : Cluster) : (s.setCluster c x).mem = s.mem := rfl
@[simp] theorem State.setCluster_memP (s : State) (c : Nat) (x : Cluster) : (s.setCluster c x).memP = s.memP := rfl
@[simp] theorem State.setCluster_nvm (s : State) (c : Nat) (x : Cluster) : (s.setCluster c x).nvm = s.nvm := rfl
@[simp] theorem State.setCluster_nvmP (s : State) (c : Nat) (x : Cluster) : (s.setCluster c x).nvmP = s.nvmP := rfl
@[simp] theorem State.setCluster_badTag (s : State) (c : Nat) (x : Cluster) : (s.setCluster c x).badTag = s.badTag := rfl
@[simp] theorem State.setCluster_version (s : State) (c : Nat) (x : Cluster) : (s.setCluster c x).version = s.version := rfl
@[simp] theorem State.setCluster_gtime (s : State) (c : Nat) (x : Cluster) : (s.setCluster c x).gtime = s.gtime := rfl
@[simp] theorem State.setCluster_agenda (s : State) (c : Nat) (x : Cluster) : (s.setCluster c x).agenda = s.agenda := rfl
@[simp] theorem State.setCluster_freeN (s : State) (c : Nat) (x : Cluster) : (s.setCluster c x).freeN = s.freeN := rfl
@[simp] theorem State.setCluster_cur (s : State) (c : Nat) (x : Cluster) : (s.setCluster c x).cur = s.cur := rfl
@[simp] theorem State.setCluster_strand (s : State) (c : Nat) (x : Cluster) (j : Nat) : (s.setCluster c x).strand j = s.strand j := rfl
@[simp] theorem State.setCluster_core (s : State) (c : Nat) (x : Cluster) (j : Nat) : (s.setCluster c x).core j = s.core j := rfl
@[simp] theorem State.setCluster_die (s : State) (c : Nat) (x : Cluster) (j : Nat) : (s.setCluster c x).die j = s.die j := rfl
@[simp] theorem State.setCluster_ctx (s : State) (c : Nat) (x : Cluster) (j : Nat) : (s.setCluster c x).ctx j = s.ctx j := rfl

@[simp] theorem State.setDie_strands (s : State) (d : Nat) (x : Die) : (s.setDie d x).strands = s.strands := rfl
@[simp] theorem State.setDie_cores (s : State) (d : Nat) (x : Die) : (s.setDie d x).cores = s.cores := rfl
@[simp] theorem State.setDie_clusters (s : State) (d : Nat) (x : Die) : (s.setDie d x).clusters = s.clusters := rfl
@[simp] theorem State.setDie_contexts (s : State) (d : Nat) (x : Die) : (s.setDie d x).contexts = s.contexts := rfl
@[simp] theorem State.setDie_shadows (s : State) (d : Nat) (x : Die) : (s.setDie d x).shadows = s.shadows := rfl
@[simp] theorem State.setDie_pkg (s : State) (d : Nat) (x : Die) : (s.setDie d x).pkg = s.pkg := rfl
@[simp] theorem State.setDie_mem (s : State) (d : Nat) (x : Die) : (s.setDie d x).mem = s.mem := rfl
@[simp] theorem State.setDie_memP (s : State) (d : Nat) (x : Die) : (s.setDie d x).memP = s.memP := rfl
@[simp] theorem State.setDie_nvm (s : State) (d : Nat) (x : Die) : (s.setDie d x).nvm = s.nvm := rfl
@[simp] theorem State.setDie_nvmP (s : State) (d : Nat) (x : Die) : (s.setDie d x).nvmP = s.nvmP := rfl
@[simp] theorem State.setDie_badTag (s : State) (d : Nat) (x : Die) : (s.setDie d x).badTag = s.badTag := rfl
@[simp] theorem State.setDie_version (s : State) (d : Nat) (x : Die) : (s.setDie d x).version = s.version := rfl
@[simp] theorem State.setDie_gtime (s : State) (d : Nat) (x : Die) : (s.setDie d x).gtime = s.gtime := rfl
@[simp] theorem State.setDie_agenda (s : State) (d : Nat) (x : Die) : (s.setDie d x).agenda = s.agenda := rfl
@[simp] theorem State.setDie_freeN (s : State) (d : Nat) (x : Die) : (s.setDie d x).freeN = s.freeN := rfl
@[simp] theorem State.setDie_cur (s : State) (d : Nat) (x : Die) : (s.setDie d x).cur = s.cur := rfl
@[simp] theorem State.setDie_strand (s : State) (d : Nat) (x : Die) (j : Nat) : (s.setDie d x).strand j = s.strand j := rfl
@[simp] theorem State.setDie_core (s : State) (d : Nat) (x : Die) (j : Nat) : (s.setDie d x).core j = s.core j := rfl
@[simp] theorem State.setDie_cluster (s : State) (d : Nat) (x : Die) (j : Nat) : (s.setDie d x).cluster j = s.cluster j := rfl
@[simp] theorem State.setDie_ctx (s : State) (d : Nat) (x : Die) (j : Nat) : (s.setDie d x).ctx j = s.ctx j := rfl

@[simp] theorem State.setCtx_strands (s : State) (i : Nat) (x : Ctx) : (s.setCtx i x).strands = s.strands := rfl
@[simp] theorem State.setCtx_cores (s : State) (i : Nat) (x : Ctx) : (s.setCtx i x).cores = s.cores := rfl
@[simp] theorem State.setCtx_clusters (s : State) (i : Nat) (x : Ctx) : (s.setCtx i x).clusters = s.clusters := rfl
@[simp] theorem State.setCtx_dies (s : State) (i : Nat) (x : Ctx) : (s.setCtx i x).dies = s.dies := rfl
@[simp] theorem State.setCtx_shadows (s : State) (i : Nat) (x : Ctx) : (s.setCtx i x).shadows = s.shadows := rfl
@[simp] theorem State.setCtx_pkg (s : State) (i : Nat) (x : Ctx) : (s.setCtx i x).pkg = s.pkg := rfl
@[simp] theorem State.setCtx_mem (s : State) (i : Nat) (x : Ctx) : (s.setCtx i x).mem = s.mem := rfl
@[simp] theorem State.setCtx_memP (s : State) (i : Nat) (x : Ctx) : (s.setCtx i x).memP = s.memP := rfl
@[simp] theorem State.setCtx_nvm (s : State) (i : Nat) (x : Ctx) : (s.setCtx i x).nvm = s.nvm := rfl
@[simp] theorem State.setCtx_nvmP (s : State) (i : Nat) (x : Ctx) : (s.setCtx i x).nvmP = s.nvmP := rfl
@[simp] theorem State.setCtx_badTag (s : State) (i : Nat) (x : Ctx) : (s.setCtx i x).badTag = s.badTag := rfl
@[simp] theorem State.setCtx_version (s : State) (i : Nat) (x : Ctx) : (s.setCtx i x).version = s.version := rfl
@[simp] theorem State.setCtx_gtime (s : State) (i : Nat) (x : Ctx) : (s.setCtx i x).gtime = s.gtime := rfl
@[simp] theorem State.setCtx_agenda (s : State) (i : Nat) (x : Ctx) : (s.setCtx i x).agenda = s.agenda := rfl
@[simp] theorem State.setCtx_freeN (s : State) (i : Nat) (x : Ctx) : (s.setCtx i x).freeN = s.freeN := rfl
@[simp] theorem State.setCtx_cur (s : State) (i : Nat) (x : Ctx) : (s.setCtx i x).cur = s.cur := rfl
@[simp] theorem State.setCtx_strand (s : State) (i : Nat) (x : Ctx) (j : Nat) : (s.setCtx i x).strand j = s.strand j := rfl
@[simp] theorem State.setCtx_core (s : State) (i : Nat) (x : Ctx) (j : Nat) : (s.setCtx i x).core j = s.core j := rfl
@[simp] theorem State.setCtx_cluster (s : State) (i : Nat) (x : Ctx) (j : Nat) : (s.setCtx i x).cluster j = s.cluster j := rfl
@[simp] theorem State.setCtx_die (s : State) (i : Nat) (x : Ctx) (j : Nat) : (s.setCtx i x).die j = s.die j := rfl

@[simp] theorem State.onPkg_strands (s : State) (f : Package → Package) : (s.onPkg f).strands = s.strands := rfl
@[simp] theorem State.onPkg_cores (s : State) (f : Package → Package) : (s.onPkg f).cores = s.cores := rfl
@[simp] theorem State.onPkg_clusters (s : State) (f : Package → Package) : (s.onPkg f).clusters = s.clusters := rfl
@[simp] theorem State.onPkg_dies (s : State) (f : Package → Package) : (s.onPkg f).dies = s.dies := rfl
@[simp] theorem State.onPkg_contexts (s : State) (f : Package → Package) : (s.onPkg f).contexts = s.contexts := rfl
@[simp] theorem State.onPkg_shadows (s : State) (f : Package → Package) : (s.onPkg f).shadows = s.shadows := rfl
@[simp] theorem State.onPkg_mem (s : State) (f : Package → Package) : (s.onPkg f).mem = s.mem := rfl
@[simp] theorem State.onPkg_memP (s : State) (f : Package → Package) : (s.onPkg f).memP = s.memP := rfl
@[simp] theorem State.onPkg_nvm (s : State) (f : Package → Package) : (s.onPkg f).nvm = s.nvm := rfl
@[simp] theorem State.onPkg_nvmP (s : State) (f : Package → Package) : (s.onPkg f).nvmP = s.nvmP := rfl
@[simp] theorem State.onPkg_badTag (s : State) (f : Package → Package) : (s.onPkg f).badTag = s.badTag := rfl
@[simp] theorem State.onPkg_version (s : State) (f : Package → Package) : (s.onPkg f).version = s.version := rfl
@[simp] theorem State.onPkg_gtime (s : State) (f : Package → Package) : (s.onPkg f).gtime = s.gtime := rfl
@[simp] theorem State.onPkg_agenda (s : State) (f : Package → Package) : (s.onPkg f).agenda = s.agenda := rfl
@[simp] theorem State.onPkg_freeN (s : State) (f : Package → Package) : (s.onPkg f).freeN = s.freeN := rfl
@[simp] theorem State.onPkg_cur (s : State) (f : Package → Package) : (s.onPkg f).cur = s.cur := rfl
@[simp] theorem State.onPkg_pkg (s : State) (f : Package → Package) : (s.onPkg f).pkg = f s.pkg := rfl
@[simp] theorem State.onPkg_strand (s : State) (f : Package → Package) (j : Nat) : (s.onPkg f).strand j = s.strand j := rfl
@[simp] theorem State.onPkg_core (s : State) (f : Package → Package) (j : Nat) : (s.onPkg f).core j = s.core j := rfl
@[simp] theorem State.onPkg_cluster (s : State) (f : Package → Package) (j : Nat) : (s.onPkg f).cluster j = s.cluster j := rfl
@[simp] theorem State.onPkg_die (s : State) (f : Package → Package) (j : Nat) : (s.onPkg f).die j = s.die j := rfl
@[simp] theorem State.onPkg_ctx (s : State) (f : Package → Package) (j : Nat) : (s.onPkg f).ctx j = s.ctx j := rfl

@[simp] theorem State.onStrand_eq (s : State) (n : Nat) (f : Strand → Strand) : s.onStrand n f = s.setStrand n (f (s.strand n)) := rfl
@[simp] theorem State.onCore_eq (s : State) (n : Nat) (f : Core → Core) : s.onCore n f = s.setCore n (f (s.core n)) := rfl
@[simp] theorem State.onCluster_eq (s : State) (n : Nat) (f : Cluster → Cluster) : s.onCluster n f = s.setCluster n (f (s.cluster n)) := rfl
@[simp] theorem State.onDie_eq (s : State) (n : Nat) (f : Die → Die) : s.onDie n f = s.setDie n (f (s.die n)) := rfl
@[simp] theorem State.onCtx_eq (s : State) (n : Nat) (f : Ctx → Ctx) : s.onCtx n f = s.setCtx n (f (s.ctx n)) := rfl

end Sys2Proof.Machine
end

