-- ==== Sys2Proof/Laws/Frame.lean ====
section
/-! SUPPORT. What the shared operations over memory, the host's queues and the package leave as it was: one lemma per field. -/

namespace Sys2Proof.Machine

/-- A projection that every step of a fold keeps is kept by the fold. -/
theorem foldl_proj {β γ : Type} (p : State → γ) (f : State → β → State) (hf : ∀ s x, p (f s x) = p s) (l : List β) (s : State) :
    p (l.foldl f s) = p s := by
  induction l generalizing s with
  | nil => rfl
  | cons x l ih => rw [List.foldl_cons, ih, hf]

/-! ## Memory -/

@[simp] theorem State.cellWrite_strands (s : State) (pa n mask value : Nat) (poison : Bool) : (s.cellWrite pa n mask value poison).strands = s.strands := by
  unfold State.cellWrite; simp only; split <;> rfl
@[simp] theorem State.cellWrite_cores (s : State) (pa n mask value : Nat) (poison : Bool) : (s.cellWrite pa n mask value poison).cores = s.cores := by
  unfold State.cellWrite; simp only; split <;> rfl
@[simp] theorem State.cellWrite_clusters (s : State) (pa n mask value : Nat) (poison : Bool) : (s.cellWrite pa n mask value poison).clusters = s.clusters := by
  unfold State.cellWrite; simp only; split <;> rfl
@[simp] theorem State.cellWrite_dies (s : State) (pa n mask value : Nat) (poison : Bool) : (s.cellWrite pa n mask value poison).dies = s.dies := by
  unfold State.cellWrite; simp only; split <;> rfl
@[simp] theorem State.cellWrite_contexts (s : State) (pa n mask value : Nat) (poison : Bool) : (s.cellWrite pa n mask value poison).contexts = s.contexts := by
  unfold State.cellWrite; simp only; split <;> rfl
@[simp] theorem State.cellWrite_shadows (s : State) (pa n mask value : Nat) (poison : Bool) : (s.cellWrite pa n mask value poison).shadows = s.shadows := by
  unfold State.cellWrite; simp only; split <;> rfl
@[simp] theorem State.cellWrite_pkg (s : State) (pa n mask value : Nat) (poison : Bool) : (s.cellWrite pa n mask value poison).pkg = s.pkg := by
  unfold State.cellWrite; simp only; split <;> rfl
@[simp] theorem State.cellWrite_nvm (s : State) (pa n mask value : Nat) (poison : Bool) : (s.cellWrite pa n mask value poison).nvm = s.nvm := by
  unfold State.cellWrite; simp only; split <;> rfl
@[simp] theorem State.cellWrite_nvmP (s : State) (pa n mask value : Nat) (poison : Bool) : (s.cellWrite pa n mask value poison).nvmP = s.nvmP := by
  unfold State.cellWrite; simp only; split <;> rfl
@[simp] theorem State.cellWrite_gtime (s : State) (pa n mask value : Nat) (poison : Bool) : (s.cellWrite pa n mask value poison).gtime = s.gtime := by
  unfold State.cellWrite; simp only; split <;> rfl
@[simp] theorem State.cellWrite_agenda (s : State) (pa n mask value : Nat) (poison : Bool) : (s.cellWrite pa n mask value poison).agenda = s.agenda := by
  unfold State.cellWrite; simp only; split <;> rfl
@[simp] theorem State.cellWrite_freeN (s : State) (pa n mask value : Nat) (poison : Bool) : (s.cellWrite pa n mask value poison).freeN = s.freeN := by
  unfold State.cellWrite; simp only; split <;> rfl
@[simp] theorem State.cellWrite_cur (s : State) (pa n mask value : Nat) (poison : Bool) : (s.cellWrite pa n mask value poison).cur = s.cur := by
  unfold State.cellWrite; simp only; split <;> rfl

/-- A projection that the parts of a recall keep is kept by it. -/
theorem State.recall_keeps {γ : Type} (p : State → γ) (h1 : ∀ s m, p { s with clusters := m } = p s)
    (h2 : ∀ s pa n mask v b, p (s.cellWrite pa n mask v b) = p s) (h3 : ∀ s m, p { s with memP := m } = p s)
    (h4 : ∀ (s : State) i im, p (s.onDie i (fun x => x.enter im)) = p s) (s : State) (sec : Nat) : p (s.recall sec) = p s := by
  unfold State.recall; split
  · rfl
  · simp only; split
    · exact h1 s _
    · split
      · exact (h4 _ _ _).trans ((h3 _ _).trans ((h2 _ _ _ _ _ _).trans (h1 s _)))
      · exact (h3 _ _).trans ((h2 _ _ _ _ _ _).trans (h1 s _))

@[simp] theorem State.recall_strands (s : State) (sec : Nat) : (s.recall sec).strands = s.strands := State.recall_keeps (fun s => s.strands) (fun _ _ => rfl) State.cellWrite_strands (fun _ _ => rfl) (fun _ _ _ => rfl) s sec
@[simp] theorem State.recall_cores (s : State) (sec : Nat) : (s.recall sec).cores = s.cores := State.recall_keeps (fun s => s.cores) (fun _ _ => rfl) State.cellWrite_cores (fun _ _ => rfl) (fun _ _ _ => rfl) s sec
@[simp] theorem State.recall_contexts (s : State) (sec : Nat) : (s.recall sec).contexts = s.contexts := State.recall_keeps (fun s => s.contexts) (fun _ _ => rfl) State.cellWrite_contexts (fun _ _ => rfl) (fun _ _ _ => rfl) s sec
@[simp] theorem State.recall_shadows (s : State) (sec : Nat) : (s.recall sec).shadows = s.shadows := State.recall_keeps (fun s => s.shadows) (fun _ _ => rfl) State.cellWrite_shadows (fun _ _ => rfl) (fun _ _ _ => rfl) s sec
@[simp] theorem State.recall_pkg (s : State) (sec : Nat) : (s.recall sec).pkg = s.pkg := State.recall_keeps (fun s => s.pkg) (fun _ _ => rfl) State.cellWrite_pkg (fun _ _ => rfl) (fun _ _ _ => rfl) s sec
@[simp] theorem State.recall_nvm (s : State) (sec : Nat) : (s.recall sec).nvm = s.nvm := State.recall_keeps (fun s => s.nvm) (fun _ _ => rfl) State.cellWrite_nvm (fun _ _ => rfl) (fun _ _ _ => rfl) s sec
@[simp] theorem State.recall_nvmP (s : State) (sec : Nat) : (s.recall sec).nvmP = s.nvmP := State.recall_keeps (fun s => s.nvmP) (fun _ _ => rfl) State.cellWrite_nvmP (fun _ _ => rfl) (fun _ _ _ => rfl) s sec
@[simp] theorem State.recall_gtime (s : State) (sec : Nat) : (s.recall sec).gtime = s.gtime := State.recall_keeps (fun s => s.gtime) (fun _ _ => rfl) State.cellWrite_gtime (fun _ _ => rfl) (fun _ _ _ => rfl) s sec
@[simp] theorem State.recall_agenda (s : State) (sec : Nat) : (s.recall sec).agenda = s.agenda := State.recall_keeps (fun s => s.agenda) (fun _ _ => rfl) State.cellWrite_agenda (fun _ _ => rfl) (fun _ _ _ => rfl) s sec
@[simp] theorem State.recall_freeN (s : State) (sec : Nat) : (s.recall sec).freeN = s.freeN := State.recall_keeps (fun s => s.freeN) (fun _ _ => rfl) State.cellWrite_freeN (fun _ _ => rfl) (fun _ _ _ => rfl) s sec
@[simp] theorem State.recall_cur (s : State) (sec : Nat) : (s.recall sec).cur = s.cur := State.recall_keeps (fun s => s.cur) (fun _ _ => rfl) State.cellWrite_cur (fun _ _ => rfl) (fun _ _ _ => rfl) s sec

@[simp] theorem State.rawWrite_strands (s : State) (q n mask value : Nat) (poison : Bool) (store : Option StoreId) : (s.rawWrite q n mask value poison store).strands = s.strands := by
  unfold State.rawWrite; simp only; split <;> simp
@[simp] theorem State.rawWrite_cores (s : State) (q n mask value : Nat) (poison : Bool) (store : Option StoreId) : (s.rawWrite q n mask value poison store).cores = s.cores := by
  unfold State.rawWrite; simp only; split <;> simp
@[simp] theorem State.rawWrite_contexts (s : State) (q n mask value : Nat) (poison : Bool) (store : Option StoreId) : (s.rawWrite q n mask value poison store).contexts = s.contexts := by
  unfold State.rawWrite; simp only; split <;> simp
@[simp] theorem State.rawWrite_shadows (s : State) (q n mask value : Nat) (poison : Bool) (store : Option StoreId) : (s.rawWrite q n mask value poison store).shadows = s.shadows := by
  unfold State.rawWrite; simp only; split <;> simp
@[simp] theorem State.rawWrite_pkg (s : State) (q n mask value : Nat) (poison : Bool) (store : Option StoreId) : (s.rawWrite q n mask value poison store).pkg = s.pkg := by
  unfold State.rawWrite; simp only; split <;> simp
@[simp] theorem State.rawWrite_nvm (s : State) (q n mask value : Nat) (poison : Bool) (store : Option StoreId) : (s.rawWrite q n mask value poison store).nvm = s.nvm := by
  unfold State.rawWrite; simp only; split <;> simp
@[simp] theorem State.rawWrite_nvmP (s : State) (q n mask value : Nat) (poison : Bool) (store : Option StoreId) : (s.rawWrite q n mask value poison store).nvmP = s.nvmP := by
  unfold State.rawWrite; simp only; split <;> simp
@[simp] theorem State.rawWrite_gtime (s : State) (q n mask value : Nat) (poison : Bool) (store : Option StoreId) : (s.rawWrite q n mask value poison store).gtime = s.gtime := by
  unfold State.rawWrite; simp only; split <;> simp
@[simp] theorem State.rawWrite_agenda (s : State) (q n mask value : Nat) (poison : Bool) (store : Option StoreId) : (s.rawWrite q n mask value poison store).agenda = s.agenda := by
  unfold State.rawWrite; simp only; split <;> simp
@[simp] theorem State.rawWrite_freeN (s : State) (q n mask value : Nat) (poison : Bool) (store : Option StoreId) : (s.rawWrite q n mask value poison store).freeN = s.freeN := by
  unfold State.rawWrite; simp only; split <;> simp
@[simp] theorem State.rawWrite_cur (s : State) (q n mask value : Nat) (poison : Bool) (store : Option StoreId) : (s.rawWrite q n mask value poison store).cur = s.cur := by
  unfold State.rawWrite; simp only; split <;> simp

@[simp] theorem State.homeWrite_strands (s : State) (pa n mask value : Nat) (poison : Bool) (store : Option StoreId) : (s.homeWrite pa n mask value poison store).strands = s.strands := State.rawWrite_strands _ _ _ _ _ _ _
@[simp] theorem State.homeWrite_cores (s : State) (pa n mask value : Nat) (poison : Bool) (store : Option StoreId) : (s.homeWrite pa n mask value poison store).cores = s.cores := State.rawWrite_cores _ _ _ _ _ _ _
@[simp] theorem State.homeWrite_contexts (s : State) (pa n mask value : Nat) (poison : Bool) (store : Option StoreId) : (s.homeWrite pa n mask value poison store).contexts = s.contexts := State.rawWrite_contexts _ _ _ _ _ _ _
@[simp] theorem State.homeWrite_shadows (s : State) (pa n mask value : Nat) (poison : Bool) (store : Option StoreId) : (s.homeWrite pa n mask value poison store).shadows = s.shadows := State.rawWrite_shadows _ _ _ _ _ _ _
@[simp] theorem State.homeWrite_pkg (s : State) (pa n mask value : Nat) (poison : Bool) (store : Option StoreId) : (s.homeWrite pa n mask value poison store).pkg = s.pkg := State.rawWrite_pkg _ _ _ _ _ _ _
@[simp] theorem State.homeWrite_nvm (s : State) (pa n mask value : Nat) (poison : Bool) (store : Option StoreId) : (s.homeWrite pa n mask value poison store).nvm = s.nvm := State.rawWrite_nvm _ _ _ _ _ _ _
@[simp] theorem State.homeWrite_nvmP (s : State) (pa n mask value : Nat) (poison : Bool) (store : Option StoreId) : (s.homeWrite pa n mask value poison store).nvmP = s.nvmP := State.rawWrite_nvmP _ _ _ _ _ _ _
@[simp] theorem State.homeWrite_gtime (s : State) (pa n mask value : Nat) (poison : Bool) (store : Option StoreId) : (s.homeWrite pa n mask value poison store).gtime = s.gtime := State.rawWrite_gtime _ _ _ _ _ _ _
@[simp] theorem State.homeWrite_agenda (s : State) (pa n mask value : Nat) (poison : Bool) (store : Option StoreId) : (s.homeWrite pa n mask value poison store).agenda = s.agenda := State.rawWrite_agenda _ _ _ _ _ _ _
@[simp] theorem State.homeWrite_freeN (s : State) (pa n mask value : Nat) (poison : Bool) (store : Option StoreId) : (s.homeWrite pa n mask value poison store).freeN = s.freeN := State.rawWrite_freeN _ _ _ _ _ _ _
@[simp] theorem State.homeWrite_cur (s : State) (pa n mask value : Nat) (poison : Bool) (store : Option StoreId) : (s.homeWrite pa n mask value poison store).cur = s.cur := State.rawWrite_cur _ _ _ _ _ _ _

@[simp] theorem State.homeRange_strands (s : State) (pa n value : Nat) (poison : Bool) (store : Option StoreId) : (s.homeRange pa n value poison store).strands = s.strands := foldl_proj (fun s => s.strands) _ (fun s _ => State.homeWrite_strands s _ _ _ _ _ _) _ _
@[simp] theorem State.homeRange_cores (s : State) (pa n value : Nat) (poison : Bool) (store : Option StoreId) : (s.homeRange pa n value poison store).cores = s.cores := foldl_proj (fun s => s.cores) _ (fun s _ => State.homeWrite_cores s _ _ _ _ _ _) _ _
@[simp] theorem State.homeRange_contexts (s : State) (pa n value : Nat) (poison : Bool) (store : Option StoreId) : (s.homeRange pa n value poison store).contexts = s.contexts := foldl_proj (fun s => s.contexts) _ (fun s _ => State.homeWrite_contexts s _ _ _ _ _ _) _ _
@[simp] theorem State.homeRange_shadows (s : State) (pa n value : Nat) (poison : Bool) (store : Option StoreId) : (s.homeRange pa n value poison store).shadows = s.shadows := foldl_proj (fun s => s.shadows) _ (fun s _ => State.homeWrite_shadows s _ _ _ _ _ _) _ _
@[simp] theorem State.homeRange_pkg (s : State) (pa n value : Nat) (poison : Bool) (store : Option StoreId) : (s.homeRange pa n value poison store).pkg = s.pkg := foldl_proj (fun s => s.pkg) _ (fun s _ => State.homeWrite_pkg s _ _ _ _ _ _) _ _
@[simp] theorem State.homeRange_nvm (s : State) (pa n value : Nat) (poison : Bool) (store : Option StoreId) : (s.homeRange pa n value poison store).nvm = s.nvm := foldl_proj (fun s => s.nvm) _ (fun s _ => State.homeWrite_nvm s _ _ _ _ _ _) _ _
@[simp] theorem State.homeRange_nvmP (s : State) (pa n value : Nat) (poison : Bool) (store : Option StoreId) : (s.homeRange pa n value poison store).nvmP = s.nvmP := foldl_proj (fun s => s.nvmP) _ (fun s _ => State.homeWrite_nvmP s _ _ _ _ _ _) _ _
@[simp] theorem State.homeRange_gtime (s : State) (pa n value : Nat) (poison : Bool) (store : Option StoreId) : (s.homeRange pa n value poison store).gtime = s.gtime := foldl_proj (fun s => s.gtime) _ (fun s _ => State.homeWrite_gtime s _ _ _ _ _ _) _ _
@[simp] theorem State.homeRange_agenda (s : State) (pa n value : Nat) (poison : Bool) (store : Option StoreId) : (s.homeRange pa n value poison store).agenda = s.agenda := foldl_proj (fun s => s.agenda) _ (fun s _ => State.homeWrite_agenda s _ _ _ _ _ _) _ _
@[simp] theorem State.homeRange_freeN (s : State) (pa n value : Nat) (poison : Bool) (store : Option StoreId) : (s.homeRange pa n value poison store).freeN = s.freeN := foldl_proj (fun s => s.freeN) _ (fun s _ => State.homeWrite_freeN s _ _ _ _ _ _) _ _
@[simp] theorem State.homeRange_cur (s : State) (pa n value : Nat) (poison : Bool) (store : Option StoreId) : (s.homeRange pa n value poison store).cur = s.cur := foldl_proj (fun s => s.cur) _ (fun s _ => State.homeWrite_cur s _ _ _ _ _ _) _ _

/-! ## Lines and posted writes -/

@[simp] theorem State.askLine_strands (s : State) (l : Nat) (own : Bool) : (s.askLine l own).strands = s.strands := by
  unfold State.askLine; split <;> rfl
@[simp] theorem State.askLine_cores (s : State) (l : Nat) (own : Bool) : (s.askLine l own).cores = s.cores := by
  unfold State.askLine; split <;> rfl
@[simp] theorem State.askLine_clusters (s : State) (l : Nat) (own : Bool) : (s.askLine l own).clusters = s.clusters := by
  unfold State.askLine; split <;> rfl
@[simp] theorem State.askLine_dies (s : State) (l : Nat) (own : Bool) : (s.askLine l own).dies = s.dies := by
  unfold State.askLine; split <;> rfl
@[simp] theorem State.askLine_contexts (s : State) (l : Nat) (own : Bool) : (s.askLine l own).contexts = s.contexts := by
  unfold State.askLine; split <;> rfl
@[simp] theorem State.askLine_shadows (s : State) (l : Nat) (own : Bool) : (s.askLine l own).shadows = s.shadows := by
  unfold State.askLine; split <;> rfl
@[simp] theorem State.askLine_mem (s : State) (l : Nat) (own : Bool) : (s.askLine l own).mem = s.mem := by
  unfold State.askLine; split <;> rfl
@[simp] theorem State.askLine_memP (s : State) (l : Nat) (own : Bool) : (s.askLine l own).memP = s.memP := by
  unfold State.askLine; split <;> rfl
@[simp] theorem State.askLine_nvm (s : State) (l : Nat) (own : Bool) : (s.askLine l own).nvm = s.nvm := by
  unfold State.askLine; split <;> rfl
@[simp] theorem State.askLine_nvmP (s : State) (l : Nat) (own : Bool) : (s.askLine l own).nvmP = s.nvmP := by
  unfold State.askLine; split <;> rfl
@[simp] theorem State.askLine_badTag (s : State) (l : Nat) (own : Bool) : (s.askLine l own).badTag = s.badTag := by
  unfold State.askLine; split <;> rfl
@[simp] theorem State.askLine_version (s : State) (l : Nat) (own : Bool) : (s.askLine l own).version = s.version := by
  unfold State.askLine; split <;> rfl
@[simp] theorem State.askLine_gtime (s : State) (l : Nat) (own : Bool) : (s.askLine l own).gtime = s.gtime := by
  unfold State.askLine; split <;> rfl
@[simp] theorem State.askLine_agenda (s : State) (l : Nat) (own : Bool) : (s.askLine l own).agenda = s.agenda := by
  unfold State.askLine; split <;> rfl
@[simp] theorem State.askLine_freeN (s : State) (l : Nat) (own : Bool) : (s.askLine l own).freeN = s.freeN := by
  unfold State.askLine; split <;> rfl
@[simp] theorem State.askLine_cur (s : State) (l : Nat) (own : Bool) : (s.askLine l own).cur = s.cur := by
  unfold State.askLine; split <;> rfl

@[simp] theorem State.askBisnp_strands (s : State) (l : Nat) (inv : Bool) : (s.askBisnp l inv).strands = s.strands := by
  unfold State.askBisnp; split <;> rfl
@[simp] theorem State.askBisnp_cores (s : State) (l : Nat) (inv : Bool) : (s.askBisnp l inv).cores = s.cores := by
  unfold State.askBisnp; split <;> rfl
@[simp] theorem State.askBisnp_clusters (s : State) (l : Nat) (inv : Bool) : (s.askBisnp l inv).clusters = s.clusters := by
  unfold State.askBisnp; split <;> rfl
@[simp] theorem State.askBisnp_contexts (s : State) (l : Nat) (inv : Bool) : (s.askBisnp l inv).contexts = s.contexts := by
  unfold State.askBisnp; split <;> rfl
@[simp] theorem State.askBisnp_shadows (s : State) (l : Nat) (inv : Bool) : (s.askBisnp l inv).shadows = s.shadows := by
  unfold State.askBisnp; split <;> rfl
@[simp] theorem State.askBisnp_pkg (s : State) (l : Nat) (inv : Bool) : (s.askBisnp l inv).pkg = s.pkg := by
  unfold State.askBisnp; split <;> rfl
@[simp] theorem State.askBisnp_mem (s : State) (l : Nat) (inv : Bool) : (s.askBisnp l inv).mem = s.mem := by
  unfold State.askBisnp; split <;> rfl
@[simp] theorem State.askBisnp_memP (s : State) (l : Nat) (inv : Bool) : (s.askBisnp l inv).memP = s.memP := by
  unfold State.askBisnp; split <;> rfl
@[simp] theorem State.askBisnp_nvm (s : State) (l : Nat) (inv : Bool) : (s.askBisnp l inv).nvm = s.nvm := by
  unfold State.askBisnp; split <;> rfl
@[simp] theorem State.askBisnp_nvmP (s : State) (l : Nat) (inv : Bool) : (s.askBisnp l inv).nvmP = s.nvmP := by
  unfold State.askBisnp; split <;> rfl
@[simp] theorem State.askBisnp_badTag (s : State) (l : Nat) (inv : Bool) : (s.askBisnp l inv).badTag = s.badTag := by
  unfold State.askBisnp; split <;> rfl
@[simp] theorem State.askBisnp_version (s : State) (l : Nat) (inv : Bool) : (s.askBisnp l inv).version = s.version := by
  unfold State.askBisnp; split <;> rfl
@[simp] theorem State.askBisnp_gtime (s : State) (l : Nat) (inv : Bool) : (s.askBisnp l inv).gtime = s.gtime := by
  unfold State.askBisnp; split <;> rfl
@[simp] theorem State.askBisnp_agenda (s : State) (l : Nat) (inv : Bool) : (s.askBisnp l inv).agenda = s.agenda := by
  unfold State.askBisnp; split <;> rfl
@[simp] theorem State.askBisnp_freeN (s : State) (l : Nat) (inv : Bool) : (s.askBisnp l inv).freeN = s.freeN := by
  unfold State.askBisnp; split <;> rfl
@[simp] theorem State.askBisnp_cur (s : State) (l : Nat) (inv : Bool) : (s.askBisnp l inv).cur = s.cur := by
  unfold State.askBisnp; split <;> rfl

/-- A projection that its requests keep is kept by a gate. -/
theorem State.gateAt_keeps {γ : Type} (p : State → γ) (h1 : ∀ s l x, p (s.setLine l x) = p s) (h2 : ∀ s l o, p (s.askLine l o) = p s)
    (h3 : ∀ s l o, p (s.askBisnp l o) = p s) (s : State) (q n : Nat) (write : Bool) : p (s.gateAt q n write).1 = p s := by
  unfold State.gateAt; split
  · rfl
  · split
    · rfl
    · split
      · simp only; split
        · simp only; split
          · exact foldl_proj p (fun s l => s.setLine l .m) (fun s l => h1 s l _) _ _
          · rfl
        · exact foldl_proj p _ (fun s l => h2 s l write) _ _
      · simp only; split
        · rfl
        · exact foldl_proj p _ (fun s l => h3 s l write) _ _
      · rfl
/-- So is it kept by a gate that recalls what atomic engines hold. -/
theorem State.gateRaw_keeps {γ : Type} (p : State → γ) (h1 : ∀ s q n w, p (s.gateAt q n w).1 = p s) (h2 : ∀ s k, p (s.recall k) = p s)
    (s : State) (q n : Nat) (write : Bool) : p (s.gateRaw q n write).1 = p s := by
  have hg := h1 s q n write
  unfold State.gateRaw; split
  · next s1 e =>
    rw [e] at hg
    unfold State.recallAt; split
    · next s2 e2 =>
      split at e2
      · cases e2; exact (foldl_proj p _ h2 _ _).trans hg
      · cases e2
    · exact hg
  · exact hg
theorem State.gate_keeps {γ : Type} (p : State → γ) (h1 : ∀ s q n w, p (s.gateAt q n w).1 = p s) (h2 : ∀ s k, p (s.recall k) = p s)
    (s : State) (pa n : Nat) (write : Bool) : p (s.gate pa n write).1 = p s := State.gateRaw_keeps p h1 h2 s (s.place pa) n write
/-- What a device agent's write counts of failing sectors changes only the stacks' registers and the failures to be acted on. -/
theorem State.postFails_keeps {γ : Type} (p : State → γ) (h1 : ∀ s k f, p (s.onStack k f) = p s)
    (h2 : ∀ s (l : Package → List (Option Nat)), p (s.onPkg (fun x => { x with failed := l x })) = p s) (s : State) (w : Posted) :
    p (s.postFails w) = p s := by
  unfold State.postFails; split
  · refine (h2 _ (fun x => x.failed ++ [w.ctx])).trans ?_
    exact foldl_proj p _ (fun s q => by dsimp only; split; exacts [h1 s _ _, rfl]) _ _
  · rfl
/-- A projection that a gate, a write at the home and the package's own changes keep is kept by a device agent's write. -/
theorem State.performPosted_keeps {γ : Type} (p : State → γ) (h1 : ∀ s q n w, p (s.gate q n w).1 = p s)
    (h2 : ∀ s pa n v b i, p (s.homeRange pa n v b i) = p s) (h0 : ∀ s w, p (s.postFails w) = p s) (h3 : ∀ s q, p (s.onPkg (fun x => x.passed q)) = p s)
    (s : State) (w : Posted) : p (s.performPosted w).1 = p s := by
  have hg := h1 s w.pa w.n true
  unfold State.performPosted
  split
  · next s1 e => rw [e] at hg; exact (h3 _ _).trans ((h2 _ _ _ _ _ _).trans ((h0 _ _).trans hg))
  · next s1 e => rw [e] at hg; exact hg
  · next s1 _ _ e => rw [e] at hg; exact (h3 _ _).trans hg
/-- The same of a write that may be posted. -/
theorem State.post_keeps {γ : Type} (p : State → γ) (h1 : ∀ s q n w, p (s.gate q n w).1 = p s)
    (h2 : ∀ s pa n v b i, p (s.homeRange pa n v b i) = p s) (h0 : ∀ s w, p (s.postFails w) = p s) (h3 : ∀ s q, p (s.onPkg (fun x => x.passed q)) = p s)
    (h4 : ∀ s (l : Package → List Posted), p (s.onPkg (fun x => { x with posted := l x })) = p s)
    (s : State) (pa n value : Nat) (k c : Option Nat) : p (s.post pa n value k c) = p s := by
  refine foldl_proj p _ (fun s w => ?_) _ _
  have hw := State.performPosted_keeps p h1 h2 h0 h3 s w
  unfold State.postOne; simp only; split
  · split
    · next s1 e => rw [e] at hw; exact hw
    · next s1 e => rw [e] at hw; exact (h4 s1 (fun x => x.posted ++ [w])).trans hw
  · exact h4 s (fun x => x.posted ++ [w])
/-- And of the posted writes that can be performed. -/
theorem State.flushSome_keeps {γ : Type} (p : State → γ) (h1 : ∀ s q n w, p (s.gate q n w).1 = p s)
    (h2 : ∀ s pa n v b i, p (s.homeRange pa n v b i) = p s) (h0 : ∀ s w, p (s.postFails w) = p s) (h3 : ∀ s q, p (s.onPkg (fun x => x.passed q)) = p s)
    (h4 : ∀ s (l : Package → List Posted), p (s.onPkg (fun x => { x with posted := l x })) = p s)
    (f : Nat) (s : State) : p (State.flushSome f s) = p s := by
  induction f generalizing s with
  | zero => rfl
  | succ f ih =>
    unfold State.flushSome; split
    · rfl
    · next w l _ =>
      have hw := State.performPosted_keeps p h1 h2 h0 h3 s w
      split
      · next s1 e => rw [e] at hw; exact (ih _).trans ((h4 s1 (fun _ => l)).trans hw)
      · next s1 e => rw [e] at hw; exact hw

@[simp] theorem State.gateAt_strands (s : State) (q n : Nat) (write : Bool) : ((s.gateAt q n write).1).strands = s.strands := State.gateAt_keeps (fun s => s.strands) (fun _ _ _ => rfl) State.askLine_strands State.askBisnp_strands s q n write
@[simp] theorem State.gateAt_cores (s : State) (q n : Nat) (write : Bool) : ((s.gateAt q n write).1).cores = s.cores := State.gateAt_keeps (fun s => s.cores) (fun _ _ _ => rfl) State.askLine_cores State.askBisnp_cores s q n write
@[simp] theorem State.gateAt_clusters (s : State) (q n : Nat) (write : Bool) : ((s.gateAt q n write).1).clusters = s.clusters := State.gateAt_keeps (fun s => s.clusters) (fun _ _ _ => rfl) State.askLine_clusters State.askBisnp_clusters s q n write
@[simp] theorem State.gateAt_contexts (s : State) (q n : Nat) (write : Bool) : ((s.gateAt q n write).1).contexts = s.contexts := State.gateAt_keeps (fun s => s.contexts) (fun _ _ _ => rfl) State.askLine_contexts State.askBisnp_contexts s q n write
@[simp] theorem State.gateAt_shadows (s : State) (q n : Nat) (write : Bool) : ((s.gateAt q n write).1).shadows = s.shadows := State.gateAt_keeps (fun s => s.shadows) (fun _ _ _ => rfl) State.askLine_shadows State.askBisnp_shadows s q n write
@[simp] theorem State.gateAt_mem (s : State) (q n : Nat) (write : Bool) : ((s.gateAt q n write).1).mem = s.mem := State.gateAt_keeps (fun s => s.mem) (fun _ _ _ => rfl) State.askLine_mem State.askBisnp_mem s q n write
@[simp] theorem State.gateAt_memP (s : State) (q n : Nat) (write : Bool) : ((s.gateAt q n write).1).memP = s.memP := State.gateAt_keeps (fun s => s.memP) (fun _ _ _ => rfl) State.askLine_memP State.askBisnp_memP s q n write
@[simp] theorem State.gateAt_nvm (s : State) (q n : Nat) (write : Bool) : ((s.gateAt q n write).1).nvm = s.nvm := State.gateAt_keeps (fun s => s.nvm) (fun _ _ _ => rfl) State.askLine_nvm State.askBisnp_nvm s q n write
@[simp] theorem State.gateAt_nvmP (s : State) (q n : Nat) (write : Bool) : ((s.gateAt q n write).1).nvmP = s.nvmP := State.gateAt_keeps (fun s => s.nvmP) (fun _ _ _ => rfl) State.askLine_nvmP State.askBisnp_nvmP s q n write
@[simp] theorem State.gateAt_badTag (s : State) (q n : Nat) (write : Bool) : ((s.gateAt q n write).1).badTag = s.badTag := State.gateAt_keeps (fun s => s.badTag) (fun _ _ _ => rfl) State.askLine_badTag State.askBisnp_badTag s q n write
@[simp] theorem State.gateAt_version (s : State) (q n : Nat) (write : Bool) : ((s.gateAt q n write).1).version = s.version := State.gateAt_keeps (fun s => s.version) (fun _ _ _ => rfl) State.askLine_version State.askBisnp_version s q n write
@[simp] theorem State.gateAt_gtime (s : State) (q n : Nat) (write : Bool) : ((s.gateAt q n write).1).gtime = s.gtime := State.gateAt_keeps (fun s => s.gtime) (fun _ _ _ => rfl) State.askLine_gtime State.askBisnp_gtime s q n write
@[simp] theorem State.gateAt_agenda (s : State) (q n : Nat) (write : Bool) : ((s.gateAt q n write).1).agenda = s.agenda := State.gateAt_keeps (fun s => s.agenda) (fun _ _ _ => rfl) State.askLine_agenda State.askBisnp_agenda s q n write
@[simp] theorem State.gateAt_freeN (s : State) (q n : Nat) (write : Bool) : ((s.gateAt q n write).1).freeN = s.freeN := State.gateAt_keeps (fun s => s.freeN) (fun _ _ _ => rfl) State.askLine_freeN State.askBisnp_freeN s q n write
@[simp] theorem State.gateAt_cur (s : State) (q n : Nat) (write : Bool) : ((s.gateAt q n write).1).cur = s.cur := State.gateAt_keeps (fun s => s.cur) (fun _ _ _ => rfl) State.askLine_cur State.askBisnp_cur s q n write

@[simp] theorem State.gate_strands (s : State) (pa n : Nat) (write : Bool) : ((s.gate pa n write).1).strands = s.strands := State.gate_keeps (fun s => s.strands) State.gateAt_strands State.recall_strands s pa n write
@[simp] theorem State.gate_cores (s : State) (pa n : Nat) (write : Bool) : ((s.gate pa n write).1).cores = s.cores := State.gate_keeps (fun s => s.cores) State.gateAt_cores State.recall_cores s pa n write
@[simp] theorem State.gate_contexts (s : State) (pa n : Nat) (write : Bool) : ((s.gate pa n write).1).contexts = s.contexts := State.gate_keeps (fun s => s.contexts) State.gateAt_contexts State.recall_contexts s pa n write
@[simp] theorem State.gate_shadows (s : State) (pa n : Nat) (write : Bool) : ((s.gate pa n write).1).shadows = s.shadows := State.gate_keeps (fun s => s.shadows) State.gateAt_shadows State.recall_shadows s pa n write
@[simp] theorem State.gate_nvm (s : State) (pa n : Nat) (write : Bool) : ((s.gate pa n write).1).nvm = s.nvm := State.gate_keeps (fun s => s.nvm) State.gateAt_nvm State.recall_nvm s pa n write
@[simp] theorem State.gate_nvmP (s : State) (pa n : Nat) (write : Bool) : ((s.gate pa n write).1).nvmP = s.nvmP := State.gate_keeps (fun s => s.nvmP) State.gateAt_nvmP State.recall_nvmP s pa n write
@[simp] theorem State.gate_gtime (s : State) (pa n : Nat) (write : Bool) : ((s.gate pa n write).1).gtime = s.gtime := State.gate_keeps (fun s => s.gtime) State.gateAt_gtime State.recall_gtime s pa n write
@[simp] theorem State.gate_agenda (s : State) (pa n : Nat) (write : Bool) : ((s.gate pa n write).1).agenda = s.agenda := State.gate_keeps (fun s => s.agenda) State.gateAt_agenda State.recall_agenda s pa n write
@[simp] theorem State.gate_freeN (s : State) (pa n : Nat) (write : Bool) : ((s.gate pa n write).1).freeN = s.freeN := State.gate_keeps (fun s => s.freeN) State.gateAt_freeN State.recall_freeN s pa n write
@[simp] theorem State.gate_cur (s : State) (pa n : Nat) (write : Bool) : ((s.gate pa n write).1).cur = s.cur := State.gate_keeps (fun s => s.cur) State.gateAt_cur State.recall_cur s pa n write

@[simp] theorem State.post_strands (s : State) (pa n value : Nat) (k c : Option Nat) : (s.post pa n value k c).strands = s.strands := State.post_keeps (fun s => s.strands) State.gate_strands State.homeRange_strands (State.postFails_keeps _ (fun _ _ _ => rfl) (fun _ _ => rfl)) (fun _ _ => rfl) (fun _ _ => rfl) s pa n value k c
@[simp] theorem State.post_cores (s : State) (pa n value : Nat) (k c : Option Nat) : (s.post pa n value k c).cores = s.cores := State.post_keeps (fun s => s.cores) State.gate_cores State.homeRange_cores (State.postFails_keeps _ (fun _ _ _ => rfl) (fun _ _ => rfl)) (fun _ _ => rfl) (fun _ _ => rfl) s pa n value k c
@[simp] theorem State.post_contexts (s : State) (pa n value : Nat) (k c : Option Nat) : (s.post pa n value k c).contexts = s.contexts := State.post_keeps (fun s => s.contexts) State.gate_contexts State.homeRange_contexts (State.postFails_keeps _ (fun _ _ _ => rfl) (fun _ _ => rfl)) (fun _ _ => rfl) (fun _ _ => rfl) s pa n value k c
@[simp] theorem State.post_shadows (s : State) (pa n value : Nat) (k c : Option Nat) : (s.post pa n value k c).shadows = s.shadows := State.post_keeps (fun s => s.shadows) State.gate_shadows State.homeRange_shadows (State.postFails_keeps _ (fun _ _ _ => rfl) (fun _ _ => rfl)) (fun _ _ => rfl) (fun _ _ => rfl) s pa n value k c
@[simp] theorem State.post_nvm (s : State) (pa n value : Nat) (k c : Option Nat) : (s.post pa n value k c).nvm = s.nvm := State.post_keeps (fun s => s.nvm) State.gate_nvm State.homeRange_nvm (State.postFails_keeps _ (fun _ _ _ => rfl) (fun _ _ => rfl)) (fun _ _ => rfl) (fun _ _ => rfl) s pa n value k c
@[simp] theorem State.post_nvmP (s : State) (pa n value : Nat) (k c : Option Nat) : (s.post pa n value k c).nvmP = s.nvmP := State.post_keeps (fun s => s.nvmP) State.gate_nvmP State.homeRange_nvmP (State.postFails_keeps _ (fun _ _ _ => rfl) (fun _ _ => rfl)) (fun _ _ => rfl) (fun _ _ => rfl) s pa n value k c
@[simp] theorem State.post_gtime (s : State) (pa n value : Nat) (k c : Option Nat) : (s.post pa n value k c).gtime = s.gtime := State.post_keeps (fun s => s.gtime) State.gate_gtime State.homeRange_gtime (State.postFails_keeps _ (fun _ _ _ => rfl) (fun _ _ => rfl)) (fun _ _ => rfl) (fun _ _ => rfl) s pa n value k c
@[simp] theorem State.post_agenda (s : State) (pa n value : Nat) (k c : Option Nat) : (s.post pa n value k c).agenda = s.agenda := State.post_keeps (fun s => s.agenda) State.gate_agenda State.homeRange_agenda (State.postFails_keeps _ (fun _ _ _ => rfl) (fun _ _ => rfl)) (fun _ _ => rfl) (fun _ _ => rfl) s pa n value k c
@[simp] theorem State.post_freeN (s : State) (pa n value : Nat) (k c : Option Nat) : (s.post pa n value k c).freeN = s.freeN := State.post_keeps (fun s => s.freeN) State.gate_freeN State.homeRange_freeN (State.postFails_keeps _ (fun _ _ _ => rfl) (fun _ _ => rfl)) (fun _ _ => rfl) (fun _ _ => rfl) s pa n value k c
@[simp] theorem State.post_cur (s : State) (pa n value : Nat) (k c : Option Nat) : (s.post pa n value k c).cur = s.cur := State.post_keeps (fun s => s.cur) State.gate_cur State.homeRange_cur (State.postFails_keeps _ (fun _ _ _ => rfl) (fun _ _ => rfl)) (fun _ _ => rfl) (fun _ _ => rfl) s pa n value k c

@[simp] theorem State.flushPosted_strands (s : State) : (s.flushPosted).strands = s.strands := State.flushSome_keeps (fun s => s.strands) State.gate_strands State.homeRange_strands (State.postFails_keeps _ (fun _ _ _ => rfl) (fun _ _ => rfl)) (fun _ _ => rfl) (fun _ _ => rfl) _ s
@[simp] theorem State.flushPosted_cores (s : State) : (s.flushPosted).cores = s.cores := State.flushSome_keeps (fun s => s.cores) State.gate_cores State.homeRange_cores (State.postFails_keeps _ (fun _ _ _ => rfl) (fun _ _ => rfl)) (fun _ _ => rfl) (fun _ _ => rfl) _ s
@[simp] theorem State.flushPosted_contexts (s : State) : (s.flushPosted).contexts = s.contexts := State.flushSome_keeps (fun s => s.contexts) State.gate_contexts State.homeRange_contexts (State.postFails_keeps _ (fun _ _ _ => rfl) (fun _ _ => rfl)) (fun _ _ => rfl) (fun _ _ => rfl) _ s
@[simp] theorem State.flushPosted_shadows (s : State) : (s.flushPosted).shadows = s.shadows := State.flushSome_keeps (fun s => s.shadows) State.gate_shadows State.homeRange_shadows (State.postFails_keeps _ (fun _ _ _ => rfl) (fun _ _ => rfl)) (fun _ _ => rfl) (fun _ _ => rfl) _ s
@[simp] theorem State.flushPosted_nvm (s : State) : (s.flushPosted).nvm = s.nvm := State.flushSome_keeps (fun s => s.nvm) State.gate_nvm State.homeRange_nvm (State.postFails_keeps _ (fun _ _ _ => rfl) (fun _ _ => rfl)) (fun _ _ => rfl) (fun _ _ => rfl) _ s
@[simp] theorem State.flushPosted_nvmP (s : State) : (s.flushPosted).nvmP = s.nvmP := State.flushSome_keeps (fun s => s.nvmP) State.gate_nvmP State.homeRange_nvmP (State.postFails_keeps _ (fun _ _ _ => rfl) (fun _ _ => rfl)) (fun _ _ => rfl) (fun _ _ => rfl) _ s
@[simp] theorem State.flushPosted_gtime (s : State) : (s.flushPosted).gtime = s.gtime := State.flushSome_keeps (fun s => s.gtime) State.gate_gtime State.homeRange_gtime (State.postFails_keeps _ (fun _ _ _ => rfl) (fun _ _ => rfl)) (fun _ _ => rfl) (fun _ _ => rfl) _ s
@[simp] theorem State.flushPosted_agenda (s : State) : (s.flushPosted).agenda = s.agenda := State.flushSome_keeps (fun s => s.agenda) State.gate_agenda State.homeRange_agenda (State.postFails_keeps _ (fun _ _ _ => rfl) (fun _ _ => rfl)) (fun _ _ => rfl) (fun _ _ => rfl) _ s
@[simp] theorem State.flushPosted_freeN (s : State) : (s.flushPosted).freeN = s.freeN := State.flushSome_keeps (fun s => s.freeN) State.gate_freeN State.homeRange_freeN (State.postFails_keeps _ (fun _ _ _ => rfl) (fun _ _ => rfl)) (fun _ _ => rfl) (fun _ _ => rfl) _ s
@[simp] theorem State.flushPosted_cur (s : State) : (s.flushPosted).cur = s.cur := State.flushSome_keeps (fun s => s.cur) State.gate_cur State.homeRange_cur (State.postFails_keeps _ (fun _ _ _ => rfl) (fun _ _ => rfl)) (fun _ _ => rfl) (fun _ _ => rfl) _ s

/-! ## The queues that the device fills, and events -/

@[simp] theorem State.onQueue_strands (s : State) (k : Nat) (f : Queue → Queue) : (s.onQueue k f).strands = s.strands := rfl
@[simp] theorem State.onQueue_cores (s : State) (k : Nat) (f : Queue → Queue) : (s.onQueue k f).cores = s.cores := rfl
@[simp] theorem State.onQueue_clusters (s : State) (k : Nat) (f : Queue → Queue) : (s.onQueue k f).clusters = s.clusters := rfl
@[simp] theorem State.onQueue_dies (s : State) (k : Nat) (f : Queue → Queue) : (s.onQueue k f).dies = s.dies := rfl
@[simp] theorem State.onQueue_contexts (s : State) (k : Nat) (f : Queue → Queue) : (s.onQueue k f).contexts = s.contexts := rfl
@[simp] theorem State.onQueue_shadows (s : State) (k : Nat) (f : Queue → Queue) : (s.onQueue k f).shadows = s.shadows := rfl
@[simp] theorem State.onQueue_mem (s : State) (k : Nat) (f : Queue → Queue) : (s.onQueue k f).mem = s.mem := rfl
@[simp] theorem State.onQueue_memP (s : State) (k : Nat) (f : Queue → Queue) : (s.onQueue k f).memP = s.memP := rfl
@[simp] theorem State.onQueue_nvm (s : State) (k : Nat) (f : Queue → Queue) : (s.onQueue k f).nvm = s.nvm := rfl
@[simp] theorem State.onQueue_nvmP (s : State) (k : Nat) (f : Queue → Queue) : (s.onQueue k f).nvmP = s.nvmP := rfl
@[simp] theorem State.onQueue_badTag (s : State) (k : Nat) (f : Queue → Queue) : (s.onQueue k f).badTag = s.badTag := rfl
@[simp] theorem State.onQueue_version (s : State) (k : Nat) (f : Queue → Queue) : (s.onQueue k f).version = s.version := rfl
@[simp] theorem State.onQueue_gtime (s : State) (k : Nat) (f : Queue → Queue) : (s.onQueue k f).gtime = s.gtime := rfl
@[simp] theorem State.onQueue_agenda (s : State) (k : Nat) (f : Queue → Queue) : (s.onQueue k f).agenda = s.agenda := rfl
@[simp] theorem State.onQueue_freeN (s : State) (k : Nat) (f : Queue → Queue) : (s.onQueue k f).freeN = s.freeN := rfl
@[simp] theorem State.onQueue_cur (s : State) (k : Nat) (f : Queue → Queue) : (s.onQueue k f).cur = s.cur := rfl

@[simp] theorem State.deviceEntry_strands (s : State) (k value : Nat) : ((s.deviceEntry k value).1).strands = s.strands := by
  unfold State.deviceEntry; simp only; split <;> simp
@[simp] theorem State.deviceEntry_cores (s : State) (k value : Nat) : ((s.deviceEntry k value).1).cores = s.cores := by
  unfold State.deviceEntry; simp only; split <;> simp
@[simp] theorem State.deviceEntry_contexts (s : State) (k value : Nat) : ((s.deviceEntry k value).1).contexts = s.contexts := by
  unfold State.deviceEntry; simp only; split <;> simp
@[simp] theorem State.deviceEntry_shadows (s : State) (k value : Nat) : ((s.deviceEntry k value).1).shadows = s.shadows := by
  unfold State.deviceEntry; simp only; split <;> simp
@[simp] theorem State.deviceEntry_nvm (s : State) (k value : Nat) : ((s.deviceEntry k value).1).nvm = s.nvm := by
  unfold State.deviceEntry; simp only; split <;> simp
@[simp] theorem State.deviceEntry_nvmP (s : State) (k value : Nat) : ((s.deviceEntry k value).1).nvmP = s.nvmP := by
  unfold State.deviceEntry; simp only; split <;> simp
@[simp] theorem State.deviceEntry_gtime (s : State) (k value : Nat) : ((s.deviceEntry k value).1).gtime = s.gtime := by
  unfold State.deviceEntry; simp only; split <;> simp
@[simp] theorem State.deviceEntry_agenda (s : State) (k value : Nat) : ((s.deviceEntry k value).1).agenda = s.agenda := by
  unfold State.deviceEntry; simp only; split <;> simp
@[simp] theorem State.deviceEntry_freeN (s : State) (k value : Nat) : ((s.deviceEntry k value).1).freeN = s.freeN := by
  unfold State.deviceEntry; simp only; split <;> simp
@[simp] theorem State.deviceEntry_cur (s : State) (k value : Nat) : ((s.deviceEntry k value).1).cur = s.cur := by
  unfold State.deviceEntry; simp only; split <;> simp

@[simp] theorem State.event_strands (s : State) (kind die arg : Nat) : (s.event kind die arg).strands = s.strands := by
  unfold State.event; split
  · rfl
  · exact State.deviceEntry_strands s _ _
@[simp] theorem State.event_cores (s : State) (kind die arg : Nat) : (s.event kind die arg).cores = s.cores := by
  unfold State.event; split
  · rfl
  · exact State.deviceEntry_cores s _ _
@[simp] theorem State.event_contexts (s : State) (kind die arg : Nat) : (s.event kind die arg).contexts = s.contexts := by
  unfold State.event; split
  · rfl
  · exact State.deviceEntry_contexts s _ _
@[simp] theorem State.event_shadows (s : State) (kind die arg : Nat) : (s.event kind die arg).shadows = s.shadows := by
  unfold State.event; split
  · rfl
  · exact State.deviceEntry_shadows s _ _
@[simp] theorem State.event_nvm (s : State) (kind die arg : Nat) : (s.event kind die arg).nvm = s.nvm := by
  unfold State.event; split
  · rfl
  · exact State.deviceEntry_nvm s _ _
@[simp] theorem State.event_nvmP (s : State) (kind die arg : Nat) : (s.event kind die arg).nvmP = s.nvmP := by
  unfold State.event; split
  · rfl
  · exact State.deviceEntry_nvmP s _ _
@[simp] theorem State.event_gtime (s : State) (kind die arg : Nat) : (s.event kind die arg).gtime = s.gtime := by
  unfold State.event; split
  · rfl
  · exact State.deviceEntry_gtime s _ _
@[simp] theorem State.event_agenda (s : State) (kind die arg : Nat) : (s.event kind die arg).agenda = s.agenda := by
  unfold State.event; split
  · rfl
  · exact State.deviceEntry_agenda s _ _
@[simp] theorem State.event_freeN (s : State) (kind die arg : Nat) : (s.event kind die arg).freeN = s.freeN := by
  unfold State.event; split
  · rfl
  · exact State.deviceEntry_freeN s _ _
@[simp] theorem State.event_cur (s : State) (kind die arg : Nat) : (s.event kind die arg).cur = s.cur := by
  unfold State.event; split
  · rfl
  · exact State.deviceEntry_cur s _ _

@[simp] theorem State.queueErr_strands (s : State) (k : Nat) : (s.queueErr k).strands = s.strands := by
  simp [State.queueErr]
@[simp] theorem State.queueErr_cores (s : State) (k : Nat) : (s.queueErr k).cores = s.cores := by
  simp [State.queueErr]
@[simp] theorem State.queueErr_contexts (s : State) (k : Nat) : (s.queueErr k).contexts = s.contexts := by
  simp [State.queueErr]
@[simp] theorem State.queueErr_shadows (s : State) (k : Nat) : (s.queueErr k).shadows = s.shadows := by
  simp [State.queueErr]
@[simp] theorem State.queueErr_nvm (s : State) (k : Nat) : (s.queueErr k).nvm = s.nvm := by
  simp [State.queueErr]
@[simp] theorem State.queueErr_nvmP (s : State) (k : Nat) : (s.queueErr k).nvmP = s.nvmP := by
  simp [State.queueErr]
@[simp] theorem State.queueErr_gtime (s : State) (k : Nat) : (s.queueErr k).gtime = s.gtime := by
  simp [State.queueErr]
@[simp] theorem State.queueErr_agenda (s : State) (k : Nat) : (s.queueErr k).agenda = s.agenda := by
  simp [State.queueErr]
@[simp] theorem State.queueErr_freeN (s : State) (k : Nat) : (s.queueErr k).freeN = s.freeN := by
  simp [State.queueErr]
@[simp] theorem State.queueErr_cur (s : State) (k : Nat) : (s.queueErr k).cur = s.cur := by
  simp [State.queueErr]

/-! ## What else of the package and of a die changes -/

/-- Everything of the package but the host lines' states, the requests for them, the writes that wait for them, the queues' indices, the
signals sent, and the counts and failures of the stacks. -/
def Package.rest (p : Package) : Package := { p with lines := [], cxlReqs := [], posted := [], queues := [], msix := 0, hbm := [], failed := [] }
@[simp] theorem State.setLine_rest (s : State) (l : Nat) (x : Mesi) : (s.setLine l x).pkg.rest = s.pkg.rest := rfl
@[simp] theorem State.askLine_rest (s : State) (l : Nat) (own : Bool) : (s.askLine l own).pkg.rest = s.pkg.rest := by
  unfold State.askLine; split <;> rfl
theorem Package.passed_rest (p : Package) (k : Option Nat) : (p.passed k).rest = p.rest := by
  unfold Package.passed; split
  · rfl
  · simp only; split <;> rfl
/-- What an access to the home meets changes only lines and requests of the package. -/
theorem State.gateAt_rest (s : State) (q n : Nat) (write : Bool) : (s.gateAt q n write).1.pkg.rest = s.pkg.rest :=
  State.gateAt_keeps (fun s => s.pkg.rest) State.setLine_rest State.askLine_rest (fun s l o => by rw [State.askBisnp_pkg]) s q n write
theorem State.gate_rest (s : State) (pa n : Nat) (write : Bool) : (s.gate pa n write).1.pkg.rest = s.pkg.rest :=
  State.gate_keeps (fun s => s.pkg.rest) State.gateAt_rest (fun s k => by rw [State.recall_pkg]) s pa n write
/-- A device agent's write changes no more of the package. -/
theorem State.post_rest (s : State) (pa n value : Nat) (k c : Option Nat) : (s.post pa n value k c).pkg.rest = s.pkg.rest :=
  State.post_keeps (fun s => s.pkg.rest) State.gate_rest (fun s _ _ _ _ _ => by rw [State.homeRange_pkg])
    (State.postFails_keeps (fun s => s.pkg.rest) (fun _ _ _ => rfl) (fun _ _ => rfl))
    (fun s q => Package.passed_rest s.pkg q) (fun _ _ => rfl) s pa n value k c
theorem State.flushPosted_rest (s : State) : s.flushPosted.pkg.rest = s.pkg.rest :=
  State.flushSome_keeps (fun s => s.pkg.rest) State.gate_rest (fun s _ _ _ _ _ => by rw [State.homeRange_pkg])
    (State.postFails_keeps (fun s => s.pkg.rest) (fun _ _ _ => rfl) (fun _ _ => rfl))
    (fun s q => Package.passed_rest s.pkg q) (fun _ _ => rfl) _ s
/-- Two packages that agree in the rest agree in every register outside it. -/
theorem Package.rest_eq {p q : Package} (h : p.rest = q.rest) :
    p.viral = q.viral ∧ p.keys = q.keys ∧ p.domains = q.domains ∧ p.remap = q.remap ∧ p.migs = q.migs ∧
      p.gs = q.gs ∧ p.hpool = q.hpool ∧ p.ppool = q.ppool ∧ p.fences = q.fences ∧ p.peers = q.peers ∧ p.reply = q.reply ∧
      p.fqWait = q.fqWait ∧ p.vreason = q.vreason ∧ p.trowel = q.trowel := by
  simp only [Package.rest, Package.mk.injEq] at h
  tauto
/-- Everything of a die but what Kiln holds and lacks and the back-invalidations on their way. -/
def Die.rest (x : Die) : Die := { x with images := [], nvLost := [], bisnp := [] }
theorem Die.enter_rest (x : Die) (im : KilnImage) : (x.enter im).rest = x.rest := by
  unfold Die.enter; simp only; split <;> rfl
/-- A change of one die that keeps a part of it keeps that part of every die. -/
theorem State.onDie_part {γ : Type} (p : Die → γ) (s : State) (i : Nat) (f : Die → Die) (hf : ∀ x, p (f x) = p x) (d : Nat) :
    p ((s.onDie i f).die d) = p (s.die d) := by
  by_cases h : d = i
  · subst h; simp [State.onDie, State.setDie, State.die, hf]
  · simp [State.onDie, State.setDie, State.die, look_upd_other _ _ _ h]
theorem State.recall_die (s : State) (sec d : Nat) : ((s.recall sec).die d).rest = (s.die d).rest :=
  State.recall_keeps (fun s => (s.die d).rest) (fun _ _ => rfl) (fun s _ _ _ _ _ => by simp only [State.die, State.cellWrite_dies])
    (fun _ _ => rfl) (fun s i im => State.onDie_part Die.rest s i _ (fun x => Die.enter_rest x im) d) s sec
theorem State.rawWrite_die (s : State) (q n mask value : Nat) (poison : Bool) (store : Option StoreId) (d : Nat) :
    ((s.rawWrite q n mask value poison store).die d).rest = (s.die d).rest := by
  have h0 : (((s.recall (q / 128)).cellWrite q n mask value poison).die d).rest = (s.die d).rest := by
    have := State.recall_die s (q / 128) d
    simpa only [State.die, State.cellWrite_dies] using this
  unfold State.rawWrite
  simp only
  split
  · rw [State.onDie_part Die.rest _ _ _ (fun x => Die.enter_rest x _), h0]
  · rw [h0]
theorem State.homeRange_die (s : State) (pa n value : Nat) (poison : Bool) (store : Option StoreId) (d : Nat) :
    ((s.homeRange pa n value poison store).die d).rest = (s.die d).rest :=
  foldl_proj (fun s => (s.die d).rest) _ (fun s _ => State.rawWrite_die s _ _ _ _ _ _ d) _ _
theorem State.askBisnp_die (s : State) (l : Nat) (inv : Bool) (d : Nat) : ((s.askBisnp l inv).die d).rest = (s.die d).rest := by
  unfold State.askBisnp; split
  · rfl
  · exact State.onDie_part Die.rest s _ _ (fun x => by split <;> rfl) d
theorem State.gateAt_die (s : State) (q n : Nat) (write : Bool) (d : Nat) : ((s.gateAt q n write).1.die d).rest = (s.die d).rest :=
  State.gateAt_keeps (fun s => (s.die d).rest) (fun _ _ _ => rfl) (fun s l o => by simp only [State.die, State.askLine_dies])
    (fun s l o => State.askBisnp_die s l o d) s q n write
theorem State.gate_die (s : State) (pa n : Nat) (write : Bool) (d : Nat) : ((s.gate pa n write).1.die d).rest = (s.die d).rest :=
  State.gate_keeps (fun s => (s.die d).rest) (fun s q n w => State.gateAt_die s q n w d) (fun s k => State.recall_die s k d) s pa n write
theorem State.post_die (s : State) (pa n value : Nat) (k c : Option Nat) (d : Nat) : ((s.post pa n value k c).die d).rest = (s.die d).rest :=
  State.post_keeps (fun s => (s.die d).rest) (fun s q n w => State.gate_die s q n w d) (fun s pa n v b i => State.homeRange_die s pa n v b i d)
    (State.postFails_keeps (fun s => (s.die d).rest) (fun _ _ _ => rfl) (fun _ _ => rfl)) (fun _ _ => rfl) (fun _ _ => rfl) s pa n value k c

end Sys2Proof.Machine
end

