-- ==== Sys2Proof/Laws/Host.lean ====
section
/-! SUPPORT. What serving the head of a host queue does, once for every command and request: the entry reaches its action, and what its
completion leaves. -/

namespace Sys2Proof.Machine

/-- An entry that can be served reaches its action (R436). -/
theorem takeEntry_serves {s : State} {k off v : Nat} {mine : Nat → Bool → Bool}
    {act : State → Nat → Bool → Nat → Host.Outcome State Fault Refusal} (h : Serves s k off v) (hm : mine v false = true) :
    s.takeEntry k off mine act = act s v false (byts v off 8) := by
  obtain ⟨h1, h2, h3⟩ := h
  simp only [State.takeEntry, h1, h2, hm, h3, Bool.not_true, Bool.false_eq_true, if_false]
/-- A command in plain form that this step takes reaches its action with its handle judged (R344). -/
theorem serveCq_serves {s : State} {v : Nat} {mine : Nat → Bool → Bool} {act : State → Cmd → CmdEnd} (hb : s.cqBusy = false)
    (h : Serves s 1 16 v) (hm : mine (byts v 0 1) false = true) (h0 : 1 ≤ byts v 0 1) (h7 : byts v 0 1 ≤ 7) (h1 : byts v 1 3 = 0)
    (h2 : byts v 24 40 = 0) (ha : (parseCmd v).badArg = false) :
    s.serveCq mine act = if byts v 0 1 ≠ 1 ∧ s.liveHandle (byts v 4 4) = false then
        .next (s.completion 1 (byts v 16 8) 1 (byts v 4 4))
      else match act s (parseCmd v) with
        | .done s1 st n => .next (s1.completion 1 (byts v 16 8) st n)
        | .begun s1 => .next s1
        | .wait s1 => s.waiting s1
        | .stuck => .refused .notEnabled := by
  unfold State.serveCq
  rw [if_neg (by simp [hb]), takeEntry_serves (mine := fun v poison => mine (byts v 0 1) poison) h hm]
  have e0 : ¬ byts v 0 1 = 0 := by omega
  have e7 : ¬ byts v 0 1 > 7 := by omega
  simp only [ha]
  by_cases hl : byts v 0 1 = 1 <;> cases hh : s.liveHandle (byts v 4 4) <;> simp [parseCmd, e0, e7, h1, h2, hl, hh] <;> rfl
/-- A request in plain form that this step takes ends with its completion (R329, R330, R437). -/
theorem serveIq_serves {s : State} {v : Nat} {mine : Nat → Bool → Bool} {cover : Nat → Option Cover} (h : Serves s 3 24 v)
    (hm : mine v false = true) (h0 : 1 ≤ byts v 0 1) (h4 : byts v 0 1 ≤ 4) (hf : iqFields v = true) :
    s.serveIq mine cover = match cover v with
      | some c => if s.drainedFor c && !s.invalidating && s.canRecallAll then .next ((((s.recallAll).dropCover c).walkAll).completion 3 (byts v 24 8) 0 0)
        else .refused .notEnabled
      | none => .next (({ s with cores := s.cores.map (fun p => (p.1, { p.2 with icache := [] })) } : State).completion 3 (byts v 24 8) 0 0) := by
  unfold State.serveIq
  rw [takeEntry_serves (mine := mine) h hm]
  have e0 : ¬ byts v 0 1 = 0 := by omega
  have e4 : ¬ byts v 0 1 > 4 := by omega
  simp [e0, e4, hf] <;> rfl

/-! ## Completions -/

/-- CONS passes the oldest entry, at once where the completion has no address, otherwise once its write is performed (R436). -/
theorem State.completion_keeps {γ : Type} (p : State → γ) (h1 : ∀ s k, p (s.passEntry k) = p s)
    (h2 : ∀ s pa n v k c, p (s.post pa n v k c) = p s) (s : State) (k compl status handle : Nat) :
    p (s.completion k compl status handle) = p s := by
  unfold State.completion; split
  · exact h1 s k
  · exact h2 s _ _ _ _ _
@[simp] theorem State.passEntry_strands (s : State) (k : Nat) : (s.passEntry k).strands = s.strands := rfl
@[simp] theorem State.passEntry_cores (s : State) (k : Nat) : (s.passEntry k).cores = s.cores := rfl
@[simp] theorem State.passEntry_contexts (s : State) (k : Nat) : (s.passEntry k).contexts = s.contexts := rfl
@[simp] theorem State.passEntry_shadows (s : State) (k : Nat) : (s.passEntry k).shadows = s.shadows := rfl
@[simp] theorem State.passEntry_nvm (s : State) (k : Nat) : (s.passEntry k).nvm = s.nvm := rfl
@[simp] theorem State.passEntry_nvmP (s : State) (k : Nat) : (s.passEntry k).nvmP = s.nvmP := rfl
@[simp] theorem State.passEntry_gtime (s : State) (k : Nat) : (s.passEntry k).gtime = s.gtime := rfl
@[simp] theorem State.passEntry_agenda (s : State) (k : Nat) : (s.passEntry k).agenda = s.agenda := rfl
@[simp] theorem State.passEntry_freeN (s : State) (k : Nat) : (s.passEntry k).freeN = s.freeN := rfl
@[simp] theorem State.passEntry_cur (s : State) (k : Nat) : (s.passEntry k).cur = s.cur := rfl
@[simp] theorem State.passEntry_dies (s : State) (k : Nat) : (s.passEntry k).dies = s.dies := rfl
@[simp] theorem State.passEntry_clusters (s : State) (k : Nat) : (s.passEntry k).clusters = s.clusters := rfl
@[simp] theorem State.passEntry_mem (s : State) (k : Nat) : (s.passEntry k).mem = s.mem := rfl
@[simp] theorem State.completion_strands (s : State) (k compl status handle : Nat) : (s.completion k compl status handle).strands = s.strands :=
  State.completion_keeps (fun s => s.strands) (fun _ _ => rfl) State.post_strands s k compl status handle
@[simp] theorem State.completion_cores (s : State) (k compl status handle : Nat) : (s.completion k compl status handle).cores = s.cores :=
  State.completion_keeps (fun s => s.cores) (fun _ _ => rfl) State.post_cores s k compl status handle
@[simp] theorem State.completion_contexts (s : State) (k compl status handle : Nat) : (s.completion k compl status handle).contexts = s.contexts :=
  State.completion_keeps (fun s => s.contexts) (fun _ _ => rfl) State.post_contexts s k compl status handle
@[simp] theorem State.completion_shadows (s : State) (k compl status handle : Nat) : (s.completion k compl status handle).shadows = s.shadows :=
  State.completion_keeps (fun s => s.shadows) (fun _ _ => rfl) State.post_shadows s k compl status handle
@[simp] theorem State.completion_nvm (s : State) (k compl status handle : Nat) : (s.completion k compl status handle).nvm = s.nvm :=
  State.completion_keeps (fun s => s.nvm) (fun _ _ => rfl) State.post_nvm s k compl status handle
@[simp] theorem State.completion_nvmP (s : State) (k compl status handle : Nat) : (s.completion k compl status handle).nvmP = s.nvmP :=
  State.completion_keeps (fun s => s.nvmP) (fun _ _ => rfl) State.post_nvmP s k compl status handle
@[simp] theorem State.completion_gtime (s : State) (k compl status handle : Nat) : (s.completion k compl status handle).gtime = s.gtime :=
  State.completion_keeps (fun s => s.gtime) (fun _ _ => rfl) State.post_gtime s k compl status handle
@[simp] theorem State.completion_agenda (s : State) (k compl status handle : Nat) : (s.completion k compl status handle).agenda = s.agenda :=
  State.completion_keeps (fun s => s.agenda) (fun _ _ => rfl) State.post_agenda s k compl status handle
@[simp] theorem State.completion_freeN (s : State) (k compl status handle : Nat) : (s.completion k compl status handle).freeN = s.freeN :=
  State.completion_keeps (fun s => s.freeN) (fun _ _ => rfl) State.post_freeN s k compl status handle
@[simp] theorem State.completion_cur (s : State) (k compl status handle : Nat) : (s.completion k compl status handle).cur = s.cur :=
  State.completion_keeps (fun s => s.cur) (fun _ _ => rfl) State.post_cur s k compl status handle
/-- A completion changes only lines, requests and queues of the package. -/
theorem State.completion_rest (s : State) (k compl status handle : Nat) : (s.completion k compl status handle).pkg.rest = s.pkg.rest :=
  State.completion_keeps (fun s => s.pkg.rest) (fun _ _ => rfl) State.post_rest s k compl status handle
theorem State.completion_die (s : State) (k compl status handle d : Nat) :
    ((s.completion k compl status handle).die d).rest = (s.die d).rest :=
  State.completion_keeps (fun s => (s.die d).rest) (fun _ _ => rfl) (fun s pa n v k c => State.post_die s pa n v k c d) s k compl status handle
/-- CONS has passed the entry (R436). -/
theorem State.passEntry_cons (s : State) (k : Nat) : ((s.passEntry k).pkg.queue k).cons = (s.pkg.queue k).cons + 1 := by
  simp [State.passEntry, State.onQueue, State.onPkg, Package.setQueue, Package.queue]

end Sys2Proof.Machine
end

