-- ==== Sys2Proof/Laws/Issue.lean ====
section
/-! SUPPORT. What the issue of one operation alone in its bundle does, once for every slot operation. -/

namespace Sys2Proof.Machine

@[simp] theorem strand_setStrand_same (s : State) (n : Nat) (st : Strand) : (s.setStrand n st).strand n = st := by
  simp [State.strand, State.setStrand]
theorem strand_setStrand_other (s : State) {m n : Nat} (st : Strand) (h : m ≠ n) : (s.setStrand n st).strand m = s.strand m := by
  simp [State.strand, State.setStrand, look_upd_other _ _ _ h]
@[simp] theorem core_setCore_same (s : State) (c : Nat) (x : Core) : (s.setCore c x).core c = x := by
  simp [State.core, State.setCore]
theorem core_setCore_other (s : State) {b c : Nat} (x : Core) (h : b ≠ c) : (s.setCore c x).core b = s.core b := by
  simp [State.core, State.setCore, look_upd_other _ _ _ h]

@[simp] theorem setStrand_setStrand (s : State) (n : Nat) (a b : Strand) : (s.setStrand n a).setStrand n b = s.setStrand n b := by
  simp [State.setStrand]
@[simp] theorem setCore_setCore (s : State) (c : Nat) (a b : Core) : (s.setCore c a).setCore c b = s.setCore c b := by
  simp [State.setCore]

/-- The iteration of one operation alone in its bundle. -/
def oneIter (i : Instr) (n : Nat) (sl : Slot) : Iter := ⟨n, 0, bundleLen i, 0, true, false, [(sl, .ok i)]⟩
theorem executing_one (i : Instr) (sl : Slot) (eng : SMap Engine) (heng : eng = []) :
    executing eng true [(sl, .ok i)] = [⟨sl, .ok i, none⟩] := by
  subst heng
  cases sl <;> simp [executing, slots, slotExec, find?, sticky]

theorem oneIter_execs (i : Instr) (s : State) (n : Nat) (sl : Slot) (heng : (s.strand n).eng = []) :
    (oneIter i n sl).execs s = [⟨sl, .ok i, none⟩] := by
  simp only [Iter.execs, Iter.seen, oneIter]
  exact executing_one i sl _ (by simpa using heng)

theorem counted_strand (s : State) (n m : Nat) : (counted s n).strand m = s.strand m := rfl

theorem oneIter_env (i : Instr) (s : State) (n : Nat) (sl : Slot) :
    (oneIter i n sl).env (counted s n) .miss ⟨sl, .ok i, none⟩ = oneEnv i s n sl := rfl

theorem oneIter_acts (i : Instr) (s : State) (n : Nat) (sl : Slot) (heng : (s.strand n).eng = []) :
    (oneIter i n sl).acts (counted s n) .miss = [⟨sl, i, opOf i (oneEnv i s n sl)⟩] := by
  rw [Iter.acts, oneIter_execs i (counted s n) n sl heng]; rfl

/-- What an iteration of one action needs to meet no trap and to block nowhere. -/
structure Clear (st : Strand) (a : Act) : Prop where
  own : a.own = none
  early : a.early = none
  trap : a.trap = none
  block : a.block = none
  mark : a.mark = none
  room : st.inFlight a.results ≤ 16
  twice : twice a.dests = false
  jump : a.ctl = .seq ∨ st.delay = none
  reads : ∀ r ∈ a.reads, st.pending r = false ∧ st.poisoned r = false
  writes : ∀ r ∈ a.vdest.toList ++ a.dests.map (fun d => d.1), st.pending r = false
  bar : st.barWait = none
  loads : a.loadEnt = 0 ∨ st.loadQ.length + a.loadEnt ≤ 64
  stores : a.storeEnt = 0 ∨ st.storeQ.length + a.storeEnt ≤ 64

/-- The effects of one action, before what follows the commit. -/
def landed (i : Instr) (s : State) (n : Nat) (sl : Slot) (a : Act) : State :=
  ((a.commit ((counted s n).setStrand n { s.strand n with
      eng := engines [] [⟨sl, i, a⟩], walk := none, barWait := none })).onStrand n
    (fun st => { st with pipe := st.pipe ++ a.results : Strand }.cycle)).onStrand n
    (fun st => st.advance (oneIter i n sl) a.ctl [] (holds a.post))

theorem unpaired_one (x : Acted) (h : x.act.mark = none) : unpaired [x] = none := by
  cases hs : x.sl <;> simp [unpaired, actIn, hs, h]
theorem portClash_one (x : Acted) (h : x.act.early = none) : portClash [x] = none := by
  cases hs : x.sl <;> simp [portClash, actIn, hs, h]
theorem commitOrder_one (x : Acted) : commitOrder [x] = [x] := by
  cases h : x.signals <;> simp [commitOrder, h]
theorem ctlOf_one (x : Acted) : ctlOf [x] = x.act.ctl := rfl
theorem postOf_one (x : Acted) : postOf [x] = x.act.post := by
  simp only [postOf, List.findSome?]; cases x.act.post <;> rfl

theorem abortClash_one (it : Iter) (s : State) (sl : Slot) (i : Instr) (a : Option Word) :
    abortClash it s [⟨sl, .ok i, a⟩] i = none := by
  unfold abortClash; split <;> rfl
/-- One operation alone in its bundle that meets no trap and does not block commits its action. -/
theorem issueOne_commit {i : Instr} {s : State} {n : Nat} {sl : Slot} (hv : s.pkg.viral = false)
    (ha : s.activeOf s.cur = some n) (heng : (s.strand n).eng = []) (hsl : slotOf i = some sl) (hc : check i = none)
    (hcall : callsIn [(sl, .ok i)] = false) (h : Clear (s.strand n) (opOf i (oneEnv i s n sl))) :
    issueOne i s = .next ((oneIter i n sl).follow (landed i s n sl (opOf i (oneEnv i s n sl)))
      (opOf i (oneEnv i s n sl)).post) := by
  have hacts := oneIter_acts i s n sl heng
  have hex := oneIter_execs i (counted s n) n sl heng
  set a := opOf i (oneEnv i s n sl) with hadef
  have htrap : (oneIter i n sl).trap (counted s n) .miss = none := by
    have hil : illegal (oneIter i n sl) (counted s n) .miss = none := by
      rw [illegal, hex]
      simp only [List.findSome?, oneIter_env]
      rw [← hadef, h.own, abortClash_one]; rfl
    have hrule : bundleRule (oneIter i n sl) (counted s n) [⟨sl, i, a⟩] = none := by
      have hr := h.room
      have ht := h.twice
      simp only [bundleRule, oneIter, counted_strand, List.flatMap_cons, List.flatMap_nil, List.append_nil, List.any_cons,
        List.any_nil, Bool.or_false, ht]
      rw [if_neg (by omega)]
      rcases h.jump with hj | hj <;> simp [hj, isTransfer]
    have hpend : pendingTrap (s.strand n) [⟨sl, i, a⟩] = none := by
      have h1 : a.reads.any (s.strand n).pending = false := by
        simp only [List.any_eq_false]; intro r hr; simp [(h.reads r hr).1]
      have h2 : (a.vdest.toList ++ a.dests.map (fun d => d.1)).any (s.strand n).pending = false := by
        simp only [List.any_eq_false]; intro r hr; simp [h.writes r hr]
      simp [pendingTrap, List.findSome?, h1, h2]
    have hpois : poisonTrap (s.strand n) [⟨sl, i, a⟩] = none := by
      have h1 : a.reads.any (s.strand n).poisoned = false := by
        simp only [List.any_eq_false]; intro r hr; simp [(h.reads r hr).2]
      simp [poisonTrap, List.findSome?, h1]
    rw [Iter.trap, hil, hacts]
    simp only [counted_strand]
    have e : (oneIter i n sl).n = n := rfl
    rw [e, hrule, unpaired_one _ h.mark, portClash_one _ h.early, hpend, hpois]
    simp [List.findSome?, h.trap]
  have hblk : (oneIter i n sl).blocked (counted s n) [⟨sl, i, a⟩] = none := by
    have e : (oneIter i n sl).n = n := rfl
    simp only [Iter.blocked, e, counted_strand, h.bar, List.findSome?, h.block, List.map_cons, List.map_nil, List.sum_cons,
      List.sum_nil]
    have := h.loads
    have := h.stores
    simp
    rw [if_neg (by omega), if_neg (by omega)]
  have hatt : (oneIter i n sl).attempt s [] =
      (oneIter i n sl).follow (landed i s n sl a) a.post := by
    have e : (oneIter i n sl).n = n := rfl
    have e2 : (oneIter i n sl).ops = [(sl, .ok i)] := rfl
    simp only [Iter.attempt, hv, e2, hcall, e]
    rw [if_neg (by simp)]
    simp only [Bool.false_eq_true, if_false]
    change (match (oneIter i n sl).trap (counted s n) .miss with | some t => _ | none => _) = _
    rw [htrap]
    simp only
    have hacts' : (oneIter i n sl).acts (s.onCore (n / 8) (fun co => { co with count := co.count + 1 })) .miss = [⟨sl, i, a⟩] := hacts
    have hblk' : (oneIter i n sl).blocked (s.onCore (n / 8) (fun co => { co with count := co.count + 1 })) [⟨sl, i, a⟩] = none := hblk
    rw [hacts', hblk']
    simp only [Iter.commit, postOf_one, ctlOf_one, e]
    congr 1
    have hb : ((counted s n).strand n).barWait = none := h.bar
    have hseen : (oneIter i n sl).seen (counted s n) = s.strand n := by
      simp [Iter.seen, oneIter, counted_strand]
    simp only [landed, Iter.effects, e, commitOrder_one, List.foldl_cons, List.foldl_nil, List.flatMap_cons, List.flatMap_nil,
      List.append_nil]
    have hseen' : (oneIter i n sl).seen (s.onCore (n / 8) (fun co => { co with count := co.count + 1 })) = s.strand n := hseen
    rw [hseen', h.bar, heng]
    rfl
  simp only [issueOne, ha, hsl, hc]
  exact congrArg _ hatt

theorem advance_onward (st : Strand) (i : Instr) (n : Nat) (sl : Slot) (ctl : Ctl) (j : Option Delay)
    (h : j = match ctl with | .seq => none | .jump b t => some (if b then .taken t else .notTaken) | .rte => some .ret) :
    st.advance (oneIter i n sl) ctl [] false = st.onward (bundleLen i) j := by
  subst h
  simp only [Strand.advance, Strand.onward, oneIter]
  rcases st.delay with _ | (_ | _ | _) <;> cases ctl <;> rfl

/-- An operation of a slot without a sticky engine that nothing follows. -/
theorem issueOne_issued {i : Instr} {s : State} {n : Nat} {sl : Slot} (hv : s.pkg.viral = false)
    (ha : s.activeOf s.cur = some n) (heng : (s.strand n).eng = []) (hsl : slotOf i = some sl) (hc : check i = none)
    (hcall : callsIn [(sl, .ok i)] = false) (h : Clear (s.strand n) (opOf i (oneEnv i s n sl))) (hst : sticky sl = false)
    (hp : (opOf i (oneEnv i s n sl)).post = none) {j : Option Delay}
    (hj : j = match (opOf i (oneEnv i s n sl)).ctl with
      | .seq => none | .jump b t => some (if b then .taken t else .notTaken) | .rte => some .ret) :
    issueOne i s = .next (s.issued n (bundleLen i) (opOf i (oneEnv i s n sl)).results (opOf i (oneEnv i s n sl)).commit j) := by
  rw [issueOne_commit hv ha heng hsl hc hcall h, hp]
  have hn : (oneIter i n sl).n = n := rfl
  simp only [Iter.follow, landed, hp, holds, advance_onward _ _ _ _ _ j hj]
  have heq : ({ s.strand n with
      eng := engines [] [⟨sl, i, opOf i (oneEnv i s n sl)⟩], walk := none, barWait := none } : Strand) =
      { s.strand n with walk := none } := by
    have h1 := h.bar
    generalize s.strand n = st at *
    cases st
    simp_all [engines]
  rw [heq]
  simp only [State.issued, State.onStrand, strand_setStrand_same, setStrand_setStrand, counted]
  rfl

/-- What a bundle of one operation with exposed-latency results needs. -/
theorem Issues.clear {s : State} {n : Nat} {reads writes : List Reg} {more : Nat} {a : Act} (h : Issues s n reads writes more)
    (hr : ∀ r ∈ a.reads, r ∈ reads) (hw : ∀ r ∈ a.vdest.toList ++ a.dests.map (fun d => d.1), r ∈ writes)
    (own : a.own = none) (early : a.early = none) (trap : a.trap = none) (block : a.block = none) (mark : a.mark = none)
    (room : (a.results.filter (fun r => r.cnt > 1)).length ≤ more) (twice : twice a.dests = false) (ctl : a.ctl = .seq)
    (loads : a.loadEnt = 0) (stores : a.storeEnt = 0) : Clear (s.strand n) a := by
  obtain ⟨_, _, _, hb, hroom, hrd, hwr⟩ := h
  refine ⟨own, early, trap, block, mark, ?_, twice, .inl ctl, fun r hr' => hrd r (hr r hr'), fun r hr' => hwr r (hw r hr'), hb,
    .inl loads, .inl stores⟩
  simp only [Strand.inFlight, List.append_nil, List.filter_append, List.length_append] at hroom ⊢
  omega

/-- An operation whose one result has an exposed latency delivers it (R21, R77). -/
theorem one_issued {i : Instr} {s : State} {n : Nat} {sl : Slot} {reads rd : List Reg} {d : Reg} {l v fl : Nat}
    (h : Issues s n rd [d] (late l)) (hw : WellFormed i = true) (hsl : slotOf i = some sl) (hst : sticky sl = false)
    (hcall : callsIn [(sl, .ok i)] = false)
    (hop : opOf i (oneEnv i s n sl) = one (oneEnv i s n sl) reads d l v fl)
    (hrd : ∀ r ∈ reads, r ∈ rd ∨ ((s.strand n).pending r = false ∧ (s.strand n).poisoned r = false)) :
    issueOne i s = .next (s.issued n (bundleLen i) [mkResult (oneEnv i s n sl) d l v (flags := fl)]) := by
  have hc : check i = none := by
    simp only [WellFormed, Bool.and_eq_true, Option.isNone_iff_eq_none] at hw; exact hw.1
  have hcl : Clear (s.strand n) (opOf i (oneEnv i s n sl)) := by
    rw [hop]
    obtain ⟨_, _, _, hb, hroom, hr, hwr⟩ := h
    refine ⟨rfl, rfl, rfl, rfl, rfl, ?_, by simp [one, twice], .inl rfl, fun r hr' => ?_, fun r hr' => hwr r ?_, hb, .inl rfl, .inl rfl⟩
    · simp only [Strand.inFlight, List.append_nil, List.filter_append, List.length_append, one, mkResult, List.filter_cons,
        List.filter_nil, late] at hroom ⊢
      split <;> split at hroom <;> simp_all
      all_goals omega
    · exact (hrd r hr').elim (hr r) id
    · simpa [one] using hr'
  rw [issueOne_issued h.1 h.2.1 h.2.2.1 hsl hc hcall hcl hst (by rw [hop]; rfl) (j := none) (by rw [hop]; rfl), hop]; rfl

end Sys2Proof.Machine
end

