-- ==== Sys2Proof/Laws/Memory.lean ====
section
/-! SUPPORT. Memory: every operation over it keeps its canonical form (log 2), and what a write leaves alone. -/

namespace Sys2Proof.Machine

/-- Memory after reset has its canonical form. -/
theorem reset_wf : Memory.wf State.reset.mem := rfl

@[simp] theorem dropCopies_mem (s : State) (p : Nat) : (s.dropCopies p).mem = s.mem := rfl

/-! ## Writes keep the form -/

/-- A write of masked bytes. -/
theorem cellWrite_wf (s : State) (pa n mask value : Nat) (poison : Bool) (h : Memory.wf s.mem) :
    Memory.wf (s.cellWrite pa n mask value poison).mem := by
  unfold State.cellWrite
  simp only
  split
  · exact h
  · exact loop_keeps (fun m => canon 0 m = true) _ (fun i m hm => by split; exacts [canon_put 0 m _ _ hm, hm]) _ _ _ h
/-- A sector that an atomic engine gives back. -/
theorem recall_wf (s : State) (sec : Nat) (h : Memory.wf s.mem) : Memory.wf (s.recall sec).mem := by
  unfold State.recall
  split
  · exact h
  · simp only
    split
    · exact h
    · split <;> exact cellWrite_wf _ _ _ _ _ _ h
theorem recallPage_wf (s : State) (page : Nat) (h : Memory.wf s.mem) : Memory.wf (s.recallPage page).mem :=
  foldl_keeps (fun s : State => Memory.wf s.mem) State.recall (fun s k hs => recall_wf s k hs) _ _ h
/-- A write at a very address, at the home, and of a range. -/
theorem rawWrite_wf (s : State) (q n mask value : Nat) (poison : Bool) (store : Option StoreId) (h : Memory.wf s.mem) :
    Memory.wf (s.rawWrite q n mask value poison store).mem := by
  unfold State.rawWrite
  simp only
  split
  · exact cellWrite_wf _ _ _ _ _ _ (recall_wf s _ h)
  · exact cellWrite_wf _ _ _ _ _ _ (recall_wf s _ h)
theorem homeWrite_wf (s : State) (pa n mask value : Nat) (poison : Bool) (store : Option StoreId) (h : Memory.wf s.mem) :
    Memory.wf (s.homeWrite pa n mask value poison store).mem := rawWrite_wf s _ n mask value poison store h
theorem homeRange_wf (s : State) (pa n value : Nat) (poison : Bool) (store : Option StoreId) (h : Memory.wf s.mem) :
    Memory.wf (s.homeRange pa n value poison store).mem :=
  foldl_keeps (fun s : State => Memory.wf s.mem) _ (fun s _ hs => homeWrite_wf s _ _ _ _ _ _ hs) _ _ h
/-- One write of pieces of a sector. -/
theorem rawPieces_wf (s : State) (sec : Nat) (ps : List (Nat × Nat × Nat × Bool)) (store : Option StoreId) (h : Memory.wf s.mem) :
    Memory.wf (s.rawPieces sec ps store).mem := by
  have h1 := foldl_keeps (fun s : State => Memory.wf s.mem) (fun (s : State) (p : Nat × Nat × Nat × Bool) =>
    s.cellWrite (128 * sec + p.1) p.2.1 (2 ^ p.2.1 - 1) p.2.2.1 p.2.2.2) (fun s _ hs => cellWrite_wf s _ _ _ _ _ hs) ps
    ({ s.recall sec with badTag := put false (s.recall sec).badTag sec false }) (recall_wf s sec h)
  unfold State.rawPieces; simp only; split <;> exact h1
/-- What a gate recalls and asks keeps the form. -/
theorem gateRaw_wf (s : State) (q n : Nat) (write : Bool) (h : Memory.wf s.mem) : Memory.wf (s.gateRaw q n write).1.mem := by
  have hg := State.gateAt_mem s q n write
  unfold State.gateRaw; split
  · next s1 e =>
    rw [e] at hg
    have h1 : Memory.wf s1.mem := hg ▸ h
    unfold State.recallAt; split
    · next s2 e2 =>
      split at e2
      · cases e2; exact foldl_keeps (fun s : State => Memory.wf s.mem) State.recall recall_wf _ _ h1
      · cases e2
    · exact h1
  · rw [hg]; exact h
theorem gate_wf (s : State) (pa n : Nat) (write : Bool) (h : Memory.wf s.mem) : Memory.wf (s.gate pa n write).1.mem :=
  gateRaw_wf s (s.place pa) n write h
/-- A device agent's write, at once or posted, and the posted writes. -/
theorem postFails_mem (s : State) (w : Posted) : (s.postFails w).mem = s.mem :=
  State.postFails_keeps (fun s => s.mem) (fun _ _ _ => rfl) (fun _ _ => rfl) s w
theorem performPosted_wf (s : State) (w : Posted) (h : Memory.wf s.mem) : Memory.wf (s.performPosted w).1.mem := by
  have hg := gate_wf s w.pa w.n true h
  unfold State.performPosted
  split
  · next s1 e => rw [e] at hg; exact homeRange_wf _ _ _ _ _ _ (by rw [postFails_mem]; exact hg)
  · next s1 e => rw [e] at hg; exact hg
  · next s1 _ _ e => rw [e] at hg; exact hg
theorem post_wf (s : State) (pa n value : Nat) (k c : Option Nat) (h : Memory.wf s.mem) : Memory.wf (s.post pa n value k c).mem := by
  refine foldl_keeps (fun s : State => Memory.wf s.mem) _ (fun s w hs => ?_) _ _ h
  have hw := performPosted_wf s w hs
  unfold State.postOne; simp only; split
  · split
    · next s1 e => rw [e] at hw; exact hw
    · next s1 e => rw [e] at hw; exact hw
  · exact hs
theorem flushSome_wf (f : Nat) (s : State) (h : Memory.wf s.mem) : Memory.wf (State.flushSome f s).mem := by
  induction f generalizing s with
  | zero => exact h
  | succ f ih =>
    unfold State.flushSome; split
    · exact h
    · next w l _ =>
      have hw := performPosted_wf s w h
      split
      · next s1 e => rw [e] at hw; exact ih _ hw
      · next s1 e => rw [e] at hw; exact hw
theorem flushPosted_wf (s : State) (h : Memory.wf s.mem) : Memory.wf s.flushPosted.mem := flushSome_wf _ s h
/-- A sector and a page copied or cleared. -/
theorem copySector_wf (s : State) (src dst : Nat) (h : Memory.wf s.mem) : Memory.wf (s.copySector src dst).mem := by
  unfold State.copySector; split
  · exact h
  · exact cellWrite_wf s _ _ _ _ _ h
theorem countPage_mem (s : State) (src : Nat) : (s.countPage src).mem = s.mem :=
  loop_keeps (fun t : State => t.mem = s.mem) _ (fun _ t ht => by split <;> exact ht) 512 0 s rfl
theorem copyPage_wf (s : State) (src dst : Nat) (h : Memory.wf s.mem) : Memory.wf (s.copyPage src dst).1.mem := by
  unfold State.copyPage
  simp only [countPage_mem]
  exact loop_keeps (fun s : State => Memory.wf s.mem) _ (fun _ s hs => copySector_wf s _ _ hs) _ _ _ (recallPage_wf _ _ (recallPage_wf _ _ h))
theorem clearPage_wf (s : State) (page dom : Nat) (h : Memory.wf s.mem) : Memory.wf (s.clearPage page dom).mem :=
  canon_filter 0 _ _ (recallPage_wf s page h)
theorem clearNvPage_wf (s : State) (page dom : Nat) (h : Memory.wf s.mem) : Memory.wf (s.clearNvPage page dom).mem := by
  unfold State.clearNvPage
  simp only [State.onPkg_mem]
  generalize 512 = n
  exact loop_keeps (fun s : State => Memory.wf s.mem) _ (fun _ s hs => rawWrite_wf s _ _ _ _ _ _ hs) n _ _ (recallPage_wf s page h)
theorem kdsetPage_wf (s : State) (page dom : Nat) (h : Memory.wf s.mem) : Memory.wf (s.kdsetPage page dom).mem := by
  unfold State.kdsetPage
  split
  · exact clearNvPage_wf s page dom h
  · exact clearPage_wf s page dom h
/-- What a reset or a cold boot makes of memory. -/
theorem inWindows_wf (w : List Window) (unit : Nat) (m : SMap Byte) (h : Memory.wf m) : Memory.wf (inWindows w unit m) := canon_filter 0 m _ h
theorem overlay_wf (m top : SMap Byte) (h : Memory.wf m) : Memory.wf (overlay 0 m top) :=
  foldl_keeps (fun m => canon 0 m = true) _ (fun m p hm => canon_put 0 m p.1 p.2 hm) _ _ h

theorem memAfter_wf (s : State) (w : List Window) (h : Memory.wf s.mem) : Memory.wf (s.memAfter w) :=
  overlay_wf _ _ (inWindows_wf w 1 _ h)

/-! ## What a write leaves alone, and what it leaves -/

/-- Bytes outside the masked ones of a write read as before. -/
theorem cellWrite_other (s : State) (pa n mask value : Nat) (poison : Bool) (a : Nat) (h : ∀ i < n, bitOf mask i = true → a ≠ pa + i) :
    look 0 (s.cellWrite pa n mask value poison).mem a = look 0 s.mem a := by
  have key : ∀ k j m, j + k = n → look 0 (loop (fun i m => if bitOf mask i then put 0 m (pa + i) (BitVec.ofNat 8 (fld value (8 * i) 8)) else m) k j m) a
      = look (0 : Byte) m a := by
    intro k
    induction k with
    | zero => intros; rfl
    | succ k ih =>
      intro j m hj
      rw [loop, ih (j + 1) _ (by omega)]
      split
      · exact look_put_other 0 m _ (h j (by omega) ‹_›)
      · rfl
  unfold State.cellWrite
  simp only
  split
  · rfl
  · exact key n 0 _ (by omega)
/-- The masked bytes of a write to a sector whose tag verifies read as written. -/
theorem cellWrite_same (s : State) (pa n mask value : Nat) (poison : Bool) (i : Nat) (hi : i < n) (hm : bitOf mask i = true)
    (hb : look false s.badTag (pa / 128) = false) :
    look 0 (s.cellWrite pa n mask value poison).mem (pa + i) = BitVec.ofNat 8 (fld value (8 * i) 8) := by
  have key : ∀ k j m, j + k = n → j ≤ i → look 0 (loop (fun i m => if bitOf mask i then put 0 m (pa + i) (BitVec.ofNat 8 (fld value (8 * i) 8)) else m) k j m)
      (pa + i) = BitVec.ofNat 8 (fld value (8 * i) 8) := by
    intro k
    induction k with
    | zero => intro j m h1 h2; omega
    | succ k ih =>
      intro j m h1 h2
      rw [loop]
      by_cases hj : j = i
      · subst hj
        rw [if_pos hm]
        have keep : ∀ k l (m : SMap Byte), j < l → look 0 (loop (fun i m => if bitOf mask i then put 0 m (pa + i) (BitVec.ofNat 8 (fld value (8 * i) 8)) else m) k l m)
            (pa + j) = look 0 m (pa + j) := by
          intro k
          induction k with
          | zero => intros; rfl
          | succ k ih2 =>
            intro l m hl
            rw [loop, ih2 (l + 1) _ (by omega)]
            split
            · exact look_put_other 0 m _ (by omega)
            · rfl
        rw [keep k (j + 1) _ (by omega), look_put_same]
      · exact ih (j + 1) _ (by omega) (by omega)
  unfold State.cellWrite
  simp only [hb, Bool.false_and, Bool.false_eq_true, if_false]
  exact key n 0 _ (by omega) (by omega)

end Sys2Proof.Machine
end

