-- ==== Sys2Proof/Laws/Micro.lean ====
section
/-! SUPPORT. What a micro-op word does to its core: one lemma for every word that runs, one for every word that fails. -/

namespace Sys2Proof.Machine

/-- A loop from 0 is a fold over its indexes. -/
theorem loop_eq_foldl {σ : Type} (f : Nat → σ → σ) (n i : Nat) (x : σ) :
    loop f n i x = (List.range' i n).foldl (fun a k => f k a) x := by
  induction n generalizing i x with
  | zero => rfl
  | succ n ih => simp [loop, ih, List.range'_succ]
theorem loop_zero_eq_foldl {σ : Type} (f : Nat → σ → σ) (n : Nat) (x : σ) :
    loop f n 0 x = (List.range n).foldl (fun a k => f k a) x := by
  rw [loop_eq_foldl, List.range_eq_range']
/-- No index satisfies a predicate exactly when the search finds none. -/
theorem firstIdx_isSome_iff (p : Nat → Bool) (n i : Nat) : (firstIdx p n i).isSome = true ↔ ∃ k, k < n ∧ p (i + k) = true := by
  induction n generalizing i with
  | zero => simp [firstIdx]
  | succ n ih =>
    simp only [firstIdx]
    by_cases h : p i = true
    · simp only [h, if_true, Option.isSome_some, true_iff]
      exact ⟨0, by omega, by simpa using h⟩
    · simp only [h, if_false, ih, Bool.false_eq_true]
      constructor
      · rintro ⟨k, hk, hp⟩
        exact ⟨k + 1, by omega, by rw [← Nat.add_assoc, Nat.add_right_comm]; exact hp⟩
      · rintro ⟨k, hk, hp⟩
        cases k with
        | zero => exact absurd hp (by simpa using h)
        | succ k => exact ⟨k, by omega, by rw [Nat.add_right_comm, Nat.add_assoc]; exact hp⟩
/-- Rows that all lie in a routine's banks do not leave them. -/
theorem leavesOwn_eq_false {own d n : Nat} (h : ∀ i < n, bitOf own (bankOf (d + i)) = true) : leavesOwn own d n = false := by
  rw [leavesOwn, Bool.eq_false_iff]
  intro hs
  obtain ⟨k, hk, hp⟩ := (firstIdx_isSome_iff _ _ _).1 hs
  simp [h k hk] at hp
/-- An operand that lies where it must passes its checks. -/
theorem placeCheck_eq_none {a n : Nat} (h : placed a n) : placeCheck a n = none := by
  obtain ⟨h1, h2, h3⟩ := h
  have e2 : ¬ (a + n - 1 > spadTop) := by unfold spadTop; omega
  simp [placeCheck, placeChecks, alignCheck, rangeCheck, groupCheck, h1, e2, h3, groupOf]
/-- A word whose checks pass, and that nothing makes wait, runs. -/
theorem runWord_ran {c : Nat} {scl : Option MmScl} {main : Routine → Core → Cluster → MmWord} {s : State} {r : Routine} {w : MmWord}
    (h : MicroReady s c r scl w.reads w.groups) (hw : main r (s.core c) (s.cluster (c / 4)) = w)
    (hf : w.fault = none) (hs : w.stall = false) (hn : w.next < 4096) :
    runWord c scl main s = .next (s.microRan c r scl w.steps w.next (w.eff (r, s.core c, s.cluster (c / 4), false)).1
      (w.eff (r, s.core c, s.cluster (c / 4), false)).2.1 (w.eff (r, s.core c, s.cluster (c / 4), false)).2.2.1
      (w.eff (r, s.core c, s.cluster (c / 4), false)).2.2.2) := by
  obtain ⟨h1, h2, h3, h4, h5⟩ := h
  have hn' : ¬ (4096 ≤ w.next) := by omega
  cases scl with
  | none =>
    simp only [scaleReads, List.append_nil] at h5
    simp [runWord, h1, h2, h3, hw, hf, hs, hn', h5, State.microRan, Routine.loadScale]
  | some o =>
    have h4' := h4 _ (by simp [scaleReads]; rfl)
    obtain ⟨hp, hg⟩ := h4'
    have hc : sclCheck r o w.groups = none := by
      simp [sclCheck, placeCheck_eq_none hp, groupOf]
      exact hg
    simp [scaleReads] at h5
    simp [runWord, h1, h2, h3, hw, hf, hs, hn', h5, hc, State.microRan, Routine.loadScale]
/-- A word that fails a check ends its routine with a mark, and nothing else happens. -/
theorem runWord_fails {c : Nat} {scl : Option MmScl} {main : Routine → Core → Cluster → MmWord} {s : State} {r : Routine} {f : MmFault}
    (h1 : (s.core c).run = some r) (h2 : r.wait = false) (h3 : r.done = none)
    (hf : (main r (s.core c) (s.cluster (c / 4))).fault = some f) :
    runWord c scl main s = .next (s.setCore c { (s.core c) with run := some (r.fail f) }) := by
  simp [runWord, h1, h2, h3, hf]

end Sys2Proof.Machine
end

