-- ==== Sys2Proof/Tests/Slice0.lean ====
section
/-! SUPPORT. Tests: terms that WellFormed refuses, words written out from the spec's encodings, and for every statement a state and
operands that meet its hypotheses. -/

namespace Sys2Proof.Tests

set_option Elab.async false

open Machine

/-! ## Operands -/

def rg (d a b f : BitVec 6) : RG := ⟨d, a, b, f, none⟩
def rgx (d a b f c : BitVec 6) (ext : BitVec 26) : RG := ⟨d, a, b, f, some ⟨c, ext⟩⟩
def si (d a : BitVec 6) (i : BitVec 12) : SI := ⟨d, a, i, none⟩
def six (d a : BitVec 6) (i : BitVec 12) (x : BitVec 32) : SI := ⟨d, a, i, some x⟩
def vr (d a b : BitVec 6) (k t : BitVec 3) : VR := ⟨d, a, b, k, t, none⟩
def vrx (d a b : BitVec 6) (k t : BitVec 3) (c : BitVec 6) (rm : BitVec 3) (ext : BitVec 23) : VR := ⟨d, a, b, k, t, some ⟨c, rm, ext⟩⟩
def ms (q a off stp : BitVec 6) : MS := ⟨q, a, off, stp, none⟩
def msx (q a off stp : BitVec 6) (k : BitVec 3) (xr : BitVec 6) (disp : BitVec 20) : MS := ⟨q, a, off, stp, some ⟨k, xr, disp⟩⟩
def mg (q a : BitVec 6) (e : BitVec 4) (stp : BitVec 6) : MG := ⟨q, a, e, stp, none⟩
def mgx (q a : BitVec 6) (e : BitVec 4) (stp : BitVec 6) (k scope : BitVec 3) (disp : BitVec 20) : MG :=
  ⟨q, a, e, stp, some ⟨k, scope, disp⟩⟩
def ac (v : BitVec 6) (row : BitVec 10) (stp : BitVec 6) : AC := ⟨v, row, stp, none⟩
def acx (v : BitVec 6) (row : BitVec 10) (stp a : BitVec 6) (k : BitVec 3) (ext : BitVec 23) : AC := ⟨v, row, stp, some ⟨a, k, ext⟩⟩
def hc (a b : BitVec 6) (ch e f : BitVec 4) : HC := ⟨a, b, ch, e, f, none⟩
def hcx (a b : BitVec 6) (ch e f : BitVec 4) (c d : BitVec 6) (ext : BitVec 20) : HC := ⟨a, b, ch, e, f, some ⟨c, d, ext⟩⟩

/-! ## WellFormed refuses -/

/-- One term for each encoding check of R455: form (2), reserved fields (1), coded values (4), register ranges (3), bit fields (R84),
counts of WAIT and SIGNAL (R99, R101), status registers (R103), and atomics (R265). -/
theorem test_check_refuses :
    (Machine.check (.sadd .a (rgx 3 1 2 0 0 0)) = some 2 ∧ Machine.check (.sfma .a (rg 3 1 2 0)) = some 2 ∧
      Machine.check (.sadd .a (rg 3 1 2 1)) = some 1 ∧ Machine.check (.vadd .a (vr 3 1 2 1 1)) = some 4 ∧
      Machine.check (.vadd .a (vrx 3 1 2 1 0 0 5 0)) = some 4 ∧ Machine.check (.pand .a (rg 8 1 2 0)) = some 3) ∧
    (Machine.check (.sbfx .a (rgx 3 1 0 0 0 0xFFF)) = some 0x0100 ∧ Machine.check (.wait ⟨1, 0⟩) = some 0x0101 ∧
      Machine.check (.srd ⟨3, 0, 0x00B⟩) = some 0x0102 ∧ Machine.check (.swr ⟨0, 1, 0x007⟩) = some 0x0103 ∧
      Machine.check (.atom (rgx 0 1 2 0 0 11)) = some 0x0403) := by
  decide
theorem test_illformed_refused :
    ∀ i ∈ [Instr.sadd .a (rg 3 1 2 1), .sadd .b (rgx 3 1 2 0 0 0), .sfma .a (rg 3 1 2 0), .vadd .a (vr 3 1 2 1 1), .pand .a (rg 8 1 2 0),
      .sbfx .a (rgx 3 1 0 0 0 0xFFF), .signal ⟨1, 0⟩, .srd ⟨3, 0, 0x00B⟩, .swr ⟨0, 1, 0x007⟩,
      .atom (rgx 0 1 2 0 0 11), .mark .ld ⟨7, 1⟩, .mcall ⟨7, 1, 3, none⟩, .tlookWm (rg 3 16 0 1), .gld (mgx 3 1 2 1 0 1 0)],
      WellFormed i = false := by decide
/-- Numbers of agents that do not exist, and reserved sources of micro-op words. -/
theorem test_agents_refused :
    ∀ i ∈ [Instr.bundleIssue 192, .strandUnblock 1536, .hodTurn 48, .dispatchCycle 4, .mmNop 192,
      .mmSetp 0 ⟨0, 9, 0, 0, 0, 0⟩ none, .mmLoop 0 ⟨0, 14, 5, 1⟩ none], WellFormed i = false := by decide

/-! ## Words written out from the spec's encodings -/

/-- Scalar slots: the words the spec's listings give. -/
theorem test_decode_scalar :
    (decodeOp .sa 0x9E100000 0x00010000 = .ok (.smovi .a ⟨4, 0, 0, some 0x10000⟩) ∧
      decodeOp .sa 0x01145001 0 = .ok (.saddi .a ⟨5, 5, 1, none⟩) ∧
      decodeOp .sb 0xAC0C4144 0x18000000 = .ok (.sfma .b ⟨3, 4, 5, 4, some ⟨6, 0⟩⟩)) := by decide
/-- OP 0x00 in [29:24], D [23:18], A [17:12], B [11:6], F [5:0] (R53 to R56). -/
theorem test_decode_sadd : decodeOp .sb 0b00000000_000011_000001_000010_000000 0 = .ok (.sadd .b (rg 3 1 2 0)) := by decide
/-- Vector slots. -/
theorem test_decode_vector :
    decodeOp .va 0x000410C0 0 = .ok (.vadd .a ⟨1, 1, 3, 0, 0, none⟩) ∧
      decodeOp .va 0xA7041008 0x40 = .ok (.vperm .a ⟨1, 1, 0, 1, 0, some ⟨0, 0, 0x40⟩⟩) ∧
      decodeOp .va 0x29181008 0 = .ok (.vsum .a ⟨6, 1, 0, 1, 0, none⟩) ∧
      decodeOp .vb 0xB0040240 1 = .ok (.kand .b ⟨1, 0, 9, 0, 0, some ⟨0, 0, 1⟩⟩) ∧
      decodeOp .va 0xAF141099 2 = .ok (.vacpt .a ⟨5, 1, 2, 3, 1, some ⟨0, 0, 2⟩⟩) := by decide
/-- Load and store slots. -/
theorem test_decode_memory :
    decodeOp .ld 0x081C4000 0 = .ok (.tlook ⟨7, 4, 0, 0, none⟩) ∧ decodeOp .st 0x06204140 0 = .ok (.tins ⟨8, 4, 5, 0, none⟩) ∧
      decodeOp .ld 0x860C8100 0x14000000 = .ok (.glda ⟨3, 8, 1, 0, some ⟨0, 5, 0⟩⟩) ∧
      decodeOp .st 0x85289100 0x14000000 = .ok (.gstl ⟨10, 9, 1, 0, some ⟨0, 5, 0⟩⟩) ∧
      decodeOp .st 0x83119300 0x1C000100 = .ok (.gst ⟨4, 25, 3, 0, some ⟨0, 7, 0x100⟩⟩) ∧
      decodeOp .ld 0x09000140 0 = .ok (.mark .ld ⟨1, 1⟩) ∧ decodeOp .st 0x08000140 0 = .ok (.mark .st ⟨1, 1⟩) ∧
      decodeOp .st 0x89019140 0x00001800 = .ok (.atom ⟨0, 25, 5, 0, some ⟨0, 0x1800⟩⟩) := by decide
/-- The control slot. -/
theorem test_decode_control :
    decodeOp .ct 0x8946000D 0 = .ok (.loopi ⟨1, 6, 13, some 0⟩) ∧ decodeOp .ct 0x0223FFF7 0 = .ok (.brc ⟨1, 0, 1, 0x1FFF7⟩) ∧
      decodeOp .ct 0x0840FFFE 0 = .ok (.loop ⟨1, 0, 0xFFFE, none⟩) ∧ decodeOp .ct 0x0B100001 0 = .ok (.wait ⟨1, 1⟩) ∧
      decodeOp .ct 0x1724C000 0 = .ok (.cswitch ⟨9, 12, 0, 0, none⟩) ∧ decodeOp .ct 0x18105000 0 = .ok (.park ⟨4, 5, 0, 0, none⟩) ∧
      decodeOp .ct 0x19006000 0 = .ok (.wake ⟨0, 6, 0, 0, none⟩) ∧ decodeOp .ct 0x1A007000 0 = .ok (.estset ⟨0, 7, 0, 0, none⟩) ∧
      decodeOp .ct 0x1B0C0007 0 = .ok (.pbar ⟨3, 0, 0, 7, none⟩) ∧ decodeOp .ct 0x12000000 0 = .ok (.bar ⟨0, 0, 0, 0, none⟩) := by decide
/-- The matrix, accumulator and Hod slots. -/
theorem test_decode_units :
    decodeOp .mx 0x03042004 0 = .ok (.mstatSetm ⟨1, 2, 0, 4, none⟩) ∧ decodeOp .mx 0x00071000 0 = .ok (.mcall ⟨7, 1, 0, none⟩) ∧
      decodeOp .ar 0x0004FF00 0 = .ok (.ard ⟨1, 255, 0, none⟩) ∧
      decodeOp .hd 0x801D5022 0x01740000 = .ok (.hcopyG2t ⟨7, 21, 0, 2, 2, some ⟨0, 23, 0x40000⟩⟩) ∧
      decodeOp .hd 0x8A1C0021 0x01740000 = .ok (.hfillT ⟨7, 0, 0, 2, 1, some ⟨0, 23, 0x40000⟩⟩) ∧
      decodeOp .hd 0x09105100 0 = .ok (.hwm ⟨4, 5, 1, 0, 0, none⟩) ∧ decodeOp .hd 0x09000101 0 = .ok (.hwmOff ⟨0, 0, 1, 0, 1, none⟩) ∧
      decodeOp .hd 0x82449010 0x040C0000 = .ok (.htwr ⟨17, 9, 0, 1, 0, some ⟨1, 0, 0xC0000⟩⟩) ∧
      decodeOp .hd 0x06000010 0 = .ok (.hmwait ⟨0, 0, 0, 1, 0, none⟩) := by decide
/-- Micro-op words of the spec's example routine (words 0, 3, 5, 8 and 13), and one of each other micro-op from R189 to R194. -/
theorem test_decode_micro :
    (decodeMicro 0 0x6000200000000000 = some (.mmSetp 0 ⟨0, 0, 0, 0, 1024, 0⟩ none) ∧
      decodeMicro 0 0x6660040000840000 = some (.mmSetp 0 ⟨3, 3, 0, 0, 128, 0⟩ (some ⟨0, 2, 0⟩)) ∧
      decodeMicro 0 0x0061102400A40000 = some (.mmMac 0 ⟨0, 1, 4, 2, 2, 0, 1, 0, 1, 0, 0⟩ (some ⟨2, 2, 0⟩)) ∧
      decodeMicro 0 0x0061102000000000 = some (.mmMac 0 ⟨0, 1, 4, 2, 2, 0, 1, 0, 0, 0, 0⟩ none) ∧
      decodeMicro 0 0x7000000000000000 = some (.mmEnd 0 none)) ∧
    decodeMicro 7 (2 * 2 ^ 60 + 5 * 2 ^ 57 + 1023 * 2 ^ 47) = some (.mmClr 7 ⟨5, 1023⟩ none) ∧
      decodeMicro 7 (3 * 2 ^ 60 + 5 * 2 ^ 57 + 255 * 2 ^ 49 + 9 * 2 ^ 45 + 200 * 2 ^ 37 + 2 ^ 36) = some (.mmDrn 7 ⟨5, 255, 9, 200, 1⟩ none) ∧
      decodeMicro 7 (4 * 2 ^ 60 + 2 * 2 ^ 58 + 15 * 2 ^ 54 + 4095 * 2 ^ 42 + 65535 * 2 ^ 26) = some (.mmLoop 7 ⟨2, 15, 4095, 65535⟩ none) ∧
      decodeMicro 7 (5 * 2 ^ 60 + 4095 * 2 ^ 48 + 2 ^ 47 + 9 * 2 ^ 43) = some (.mmJmp 7 ⟨4095, 1, 9⟩ none) ∧
      decodeMicro 7 (8 * 2 ^ 60 + 2 ^ 23 + 7 * 2 ^ 20 + 6 * 2 ^ 17 + 2 ^ 16) = some (.mmScl 7 ⟨7, 6, 1⟩) ∧
      decodeMicro 7 (8 * 2 ^ 60) = some (.mmNop 7) ∧ decodeMicro 7 (1 * 2 ^ 60) = none ∧ decodeMicro 7 (9 * 2 ^ 60) = none := by decide
/-- Headers (R46): the spec's `wait e1, 1`, and a damaged version and a reserved bit are refused. -/
theorem test_decode_header :
    decodeBundle1 [0xA0800001, 0x0B100001] = some (.wait ⟨1, 1⟩) ∧ decodeBundle1 [0xA0C00001, 0x8946000D, 0] = some (.loopi ⟨1, 6, 13, some 0⟩) ∧
      decodeHeader 0xA0C87842 = .ok ⟨3, true, 15, 0x42⟩ ∧ decodeBundle1 [0xA0800001] = none ∧ decodeBundle1 [0x60800001, 0x0B100001] = none := by
  decide

/-! ## States of the witnesses -/

/-- The machine after reset, strand 0 ACTIVE on core 0, with these fields. -/
def at_ (st : Strand) (co : Core := {}) (s : State := State.reset) : State :=
  { s with strands := [(0, { st with run := .active })], cores := [(0, { co with active := some 0 })] }
def at0 : State := at_ {}
/-- Strand 0 at0 issues whatever its operation reads and writes. -/
theorem at0_issues (reads writes : List Reg) : Issues at0 0 reads writes 16 :=
  ⟨rfl, rfl, rfl, rfl, by decide +kernel, fun r _ => by cases r <;> simp [at0, at_, State.strand, look, find?, Strand.pending, Strand.poisoned],
    fun r _ => by cases r <;> simp [at0, at_, State.strand, look, find?, Strand.pending]⟩
/-- Every one of these is well formed. -/
def ok (l : List Instr) : Bool := l.all (fun i => WellFormed i)
/-- `Issues` as a computation, for the states below. -/
def issues (s : State) (reads writes : List Reg := []) (more : Nat := 0) : Bool :=
  !s.pkg.viral && s.activeOf s.cur == some 0 && (s.strand 0).eng.isEmpty && (s.strand 0).barWait.isNone &&
    decide ((s.strand 0).inFlight [] + more ≤ 16) && reads.all (fun r => !(s.strand 0).pending r && !(s.strand 0).poisoned r) &&
    writes.all (fun r => !(s.strand 0).pending r)
theorem issues_spec {s reads writes more} (h : issues s reads writes more = true) : Issues s 0 reads writes more := by
  simp only [issues, Bool.and_eq_true, List.all_eq_true, Bool.not_eq_true', decide_eq_true_eq, beq_iff_eq, List.isEmpty_iff,
    Option.isNone_iff_eq_none] at h
  obtain ⟨⟨⟨⟨⟨⟨h1, h2⟩, h3⟩, h4⟩, h5⟩, h6⟩, h7⟩ := h
  exact ⟨h1, h2, h3, h4, h5, h6, h7⟩

/-! ## The operations that deliver results -/

/-- At at0 the operations of these lists meet the hypotheses of ScalarIntegers, ProductsAndQuotients, ScalarFieldsAndMoves,
ComparesAndPredicates and ScalarFloat. -/
theorem test_met_scalar : (∀ reads writes, Issues at0 0 reads writes 16) ∧
    (∀ u ∈ [SUnit.a, .b], ok ([Instr.sadd u, .ssub u, .sand u, .sor u, .sxor u, .smin u, .smax u, .smins u, .smaxs u, .smul u, .smulh u, .smulhs u, .sdiv u,
      .srem u, .sdivs u, .srems u, .sshl u, .sshr u, .ssra u, .srot u, .saddr u, .ssel u, .scmp u, .pand u, .por u, .pxor u, .sfadd u,
      .sfsub u, .sfmul u, .sfdiv u, .sfmin u, .sfmax u, .sfcmp u].map (fun f => f (rg 3 1 2 0))) = true) ∧
    (∀ u ∈ [SUnit.a, .b], ok ([Instr.sclz u, .spop u, .smov u, .pnot u, .pmovPred u, .sfsqrt u, .sfclass u, .sfcvt u].map (fun f => f (rg 3 1 0 0))) = true) ∧
    (∀ u ∈ [SUnit.a, .b], ok [Instr.saddi u (si 3 1 0xFFF), .sandi u (si 3 1 0), .sori u (six 3 1 0 0xFFFFFFFF), .sxori u (si 3 1 5), .smovi u (six 3 0 0 5),
      .slui u (six 3 1 0 5), .scmpi u (six 7 1 7 5), .scmp u (rg 7 1 2 7), .sbfx u (rgx 3 1 0 0 0 0x1FC0), .sbfi u (rgx 3 1 2 0 0 0xFC0),
      .sfma u (rgx 3 1 2 0 0 0), .pmovFromScalar u (rg 3 1 0 1), .pmovToScalar u (rg 3 1 0 2), .sadd u (rg 0 63 63 0), .sshl u (rg 63 1 0 63)] = true) :=
  ⟨at0_issues, by decide +kernel, by decide +kernel, by decide +kernel⟩

/-- The same for VectorFloat, VectorIntegers, LaneMasks and AcrossLanes. -/
theorem test_met_vector : (∀ reads writes, Issues at0 0 reads writes 16) ∧
    (∀ u ∈ [VUnit.a, .b], ok ([Instr.vadd u, .vsub u, .vmul u, .vmin u, .vmax u, .vand u, .vor u, .vxor u, .vsel u, .vcmp u, .vdiv u, .vperm u, .vsrch u].map (fun f => f (vr 3 1 2 1 0))) = true) ∧
    (∀ u ∈ [VUnit.a, .b], ok ([Instr.viadd u, .visub u, .vimul u, .vimin u, .vimax u, .vshl u, .vshr u, .vsra u, .vrotl u, .vidx u].map (fun f => f (vr 3 1 2 1 1))) = true) ∧
    (∀ u ∈ [VUnit.a, .b], ok ([Instr.vabs u, .vneg u, .vnot u, .vmov u, .vbcast u, .vexp2 u, .vlog2 u, .vrcp u, .vrsq u, .vsqrt u, .vsum u, .vscan u, .vmaxr u,
      .vargmax u].map (fun f => f (vr 3 1 0 1 0))) = true) ∧
    (∀ u ∈ [VUnit.a, .b], ok [Instr.vextr u (vr 3 1 2 0 0), .kand u (vr 3 1 2 0 0), .kor u (vr 7 7 7 0 0), .kxor u (vrx 63 7 63 0 0 0 0 3), .knot u (vr 3 1 0 0 0),
      .kpop u (vr 3 1 0 0 0), .kfirst u (vr 3 1 0 0 0), .vrng u (vr 3 0 0 1 0), .vfma u (vrx 3 1 2 1 0 4 0 0), .vfms u (vrx 3 1 2 1 3 4 4 0),
      .vimad u (vrx 3 1 2 1 1 4 0 1), .vshl u (vrx 3 1 0 1 1 0 0 0x3F), .vcvt u (vrx 3 1 0 1 1 0 0 0), .vcvt u (vrx 3 1 0 1 3 0 0 1),
      .vcvt u (vrx 3 1 0 1 0 0 0 3), .vpack u (vr 3 1 2 1 6), .vpack u (vrx 3 1 2 1 0 0 0 0x19), .vunpack u (vr 3 1 0 1 4),
      .vunpack u (vrx 3 1 0 1 1 0 0 0x3B), .vqmx u (vrx 3 1 0 1 0 4 0 2), .vdqmx u (vrx 3 1 0 1 0 4 0 9), .vsum u (vr 3 1 0 1 3),
      .vacpt u (vrx 3 1 2 1 1 0 0 6)] = true) :=
  ⟨at0_issues, by decide +kernel, by decide +kernel, by decide +kernel, by decide +kernel⟩

/-! ## Checks, completions and transfers -/

/-- SilentChecks, with equal and with different operands. -/
theorem test_met_silent_checks : (∀ reads, Issues at0 0 reads [] 0) ∧ issues (at_ { s := [(1, 1)], v := [(1, 1)], b := 3 }) [.s 1, .s 2, .v 1, .v 2] = true ∧
    (∀ u ∈ [SUnit.a, .b], ok [.schk u (rg 0 1 2 0), .schkP u (rg 0 1 2 1)] = true) ∧
    (∀ u ∈ [VUnit.a, .b], ok [.vchk u (vr 0 1 2 1 0)] = true) :=
  ⟨fun r => ⟨(at0_issues r []).1, rfl, rfl, rfl, by decide +kernel, (at0_issues r []).2.2.2.2.2.1, by simp⟩, by decide +kernel, by decide +kernel,
    by decide +kernel⟩
/-- A strand with a completion in e1. -/
def withSem : State := at_ { sem := [(1, [⟨none, none, 0, none⟩])] }
theorem test_met_semaphores : (∀ sl ∈ [Slot.ct, .sa, .sb, .va, .vb, .ld, .st, .mx, .ar, .aw, .hd], ok [.nop sl] = true) ∧
    ok [.wait ⟨1, 1⟩, .waitany ⟨0, 2⟩, .signal ⟨1, 0xFFFF⟩, .signal ⟨15, 0xFFFF⟩] = true ∧ issues at0 = true ∧ issues withSem = true ∧
    (1 ≤ (withSem.strand 0).count 1 ∧ ∀ c ∈ (withSem.strand 0).oldestOf 1 1, c.mark = none) ∧ (at0.strand 0).count 1 < 1 ∧
    (at0.strand 0).count 15 + 0xFFFF ≤ 0xFFFF ∧ 0xFFFF < (withSem.strand 0).count 1 + 0xFFFF := by decide +kernel
/-- Transfers, BranchOnMask: register targets at the lowest and the highest canonical address. -/
theorem test_met_transfers : ok [.br ⟨7⟩, .brc ⟨7, 0, 1, 0x1FFFF⟩, .brv ⟨7, 0, 0, 7⟩, .bri (rg 0 1 0 0), .ret, .loopi ⟨3, 6, 0xFFFF, some 0⟩,
      .loop ⟨0, 0, 7, none⟩] = true ∧ issues at0 [.s 1, .s 6, .s 63] = true ∧ (at0.strand 0).delay = none ∧
    (let s := at_ { s := [(1, 0xFFFFFFFFFFFFFFFC), (63, 72057594037927932)] };
      issues s [.s 1, .s 63] = true ∧ (((s.strand 0).getS 63).toNat % 4 = 0 ∧ canonVa ((s.strand 0).getS 63) = (s.strand 0).getS 63) ∧
        ((s.strand 0).getS 1).toNat % 4 = 0 ∧ canonVa ((s.strand 0).getS 1) = (s.strand 0).getS 1) := by decide +kernel
/-- A call whose delay bundle lies in the instruction cache. -/
theorem test_met_calls : let s := at0.withFetchWord 96 (0xA0800001 * 2 ^ 64);
    ok [.call ⟨7⟩, .calli (rg 0 1 0 0)] = true ∧ (s.fetchWord 0 8).2 = .word 0xA0800001 ∧
      issues (s.fetchWord 0 8).1 [.s 1] [.s 63] = true ∧ ((s.fetchWord 0 8).1.strand 0).delay = none ∧
      (((s.fetchWord 0 8).1.strand 0).getS 1).toNat % 4 = 0 := by decide +kernel
/-- Transfers in a delay bundle, and register targets that are not aligned or not canonical. -/
theorem test_met_transfer_traps :
    (let s := at_ { delay := some .notTaken };
      issues s = true ∧ (s.strand 0).delay ≠ none ∧ ok [.br ⟨7⟩, .brc ⟨1, 2, 1, 7⟩, .brv ⟨1, 2, 1, 7⟩, .bri (rg 0 1 0 0), .ret,
        .loopi ⟨1, 6, 13, some 0⟩, .loop ⟨1, 0, 7, none⟩] = true) ∧
    (let s := at_ { s := [(1, 2), (63, 0x100000000000000)] };
      issues s [.s 1, .s 63] = true ∧ (s.strand 0).delay = none ∧ ((s.strand 0).getS 1).toNat % 4 ≠ 0 ∧
        canonVa ((s.strand 0).getS 63) ≠ (s.strand 0).getS 63) := by decide +kernel
/-- A scratchpad load at a misaligned address, at the last word, past it, and above a watermark. -/
theorem test_met_scratchpad_checks :
    WellFormed (.splds (ms 3 1 0 0)) = true ∧
    ([1, 0x5FFF8, 0x60000] : List Word).all (fun a => issues (at_ { s := [(1, a)] }) [.s 1] [.s 3] 1) = true ∧
    (ms 3 1 0 0).addr ((at_ { s := [(1, 1)] }).strand 0) 8 = 1 ∧ (ms 3 1 0 0).addr ((at_ { s := [(1, 0x60000)] }).strand 0) 8 = 0x60000 ∧
    (let s := at_ {} { wm := [(15, ⟨true, 0, 127, 0, []⟩)] };
      issues s [.s 1] [.s 3] 1 = true ∧ (s.core 0).unfilled 0 8 = true) := by decide +kernel
/-- A global load at a non-canonical and a misaligned address, with a fault returned, and without a translation. -/
theorem test_met_global_checks :
    WellFormed (.glds (mg 3 1 0 0)) = true ∧
    ([1, 0x100000000000000] : List Word).all (fun a => issues (at_ { s := [(1, a)] }) [.s 1] [.s 3]) = true ∧
    canonVa ((mg 3 1 0 0).addr ((at_ { s := [(1, 0x100000000000000)] }).strand 0)) ≠ (mg 3 1 0 0).addr ((at_ { s := [(1, 0x100000000000000)] }).strand 0) ∧
    ((mg 3 1 0 0).addr ((at_ { s := [(1, 1)] }).strand 0)).toNat % 8 ≠ 0 ∧
    (let s := at_ { walk := some ⟨0, .read, 0x11, 0x0610⟩ };
      issues s [.s 1] [.s 3] = true ∧ s.strandTr 0 0 .read = .fault 0x11 0x0610) ∧ at0.strandTr 0 0 .read = .miss := by decide +kernel
/-- A command of channel 0 that another command's queue holds. -/
def cmd (op : Nat) : HodCmd := ⟨0, 0, true, 0, 0, 0, 3, op, 0, 0, true, 0, 0x200, 0x80, 0, 0⟩
theorem test_met_hod_checks :
    (let s := at_ {} {} { State.reset with clusters := [(0, { chans := [(1, { queue := List.replicate 8 (cmd 0) })] })] };
      issues s = true ∧ WellFormed (.hmwait (hc 0 0 1 3 0)) = true ∧ 8 ≤ ((s.cluster 0).chan 1).queue.length) ∧
    WellFormed (.hcopyS2s (hcx 1 2 1 3 0 4 0 0)) = true ∧ issues at0 [.s 1, .s 2, .s 4] = true ∧ ((hcx 1 2 1 3 0 4 0 0).c (at0.strand 0)).toNat = 0 := by
  decide +kernel

/-! ## Traps and status registers -/

/-- TRAP, RTE in and outside a handler, a delay bundle that ends in RTE's return, and a trap that XMASK delivers. -/
theorem test_met_traps : ok [.trap ⟨0, 0xFFFF⟩, .rte] = true ∧ issues at0 = true ∧ (at0.strand 0).delay ≠ some .ret ∧ (at0.strand 0).tl = false ∧
    (let s := at_ { tl := true, dslot := true };
      issues s = true ∧ (s.strand 0).tl = true ∧ (s.strand 0).delay = none ∧ (s.strand 0).xpc.toNat % 4 = 0 ∧ (s.strand 0).xnpc.toNat % 4 = 0) ∧
    ({ delay := some .ret } : Strand).delay = some .ret ∧
    (let s := at_ { xmask := 0x100001FFE, xrec := 0x5FFC0, delay := some (.taken 0x40) };
      (s.strand 0).tl = false ∧ delivered (s.strand 0).xmask 0x20 = true ∧ recAddr (s.strand 0).xrec ≤ 0x5FFC0) := by decide +kernel
/-- StatusRegisters: every register of its tables, loop counters, semaphores, and one of the system. -/
theorem test_met_status : (∀ reads writes, Issues at0 0 reads writes 16) ∧
    ok (statusTable.map (fun e => .srd ⟨3, 0, BitVec.ofNat 12 e.1⟩)) = true ∧
    ok (writeTable.map (fun e => .swr ⟨0, 1, BitVec.ofNat 12 e.1⟩)) = true ∧
    ok ((List.range 4).map (fun i => .srd ⟨3, 0, BitVec.ofNat 12 (0x10 + i)⟩)) = true ∧
    ok ((List.range 4).map (fun i => .swr ⟨0, 1, BitVec.ofNat 12 (0x10 + i)⟩)) = true ∧
    ok ((List.range 16).map (fun i => .srd ⟨3, 0, BitVec.ofNat 12 (0x20 + i)⟩)) = true ∧
    (∀ i < 16, (at0.strand 0).count i < 2 ^ 64) ∧ srnAccess 0x50 = .system ∧ srnAccess 0x46 = .system ∧ ok [.srd ⟨3, 0, 0x50⟩, .swr ⟨0, 1, 0x46⟩] = true :=
  ⟨at0_issues, by simp only [statusTable]; decide +kernel, by simp only [writeTable]; decide +kernel, by decide +kernel, by decide +kernel,
    by decide +kernel, by decide +kernel, by decide +kernel, by decide +kernel, by decide +kernel⟩

/-! ## Scratchpad and tag table -/

/-- An access of these bytes meets no check of R212. -/
def fits (s : State) (l : List (Nat × Nat)) : Bool := l.all (fun p => decide (p.1 + p.2 ≤ 0x60000) && !(s.core 0).unfilled p.1 p.2)
/-- ScratchpadAccesses: the last 256 bytes and the last word of the scratchpad, and indices from v1. -/
theorem test_met_scratchpad : issues (at_ { s := [(1, 0x5FF00)] }) [.s 1, .v 3, .v 1] [.v 3] 1 = true ∧
    ok [.spld (ms 3 1 0 0), .spldb (ms 3 1 0 1), .spldx (msx 3 1 0 0 0 1 0), .splds (ms 3 1 0 0), .spst (ms 3 1 0 0),
      .spstx (msx 3 1 0 0 0 1 0), .spsts (ms 3 1 0 0)] = true ∧
    (let s := at_ { s := [(1, 0x5FF00)] };
      let st := s.strand 0;
      (ms 3 1 0 0).addr st 256 = 0x5FF00 ∧ activeLanes ((ms 3 1 0 0).mask st) = List.range 64 ∧ (0x5FF00 : Nat) % 128 = 0 ∧
        fits s ((List.range 64).map (fun i => (0x5FF00 + 4 * i, 4))) = true ∧
        (∀ i < 64, (0x5FF00 + lane (st.getV 1) i) % 2 ^ 64 % 4 = 0) ∧ fits s [(0x5FF00, 4), (0x5FF00, 8)] = true) := by decide +kernel
theorem test_met_scratchpad_bytes : (∀ w ∈ [(4, 7)], 3 < w.1 ∨ w.1 + 4 ≤ (3 : Nat)) ∧ ((8 : Nat) < 4 ∨ 4 + 4 ≤ (8 : Nat)) ∧
    Memory.wf ({ spad := [(1, 5)] } : Core).spad = true ∧ look false ({ spadP := [(1, true)] } : Core).spadP 1 = true ∧
    ¬ ((33 : Nat) ≤ 32 * 1 ∧ 32 * 1 + 32 ≤ 33 + 31) := by decide +kernel
/-- A tag table with one entry of key 5 of handle 0. -/
def tagged : State := at_ { s := [(1, 5), (2, 0x1000000)] } { tags := [(255, ⟨5, 0, 0xBFF, 0, 1⟩)] }
theorem test_met_tags : ok [.tlook (rg 3 1 0 0), .tlookWm (rg 3 15 0 1), .tins (rg 3 1 2 0), .tdel (rg 0 1 0 0), .tdelIdx (rg 0 1 0 1)] = true ∧
    issues tagged [.s 1, .s 2, .s 3] [.s 3] 1 = true ∧ (tagged.core 0).findKey 0 5 = some 255 ∧ (at0.core 0).findKey 0 5 = none ∧
    (let s := at_ { s := [(1, 5), (2, 0x1000000), (3, 255)] };
      let d := (s.strand 0).getS 2;
      issues s [.s 1, .s 2, .s 3] = true ∧ (d >>> 20).toNat % 16 = 0 ∧ (d >>> 24).toNat % 4 = 1 ∧ ((d >>> 7).toNat % 4096) * 128 + 128 ≤ 0x60000 ∧
        ∀ k < 256, ((s.core 0).tag k).state = 0) := by decide +kernel

/-! ## Global accesses -/

/-- Page 0 mapped to the page of physical address `base` with all permissions; page 0 of the instruction side too. -/
def mapped (base : Nat) (st : Strand) (co : Core := {}) : State := at_ st { co with tlb := [(0, ⟨base, false, 15, 1⟩)] }
/-- `Passes` as a computation. -/
def passes (s : State) (load : Bool) (a : Word) (align : Nat) (k : Kind) (pa : Nat) (l : Leaf) : Bool :=
  canonVa a == a && decide (a.toNat % align = 0) && s.strandTr 0 (a.toNat % 2 ^ 57) k == .ok pa l &&
    decide (if load then (s.strand 0).loadQ.length < 64 else (s.strand 0).storeQ.length < 64)
theorem passes_spec {s load a align k pa l} (h : passes s load a align k pa l = true) : Passes s 0 load a align k pa l := by
  simp only [passes, Bool.and_eq_true, beq_iff_eq, decide_eq_true_eq] at h
  exact ⟨h.1.1.1, h.1.1.2, h.1.2, by simpa using h.2⟩
/-- GlobalAccesses and Atomics: the last 256 bytes of a page and its last words, in HBM4E and in the non-volatile window. -/
theorem test_met_global : ok [.gld (mg 3 1 2 1), .glds (mg 3 1 2 1), .glda (mgx 3 1 2 1 0 5 0), .pref (mgx 0 1 0 1 0 0 0), .gst (mg 3 1 2 1),
      .gst (mgx 3 1 2 1 7 7 0), .gsts (mgx 3 1 2 1 0 7 0), .gstl (mgx 3 1 2 1 0 4 0), .atom (rgx 0 1 2 0 0 0x10), .atomr (rgx 3 1 2 0 4 0x1F59)] = true ∧
    [0, 0x80000000000].all (fun base =>
      let s := mapped base { s := [(1, 0xFF00)] };
      issues s [.s 1, .v 3, .s 3, .s 2, .s 0, .s 4] [.v 3, .s 3] && passes s true 0xFF00 256 .read (base + 0xFF00) ⟨base, false, 15⟩ &&
        passes s true 0xFF00 8 .read (base + 0xFF00) ⟨base, false, 15⟩ && passes s false 0xFF00 256 .write (base + 0xFF00) ⟨base, false, 15⟩ &&
        passes s false 0xFF00 8 .both (base + 0xFF00) ⟨base, false, 15⟩) = true ∧
    window ((mapped 0x80000000000 {}).place 0x8000000FF00) = .nv ∧ ((mapped 0 {}).strand 0).loadQ.length < 64 := by decide +kernel
/-- MarksAndPublications: a MARK whose other half is held, one alone; the last tile a key can name, and one past it. -/
theorem test_met_marks : ok [.mark .ld ⟨1, 1⟩, .mark .st ⟨1, 1⟩, .tagpubSet (rg 15 1 0 3), .tagpubClearTile (rg 15 1 0 12), .tagpubClearTensor (rg 15 1 0 19),
      .tagpubSet (rgx 15 1 0 3 0 0xFFF)] = true ∧ issues (at_ { s := [(1, 0xFFFFFFFFF)] }) [.s 1] = true ∧
    (let s := at_ { eng := [(6, ⟨.mark .st ⟨1, 1⟩, 0⟩)] };
      s.pkg.viral = false ∧ s.activeOf s.cur = some 0 ∧ (s.strand 0).eng = [(6, ⟨.mark .st ⟨1, 1⟩, 0⟩)] ∧ (s.strand 0).barWait = none ∧
        (s.strand 0).inFlight [] ≤ 16 ∧ (s.strand 0).loadQ.length < 64 ∧ (s.strand 0).storeQ.length < 64) ∧
    (0xFFFFFFFFF % 2 ^ 36 + 0 ≤ 2 ^ 36 - 1) ∧ 2 ^ 36 - 1 < 0xFFFFFFFFF % 2 ^ 36 + 0xFFF := by decide +kernel

/-! ## Matrix unit and accumulators at issue -/

/-- Routine table entry 7 (START 0, OWN 0x000F, GANG 0, VALID), and descriptors of the whole microcode store and routine table. -/
theorem test_met_matrix_queue :
    ok [.mcall ⟨7, 1, 0, none⟩, .mlduc (rg 15 1 2 0), .mldrt (rg 15 1 3 0), .mabort, .mstat (rg 3 0 0 0), .mstatCsat (rg 3 0 0 3), .mstatFault (rg 3 0 0 1),
      .mstatTake (rg 3 0 0 2), .mstatSetm (rg 7 1 0 4), .mstatGetm (rg 3 7 0 5)] = true ∧
    (let s := at_ { s := [(1, 0x58000), (2, 0x1000000), (3, 0x10000)] } { rtab := [(7, 0xF000000001000)] };
      issues s [.s 1, .s 2, .s 3] [.s 3] = true ∧ bitOf (look 0 (s.core 0).rtab 7).toNat 12 = true ∧ fld (look 0 (s.core 0).rtab 7).toNat 46 2 = 0 ∧
        (s.core 0).outstanding 0 < 4 ∧ 0 < fld 0x1000000 12 13 ∧ fld 0x1000000 0 12 + fld 0x1000000 12 13 ≤ 4096 ∧
        0x58000 + 8 * fld 0x1000000 12 13 ≤ 0x60000 ∧ 0x58000 % 8 = 0 ∧ 0 < fld 0x10000 8 9 ∧ fld 0x10000 0 8 + fld 0x10000 8 9 ≤ 256) ∧
    (let s := at_ { s := [(1, 0x5FFFC), (2, 0x1000), (3, 0x100), (4, 0x5FFF8), (5, 0x2000)] } { rtab := [(7, 0x400000001000)], mxq := [⟨0, 0, true, 0, 0, 0, 0, .ldUc 0 0 1⟩] };
      issues s [.s 1, .s 2, .s 3, .s 4, .s 5] = true ∧ bitOf (look 0 (s.core 0).rtab 7).toNat 12 = true ∧ fld (look 0 (s.core 0).rtab 7).toNat 46 2 ≠ 0 ∧
        ¬ 4 ≤ (s.core 0).outstanding 0 ∧ ¬ 0 < fld 0x100 12 13 ∧ ¬ 0 < fld 0 8 9 ∧ 0x5FFFC % 8 ≠ 0 ∧ 0x60000 < 0x5FFF8 + 8 * fld 0x2000 12 13) ∧
    (let q : MxEntry := ⟨0, 0, true, 0, 0, 0, 0, .ldUc 0 0 1⟩; 4 ≤ ((at_ {} { mxq := [q, q, q, q] }).core 0).outstanding 0) ∧
    bitOf (look 0 (at0.core 0).rtab 7).toNat 12 = false ∧ (∀ p ∈ (at0.strand 0).sem, ∀ c ∈ p.2, c.mark = none) := by decide +kernel
/-- Accumulators: row 1023 free, staged, and in a bank that a routine owns. -/
theorem test_met_accumulators :
    ok [.ard (ac 3 1023 1), .aclr (ac 0 1023 0), .awr (ac 3 1023 0), .aacc (ac 3 1023 0), .aacc (acx 3 1023 0 1 0 3), .aacc (acx 3 1023 0 1 0 0x41), .adrn (ac 31 1023 0),
      .aow (ac 0 1023 0)] = true ∧
    issues at0 [.s 1, .v 3] [.v 3] 1 = true ∧ bitOf (at0.core 0).ownedMask (1023 / 64) = false ∧ (at0.cluster 0).accepts (31 % 16) 0 = true ∧
    (∀ g ∈ (at0.core 0).staging, g.row ≠ 1023) ∧ (ac 3 1023 1).at_ (at0.strand 0) = 1023 ∧
    (let g : Staged := ⟨0, 0, 1023, 1, false, false, false, true⟩;
     let s := at_ {} { staging := [g] };
      issues s [.s 1] = true ∧ (s.core 0).staging.find? (fun g => decide (g.row = 1023)) = some g) ∧
    (let s := at_ {} { owned := [(0, (1, 0x8000))] };
      issues s [.s 1, .v 3] [.v 3] 1 = true ∧ bitOf (s.core 0).ownedMask (1023 / 64) = true) ∧
    (({ at0 with clusters := [(0, { ring := [(15, { state := .submitted })] })] } : State).cluster 0).accepts (31 % 16) 0 = false := by decide +kernel

/-! ## Hod commands at issue -/

/-- HodCommands: the longest copy, at the scratchpad's end; every command well formed; an empty channel. -/
theorem test_met_hod :
    ok [.hcopyS2s (hcx 1 2 15 3 0 4 0 0), .hcopyG2s (hcx 1 2 15 3 1 4 0 0), .hcopyG2t (hcx 1 2 15 3 2 0 4 0x40000), .hfill (hcx 1 2 15 3 0 4 0 0),
      .hfillT (hcx 1 2 15 3 1 0 4 0x40000), .htile (hcx 1 2 15 3 0 4 0 0), .htwr (hcx 1 2 15 3 0 4 0 0x40000), .hsched (hc 1 0 15 3 0), .hstep (hc 4 0 15 3 0),
      .hmcast (hcx 1 2 15 0 0 5 0 15), .hmwait (hc 0 0 15 3 0), .hadd (hcx 1 2 15 3 0 6 0 0), .hpub (hc 1 2 15 0 2), .hpubRing (hc 1 2 15 0 10),
      .hwm (hcx 1 7 15 0 0 8 0 0), .hwmOff (hc 0 0 15 0 1), .hstat (hc 1 0 15 0 0), .hstatStage (hc 1 0 15 0 1), .hstatLast (hc 1 0 15 0 2)] = true ∧
    (let s := at_ { s := [(4, 393216), (5, 65536), (6, 1024), (7, 0x1FFFF), (8, 0x20000)] };
     issues s [.s 1, .s 2, .s 4, .s 5, .s 6, .s 7, .s 8] [.s 1] = true ∧ ((s.cluster 0).chan 15).queue.length < 8 ∧
      [393216, 65536].all (fun v => decide (0 < v ∧ v % 128 = 0 ∧ v ≤ 393216)) = true ∧ (0 : Nat) + 393216 ≤ 0x60000 ∧
      (hcx 1 2 15 3 0 4 0 0).c (s.strand 0) = 393216 ∧ (0x1FFFF + 1) % 128 = 0 ∧ 0x1FFFF - 0 + 1 ≤ 131072 ∧ 0x20000 % 128 = 0 ∧ 0x20000 ≤ 0x1FFFF + 1 - 0 ∧
      0x1FFFF < 0x60000) := by decide +kernel

/-! ## Tasks, barriers, contexts -/

/-- A launch of context 0 with one task on strand 0. -/
def task0 (weight : Nat) : Task := { id := 0, child := none, die := 0, weight := weight, run := .bound 0 }
def launch0 (ts : List Task) : Launch :=
  ⟨1, 0, 0, 0, 1, 0, false, true, 0, 1, [], [], [], [], [], [], 0, 0, none, 0, 0, ts, [], false, false⟩
def ctx0 (ts : List Task) : Ctx := { life := .live, launches := [launch0 ts] }
/-- Strand 0 runs TASK 0 of launch 1 of context 0. -/
def tasked (weight : Nat) (st : Strand := {}) : State :=
  at_ { st with launch := 1 } {} { State.reset with contexts := [(0, ctx0 [task0 weight])] }
theorem test_met_tasks : ok [.launch (rgx 3 1 0 0 0 15), .spawn (rg 3 1 0 0), .spawn (rgx 3 1 0 0 4 0), .spawnAt (rg 3 1 2 1), .exit (rg 0 0 0 0),
      .exitErr (rg 0 1 0 1)] = true ∧
    (let s := at_ { s := [(1, 0xFFFFFFFFFFFFFFC0)] }; issues s [.s 1] [.s 3] = true ∧ canonVa 0xFFFFFFFFFFFFFFC0 = 0xFFFFFFFFFFFFFFC0 ∧
      (0xFFFFFFFFFFFFFFC0 : Word).toNat % 64 = 0) ∧
    [1, 2].all (fun w => issues (tasked w) [.s 1, .s 2, .s 4] [.s 3] && decide ((tasked w).taskOf 0 = some (launch0 [task0 w], task0 w))) = true ∧
    ((tasked 2).strand 0).getS 2 = 0 ∧ ((tasked 2 { s := [(2, 6)] }).strand 0).getS 2 = 6 ∧ (6 : Word).toNat % 4 ≠ 0 := by decide +kernel
/-- BarriersAndTagWaits: a task in a domain, before and after its arrival, with the phase open and complete; one outside a domain. -/
theorem test_met_barriers : ok [.bar (rg 0 0 0 0), .barArrive (rg 0 0 0 1), .barWait (rg 0 0 0 2), .tagwait (rg 0 1 0 3), .tagwait (rgx 0 1 0 4 4 0)] = true ∧
    [none, some 0, some 1].all (fun ph => let s := tasked 2 { domain := 0x2000000000000000, barPhase := ph }
      issues s [.s 1, .s 4] && decide (domLevel (s.strand 0).domain ≠ 0)) = true ∧
    ((tasked 2 { domain := 0x2000000000000000 }).strand 0).barPhase ≠ some ((tasked 2 { domain := 0x2000000000000000 }).phaseOf 0) ∧
    issues at0 = true ∧ domLevel (at0.strand 0).domain = 0 ∧
    ((tasked 2 { domain := 0x2000000000000000, barPhase := some 0 }).strand 0).barPhase = some ((tasked 2 { domain := 0x2000000000000000, barPhase := some 0 }).phaseOf 0) := by decide +kernel
/-- SwitchParkAndWake, EstimatesAndPersistBarrier. -/
theorem test_met_switch : ok [.cswitch (rg 3 1 0 0), .park (rg 3 1 0 0), .wake (rg 0 1 0 0), .wakeAt (rg 0 1 2 1), .wakeIn (rgx 0 1 2 2 0 0x3FFFFFF),
      .estset (rgx 0 1 0 0 0 0x3FFFFFF), .estsetWake (rg 0 1 0 1), .pbar (rg 15 0 0 7)] = true ∧
    issues (tasked 2) [.s 1, .s 2] [.s 3] = true ∧ ((tasked 2).strand 0).tl = false ∧
    (∀ p ∈ (tasked 2).taskOf 0, p.1.persist = false) ∧ (tasked 2).liveHandle 0 = true ∧ ((tasked 2).strand 0).storeQ.length < 64 ∧
    (let e := asked .pbar 0 0 0 0; let s := tasked 2 { storeQ := List.replicate 64 e, loadQ := List.replicate 64 e };
      issues s [.s 1] = true ∧ 64 ≤ (s.strand 0).storeQ.length ∧ 64 ≤ (s.strand 0).loadQ.length) := by decide +kernel

/-! ## Matrix routines -/

/-- A routine of strand 0 at a word index, every bank its own. -/
def entry0 : MxEntry := ⟨0, 0, true, 0, 0, 0, 1, .call 0 0 0xFFFF 0 []⟩
def routine0 (pc : Nat) (mp : SMap (BitVec 32) := []) (done : Option (Option Mark) := none) : Routine :=
  ⟨entry0, pc, mp, [], [], 0, none, [], [], [], false, false, done⟩
/-- Core 0 runs it. -/
def routined (r : Routine) : State := at_ {} { run := some r }
/-- `MicroReady` on core 0 as a computation. -/
def microReady (r : Routine) (scl : Option MmScl) (reads : List (Nat × Nat)) (groups : List Nat) : Bool :=
  !r.wait && r.done.isNone && ((routined r).core 0).unfilledParts (reads ++ scaleReads r scl) == false &&
    (scaleReads r scl).all (fun p => decide (p.1 % 128 = 0 ∧ p.1 + p.2 ≤ 0x60000 ∧ p.1 / 0x18000 = (p.1 + p.2 - 1) / 0x18000 ∧ p.1 / 0x18000 ∉ groups))
theorem microReady_spec {r scl reads groups} (h : microReady r scl reads groups = true) : MicroReady (routined r) 0 r scl reads groups := by
  simp only [microReady, Bool.and_eq_true, List.all_eq_true, decide_eq_true_eq, Bool.not_eq_true', beq_iff_eq, Option.isNone_iff_eq_none] at h
  exact ⟨rfl, h.1.1.1, h.1.1.2, fun p hp => ⟨⟨(h.2 p hp).1, (h.2 p hp).2.1, (h.2 p hp).2.2.1⟩, (h.2 p hp).2.2.2⟩, h.1.2⟩
/-- MicroOps: the last word but one, with the highest scale load of a bank group; a jump at the last word. -/
theorem test_met_micro : let r := routine0 4094 [(2, 0x17F00)];
    microReady r none [] [] = true ∧ microReady r (some ⟨7, 2, 1⟩) [] [] = true ∧ (afterWord 4094 []).2 < 4096 ∧
    (∀ i < 1024, bitOf r.ownOf (bankOf (0 + i)) = true) ∧ 255 + 1 ≤ 256 ∧ ((routined r).cluster 0).accepts 15 0 = true ∧
    setpRsv ⟨0, 15, 0, 1, 5, 0⟩ = false ∧ setpRsv ⟨0, 7, 1, 1, 5, 0⟩ = false ∧ mloopRsv ⟨3, 15, 4095, 1⟩ = false ∧ 4094 < (4095 : BitVec 12).toNat ∧
    (afterWord 4095 (del [] 3)).2 = 4096 ∧ (afterWord 4094 (upd [] 3 (1, 4095, 4095))).2 < 4096 ∧
    microReady (routine0 4095) none [] [] = true := by decide +kernel
/-- MatrixMac: I8 operands in two bank groups, the block open and just begun; IntegerBlock: a block at the last rows. -/
theorem test_met_mac : let r := routine0 0 [(1, 0x18000), (2, 768)];
    mmClass 0xC = 1 ∧ mmClass 0xD = 1 ∧ mmShape 1 0 = some (128, 128, 8) ∧ r.gangOf = 0 ∧ (0 : Nat) % 128 = 0 ∧ 0x18000 % 128 = 0 ∧
    0 / 0x18000 = (0 + 1023) / 0x18000 ∧ 0x18000 / 0x18000 = (0x18000 + 1023) / 0x18000 ∧ 0 / 0x18000 ≠ 0x18000 / 0x18000 ∧
    (∀ i < 256, bitOf r.ownOf (bankOf (768 + i)) = true) ∧ microReady r none [(0, 1024), (0x18000, 1024)] [0, 1] = true ∧ 768 + 128 * 128 / 64 ≤ 1024 := by
  decide +kernel
/-- MatrixRoutines: words that fail, entries that begin, a routine that waits no more, one that has ended. -/
theorem test_met_routines :
    (let r := routine0 4095 [(3, 64)];
      ((routined r).core 0).run = some r ∧ r.wait = false ∧ r.done = none ∧ 4096 ≤ (afterWord 4095 []).2 ∧ mmClass 0xC ≠ mmClass 0xE ∧
        setpRsv ⟨0, 9, 0, 0, 0, 0⟩ = true ∧ mloopRsv ⟨0, 0, 4095, 1⟩ = false ∧ (4095 : BitVec 12).toNat ≤ r.pc ∧ 256 < 1 + (255 + 1)) ∧
    (let r := routine0 0 [(3, 64)];
      ((routined r).core 0).run = some r ∧ r.wait = false ∧ r.done = none ∧ (afterWord 0 []).2 < 4096 ∧ (r.ptr 3).toNat % 128 ≠ 0) := by decide +kernel
theorem test_met_bank_fault : let r : Routine := { routine0 0 with entry := { entry0 with kind := .call 0 0 0xFFFE 0 [] } };
    ((routined r).core 0).run = some r ∧ r.wait = false ∧ r.done = none ∧ bitOf r.ownOf (bankOf ((r.ptr 0).toNat % 1024 + 0)) = false := by decide +kernel
/-- MatrixRoutines: a shape no class has, a routine of another gang, SATM outside integers, another tile than the open block's, a tile and
a drain in a bank that is not owned, a reserved loop source; a drain to a slot that does not accept it, a scale load above a watermark. -/
theorem test_met_word_checks :
    (let r : Routine := { routine0 0 [(1, 0x18000), (2, 768)] with kphase := 8, block := some ⟨0, 0xC, 0xD, 0, false, false, 0, 0, [], false⟩ };
      ((routined r).core 0).run = some r ∧ mmShape (mmClass 0xC) 2 = none ∧ mmClass 0 ≠ 1 ∧ mmShape (mmClass 0) 0 = some (128, 128, 8) ∧
        r.block = some ⟨0, 0xC, 0xD, 0, false, false, 0, 0, [], false⟩ ∧ r.kphase ≠ 0 ∧ (0 : BitVec 32) ≠ r.ptr 2) ∧
    (let r : Routine := { routine0 0 [(1, 0x18000), (2, 768)] with entry := { entry0 with kind := .call 0 1 0x7FFF 0 [] } };
      r.gangOf = 1 ∧ mmClass 0xC ≠ 5 ∧ r.block = none ∧ bitOf r.ownOf (bankOf ((r.ptr 2).toNat % 1024 + 192)) = false) ∧
    mloopRsv ⟨0, 9, 5, 1⟩ = true ∧
    (let s : State := { routined (routine0 0) with clusters := [(0, { ring := [(1, { state := .submitted })] })] };
      (s.core 0).run = some (routine0 0) ∧ 0 + (0 + 1) ≤ 256 ∧ bitOf (routine0 0).ownOf (bankOf (0 + 0)) = true ∧ (s.cluster 0).accepts 1 0 = false) ∧
    (let s := at_ {} { run := some (routine0 0), wm := [(0, ⟨true, 0, 0xFFF, 0, []⟩)] };
      scaleReads (routine0 0) (some ⟨7, 3, 0⟩) = [(0, 128)] ∧ (s.core 0).unfilledParts [(0, 128)] = true) := by decide +kernel
/-- Heads of the queue. -/
theorem test_met_entries :
    (∀ k ∈ [MxKind.call 0 0 0xFFFF 0 [], .ldUc 0 0 4096, .ldRt 0 0 256],
      let m : MxEntry := { entry0 with kind := k };
      let s := at_ {} { mxq := [m] };
      (s.core 0).run = none ∧ (s.core 0).mxq = [m] ∧ (s.strand (8 * 0 + m.strand)).count m.sem < 0xFFFF) ∧
    (∀ i < 256, fld ((at0.core 0).sp (0 + 8 * i) 8) 13 33 = 0) ∧
    (let r : Routine := { routine0 0 with wait := true };
      let s := at_ {} { run := some r };
      (s.core 0).run = some r ∧ r.wait = true ∧ stillWaits 0 s r = false) ∧
    (let r := routine0 0 [] (some (some ⟨2, 0x210, 0, 0, 0⟩));
      ((routined r).core 0).run = some r ∧ r.done = some (some ⟨2, 0x210, 0, 0, 0⟩) ∧ r.entry.live = true ∧
        ((routined r).strand 0).count r.entry.sem < 0xFFFF ∧
        ((((routined r).strand 0).sem.map (fun p => (p.2.filter (fun c => c.mark.isSome)).length)).sum < 64)) := by decide +kernel

/-! ## Turns of a core -/

/-- Two strands of core 0: strand 0 ACTIVE, strand 7 as given. -/
def two (r : Run) (co : Core := {}) (r0 : Run := .active) : State :=
  { State.reset with strands := [(0, { run := r0 }), (7, { run := r })], cores := [(0, co)] }
theorem test_met_turns :
    (let s := at_ { words := [0xA0800001, 0x0B100001] };
      (s.core 0).active = some 0 ∧ (s.core 0).count < 65536 ∧ (slotOf (.wait ⟨1, 1⟩)).isSome = true ∧ ok [.wait ⟨1, 1⟩] = true ∧
        ([0xA0800001, 0x0B100001] : List (BitVec 32)).map BitVec.toNat = encode (.wait ⟨1, 1⟩) ∧ (s.strand 0).words = [0xA0800001, 0x0B100001] ∧
        (s.strand 0).res = .fresh) ∧
    (let s := two .eligible;
      (s.core 0).active = none ∧ (s.strand (8 * 0 + ((s.core 0).last + 8) % 8)).run = .eligible ∧
        ∀ j < 8, 1 ≤ j → (s.strand (8 * 0 + ((s.core 0).last + j) % 8)).run ≠ .eligible) ∧
    (let s := two (.blocked .ending) { active := some 0, count := 65536 };
      (s.core 0).active = some 0 ∧ 65536 ≤ (s.core 0).count ∧ ∀ j < 8, j ≠ 0 → (s.strand (8 * 0 + j)).run ≠ .eligible) ∧
    (let s := two .eligible { active := some 0, count := 65536 };
      (s.core 0).active = some 0 ∧ 65536 ≤ (s.core 0).count ∧ (s.strand 7).run = .eligible) := by decide +kernel
/-- A BLOCKED strand whose condition is met, for each condition, and a walk that returns. -/
theorem test_met_unblock :
    (∀ why ∈ [Why.sem 1 0, .loadFull, .storeFull, .hodFull 15, .watermark [(0, 4)], .phase 1],
      ((two (.blocked why)).strand 7).run = .blocked why) ∧
    0 ≤ (at0.strand 7).count 1 ∧ (at0.strand 7).loadQ.length < 64 ∧ ((at0.cluster 0).chan 15).queue.length < 8 ∧
    (at0.core 0).unfilledParts [(0, 4)] = false ∧ at0.phaseOf 7 ≠ 1 ∧
    (let s : State := { State.reset with strands := [(7, { run := .blocked (.semAny 2), sem := [(1, [⟨none, none, 0, none⟩])] })] };
      (s.strand 7).run = .blocked (.semAny 2) ∧ bitOf 2 1 = true ∧ 1 ≤ (s.strand 7).count 1) ∧
    (let s : State := { two (.blocked (.tag 5 1)) with contexts := [(0, { life := .live, nextId := 2, doneIds := [1] })] };
      (s.strand 7).run = .blocked (.tag 5 1) ∧ s.judgeKey (s.ctxOf 7) 5 1 ≠ .waits) ∧
    (let s : State := { two (.blocked (.walk 0 .read)) with dies := [(0, { tlb := [(0, ⟨0, false, 15, 1⟩)] })] };
      (s.strand 7).run = .blocked (.walk 0 .read) ∧ (s.strand 7).walk = none ∧ find? (s.core 0).tlb 0 = none ∧
        find? (s.die 0).tlb 0 = some ⟨0, false, 15, 1⟩ ∧ tlbKey (s.ctx (s.ctxOf 7)).asid 0 = 0) := by decide +kernel

/-! ## Global accesses performed -/

/-- A read of a die has its bytes. -/
def gotData (g : Got) : Bool := match g with | .data _ _ _ => true | _ => false
/-- A gate that lets an access through. -/
def opens (s : State) (pa n : Nat) (write : Bool) : Bool := decide ((s.gate pa n write).2 = .ready)
/-- Strand 0 with one entry in its load queue, or in its store queue. -/
def loading (g : GEntry) : State := at_ { loadQ := [g] }
def storing (g : GEntry) (st : Strand := {}) : State := at_ { st with storeQ := [g] }
/-- Loads, stores to a home of the own and of another die, PREF and MARK. -/
theorem test_met_accesses :
    (let g : GEntry := { asked .load 1 0 0xFF00 256 with reg := some (.v 63) };
      let s := loading g;
      (s.strand 0).loadQ[0]? = some g ∧ s.mayPerform 0 g = true ∧ window (s.place g.pa) ≠ .peer ∧ (s.strand 0).run ≠ .blocked .ending ∧
        gotData (s.readDie 0 g.mask (sectorParts g.pa g.size) 0 false []) = true) ∧
    (homeDie 0 = 0 ∧ (0 : Nat) % 128 + 128 ≤ 128 ∧ fld (2 ^ 128 - 1) 0 128 ≠ 0 ∧ at0.shadows = [] ∧ at0.pkg.remap = [] ∧ at0.anyOwned = false ∧
      opens at0 0 128 false = true ∧ at0.hBad 0 128 = false) ∧
    (let g : GEntry := asked .store 1 0 0xFFF8 8;
      let s := storing g;
      (s.strand 0).storeQ[0]? = some g ∧ s.mayPerform 0 g = true ∧ g.pa % 128 + g.size ≤ 128 ∧ fld g.mask 0 g.size ≠ 0 ∧ homeDie (s.place g.pa) = 0 ∧
        opens s g.pa g.size true = true ∧ (s.gate g.pa g.size true).1.mustHold g.pa = false ∧ s.anyOwned = false ∧
        look false s.badTag (s.place g.pa / 128) = false) ∧
    (let g : GEntry := { asked .release 1 0 0x1000078 8 with rel := true, scope := 4 };
      let s := storing g;
      (s.strand 0).storeQ[0]? = some g ∧ s.mayPerform 0 g = true ∧ g.pa % 128 + g.size ≤ 128 ∧ fld g.mask 0 g.size ≠ 0 ∧
        window (s.place g.pa) ≠ .peer ∧ homeDie (s.place g.pa) ≠ 0) ∧
    (let g : GEntry := asked .pref 0 0 0 1; ((loading g).strand 0).loadQ[0]? = some g ∧ ((loading g).strand 0).run ≠ .blocked .ending) ∧
    (let g : GEntry := { asked (.mark 0) 0 0 0 0 with scope := 5 };
      ((loading g).strand 0).loadQ = [g] ∧ (loading g).loadsDone 0 g.num = true) := by decide +kernel
theorem test_met_copies :
    (let s : State := { State.reset with dies := [(1, { flights := [.fill 0], copies := [(0, ⟨1, 0, 1, 0⟩)] })] };
      (s.die 1).flights[0]? = some (.fill 0) ∧ (s.die 1).firstOf 0 = true ∧ opens s 0 128 false = true ∧ ((s.die 1).copy 0).loc = 1) ∧
    (let s : State := { State.reset with dies := [(1, { flights := [.through 0 1 1 false 384 0] })] };
      (s.die 1).flights[0]? = some (.through 0 1 1 false 384 0) ∧ (s.die 1).firstOf 0 = true ∧ opens s 0 128 true = true ∧
        (s.gate 0 128 true).1.mustHold 0 = false ∧ s.anyOwned = false ∧ look false s.badTag (s.place 0 / 128) = false) ∧
    (let s : State := { State.reset with dies := [(1, { copies := [(0, ⟨1, 2, 1, 0⟩)] })] }; ((s.die 1).copy 0).clean ≠ 0) := by decide +kernel
/-- AtomicEngine: ATOM ADD of strand 0 to its own die's HBM4E; a dirty sector of the engine. -/
theorem test_met_atomics :
    (let g : GEntry := { asked (.atomic 0 true) 1 0 0x78 8 with reg := some (.s 3), data := 1 };
      let s := storing g;
      s.pkg.viral = false ∧ s.waitingAtomic (4 * 0 + ((s.cluster 0).served + 1 + 0) % 4) = some (0, g, 0, true) ∧
        (match s.performAtomic 0 g 0 true with | .served _ => true | _ => false) = true ∧ window g.pa = .hbm ∧ homeDie g.pa = dieOfStrand 0 ∧ g.pa % g.size = 0 ∧ s.shadows = [] ∧
        s.pkg.remap = [] ∧ s.anyOwned = false ∧ s.gate g.pa g.size true = (s, .ready) ∧ s.hBad g.pa g.size = false ∧ s.hPoison g.pa g.size = false) ∧
    (let a : AtomSector := ⟨0, 1, 0, true, []⟩;
      let s : State := { State.reset with clusters := [(0, { store := [a] })] };
      (s.cluster 0).store.any (fun b => b.sector = 0) = true ∧ s.owned? 0 = some a ∧ a.dirty = true) := by decide +kernel

/-! ## Tag tables, PBAR and answers -/

/-- A tag operation of function `fn` on its way to die 0. -/
def tagging (fn : Nat) (tags : List TagRow) : State :=
  { State.reset with contexts := [(0, { life := .live })], dies := [(0, { tags := tags, tagOps := [⟨fn, 0, 1, 0, 0x300000001005, 1, 4, 0, 0, none, 0xFFFFFFFF⟩] })] }
theorem test_met_tables :
    (∀ fn ∈ [0, 1, 2], (tagging fn []).nextTag 0 = some (0, ⟨fn, 0, 1, 0, 0x300000001005, 1, 4, 0, 0, none, 0xFFFFFFFF⟩) ∧ ((tagging fn []).ctx 0).life = .live) ∧
    (tagging 0 []).tagRow 0 0x300000001005 = none ∧ ((tagging 0 []).die 0).hasCoarse 0 0x300000001005 = false ∧
    (let t : TagRow := ⟨0, keyHandle 0x300000001005, keyTile 0x300000001005, 255⟩;
      (tagging 0 [t]).tagRow 0 0x300000001005 = some t ∧ genOlder t.gen (keyGen 0x300000001005) = true) ∧
    (∀ p ∈ [false, true], let g : GEntry := { asked .pbar 1 0 0 0 with poison := p };
      let s := storing g;
      firstNum ((s.strand 0).storeQ.filter (fun g => g.kind = .pbar)) = some g ∧ s.nvPending 0 g.num = false ∧ (s.strand 0).run ≠ .blocked .ending ∧
        (s.strand 0).count g.sem < 0xFFFF ∧ (s.strand 0).nvFail = [] ∧
        ((s.strand 0).sem.map (fun p => (p.2.filter (fun c => c.mark.isSome)).length)).sum < 64) ∧
    (let s := at_ { answers := [⟨64, .s 2, 1, none⟩, ⟨0, .s 3, 1, some 7⟩] };
      (s.strand 0).answers.findIdx? (fun a => a.answer.isSome) = some 1 ∧ (s.strand 0).answers[1]? = some ⟨0, .s 3, 1, some 7⟩ ∧
        (s.strand 0).run ≠ .blocked .ending ∧ (s.strand 0).count 1 < 0xFFFF) := by decide +kernel

/-! ## Hod commands as they run -/

/-- Channel 0 of cluster 0 with these fields. -/
def channel (h : HodChan) (x : Cluster := {}) : State := at_ {} {} { State.reset with clusters := [(0, { x with chans := [(0, h)] })] }
/-- A command in progress. -/
def prog (m : HodCmd) (pos total : Nat) : HodProg := ⟨m, none, pos, total, [], 0, 0, [], false, false⟩
def begins (b : Begin) : Bool := match b with | .go _ => true | _ => false
theorem test_met_hod_run :
    (let s := channel { queue := [cmd 0] };
      s.pkg.viral = false ∧ ((s.cluster 0).chan 0).halted = false ∧ ((s.cluster 0).chan 0).queue = [cmd 0] ∧ ((s.cluster 0).chan 0).prog = none ∧
        (cmd 0).isGlobal = false ∧ s.hodQueued 0 0 = false ∧ begins (s.beginCmd 0 0 (cmd 0)).2 = true) ∧
    (let s := channel { queue := [cmd 0], prog := some (prog (cmd 0) 0 128) };
      s.pkg.viral = false ∧ (s.turn 0 (((s.cluster 0).turn + 1 + 0) % 64)).isSome = true ∧ ((s.cluster 0).chan 0).halted = false ∧
        (prog (cmd 0) 0 128).pos < (prog (cmd 0) 0 128).total ∧ s.hodAsked 0 0 = false ∧ s.hodQueued 0 0 = false ∧ (prog (cmd 0) 0 128).tensor = none) ∧
    (let w : HodWrite := ⟨0, 0, 32, 1, false⟩;
      let p := { prog (cmd 0) 128 128 with writes := [w] };
      let s := channel { queue := [cmd 0], prog := some p };
      ((s.cluster 0).chan 0).mcast = [] ∧ ((s.cluster 0).chan 0).prog = some p ∧ ((s.cluster 0).chan 0).halted = false ∧ p.writes = [w]) ∧
    (let w : HodWrite := ⟨3, 0, 32, 1, false⟩; ((channel { mcast := [(5, w)] }).cluster 0).chan 0 = { mcast := [(5, w)] }) ∧
    (let s := channel { queue := [cmd 0], prog := some (prog (cmd 0) 128 128) };
      ((s.cluster 0).chan 0).queue = [(prog (cmd 0) 128 128).cmd] ∧ (cmd 0).live = true ∧ (s.strand (cmd 0).strand).count (cmd 0).sem < 0xFFFF ∧
        (s.strand (cmd 0).strand).run ≠ .blocked .ending ∧ s.hodQueued 0 0 = false) := by decide +kernel
/-- A shadowed tensor whose tile 7 is marked, with its map in HBM4E. -/
def shadow : Shadow := ⟨0, 5, 0, 0x10000, 0x20000, 0x30000, 8, 256, [(1, 1)], [(2, 2)], [(3, 3)], [7]⟩
/-- The bytes of a ring-form publication: one row, tile 7 of tensor 5; DISCARD or not. -/
def ringRec (discard : Bool) : Nat := 1 + (if discard then 2 ^ 41 else 0) + 5 * 2 ^ 128 + 7 * 2 ^ 192
def tensor : Tensor := ⟨0x10000, 0x20000, 0x30000, 8, 64, 256, 1, 64, 0, 32, 0⟩
def ringing (discard : Bool) : State :=
  { channel { queue := [cmd 8], prog := some { prog (cmd 8) 0 0 with recs := [ringRec discard], tensor := some tensor } } { submitted := [(2, 0)] } with
    shadows := [shadow], contexts := [(0, { life := .live })] }
theorem test_met_publication :
    (let s : State := { State.reset with shadows := [shadow] };
      let a := s.remapped (pageList shadow.pm (shadow.tmap + 7 / 8));
      s.shadow? 0 5 = some shadow ∧ shadow.marks.contains 7 = true ∧ (find? shadow.pm ((shadow.tmap + 7 / 8) / 65536)).isSome = true ∧
        look false s.badTag (a / 128) = false ∧ window a ≠ .nv ∧ (s.gateAt a 1 true).2 = .ready ∧ (s.gateAt a 1 true).1.rawHold a = false) ∧
    (∀ n ∈ [1, 2], let p := { prog (cmd 4) 0 0 with stages := n, ready := true };
      let s := channel { queue := [cmd 4], prog := some p };
      ((s.cluster 0).chan 0).prog = some p ∧ ((s.cluster 0).chan 0).queue = [cmd 4] ∧ p.inRec = false ∧ p.recs = [] ∧
        (s.strand (cmd 4).strand).count (cmd 4).sem < 0xFFFF) ∧
    (let s := channel { acks := [(5, [3])] };
      ((s.cluster 0).chan 0).acks.findIdx? (fun a => a.2.contains 3) = some 0 ∧ ((s.cluster 0).chan 0).acks[0]? = some (5, [3]) ∧
        ((s.cluster 0).chan 0).prog = none ∧ ((s.cluster 0).chan 0).mcast = []) ∧
    (let p := prog (cmd 7) 0 1;
      let s := channel { queue := [cmd 7], prog := some p };
      ((s.cluster 0).chan 0).prog = some p ∧ p.pos < p.total ∧ (s.core (4 * 0 + p.cmd.ext % 4)).staging.length < 16 ∧ s.hodAsked 0 0 = false ∧ s.hodQueued 0 0 = false) ∧
    ((channel {} { drains := [(0, 15, 255, 1, true)] }).cluster 0).drains = [(0, 15, 255, 1, true)] := by decide +kernel
theorem test_met_ring :
    (∀ b ∈ [false, true], let s := ringing b;
      s.pkg.viral = false ∧ (s.cluster 0).submitted = [(2, 0)] ∧ (((s.cluster 0).chan 0).prog.map (fun p => p.recs)) = some [ringRec b] ∧
        ((s.cluster 0).chan 0).halted = false ∧ s.hodAsked 0 0 = false ∧ s.hodQueued 0 0 = false ∧ bitOf (ringRec b) 41 = b ∧ bitOf (ringRec b) 40 = false) ∧
    (let s := ringing false;
      (s.epilogueWrite 0 0 { prog (cmd 8) 0 0 with recs := [ringRec false], tensor := some tensor } tensor
        (epilogueTile (ringRec false) ((s.cluster 0).slot 2) none 256)).isSome = true) := by decide +kernel

/-! ## An address space in memory -/

/-- A memory of 64-bit words. -/
def words (l : List (Nat × Nat)) : SMap Byte := l.foldl (fun m p => setBytes m p.1 8 p.2) []
/-- ASID 1: virtual pages 0 and 1 at physical addresses 0x10000 and 0x20000. -/
def tables : List (Nat × Nat) :=
  [(16, 0x1001), (0x1000, 0x2001), (0x2000, 0x3001), (0x3000, 0x4001), (0x4000, 0x5001), (0x5000, 0x1001F), (0x5008, 0x2001F)]
/-- The machine with that address space, more words of memory, and context 0 in it. -/
def space (more : List (Nat × Nat)) (x : Ctx := {}) (s : State := State.reset) : State :=
  { s with mem := words (tables ++ more), contexts := [(0, { x with life := .live, asid := 1 })] }
/-- A kernel descriptor of one strand at virtual address 0x80, ARGS at 0x100, a launch record of one task at 0. -/
def program : List (Nat × Nat) := [(0x10000, 0x80), (0x10008, 0x100), (0x10018, 0x100000000), (0x10090, 0x1000000000000)]
def isOk (r : Read) : Bool := match r with | .ok _ => true | _ => false
def accepts (v : Verdict) : Bool := match v with | .accept _ _ => true | _ => false
def answers (v : Verdict) (st re : Nat) : Bool := match v with | .answer a b _ => a = st && b = re | _ => false

/-! ## Launches and their tasks -/

/-- Launches: a record that is accepted, a context that is FREE, a sequencer's handle that is stale, and what ends a launch. -/
theorem test_met_launch : let m : LaunchMsg := ⟨.task 0 0 1 0, 0, 0, none, false⟩;
    (let s := { space program with dies := [(0, { launches := [m] })] };
      (s.die 0).launches = [m] ∧ s.issuerGone m = false ∧ m.src ≠ .gs ∧ accepts (s.verdict 0 m) = true) ∧
    (let m : LaunchMsg := ⟨.lq 0x20000, 0, 0, none, false⟩;
      let s : State := { State.reset with dies := [(0, { launches := [m] })] };
      (s.die 0).launches = [m] ∧ s.issuerGone m = false ∧ m.src ≠ .gs ∧ answers (s.verdict 0 m) 1 0 = true) ∧
    (let r := 5 * 2 ^ 208;
      (at0.ctx (byts r 24 4 % 65536)).life ≠ .live ∧ ((tasked 2).ctx (byts r 24 4 % 65536)).life = .live ∧
        ((tasked 2).ctx (byts r 24 4 % 65536)).gen.toNat ≠ byts r 24 4 / 65536) := by decide +kernel
theorem test_met_launch_ends :
    (let s := at_ { answers := [⟨0, .s 3, 1, none⟩] };
      (s.strand 0).answers.findIdx? (fun a => a.answer.isNone && a.record = 0) = some 0 ∧ (s.strand 0).answers[0]? = some ⟨0, .s 3, 1, none⟩) ∧
    (let t : Task := { task0 2 with run := .ended 0 };
      let s : State := { State.reset with contexts := [(0, ctx0 [t])] };
      s.task? 0 1 0 = some (launch0 [t], t) ∧ t.run = .ended 0 ∧ t.again = false ∧ s.taskQuiet 0 1 t 0 = true) ∧
    ([0, 0x20].all (fun compl =>
      let l : Launch := { launch0 [{ task0 0 with run := .done }] with returned := 2 ^ 62, compl := compl };
      let s := space [] { launches := [l] };
      decide ((s.ctx 0).launch? 1 = some l) && decide (2 ^ 62 ≤ l.returned) && (s.storeVa (.records 0) 0 0 0x20 32 (l.record s.gtime)).2.isNone) = true) ∧
    (let l : Launch := { launch0 [task0 2] with persist := true, dlevel := 1, dsize := 1, domains := [(0, ⟨0, [(0, 5, 0)]⟩)], placed := true };
      let s : State := { State.reset with contexts := [(0, { life := .live, launches := [l] })] };
      (s.ctx 0).launch? 1 = some l ∧ l.dlevel ≠ 0 ∧ (l.domain 0).arrived = [(0, 5, 0)] ∧ (∃ t ∈ l.tasks, t.child = none ∧ t.id / l.dsize = 0) ∧
        (∀ t ∈ l.tasks, ∃ a ∈ (l.domain 0).arrived, a.2.2 = t.id) ∧ (∀ a ∈ (l.domain 0).arrived, s.arrivalDone 0 1 (levelScope l.dlevel) a = true)) := by
  decide +kernel
/-- DispatchAndBinding: a READY task whose kernel core 0 can take, its binding, and a task to be executed again. -/
def ready0 : Task := { task0 2 with run := .ready }
def offered0 : Task := { task0 2 with run := .offered }
def launchK (t : Task) : Launch := { launch0 [t] with kdesc := 0x80, args := 0x100 }
theorem test_met_dispatch :
    (let s := space program { launches := [launchK ready0] };
      let k := parseKernel 0 0x80 (2 ^ 176);
      s.pkg.viral = false ∧ s.strands = [] ∧ (s.candidates 0).head? = some (0, 0, launchK ready0, ready0) ∧
        (match s.readStruct (.dispatch 0) 0 0 0x80 128 0x0500 with | .ok v => decide (v = 2 ^ 176) | _ => false) = true ∧ (launchK ready0).persist = false ∧
        s.coreFor 0 0 (launchK ready0) ready0 k = some 0) ∧
    (let s0 := space program { launches := [launchK offered0] };
      let s := { s0 with cores := [(0, { bindings := [(0, 0, 1, 0)] })] };
      let k := parseKernel 0 0x80 (2 ^ 176);
      (s.core 0).nextBinding = some (0, 0, 1, 0) ∧ s.task? 0 1 0 = some (launchK offered0, offered0) ∧
        (match s.readStruct (.binding 0) 0 0 0x80 128 0x0500 with | .ok v => decide (v = 2 ^ 176) | _ => false) = true ∧ s.eligible 0 0 1 offered0 k = true ∧
        s.strandFor 0 0 1 0 = some 0 ∧ (match s.loadImages 0 0 0 k with | .ok _ => true | .stop _ _ => false) = true ∧ offered0.area = none) ∧
    (let t : Task := { task0 2 with run := .ended 0, again := true };
      let s : State := { State.reset with contexts := [(0, ctx0 [t])] };
      s.task? 0 1 0 = some (launch0 [t], t) ∧ t.again = true ∧ s.taskQuiet 0 1 t 0 = true) := by decide +kernel
/-- SavesAndWakes. -/
theorem test_met_saves :
    (let s : State := { State.reset with
        strands := [(0, { run := .blocked .saving, save := some .park, launch := 1 })],
        contexts := [(0, { ctx0 [task0 2] with savebase := 0x10000, savecount := 1, savefree := 1 })] };
      (s.strand 0).run = .blocked .saving ∧ (s.strand 0).save = some .park ∧ s.taskOf 0 = some (launch0 [task0 2], task0 2) ∧
        (s.ctx (s.ctxOf 0)).freeArea = some 0 ∧ s.quiet 0 = true ∧ (s.gateAt (s.place (0x10000 + 24576 * 0)) 24576 true).2 = .ready) ∧
    (∀ f ∈ [0, 1, 2], let w : WakeMsg := ⟨0, f, 5, 0, 0⟩;
      let s : State := { State.reset with dies := [(0, { wakes := [w] })], contexts := [(0, { life := .live })] };
      (s.die 0).wakes.findIdx? (fun w => w.f ≠ 0 || s.releaseOk w.strand w.num 4) = some 0 ∧ (s.die 0).wakes[0]? = some w ∧
        s.liveHandle w.handle = true ∧ (s.ctx (w.handle % 65536)).parkedTasks = []) ∧
    (let w : WakeMsg := ⟨0x10000, 1, 5, 0, 0⟩;
      let s : State := { State.reset with dies := [(0, { wakes := [w] })] };
      (s.die 0).wakes.findIdx? (fun w => w.f ≠ 0 || s.releaseOk w.strand w.num 4) = some 0 ∧ s.liveHandle w.handle = false) ∧
    (let t : Task := { task0 2 with parked := .park 5 3 };
      let s : State := { State.reset with gtime := 5, contexts := [(0, ctx0 [t])], strands := [(0, { run := .blocked (.parked false) })] };
      s.task? 0 1 0 = some (launch0 [t], t) ∧ t.parked = .park 5 3 ∧ (5 : Word).toNat ≤ s.gtime.toNat ∧ t.run = .bound 0 ∧
        (s.strand 0).run = .blocked (.parked false)) ∧
    ([none, some 0].all (fun d =>
      let s : State := { State.reset with contexts := [(0, { life := .dying, destroy := d })] };
      decide ((s.ctx 0).life = .dying) && decide (s.strandsOf 0 = []) && decide ((s.ctx 0).destroy = d)) = true) := by decide +kernel
/-- ErrorsAndHealth. -/
theorem test_met_errors :
    at0.hwTasks 0 = [] ∧ (at0.core 0).active.isSome = true ∧
    (let t : Task := { ready0 with errors := 3 };
      let l : Launch := { launch0 [t] with restart := true };
      let s : State := { State.reset with contexts := [(0, { life := .live, launches := [l] })] };
      (s.ctx 0).launch? 1 = some l ∧ l.task? 0 = some t ∧ l.restart = true ∧ t.errors < 4 ∧ t.run = .ready) ∧
    homeDie (128 * 0) = 0 ∧ homeDie (128 * 0) ≠ 1 ∧ window (128 * 0x2FFFFFFFF) = .hbm ∧ look false at0.badTag 0 = false ∧ fld 8 0 4 ≠ 0 ∧
    at0.domainOf (128 * 0) = 0 ∧ (let s : State := { State.reset with pkg := { domains := [(0, 5)] } }; s.domainOf (128 * 0) ≠ 0) ∧
    at0.liveHandle 0 = false ∧ window (128 * 0x300000000) ≠ .hbm ∧ (at0.pkg.stack 15).retired = false ∧ (at0.pkg.stack 15).retiring = false ∧
    (let s : State := { State.reset with pkg := { hbm := [(15, { retiring := true })] } };
      (s.pkg.stack 15).retired = false ∧ (s.pkg.stack 15).retiring = true) := by decide +kernel

/-! ## Queues, migrations and the sequencer -/

/-- `Serves` as a computation. -/
def serves (s : State) (k off v : Nat) : Bool :=
  s.hasHead k && (match s.readPa (s.headPa k) (entrySize k) with | .ok w false => decide (w = v) | _ => false) &&
    usableFor k (byts v off 8)
theorem serves_spec {s k off v} (h : serves s k off v = true) : Serves s k off v := by
  simp only [serves, Bool.and_eq_true] at h
  obtain ⟨⟨h1, h2⟩, h3⟩ := h
  refine ⟨h1, ?_, h3⟩
  split at h2
  · next w e => simp only [decide_eq_true_eq] at h2; rw [e, h2]
  · simp at h2
/-- One entry in a queue at 0x30000. -/
def queued (k v : Nat) (s : State) : State :=
  { s with mem := setBytes s.mem 0x30000 (entrySize k) v, pkg := { s.pkg with queues := [(k, { base := 0x30000, en := true, log2n := 4, prod := 1 })] } }
def isData (r : Read) (v : Nat) : Bool := match r with | .ok w => w = v | _ => false
def judged (r : MigJudge) (m : Mig) : Bool := match r with | .go n => n = m | _ => false
def gated (r : State × Gate) (s : State) : Bool := decide (r = (s, .ready))
/-- Migrations: requests of the host and of Trowel, a page to copy, and what follows. -/
def moved (trowel : Option (Nat × Nat × Bool)) (stage status : Nat) : Mig := ⟨1, 0x10000, false, 0x20000, 0x100000, 0x5008, 0, trowel, stage, status, 0x2005E⟩
theorem test_met_migrations :
    (let v := 1 + 0x10000 * 2 ^ 64 + 0x100000 * 2 ^ 128;
      let s := queued 2 v (space []);
      serves s 2 24 v = true ∧ s.pkg.migs = [] ∧ migFields v = true ∧
        judged (s.judgeMig 0 (byts v 0 2) (bitOf (byts v 2 1) 0) (BitVec.ofNat 64 (byts v 8 8)) (byts v 16 8) (byts v 24 8) none) (moved none 1 0) = true ∧
        gated (s.gateAt 0x5008 8 true) s = true) ∧
    (let s0 := space [];
      let s : State := { s0 with pkg := { trowel := [(0, 0, 0x10000, false)], ppool := [0x40000000000] } };
      s.pkg.viral = false ∧ s.trowelCount < 16 ∧ (s.ctx 0).life = .live ∧ (s.ctx 0).busy = false ∧
        s.moves 0 ⟨0, 0, 0, false, true⟩ .hbm false [0x10000] ≠ [] ∧ s.takePage false = some 0x40000000000 ∧
        judged (s.judgeMig 0 1 false 0x10000 0x40000000000 0 (some (0, 0, false)))
          ⟨1, 0x10000, false, 0x20000, 0x40000000000, 0x5008, 0, some (0, 0, false), 1, 0, 0x2005E⟩ = true ∧ gated (s.gateAt 0x5008 8 true) s = true) ∧
    (let s : State := { State.reset with pkg := { migs := [moved none 1 0] } };
      s.pageQuiet 2 = true ∧ s.anyOwned = false ∧ s.pkg.remap = [] ∧ decide (s.gateMig (moved none 1 0) = (s, true)) = true ∧
        (List.range 512).all (fun k => !look false s.badTag (0x20000 / 128 + k)) = true ∧ gated (s.gateAt 0x5008 8 true) s = true) := by
  decide +kernel
/-- RegistersAndKeys, InvalidationAndLaunchQueue. -/
theorem test_met_registers :
    (BitVec.ofNat 32 3 - ((queued 1 0 {}).pkg.queue 1).cons).toNat = 3 ∧ State.reset.domainOf 0 = 0 ∧
    window 0x30000 = .hbm ∧ 0x30000 % 65536 = 0 ∧ window 0x40000000000 = .pooled ∧ bitOf 1 0 = true ∧ bitOf 0 1 = false ∧
    (State.reset.pkg.key 7).valid = false ∧ (State.reset.pkg.key 0).valid = true ∧ State.reset.domainNamed 7 = false ∧ State.reset.anyOwned = false ∧
    State.reset.pageQuiet 3 = true ∧ gated (State.reset.gatePage 3 true) State.reset = true := by decide +kernel
theorem test_met_invalidation :
    ([1 + 2 ^ 32 + 2 ^ 128, 2 + 2 ^ 32, 3, 4].all (fun v => let s := queued 3 v State.reset;
      serves s 3 24 v && iqFields v && s.canRecallAll && s.drainedFor .all && s.drainedFor (.asid 1) && s.drainedFor (.pages 1 0 1)) = true) ∧
    (let v := 0x80 + 5 * 2 ^ 64;
      let s := queued 0 v State.reset;
      s.hasHead 0 = true ∧ s.lqBusy = false ∧ (match s.readPa (s.headPa 0) 32 with | .ok w false => decide (w = v) | _ => false) = true ∧
        byts v 12 4 = 0 ∧ byts v 24 8 = 0) := by decide +kernel
/-- HostCommands. -/
theorem test_met_commands :
    (let v := 1 + 5 * 2 ^ 32 + 0x40000 * 2 ^ 64;
      let d := 1 + 0x200000 * 2 ^ 320 + 64 * 2 ^ 384 + 2 ^ 416 + 0x100000 * 2 ^ 448;
      let s0 := queued 1 v State.reset;
      let s := { s0 with mem := setBytes s0.mem 0x40000 128 d };
      s.cqBusy = false ∧ serves s 1 16 v = true ∧ byts v 0 1 = 1 ∧ byts v 1 3 = 0 ∧ byts v 24 40 = 0 ∧ (s.ctx 5).life = .free ∧
        inHostOrHbm 0x40000 128 = true ∧ (match s.readPa 0x40000 128 with | .ok w false => decide (w = d) | _ => false) = true ∧ s.pkg.ctxGood d = true) ∧
    ([2, 3, 4, 5, 6].all (fun op =>
      let s := queued 1 op (space []);
      !s.cqBusy && serves s 1 16 op && decide (byts op 0 1 = op) && s.liveHandle 0 && decide (s.haltedOf 0 = []) && decide ((s.ctx 0).owed = [])) = true) ∧
    ([2, 3, 4, 5, 6, 7].all (fun op => let s := queued 1 op State.reset; !s.cqBusy && serves s 1 16 op && !s.liveHandle 0) = true) := by decide +kernel
/-- The sequencer's block: OCC, draft length, more words. -/
def block (more : List (Nat × Nat)) (g : Gs) : State :=
  let s := space (more.map (fun p => (0x20000 + p.1, p.2)));
  { s with pkg := { gs := { g with ctxh := 0, gb := 0x10000 } } }
/-- Sequencer. -/
theorem test_met_sequencer :
    ([0, 257].all (fun occ => let s := block [(8, occ)] { state := .run }; s.liveHandle 0 && isData (s.readStruct .sequencer 0 s.gsCtx s.gsBlock 11 0x0800) (occ * 2 ^ 64)) = true) ∧
    (let s := block [(8, 1)] { state := .run };
      isData (s.readStruct .sequencer 0 s.gsCtx s.gsBlock 11 0x0800) (2 ^ 64) = true ∧
        chooseSlot (fun n => bitOf (s.pkg.gs.slot n) 0) (occBucket s.pkg.gs.occlim 1) 0 = none) ∧
    (let s := block [(8, 1)] { state := .run, slots := [(0, 0x14001)] };
      let s2 := s.storeVa .sequencer 0 s.gsCtx (s.gsBlock + 0xB) 1 (s.pkg.gs.att + 1).toNat;
      let s3 := s2.1.storeVa .sequencer 0 s2.1.gsCtx (s.gsBlock + 0x840) 256 (2 ^ 2048 - 1);
      let s4 := s3.1.onGs (fun g => { g with att := 1, lastSlot := 0, attempt := some (1, 0), tmpl := 0x14000 });
      isData (s.readStruct .sequencer 0 s.gsCtx s.gsBlock 11 0x0800) (2 ^ 64) = true ∧
        chooseSlot (fun n => bitOf (s.pkg.gs.slot n) 0) (occBucket s.pkg.gs.occlim 1) 0 = some 0 ∧ s2.2.isNone = true ∧ s3.2.isNone = true ∧
        isOk (s4.readStruct .sequencer 0 s4.gsCtx s4.pkg.gs.tmpl.toNat 64 0x0800) = true ∧ fld (s3.1.pkg.gs.slot 0) 6 51 * 64 = 0x14000) ∧
    chooseSlot (fun n => n = 9 || n = 10) 0 7 = some 10 ∧
    (let s := block [(8, 1)] { state := .wait, recheck := true }; isData (s.readStruct .sequencer 0 s.gsCtx s.gsBlock 11 0x0800) (2 ^ 64) = true) := by
  decide +kernel
theorem test_met_commit :
    ([0, 5].all (fun a => let s := block [(0, 6), (8, 1), (0x840, a), (0x40, 7)] { state := .run, attempt := some (1, 4), submitted := true };
      !s.iterating && isData (s.readStruct .sequencer 0 s.gsCtx s.gsBlock 8 0x0800) 6 && isData (s.readStruct .sequencer 0 s.gsCtx (s.gsBlock + 0x840) 1 0x0800) a &&
        isData (s.readStruct .sequencer 0 s.gsCtx (s.gsBlock + 0x40) 1024 0x0800) 7 && decide ((commitLens 1 4 a 7).isSome = (a = 0 : Bool))) = true) ∧
    (let s := block [(0, 6), (8, 1), (0x840, 0), (0x40, 7)] { state := .run, attempt := some (1, 4), submitted := true };
      let v := pack 32 (fun i => ((commitLens 1 4 0 7).getD []).getD i 0) 256 0;
      let s3 := s.storeVa .sequencer 0 s.gsCtx (s.gsBlock + 0x40 + 0x400) 1024 v;
      s3.2.isNone = true ∧ (s3.1.storeVa .sequencer 0 s3.1.gsCtx s.gsBlock 8 9).2.isNone = true) ∧
    ([6, 8].all (fun code => let g : Gs := { state := .run, attempt := some (1, 4), event := some code };
      decide (g.attempt = some (1, 4)) && decide (g.event = some code)) = true) := by decide +kernel
/-- KilnAndReset. -/
theorem test_met_kiln :
    ([none, some (0, 0, 1, 0, 3)].all (fun store =>
      let s : State := { State.reset with dies := [(2, { heldWrites := [⟨0x80000000000, 8, 0xFF, 5, false, store, none⟩] })] };
      decide ((s.die (2 + 0 % 2)).heldWrites = [⟨0x80000000000, 8, 0xFF, 5, false, store, none⟩]) && (s.die 2).kilnRoom) = true) ∧
    ([false, true].all (fun a =>
      let im : KilnImage := ⟨0x1000000000, 5, 0, a, a, [], []⟩;
      let s : State := { State.reset with dies := [(2, { images := [im] })], pkg := { fail := true } };
      decide ((s.die 2).images.find? (fun j => j.sector = 0x1000000000) = some im) && (s.die 2).images.any (fun j => j.sector = 0x1000000000)) = true) ∧
    State.reset.pkg.powered = true ∧ State.reset.nvm = [] ∧ (State.reset.die 2).images = [] ∧ State.reset.lostPages = [] := by decide +kernel
/-- LinesLinksAndViral and RequestsAndPeers. -/
theorem test_met_lines :
    window (64 * 0x800000000) = .host ∧ look false State.reset.badTag (0x800000000 / 2) = false ∧ Mesi.m ≠ .s ∧ Mesi.s ≠ .m ∧
    ([false, true].all (fun own => let s : State := { State.reset with pkg := { cxlReqs := [(0x800000000, own)] } };
      decide (s.pkg.cxlReqs.find? (fun r => r.1 = 0x800000000) = some (0x800000000, own)) && s.pkg.posted.isEmpty) = true) ∧
    (let s := { tasked 2 with pkg := { viral := true } };
      s.pkg.viral = true ∧ (s.strands.map (fun p => p.1)).contains 0 = true ∧ s.running 0 = true) := by decide +kernel
theorem test_met_requests :
    State.reset.closed (hdmPa 0 0) = false ∧ State.reset.closed (hdmPa 1 (0xBFFFFFFFFF / 64 * 64)) = false ∧
    (({ State.reset with pkg := { domains := [(0, 3)] } } : State).closed (hdmPa 0 0) = true) ∧
    (State.reset.die (homeDie (64 * (State.reset.place (hdmPa 0 0) / 64)))).filter.length < 65536 ∧
    ([false, true].all (fun any => let s : State := { State.reset with dies := [(homeDie 0, { bisnp := [(0, any)] })] };
      decide ((s.die (homeDie (64 * 0))).bisnp.find? (fun r => r.1 = 0) = some (0, any)) && s.dies.all (fun p => p.2.replay.isEmpty)) = true) ∧
    ([0x20000, 0x2007F].all (fun pa => window pa = .hbm && !State.reset.closed pa && gated (State.reset.gate pa 1 false) State.reset &&
      gated (State.reset.gate pa 1 true) State.reset) = true) ∧
    ([4, 8].all (fun n => gated (State.reset.gate 0x20000 n true) State.reset && !State.reset.hPoison 0x20000 n) = true) ∧
    State.reset.pkg.fenced 1 = false ∧ (({ fences := [(0, 2)] } : Package).fenced 1 = true) := by decide +kernel
theorem test_met_peers :
    ([GKind.load, .store].all (fun kind =>
      let g : GEntry := ⟨3, kind, some (.s 5), 1, 0, 0x8000000000040, 8, 1, 0, 0, 3, false, false, false, false, 3⟩;
      let s := at_ { loadQ := [g] } {} { State.reset with pkg := { peers := [⟨5, 0x100000000000, 0, 3, none, none⟩] } };
      decide (s.pkg.peers[0]? = some ⟨5, 0x100000000000, 0, 3, none, none⟩) && decide ((s.strand 0).entries.find? (fun g => g.num = 3) = some g) &&
        decide (g.size ≤ 128 - g.pa % 128) && decide (g.pa / 128 = 0x100000000000) && decide (s.pkg.peers.length = 1)) = true) := by decide +kernel

/-! ## Steps, words and results -/

def addBundle : Instr := .sadd .a (rg 3 1 2 0)
/-- The machine after reset with that operation where it fetches. -/
def fetched0 : State := State.reset.withFetchWord 64 (pack 32 (fun k => (encode addBundle).getD k 0) 3 0)
/-- StepRunsDecoded. -/
theorem test_met_step : fetched0.agenda = [] ∧ fetched0.pkg.powered = true ∧ fetched0.pkg.failed = [] ∧ fetched0.activeOf fetched0.cur = some 0 ∧
    (fetched0.core fetched0.cur).count < 65536 ∧ (fetched0.strand 0).words = [] ∧ (fetched0.strand 0).res = .fresh ∧ (slotOf addBundle).isSome = true ∧
    WellFormed addBundle = true := by decide +kernel
theorem lemma_cached {s : State} {n : Nat} {va : Word} {w : BitVec 1024}
    (h : find? (s.core (n / 8)).icache (icacheKey (s.ctx (s.ctxOf n)).asid va.toNat) = some w) :
    s.fetchWord n va = (s, .word (BitVec.ofNat 32 (fld w.toNat (8 * (va.toNat % 128)) 32))) := by
  simp only [State.fetchWord, h]
def code0 : BitVec 1024 := BitVec.ofNat 1024 (pack 32 (fun k => (encode addBundle).getD k 0) 2 0)
theorem test_met_fetch : ∀ k < (encode addBundle).length, (ready fetched0).fetchWord 0 ((fetched0.strand 0).pc + BitVec.ofNat 64 (4 * k)) =
    (ready fetched0, .word (BitVec.ofNat 32 ((encode addBundle).getD k 0))) := by
  have hk2 : ∀ k < (encode addBundle).length, find? ((ready fetched0).core (0 / 8)).icache
      (icacheKey ((ready fetched0).ctx ((ready fetched0).ctxOf 0)).asid ((fetched0.strand 0).pc + BitVec.ofNat 64 (4 * k)).toNat) = some code0 ∧
      BitVec.ofNat 32 (fld code0.toNat (8 * (((fetched0.strand 0).pc + BitVec.ofNat 64 (4 * k)).toNat % 128)) 32) =
        BitVec.ofNat 32 ((encode addBundle).getD k 0) := by decide +kernel
  intro k hk
  rw [lemma_cached (s := ready fetched0) (n := 0) (hk2 k hk).1, (hk2 k hk).2]
/-- StepRunsDecoded: an agenda that names an event, and one that names a routine's word. -/
theorem test_met_agenda :
    (let s : State := { State.reset with agenda := [(3, .event .powerLoss)] }; s.agenda = [(3, .event .powerLoss)] ∧ s.pkg.powered = true) ∧
    (let r := routine0 0;
      let s := { routined r with agenda := [(3, .routine 0)] };
      s.agenda = [(3, .routine 0)] ∧ s.pkg.powered = true ∧ s.pkg.failed = [] ∧ (s.core 0).run = some r ∧ (decodeMicro 0 ((s.core 0).word r.pc)).isSome = true) := by
  decide +kernel
/-- DecodeEncode, IllegalOperations, ResultLatency, MemoryForm. -/
theorem test_met_decode : slotOf addBundle = some .sa ∧ WellFormed addBundle = true ∧ (encodeOp addBundle).isSome = true ∧
    (encodeMicro (.mmEnd 0 none)).isSome = true ∧ WellFormed (.mmEnd 0 none) = true ∧
    (let i := Instr.sadd .a (rg 3 1 2 1); slotOf i = some .sa ∧ Machine.check i = some 1 ∧ at0.pkg.viral = false ∧ at0.activeOf at0.cur = some 0 ∧
      (at0.strand 0).eng = []) ∧
    (let s := at_ {} {} { State.reset with pkg := { viral := true } }; s.pkg.viral = true ∧ s.activeOf s.cur = some 0) ∧
    State.reset.activeOf State.reset.cur = none ∧ Memory.wf State.reset.mem := by decide +kernel
theorem test_met_step_keeps :
    (match step { State.reset with agenda := [(0, .event (.fenceNotice 3))] } with | .next t => decide (Memory.wf t.mem) | _ => false) = true := by decide +kernel
/-- HostCommands: a load with CHECK 0 of an object that holds its signature alone, signed by the key of the first test of RFC 8032. -/
def rfcKey : Nat := 0x1a5107f7681a02af2523a6daf372e10e3a0764c9d3fe4bd5b70ab18201985ad7
def bareSig : Nat :=
  0xdaf82e61b4f471e67d43aea142ebb7fd602228dc156a5071de6f2ea6ffee4dc0fcfc2c1180cf61441fd6066e095d95ca5e50c92900a38a80237abd3dd5a889c
def bare : Nat := 0x514D594E + 2 * 2 ^ 32 + 2 ^ 48 + 64 * 2 ^ 64 + (9 + 96 * 2 ^ 64 + 96 * 2 ^ 128) * 2 ^ 512 + (rfcKey + bareSig * 2 ^ 256) * 2 ^ 768
def request : Nat := 0x50000 + 192 * 2 ^ 64
def loads : State :=
  let s := queued 1 (7 + 0x40000 * 2 ^ 64) (space []);
  { s with
    mem := setBytes (setBytes s.mem 0x50000 192 bare) 0x40000 128 request,
    pkg := { s.pkg with signKeys := [rfcKey] } }
def readIs (r : Rd) (v : Nat) : Bool := match r with | .ok w false => decide (w = v) | _ => false
def loadedOk (r : LoadEnd) : Bool := match r with | .done _ x => x.check = 0 | _ => false
/-- The first test of RFC 8032, and the digest of "abc" in FIPS 180-4. -/
theorem test_sha512 : sha512 3 0x636261 = 0x9fa44ca54fc99a2a0ee83c6423444d45bdebfea3233cba36a8c14f272a9992219ad3554be6ee9e0aa27ea9894efae612314120ae497341ccba7a6193a135afdd := by decide +kernel
theorem test_ed25519 : edVerify rfcKey
    0xb107a8e4341516524be5b59f0f55bd26bb4f91c70391ec6ac3ba3901582b85f5501492265e073d874d9e5b81e7f87848a826e80cce2869072ac60c3004356e5 0 0 = true := by
  decide +kernel
theorem test_met_load :
    loads.cqBusy = false ∧ serves loads 1 16 (7 + 0x40000 * 2 ^ 64) = true ∧ loads.liveHandle 0 = true ∧ loads.domainOf 0x40000 = 0 ∧
      readIs (loads.readPa 0x40000 128) request = true ∧ loadedOk (loads.load? 0 request) = true := by
  exact ⟨by decide +kernel, by decide +kernel, by decide +kernel, by decide +kernel, by decide +kernel, by decide +kernel⟩

/-! ## Operands that trap or block, marks, held completions -/

/-- WAIT and WAITANY over completions that carry marks. -/
def marked : State := at_ { sem := [(1, [⟨none, some ⟨2, 0x210, 7, 1, 0x40⟩, 3, none⟩, ⟨none, none, 4, none⟩])] }
theorem test_met_marked_waits : issues marked = true ∧ 2 ≤ (marked.strand 0).count 1 ∧
    (∀ k ∈ [1, 2], (((marked.strand 0).oldestOf 1 k).filter (fun c => c.mark.isSome)).map (fun c => c.order) = [3]) := by decide +kernel
/-- A call, and RTE, in a delay bundle; RTE to addresses that are not aligned; a call whose delay bundle cannot be read. -/
theorem test_met_delayed :
    (let s := { at_ { delay := some .notTaken } with agenda := [] }.withFetchWord 96 (0xA0800001 * 2 ^ 64);
      let t := (s.fetchWord 0 8).1;
      issues t [.s 1] [.s 63] = true ∧ (t.strand 0).delay ≠ none ∧ s.pkg.viral = false ∧ s.activeOf s.cur = some 0) ∧
    (let s := at_ { tl := true, delay := some .notTaken }; issues s = true ∧ (s.strand 0).tl = true ∧ (s.strand 0).delay ≠ none) ∧
    (let s := at_ { tl := true, xpc := 2 }; issues s = true ∧ (s.strand 0).delay = none ∧ (s.strand 0).xpc.toNat % 4 ≠ 0) ∧
    (let s := at_ { tl := true, dslot := true, xnpc := 0x100000000000000 };
      issues s = true ∧ (s.strand 0).delay = none ∧ ((s.strand 0).xpc.toNat % 4 = 0 ∧ canonVa (s.strand 0).xpc = (s.strand 0).xpc) ∧
        (s.strand 0).dslot = true ∧ canonVa (s.strand 0).xnpc ≠ (s.strand 0).xnpc) ∧
    (let s := at0.withFetchWord 96 (0xA0800001 * 2 ^ 64);
      let t := (s.fetchWord 0 8).1;
      issues t [.s 1] [.s 63] = true ∧ (t.strand 0).delay = none ∧ (({ t with strands := [(0, { run := .active, s := [(1, 2)] })] } : State).strand 0).getS 1 = 2) ∧
    (let t := (at0.fetchWord 0 8).1; issues t [] [.s 63] = true ∧ (t.strand 0).delay = none ∧ (at0.fetchWord 0 8).2 = .miss) ∧
    (let s : State := { at_ { walk := some ⟨8, .fetch, 0x11, 0x0610⟩ } with pkg := {} };
      let t := (s.fetchWord 0 8).1;
      issues t [] [.s 63] = true ∧ (s.fetchWord 0 8).2 = .trap 0x11 0x0610) := by decide +kernel
/-- Every scratchpad form at a misaligned, a last, a passing and a watched address. -/
theorem test_met_scratchpad_forms :
    ok [.spld (ms 3 1 0 0), .spldb (ms 3 1 0 1), .spldx (msx 3 1 0 0 0 1 0), .splds (ms 3 1 0 0), .spst (ms 3 1 0 0), .spstx (msx 3 1 0 0 0 1 0),
      .spsts (ms 3 1 0 0)] = true ∧
    ([1, 0x5FF00, 0x5FF80, 0x60000] : List Word).all (fun a => issues (at_ { s := [(1, a)] }) [.s 1, .s 3, .v 3, .v 1] [.v 3, .s 3] 1) = true ∧
    (let s := at_ { s := [(1, 0x5FF80)] };
      (activeLanes ((ms 3 1 0 0).mask (s.strand 0))).any (fun i => decide (0x60000 < 0x5FF80 + 4 * i + 4)) = true ∧ (0x5FF80 : Nat) % 128 = 0) ∧
    (let s := at_ {} { wm := [(15, ⟨true, 0, 127, 0, []⟩)] };
      issues s [.s 1, .s 3, .v 3, .v 1] [.v 3, .s 3] 1 = true ∧ (s.core 0).unfilledParts [(0, 4)] = true) := by decide +kernel
/-- Every global form: not canonical, misaligned, forbidden, without a translation, DU outside the tier, a full queue. -/
theorem test_met_global_forms :
    ok [.gld (mg 3 1 2 1), .glds (mg 3 1 2 1), .glda (mgx 3 1 2 1 0 5 0), .gst (mgx 3 1 2 1 7 7 0), .gsts (mgx 3 1 2 1 0 7 0), .gstl (mgx 3 1 2 1 0 4 0),
      .atom (rgx 0 1 2 0 0 0x10), .atomr (rgx 3 1 2 0 4 0x1F59)] = true ∧
    ([1, 0x100000000000000] : List Word).all (fun a => issues (at_ { s := [(1, a)] }) [.s 1, .v 3, .s 3, .s 2, .s 4] [.v 3, .s 3]) = true ∧
    (∀ k ∈ [Kind.read, .write, .both], (at_ { walk := some ⟨0, k, 0x11, 0x0610⟩ }).strandTr 0 0 k = .fault 0x11 0x0610) ∧
    (let s := mapped 0 { s := [(1, 0xFF00)] };
      s.strandTr 0 0xFF00 .write = .ok 0xFF00 ⟨0, false, 15⟩ ∧ window (s.place 0xFF00) ≠ .nv) ∧
    (let g : GEntry := asked .load 1 0 0 8;
      let s := mapped 0 { s := [(1, 0xFF00)], loadQ := List.replicate 64 g, storeQ := List.replicate 64 g };
      issues s [.s 1, .v 3, .s 3] = true ∧ s.strandTr 0 0xFF00 .read = .ok 0xFF00 ⟨0, false, 15⟩ ∧ 64 ≤ (s.strand 0).loadQ.length ∧
        64 ≤ (s.strand 0).storeQ.length) := by decide +kernel
/-- Every Hod command: lengths 0 and past the limit, misaligned and passing operands, an empty receiver list, bad watermark bounds. -/
theorem test_met_hod_forms :
    ok [.hcopyS2s (hcx 1 2 15 3 0 4 0 0), .hcopyG2s (hcx 1 2 15 3 1 4 0 0), .hcopyG2t (hcx 1 2 15 3 2 0 4 0x40000), .hfill (hcx 1 2 15 3 0 4 0 0),
      .hfillT (hcx 1 2 15 3 1 0 4 0x40000), .htile (hcx 1 2 15 3 0 4 0 0), .htwr (hcx 1 2 15 3 0 4 0 0x40000), .hsched (hc 1 0 15 3 0), .hstep (hc 1 0 15 3 1),
      .hmcast (hcx 1 2 15 0 0 5 0 15), .hmcast (hcx 1 2 15 0 0 5 0 0), .hadd (hcx 1 2 15 3 0 6 0 0), .hadd (hcx 1 2 15 3 1 6 0 0), .hpubRing (hc 1 2 15 0 10),
      .hwm (hcx 1 7 15 0 0 8 0 0)] = true ∧
    ([(0, 0), (1, 128), (0x5FF80, 256), (0x100000000000000, 128), (0xFFFFFFFF, 65664), (0, 393344)] : List (Word × Word)).all (fun p =>
      issues (at_ { s := [(1, p.1), (2, p.1), (4, p.2), (5, p.2), (6, p.2), (7, p.1), (8, p.2)] })
        [.s 1, .s 2, .s 4, .s 5, .s 6, .s 7, .s 8] = true) = true ∧
    (0xFFFFFFFF + 1) % 2 ^ 32 = 0 ∧ 0x60000 < 0x5FF80 + 256 ∧ 65536 < 65664 ∧ 393216 < 393344 ∧ (0 + 1) % 128 ≠ 0 ∧
    (let s := at_ {} {} { State.reset with clusters := [(0, { chans := [(15, { queue := List.replicate 8 (cmd 0) })] })] };
      issues s = true ∧ ok [.hmwait (hc 0 0 15 3 0), .hfillT (hcx 1 2 15 3 1 0 4 0x40000), .hpub (hc 1 2 15 0 2)] = true ∧
        8 ≤ ((s.cluster 0).chan 15).queue.length) := by decide +kernel
/-- A MARK in ST with LD's half held, and halves that differ. -/
theorem test_met_mark_halves :
    (let s := at_ { eng := [(5, ⟨.mark .ld ⟨1, 1⟩, 0⟩)] };
      s.pkg.viral = false ∧ s.activeOf s.cur = some 0 ∧ (s.strand 0).eng = [(5, ⟨.mark .ld ⟨1, 1⟩, 0⟩)] ∧ (s.strand 0).barWait = none ∧
        (s.strand 0).inFlight [] ≤ 16 ∧ (s.strand 0).loadQ.length < 64 ∧ (s.strand 0).storeQ.length < 64) ∧
    (∀ h ∈ [MemSide.ld, .st], let s := at_ { eng := [if h = .ld then (6, ⟨.mark .st ⟨1, 2⟩, 0⟩) else (5, ⟨.mark .ld ⟨1, 2⟩, 0⟩)] };
      ok [.mark h ⟨1, 1⟩] = true ∧ s.pkg.viral = false ∧ s.activeOf s.cur = some 0 ∧ (s.strand 0).inFlight [] ≤ 16 ∧ (1 : BitVec 3) ≠ 2) := by decide +kernel
/-- A CSWITCH in a handler, of a PERSIST launch, to a stale handle, to another key domain; a PARK in a handler. -/
theorem test_met_switch_traps :
    ok [.cswitch (rg 3 1 0 0), .park (rg 3 1 0 0)] = true ∧ issues (tasked 2 { tl := true }) [.s 1] [.s 3] = true ∧ ((tasked 2 { tl := true }).strand 0).tl = true ∧
    (let l := { launch0 [task0 2] with persist := true };
      let s := at_ { launch := 1 } {} { State.reset with contexts := [(0, { life := .live, launches := [l] })] };
      issues s [.s 1] [.s 3] = true ∧ (s.taskOf 0).map (fun p => p.1.persist) = some true) ∧
    (let s := at_ { launch := 1, s := [(1, 0x10000)] } {} { State.reset with contexts := [(0, ctx0 [task0 2])] };
      issues s [.s 1] [.s 3] = true ∧ s.liveHandle 0x10000 = false ∧ (∀ p ∈ s.taskOf 0, p.1.persist = false)) ∧
    (let s := at_ { launch := 1, s := [(1, 5)] } {} { State.reset with contexts := [(0, ctx0 [task0 2]), (5, { life := .live, keydom := 3 })] };
      issues s [.s 1] [.s 3] = true ∧ s.liveHandle 5 = true ∧ (s.ctx (ctxIdx 5)).keydom ≠ (s.ctx (s.ctxOf 0)).keydom) := by decide +kernel
/-- MABORT's completions with room and without; an ended entry without room, and one that is released. -/
theorem test_met_held :
    entry0.live = true ∧ (at0.strand (8 * 0 + entry0.strand)).count entry0.sem < 0xFFFF ∧ (at0.core 0).mxheld = [] ∧
    (let s := at_ {} { mxheld := [(entry0, none)] };
      (∃ p ∈ (s.core 0).mxheld, p.1.live = true ∧ p.1.strand = entry0.strand ∧ p.1.sem = entry0.sem) ∧ s.mxReleasable 0 = some 0 ∧
        (s.core 0).mxheld[0]? = some (entry0, none) ∧
        (((s.strand 0).sem.map (fun p => (p.2.filter (fun c => c.mark.isSome)).length)).sum < 64)) ∧
    (let r := routine0 0 [] (some none);
      let s := at_ { sem := [(1, List.replicate 0xFFFF ⟨none, none, 0, none⟩)] } { run := some r };
      s.mxReleasable 0 = none ∧ (s.core 0).run = some r ∧ r.done = some none ∧ s.mxRoom 0 r.entry = false) := by decide +kernel
/-- MM.MAC's checks of R172: misaligned, past the end, across groups, one group for both. -/
theorem test_met_mac_checks :
    mmClass 0xD = mmClass 0xC ∧ mmShape (mmClass 0xC) 0 = some (128, 128, 8) ∧ 128 * 8 * efmtWidth 0xC / 8 = 1024 ∧
    ([([(0, 64)], 64), ([(0, 0x5FF80)], 0x5FF80), ([(0, 0x17F80)], 0x17F80)] : List (SMap (BitVec 32) × Nat)).all (fun p =>
      let r := routine0 0 p.1;
      decide (((routined r).core 0).run = some r) && !r.wait && r.done.isNone && decide (r.gangOf = 0) && decide (r.kphase = 0) &&
        decide ((r.ptr 0).toNat = p.2) && (r.ptr 1).toNat = 0) = true ∧
    64 % 128 ≠ 0 ∧ 0x60000 < 0x5FF80 + 1024 ∧ 0x17F80 / 0x18000 ≠ (0x17F80 + 1023) / 0x18000 ∧ 0 / 0x18000 = 0x80 / 0x18000 := by decide +kernel

/-! ## Accesses, tables, dispatch -/

/-- A full TLB; a fill whose home cannot be read; an atomic behind one that waits. -/
theorem test_met_full : (let m : SMap TlbEntry := [(0, ⟨0, false, 15, 4⟩), (1, ⟨0x10000, false, 15, 2⟩)];
      keysRise m = true ∧ find? m 5 = none ∧ m.length = 2) ∧
    (let s : State := { State.reset with dies := [(1, { flights := [.fill 0x400000000] })], pkg := { lost0 := true } };
      (s.die 1).flights[0]? = some (.fill 0x400000000) ∧ (s.die 1).firstOf 0 = true ∧
        (match (s.gate (128 * 0x400000000) 128 false).2 with | .dead _ _ => true | _ => false) = true) := by decide +kernel
/-- A set of a key's tag behind a newer generation, asked by a command. -/
theorem test_met_stale_set :
    let o : TagOp := ⟨0, 0, 1, 0, 0x300000001005, 1, 4, 0, 0, none, 77⟩;
    let t : TagRow := ⟨0, keyHandle 0x300000001005, keyTile 0x300000001005, (keyGen 0x300000001005 + 1) % 256⟩;
    let s : State := { State.reset with contexts := [(0, { life := .live })], dies := [(0, { tags := [t], tagOps := [o] })] };
    s.nextTag 0 = some (0, o) ∧ o.fn = 0 ∧ (s.ctx 0).life = .live ∧ s.tagRow 0 0x300000001005 = some t ∧ t.gen ≠ keyGen 0x300000001005 ∧
      genOlder t.gen (keyGen 0x300000001005) = false := by decide +kernel
/-- A binding of a context that is PARKED by then; a reserved strand; a torn-down context whose DESTROY has a completion address. -/
theorem test_met_turned_away :
    (let s0 := space program { launches := [launchK offered0], wake := 2 ^ 40, allpooled := true };
      let s := { s0 with cores := [(0, { bindings := [(0, 0, 1, 0)] })] };
      s.pkg.viral = false ∧ (s.core 0).nextBinding = some (0, 0, 1, 0) ∧ s.task? 0 1 0 = some (launchK offered0, offered0) ∧
        (match s.readStruct (.binding 0) 0 0 0x80 128 0x0500 with | .ok v => decide (v = 2 ^ 176) | _ => false) = true) ∧
    (let s : State := { State.reset with contexts := [(0, { life := .dying, destroy := some 0x30000 })] };
      (s.ctx 0).life = .dying ∧ s.strandsOf 0 = [] ∧ (s.ctx 0).destroy = some 0x30000) := by decide +kernel

/-! ## Stored data, retirement, migration -/

/-- Reads of stored sectors for each requester, and a stack that retires page by page. -/
theorem test_met_stored :
    window (128 * 7) = .hbm ∧ fld 5 0 4 ≠ 0 ∧ look false at0.badTag 7 = false ∧
    (let s := tasked 2; (s.strand 0).run ≠ .free ∧ s.liveHandle (s.strand 0).ctxh.toNat = true) ∧
    (let s : State := { State.reset with pkg := { hbm := [(0, { retiring := true })] } };
      (s.pkg.stack 0).retired = false ∧ (s.pkg.stack 0).retiring = true ∧ s.pkg.transit = none ∧ stackOf (65536 * 3) = 0 ∧ find? s.pkg.remap 3 = none ∧
        window (65536 * 0x20) = .hbm ∧ s.leavingStack (65536 * 0x20) = false) ∧
    (let s : State := { State.reset with pkg := { hbm := [(0, { retiring := true })], transit := some (3, 0x20) } };
      let s0 := s.onPkg (fun p => { p with transit := none });
      s.anyOwned = false ∧ s.pageQuiet 3 = true ∧ gated (s0.gatePage 3 true) s0 = true ∧ gated (s0.gatePage 0x20 true) s0 = true) := by decide +kernel
/-- Requests that are answered with a status, and one that waits for an invalidation; what follows a move. -/
theorem test_met_moves :
    (let v := 1 + 0x8000 * 2 ^ 64 + 0x100000 * 2 ^ 128;
      let s := queued 2 v (space []);
      serves s 2 24 v = true ∧ s.pkg.migs = [] ∧ s.invalidating = false ∧ migFields v = true ∧
        (match s.judgeMig 0 (byts v 0 2) (bitOf (byts v 2 1) 0) (BitVec.ofNat 64 (byts v 8 8)) (byts v 16 8) (byts v 24 8) none with
          | .status _ 3 => true | _ => false) = true) ∧
    ({ State.reset with pkg := { migs := [moved none 1 0] } } : State).invalidating = true ∧
    (∀ p ∈ [(none, 0), (some (0, 0, false), 0)], let m := moved p.1 3 p.2;
      let s : State := { State.reset with pkg := { migs := [m] } };
      s.pkg.migs[0]? = some m ∧ m.stage = 3 ∧ m.status ≠ 5 ∧ gated (s.gateAt m.leaf 8 true) s = true) ∧
    (∀ st ∈ [0, 5], let m := moved (some (0, 0, false)) 4 st;
      let s := { space [] with pkg := { migs := [m] } };
      s.pkg.migs[0]? = some m ∧ m.stage = 4 ∧ gated (s.gateAt (s.remapped m.old) 65536 true) s = true ∧ (s.ctx 0).life = .live ∧
        (match s.kvObjs 0 with | .ok [] => true | _ => false) = true) ∧
    (let m := moved (some (7, 0, false)) 4 0;
      let s := { space [] with pkg := { migs := [m] } };
      gated (s.gateAt (s.remapped m.old) 65536 true) s = true ∧ (s.ctx 7).life ≠ .live) ∧
    (match (space []).kvAll (((space []).contexts.filter (fun p => p.2.life = .live)).map (fun p => p.1)) [] with | .ok _ => true | _ => false) = true := by
  decide +kernel

/-! ## Registers, commands, the sequencer, the fabric -/

/-- Reads and 4-byte writes of registers, in the viral state and outside it; a session, and a page range of KDSET. -/
theorem test_met_window :
    State.reset.pkg.viral = false ∧ ({ viral := true } : Package).viral = true ∧ ownStep 0x1000 8 = false ∧ ownStep 0x4004 4 = false ∧
    State.reset.pkg.session = false ∧ ({ session := true } : Package).session = true ∧ State.reset.kdsetBarred 3 = false ∧
    State.reset.pageQuiet 3 = true ∧ gated (State.reset.gatePage 3 true) State.reset = true ∧ State.reset.pkg.remap = [] := by decide +kernel
/-- Commands that are INVALID, a CREATE of a context that lives, launches of LQ that are answered at once. -/
theorem test_met_refused_commands :
    ([2 + 2 ^ 64, 6 + 8 * 2 ^ 64, 4 + 2 ^ 8, 1 + 2 ^ 192].all (fun v => let s := queued 1 v (space []);
      !s.cqBusy && serves s 1 16 v && ((parseCmd v).badArg || decide (byts v 1 3 ≠ 0) || decide (byts v 24 40 ≠ 0))) = true) ∧
    (let s := queued 1 1 (space []); !s.cqBusy && serves s 1 16 1 && decide ((s.ctx 0).life ≠ .free)) = true ∧
    ([0, 0x10000 * 2 ^ 64, 2 ^ 96, 0x80].all (fun v => let s := queued 0 v (space []);
      s.hasHead 0 && !s.lqBusy && (match s.readPa (s.headPa 0) 32 with | .ok w false => decide (w = v) | _ => false) &&
        decide ((s.ctx (byts v 8 4 % 65536)).life = .live)) = true) ∧
    (space []).liveHandle 0x10000 = false ∧ (State.reset.ctx 0).life ≠ .live ∧
    (let s0 := queued 0 0 State.reset;
      let s : State := { s0 with memP := [(0x30000 / 32, true)] };
      s.hasHead 0 = true ∧ (match s.readPa (s.headPa 0) 32 with | .ok _ p => p | _ => false) = true) := by decide +kernel
/-- Writes of GSCTL in every state of the sequencer, and its abandonments. -/
theorem test_met_gs :
    ([GsState.off, .run, .wait, .halt].all (fun st => let s : State := { State.reset with pkg := { gs := { state := st, attempt := some (1, 0) } } };
      !s.pkg.viral && decide (s.pkg.gs.state = st) && decide (s.pkg.gs.attempt = some (1, 0))) = true) ∧
    bitOf 1 0 = true ∧ bitOf 3 1 = true ∧ bitOf 0 0 = false ∧
    ([true, false].all (fun en => let g : Gs := { state := .wait, en := en, attempt := some (0, 0), event := some 7, ablim := 4, abcnt := 3 };
      decide (g.attempt = some (0, 0)) && decide (g.event = some 7) && decide (max 1 g.ablim ≤ (g.abcnt + 1).toNat)) = true) := by decide +kernel
/-- Damaged flits on each kind of link, a page in transit, requests of peers that are turned away. -/
theorem test_met_fabric :
    (let s : State := { State.reset with dies := [(1, { flights := [.through 0 1 1 false 384 0] })] };
      s.onEdge 1 0 (.through 0 1 1 false 384 0) = true ∧ 1 &&& atomBytes 0 [0] ≠ 0) ∧
    (∀ own ∈ [false, true], let s : State := { State.reset with pkg := { cxlReqs := [(0x800000000, own)] } };
      s.pkg.posted = [] ∧ s.pkg.fqWait = [] ∧ s.pkg.lines.length < 3145728 ∧ 64 * 0x800000000 / 65536 % 2 = 0 ∧ 0x1000000001 / 2 = 0x800000000) ∧
    (let q : PeerOut := ⟨5, 0x100000000000, 0, 3, none, none⟩;
      let g : GEntry := ⟨3, .load, some (.s 5), 1, 0, 0x8000000000040, 8, 1, 0, 0, 3, false, false, false, false, 3⟩;
      let s := at_ { loadQ := [g] } {} { State.reset with pkg := { peers := [q] } };
      s.pkg.peers.findIdx? (fun r => decide (r.port = q.port) && [0x400000000001].any (fun a => a / 4 = r.sector)) = some 0 ∧
        (s.peerAnswer 0 0 true none).isSome = true) ∧
    (let s : State := { State.reset with pkg := { transit := some (0, 0x20) } };
      s.inTransit (s.place (hdmPa 0 0)) 64 = true ∧ ((s.die 0).hold .agent 65536 (s.place (hdmPa 0 0) / 65536)).isSome = true) ∧
    (∀ op ∈ [PeerOp.read, .write, .atomic 0], peerShaped ⟨5, 0x20000, 8, 0xFF, op, 0, 0, false⟩ = true) ∧ window 0x20000000000 ≠ .hbm ∧
    (({ State.reset with pkg := { domains := [(2, 3)] } } : State).closed 0x20000 = true) ∧
    (let s := tasked 2; (s.strands.map (fun p => p.1)).contains 0 = true ∧ s.running 0 = true) := by decide +kernel
/-- The spec's example of placing one address (R393). -/
theorem test_hbm_place : hbmPlace 0x0012_3450_0008 = ⟨8, 0, 26, 0, 0, 1, 1, 8, 0x091A⟩ := by decide

/-! ## What the arithmetic of the statements meets -/

/-- ScalarFloat's clauses: a sum between two neighbours, one that is exact, one beyond the largest, one that is zero; zeros, a negative
number, infinities and not-a-numbers; with the widest stochastic draw. -/
theorem test_met_rounding :
    (f32 ∈ floatFormats ∧ f32 ∈ arithmeticFormats ∧ f16 ∈ arithmeticFormats ∧ (4 : Nat) ≤ 4 ∧ 0xFFFFFFFF < 2 ^ 32) ∧
    (let x := (decodeF f32 0x3F800000).rat + (decodeF f32 0x33000000).rat;
      x ≠ 0 ∧ f32.ladder 0x3F800000 < x ∧ x < f32.ladder 0x3F800001 ∧ 0x3F800000 < f32.maxCode ∧ ¬ ((2 : ℚ) ^ (1 - (f32.bias : Int)) > x)) ∧
    (let x := (decodeF f32 0x3F800000).rat + (decodeF f32 0x3F800000).rat; x = f32.ladder 0x40000000 ∧ 0x40000000 ≤ f32.maxCode) ∧
    (let x := (decodeF f16 0x7BFF).rat + (decodeF f16 0x7BFF).rat; f16.ladder f16.maxCode < x ∧ f16.kind = 0) ∧
    (decodeF f32 0x3F800000).rat + (decodeF f32 0xBF800000).rat = 0 ∧ (decodeF f32 0x3F800000).finite = true ∧ (decodeF f32 0).rat = 0 ∧
    (decodeF f32 0xBF800000).rat < 0 ∧ 0 < (decodeF f32 1).rat ∧ decodeF f32 0x7F800000 = .inf false ∧ decodeF f32 0xFF800000 = .inf true ∧
    (decodeF f32 0x7F800001).isNan = true ∧ (decodeF f32 0x7F800001).isSig = true ∧ (e4m3 ∈ arithmeticFormats ++ [e4m3, e5m2]) ∧ e4m3 ∉ arithmeticFormats := by
  decide +kernel
/-- AcrossLanes' clauses on blocks: all finite with a largest element, all zero, one not finite; types of conversions. -/
theorem test_met_quantisation :
    (∀ c ∈ [2, 9], 2 ≤ c ∧ c ≤ 9) ∧
    (let x (j : Nat) : Nat := if j = 31 then 0x3F800000 else 0;
      (∀ j < 32, (decodeF f32 (x j)).finite = true) ∧ (decodeF f32 (x 31)).rat ≠ 0 ∧ ∀ i < 32, |(decodeF f32 (x i)).rat| ≤ |(decodeF f32 (x 31)).rat|) ∧
    (∀ j < 32, (decodeF f32 0).rat = 0 ∧ (decodeF f32 (0 * j)).finite = true) ∧ (decodeF f32 0x7F800000).finite = false ∧
    (elemVal 9 3).finite = true ∧ 3 < 2 ^ efmtWidth 9 ∧ tIsF 0 = true ∧ tIsF 1 = false := by decide +kernel

/-! ## Bundles of several operations -/

/-- `Bundle` for words that the strand holds between iterations, as a computation. -/
def holds (s : State) (ws : List (BitVec 32)) : Bool :=
  decide (s.cur = 0) && decide (s.activeOf 0 = some 0) && decide ((s.core 0).count < 65536) && decide ((s.strand 0).words = ws) && !ws.isEmpty &&
    !s.pkg.viral && (s.strand 0).barWait.isNone && decide ((s.strand 0).inFlight [] + 1 ≤ 16)
theorem holds_spec {s ws} (h : holds s ws = true) : Bundle s 0 s ws 1 := by
  simp only [holds, Bool.and_eq_true, decide_eq_true_eq, Bool.not_eq_true', Option.isNone_iff_eq_none] at h
  obtain ⟨⟨⟨⟨⟨⟨⟨h1, h2⟩, h3⟩, h4⟩, h5⟩, h6⟩, h7⟩, h8⟩ := h
  have : ws ≠ [] := by intro e; simp [e] at h5
  exact ⟨h1, h2, h3, by simp [h4, this], h6, h7, h8⟩
/-- Words are framed so. -/
def framed (ws : List (BitVec 32)) (hd : Header) (ops : List SlotOp) : Bool := match frame ws with
  | .ok r => decide (r.1 = hd) && decide (r.2.map (fun (o : SlotOp) => (o.1, o.2.toOption)) = ops.map (fun (o : SlotOp) => (o.1, o.2.toOption)))
  | _ => false
/-- A strand in or between the iterations of these words, with these engines. -/
def bundled (ws : List (BitVec 32)) (eng : SMap Engine) (res : Resume := .fresh) : State := at_ { words := ws, eng, res }
/-- Bundles: an engine primed at the last word whose slot is absent, present in an iteration after the first, and one that is primed
anew; a store engine; a NOP in the engine's slot; CLR; two operations with different and with the same register; a transfer, CSWITCH and
PARK with REPEAT. -/
theorem test_met_bundles :
    (let g : Engine := ⟨.splds (ms 3 1 1 8), 0x5FFF8⟩;
      let w : List (BitVec 32) := [0xA0400000];
      let w1 : List (BitVec 32) := [0xA0807820, 0x010C1048];
      holds (bundled w [(5, g)]) w = true ∧ framed w ⟨1, false, 0, 0⟩ [] = true ∧ holds (bundled w1 [(5, g)] (.at 14 false)) w1 = true ∧
        framed w1 ⟨2, false, 15, 0x20⟩ [(.ld, .ok (.splds (ms 3 1 1 8)))] = true ∧ firstOf (.at 14 false) 15 = false ∧ holds (bundled w1 []) w1 = true ∧
        firstOf .fresh 15 = true ∧ (0x5FFF8 : Nat) % 8 = 0 ∧ (bundled w [(5, g)]).activeOf 0 = some 0 ∧ ¬ ((bundled w [(5, g)]).core 0).unfilled 0x5FFF8 8 ∧
        0x5FFF8 + 8 ≤ 0x60000) ∧
    (let w : List (BitVec 32) := [0xA0800020, 0x7F000000];
      holds (bundled w [(5, ⟨.splds (ms 3 1 1 8), 0⟩)]) w = true ∧ framed w ⟨2, false, 0, 0x20⟩ [(.ld, .ok (.nop .ld))] = true) ∧
    (let w : List (BitVec 32) := [0xA0480000]; holds (bundled w [(6, ⟨.spsts (ms 3 1 1 8), 0⟩)]) w = true ∧ framed w ⟨1, true, 0, 0⟩ [] = true) ∧
    (∀ d ∈ [3, 4], let w : List (BitVec 32) := [0xA0C00006, 0x000C1080, BitVec.ofNat 32 (0x02001080 + d * 2 ^ 18)];
      holds (bundled w []) w = true ∧ framed w ⟨3, false, 0, 6⟩ [(.sa, .ok (.sadd .a (rg 3 1 2 0))), (.sb, .ok (.ssub .b (rg (BitVec.ofNat 6 d) 1 2 0)))] = true) ∧
    (∀ p ∈ [((0x1724C000 : BitVec 32), Instr.cswitch (rg 9 12 0 0)), (0x18105000, .park (rg 4 5 0 0)), (0x01000007, .br ⟨7⟩)],
      let w : List (BitVec 32) := [0xA0800801, p.1]; holds (bundled w []) w = true ∧ framed w ⟨2, false, 1, 1⟩ [(.ct, .ok p.2)] = true) := by decide +kernel

/-! ## Returns, tags, marks and tasks -/

/-- TRAP in the delay bundle of RTE's return. -/
theorem test_met_trap_return : let s := at_ { tl := true, delay := some .ret, xpc := 0x40 };
    ok [.trap ⟨0, 7⟩] = true ∧ issues s = true ∧ (s.strand 0).delay = some .ret ∧ (s.strand 0).xpc.toNat % 4 = 0 ∧
      canonVa (s.strand 0).xpc = (s.strand 0).xpc := by decide +kernel
/-- TINS of a LEN above 9, of a range past the end, of a key that another entry of the same handle holds; words of a vector store. -/
theorem test_met_refused_tags : ok [.tins (rg 3 1 2 0)] = true ∧
    ([0x1A00000, 0x115FF80, 0x1000000] : List Word).all (fun d =>
      issues (at_ { s := [(1, 5), (2, d), (3, 7)] } { tags := [(255, ⟨5, 0, 0, 0, 1⟩)] }) [.s 3, .s 1, .s 2]) = true ∧
    9 < ((0x1A00000 : Word) >>> 20).toNat % 16 ∧ ((0x115FF80 : Word) >>> 20).toNat % 16 = 1 ∧ ((0x115FF80 : Word) >>> 24).toNat % 4 = 1 ∧
    ((0x115FF80 : Word) >>> 7).toNat % 4096 = 0xBFF ∧ 0x60000 < 0xBFF * 128 + 128 * 2 ^ 1 ∧
    (let s := at_ {} { tags := [(255, ⟨5, 0, 0, 0, 1⟩)] };
      (255 : Nat) < 256 ∧ 255 ≠ 7 ∧ ((s.core 0).tag 255).state ≠ 0 ∧ ((s.core 0).tag 255).ctxh = (s.strand 0).ctxh ∧ ((s.core 0).tag 255).key = 5) ∧
    Memory.wf ({ spad := [(8, 1)] } : Core).spad = true ∧ (∀ w ∈ [(12, (5 : Nat)), (0, 6)], w.1 + 4 ≤ 4 ∨ 4 + 4 ≤ w.1) := by decide +kernel
/-- The oldest of two marked completions, behind one without a mark. -/
theorem test_met_mark_record :
    let m : Mark := ⟨2, 0x216, 4095, 0, 0x5FF80⟩;
    let c : Completion := ⟨none, some m, 3, none⟩;
    let st : Strand := { sem := [(1, [⟨none, none, 1, none⟩, ⟨none, some m, 4, none⟩]), (15, [c])] };
    c ∈ st.getE 15 ∧ c.mark = some m ∧ ∀ p ∈ st.sem, ∀ d ∈ p.2, d.mark ≠ none → (p.1, d) = (15, c) ∨ c.order < d.order := by decide +kernel
/-- EXIT.ERR with REPEAT. -/
theorem test_met_exit_repeat : let w : List (BitVec 32) := [0xA0800801, BitVec.ofNat 32 ((encode (.exitErr (rg 0 1 0 1))).getD 1 0)];
    (let s := bundled w [] .fresh; holds s w = true ∧ framed w ⟨2, false, 1, 1⟩ [(.ct, .ok (.exitErr (rg 0 1 0 1)))] = true ∧
      (s.strand 0).pending (.s 1) = false ∧ (s.strand 0).poisoned (.s 1) = false ∧ leftOf (s.strand 0).res 1 ≠ 0) ∧
    (tasked 2).taskOf 0 = some (launch0 [task0 2], task0 2) := by decide +kernel
/-- Strand 0 runs TASK 0 of launch 1; launch 2 has a READY task whose kernel descriptor stands at an address. -/
def chooser (kdesc : Word) (x : Ctx := {}) : State :=
  let l : Launch := { launch0 [ready0] with id := 2, kdesc, args := 0x100 }
  at_ { launch := 1 } {} (space (program ++ [(0x5010, 0x2000000001F)]) { x with launches := [launch0 [task0 2], l] })
/-- SwitchParkAndWake: a task to choose, one whose kernel's descriptor lies in a host line not held, none; PARK with and without a free
area, of a persistent launch. -/
theorem test_met_choice :
    (let s := chooser 0x80 { savecount := 1, savefree := 1 };
      issues s [.s 1] [.s 3] = true ∧ s.liveHandle 0 = true ∧ (s.ctx 0).freeArea.isSome = true ∧
        (match (counted s 0).cswitchPick 0 0 with | .task l t => l.id = 2 && t.id = 0 | _ => false) = true ∧
        (match s.cswitchPick 0 0 with | .task l t => l.id = 2 && t.id = 0 | _ => false) = true ∧ (s.task? 0 2 0).isSome = true) ∧
    (let s := chooser 0x20080 { savecount := 1, savefree := 1 }; (match (counted s 0).cswitchPick 0 0 with | .wait _ => true | _ => false) = true) ∧
    (match (counted (chooser 0x90000) 0).cswitchPick 0 0 with | .none => true | _ => false) = true ∧ ((chooser 0x80).ctx 0).freeArea = none ∧
    (chooser 0x80).taskOf 0 = some (launch0 [task0 2], task0 2) := by decide +kernel

/-! ## Blocks, completions and counters -/

/-- CompletedBlocks: the pairs of words 0, 0 of a block; a shape of every class; the last rows. -/
def pairs (ea eb k : Nat) (steps : List (Nat × Nat)) : List (FVal × FVal) := steps.flatMap (fun st => (List.range k).map (fun q =>
  (elemVal ea (fld st.1 (efmtWidth ea * q) (efmtWidth ea)), elemVal eb (fld st.2 (efmtWidth eb * q) (efmtWidth eb)))))
theorem test_met_blocks :
    ([(0, 1), (6, 6), (9, 9), (0xA, 0xB), (0xC, 0xD), (0xE, 0xE), (0xF, 0xF)].map (fun p => (mmClass p.1, mmClass p.2))) =
      [(0, 0), (2, 2), (3, 3), (4, 4), (1, 1), (5, 5), (6, 6)] ∧
    (mmShape 0 0 = some (128, 128, 8) ∧ mmShape 3 0 = some (256, 256, 8) ∧ mmShape 6 0 = some (64, 32, 1)) ∧
    768 + 128 * 128 / 64 ≤ 1024 ∧ 0 + 256 * 256 / 64 ≤ 1024 ∧ 960 + 64 * 32 * 2 / 64 ≤ 1024 ∧
    (let ps := (pairs 0 0 8 [(0x38, 0x3A)]).map (fun p => p.1.rat * p.2.rat);
      (pairs 0 0 8 [(0x38, 0x3A)]).all (fun p => p.1.finite && p.2.finite) = true ∧ (∃ x ∈ ps, x ≠ 0 ∧ Int.log 2 |x| = 0) ∧
        ∀ x ∈ ps, x ≠ 0 → Int.log 2 |x| ≤ 0) ∧
    efmtScaled 0 = false ∧ efmtScaled 9 = true ∧ ((routine0 0).scale 7).toNat % 256 = 127 ∧
    ({ routine0 0 with sc := [(7, 0xFF)] } : Routine).scale 7 = 0xFF ∧ ((pairs 0 0 8 [(0, 0x38)]).all (fun p => p.1.rat * p.2.rat = 0)) = true ∧
    ((pairs 0 0 8 [(0x7F, 0)]).any (fun p => p.1.isNan)) = true ∧
    (∀ p ∈ [(0x7C, false), (0xFC, true)], ∃ x ∈ pairs 1 0 8 [(p.1, 0x38)], !x.1.finite ∧ !x.1.isNan ∧ (x.1.neg != x.2.neg) = p.2) ∧
    (decodeF f32 0).finite = true ∧ (decodeF f32 0x7FC00000).finite = false := by decide +kernel
/-- GlobalAccessSteps: a load that is the oldest and one that is alone; a MARK of KIND AR before a store that is not performed; room for a
copy sector; a write-through's acknowledgement beside another that carries bytes of its sector. -/
theorem test_met_completion :
    (let g : GEntry := { asked .load 1 0 0xFF00 256 with reg := some (.v 63) };
      let s := loading g;
      (s.strand 0).count g.sem < 0xFFFF ∧ ∀ h ∈ (s.strand 0).entries, h = g ∨ h.num ≠ g.num ∧ h.phase ≠ 2 ∧ (h.loads = true → g.num < h.num)) ∧
    (let g : GEntry := { asked (.mark 2) 0 0 0 0 with scope := 5, num := 1 };
      let w : GEntry := asked .store 1 0 0 8;
      let s := at_ { loadQ := [g], storeQ := [w, { g with num := 2 }] };
      (s.strand 0).loadQ = [g] ∧ g.kind = .mark 2 ∧ g.phase = 0 ∧ g.scope ≠ 0 ∧ s.loadsDone 0 g.num = true ∧ s.releaseOk 0 g.num g.scope = false) ∧
    (let s : State := { State.reset with dies := [(1, { flights := [.fill 0], copies := [(0, ⟨1, 0, 1, 0⟩)] })] };
      2 * (s.die 1).copies.length + (s.pkg.linesOn 1).length < 3145728) ∧
    (let s : State := { State.reset with dies := [(1, { flights := [.through 0 3 1 false 384 0, .through 0 2 1 false 400 0], copies := [(0, ⟨3, 0, 1, 0⟩)] })] };
      (∀ g ∈ (s.strand 384).entries, g.num = 0 → g.rel = false) ∧ ((s.die 1).copy 0).loc ≠ 0 ∧
        (3 : BitVec 128) &&& ~~~ (((s.die 1).dropFlight 0).flying 0) = 1) := by decide +kernel
/-- Access counters: no CNT; THR 0, THR not reached and reached; the ring with room and without; a counter present and one to place. -/
theorem test_met_counters :
    bitOf (⟨0, false, 7⟩ : Leaf).bits 3 = false ∧ bitOf (⟨0, false, 15⟩ : Leaf).bits 3 = true ∧
    (∀ c ∈ [[], [(2 ^ 41 + 7, 3)]], let s : State := { State.reset with dies := [(1, { counters := c })] };
      (s.die 1).counters.length < 4096 ∧ s.threshold 1 1 = 0) ∧
    (let q : Queue := { base := 0x30000, en := true, log2n := 4, prod := 1 };
      let s : State := { State.reset with mem := words [(24, 4)], pkg := { queues := [(5, q)] }, dies := [(1, { counters := [(2 ^ 41 + 7, 3)] })] };
      s.threshold 1 1 ≠ 0 ∧ s.threshold 1 1 ≤ 3 + 1 ∧ ¬ s.threshold 1 1 ≤ 2 + 1 ∧ s.pkg.posted = [] ∧ (s.pkg.queue 5).en = true ∧ (s.pkg.queue 5).held < 2 ^ 4 ∧
        (State.reset.pkg.queue 5).en = false) := by decide +kernel

/-! ## The ring's epilogue -/

/-- PublicationAndRing's epilogue: a slot whose shadow page the core's TLB holds. -/
theorem test_met_epilogue : let s : State := { ringing false with cores := [(0, { active := some 0, tlb := [(2, ⟨0x50000, false, 7, 1⟩)] })] };
    let p := { prog (cmd 8) 0 0 with recs := [ringRec false], tensor := some tensor };
    let v := p.recs.headD 0;
    let va := s.shadowVa shadow 7 0 % 2 ^ 57;
    s.pkg.viral = false ∧ (s.cluster 0).submitted = [(2, 0)] ∧ ((s.cluster 0).chan 0).prog = some p ∧ ((s.cluster 0).chan 0).halted = false ∧
      s.hodAsked 0 0 = false ∧ s.hodQueued 0 0 = false ∧ p.ready = false ∧ p.added = 0 ∧ p.pos = 0 ∧ (s.cluster (p.cmd.strand / 32)).spoilt = [] ∧
      s.pkg.remap = [] ∧ s.pkg.transit = none ∧ s.anyOwned = false ∧ (s.dies.all (fun d => d.2.filter = [] ∧ d.2.flights = [])) = true ∧
      bitOf v 40 = false ∧ bitOf v 41 = false ∧ byts v 4 1 ≤ 4 ∧ 0 < byts v 0 2 ∧ tensor.tbytes = 64 * byts v 0 2 * (outWidth (byts v 4 1) / 8) ∧
      s.shadow? p.cmd.ctx (fld v 128 16) = some shadow ∧ fld v 192 36 = 7 ∧
      find? (s.core (p.cmd.strand / 8)).tlb (tlbKey (s.ctx p.cmd.ctx).asid va) = some ⟨0x50000, false, 7, 1⟩ ∧ bitOf 7 3 = false ∧
      (match s.judgeLeaf (s.ctx p.cmd.ctx).keydom ⟨0x50000, false, 7⟩ va .write with | .ok pa l => pa = 0x50700 && l = ⟨0x50000, false, 7⟩ | _ => false) = true ∧ window 0x50700 = .hbm ∧
      va % 65536 + tensor.tbytes ≤ 65536 ∧ 0x50700 % 65536 + tensor.tbytes ≤ 65536 ∧ s.shadowVa shadow 7 0 < 2 ^ 57 := by decide +kernel
/-- Activations of a not-a-number, of an infinity and of a negative number. -/
theorem test_met_activation : (decodeF f32 0x7FC00001).isNan = true ∧ decodeF f32 0xFF800000 = .inf true ∧ (decodeF f32 0xBF800000).rat < 0 ∧
    byts (ringRec false + 2 ^ 24) 3 1 = 1 ∧ byts (ringRec false + 2 * 2 ^ 24) 3 1 = 2 ∧ byts (ringRec false + 2 ^ 16) 2 1 = 1 ∧
    byts (ringRec false + 4 * 2 ^ 32) 4 1 = 4 ∧ outWidth 4 = 8 := by decide +kernel

/-! ## The tests of a launch, its record, its placement -/

/-- The launch record of `program` with a flag byte and a number of tasks. -/
def record (flags n : Nat) : Nat := 0x80 + 0x100 * 2 ^ 64 + n * 2 ^ 224 + flags * 2 ^ 264
/-- A launch of the sequencer made from it. -/
def made (flags n : Nat) : LaunchMsg := ⟨.gs, 0, 0, some (record flags n), true⟩
def rd (r : Read) : Nat := match r with | .ok v => v | _ => 0
/-- Launches: a record whose read faults, an issuer that is gone; of the tests: bad fields, no room for a persistent launch, the window
of identifiers full, a launch that passes, one of another key domain. -/
theorem test_met_launch_tests :
    (let m : LaunchMsg := ⟨.task 0 0 1 0, 0x90000, 0, none, false⟩;
      let s := { space program with dies := [(0, { launches := [m] })] };
      (match s.readStruct (.launch 0) 0 0 0x90000 64 0x0500 with | .fault _ _ _ => true | _ => false) = true ∧
        (match s.verdict 0 m with | .answer 3 5 (some f) => decide (f = (0, 0x90000, 64)) | _ => false) = true) ∧
    (let m : LaunchMsg := ⟨.task 0 0x10000 1 0, 0, 0, none, false⟩; (space program).issuerGone m = true) ∧
    (let s := space program;
      let read (va : Nat) := s.readStruct (.launch 0) 0 0 va 128 0x0500;
      byts (record 0 1) 24 4 = 0 ∧ (s.ctx 0).life = .live ∧ (s.ctx 0).gen.toNat = 0 ∧ isOk (read 0x80) = true ∧ isOk (read 0x100) = true ∧
        launchBad (record 0 1) (rd (read 0x80)) s.pkg.gvalid = false ∧ bitOf (byts (record 0 1) 33 1) 0 = false ∧
        launchBad (record 0 0) (rd (read 0x80)) s.pkg.gvalid = true ∧ badKernel (rd (read 0x80)) = false ∧ badKernel 0 = true ∧
        launchBad (record 1 10000) (rd (read 0x80)) s.pkg.gvalid = false ∧ bitOf (byts (record 1 10000) 33 1) 0 = true ∧
        s.fitsIdle 0 (parseKernel 0 0x80 (rd (read 0x80))) 0 10000 10000 = false ∧ s.fitsIdle 0 (parseKernel 0 0x80 (rd (read 0x80))) 0 1 1 = true) ∧
    (let x : Ctx := { nextId := 2000, launches := [launch0 []] };
      ∃ p ∈ x.launches, 1024 < ((if x.nextId + 1 ≥ 2 ^ 32 - 1 then 1 else x.nextId + 1) + 2 ^ 32 - p.id) % 2 ^ 32) ∧
    (∀ b ∈ [0, 0x90000], let r := 0x80 + b * 2 ^ 64 + 2 ^ 224; byts r 8 8 = b) ∧
    (match (space program).readStruct (.launch 0) 0 0 0x90000 128 0x0500 with | .fault _ _ _ => true | _ => false) = true ∧
    (let s0 := space program; let s : State := { s0 with contexts := s0.contexts ++ [(5, { life := .live, asid := 1, keydom := 3 })] };
      let va : Word := 0; (match s.readStruct (.launch 0) 0 (5 % 65536) va.toNat 64 0x0500 with | .ok v => decide (v = record 0 1) | _ => false) = true ∧
        (s.ctx 0).keydom ≠ (s.ctx (5 % 65536)).keydom) := by decide +kernel
/-- The completion record of a launch, to a line in HBM4E. -/
theorem test_met_record : let l : Launch := { launch0 [{ task0 0 with run := .done }] with returned := 2 ^ 62, compl := 0x20 };
    let s := space [] { launches := [l] };
    let u := (s.launchDone 0 l).onCtx 0 (fun x => { x with rewrite := x.rewrite ++ [(l.compl, l.record s.gtime)] });
    (s.ctx 0).launch? 1 = some l ∧ 2 ^ 62 ≤ l.returned ∧ l.compl ≠ 0 ∧ l.compl % 32 = 0 ∧
      (match u.translate 0 0 (l.compl % 2 ^ 57) .write with | .ok pa _ => pa = 0x10020 | _ => false) = true ∧ window 0x10020 = .hbm ∧
      0x10020 % 128 + 32 ≤ 128 ∧ u.shadows = [] ∧ u.pkg.remap = [] ∧ u.pkg.transit = none ∧ u.anyOwned = false ∧ (u.dies.all (fun d => d.2.filter = [])) = true ∧
      u.agentBusy 0 0x10020 32 = false ∧ look false u.badTag (0x10020 / 128) = false := by decide +kernel
/-- DispatchAndBinding: no SLOT taken and slot 0 taken; a domain; a child. -/
theorem test_met_binding : let k := parseKernel 0 0x80 (2 ^ 176);
    (∀ q < 8, ((space program { launches := [launchK offered0] }).strand q).run = .free) ∧
    (let t := { task0 2 with kernel := some k, slot := 0 };
      let s := { space program { launches := [launchK offered0, { launch0 [t] with id := 2 }] } with strands := [(0, { run := .eligible, launch := 2 })] };
      (s.strand 0).run ≠ .free ∧ (s.taskOf 0).isSome = true ∧ ((s.taskOf 0).any (fun p => p.2.kernel.any (fun o => o.same k) && p.2.slot = 0)) = true) ∧
    (let l := { launchK offered0 with dlevel := 1, dsize := 1 };
      offered0.child = none ∧ l.dlevel ≠ 0 ∧ l.dlevel < 8 ∧ 0 < l.dsize ∧ l.dsize < 2 ^ 21 ∧ offered0.id / l.dsize < 2 ^ 19) ∧
    ({ offered0 with child := some (5, none, 6) } : Task).child = some (5, none, 6) := by decide +kernel

/-! ## Placement, pre-emption, saves, errors -/

/-- The kernel of `program`. -/
def kernel0 : Kernel := parseKernel 0 0x80 (2 ^ 176)
/-- A persistent launch of two tasks, one domain of one cluster. -/
def placing : State :=
  let l : Launch := { launchK ready0 with persist := true, ntasks := 2, dlevel := 2, dsize := 2, tasks := [ready0, { ready0 with id := 1 }] }
  space program { launches := [l] }
theorem test_met_placement : let s := placing;
    let l := ((s.ctx 0).launches.headD (launch0 []));
    s.pkg.viral = false ∧ s.strands = [] ∧ (s.die 0).spent = false ∧ (s.candidates 0).head? = some (0, 0, l, ready0) ∧ (s.ctx 0).launch? l.id = some l ∧
      isData (s.readStruct (.dispatch 0) 0 0 l.kdesc.toNat 128 0x0500) (2 ^ 176) = true ∧ l.persist = true ∧ l.placed = false ∧
      s.placement 0 l kernel0 = some [(0, 0), (8, 1)] ∧ 0 < l.group ∧ (0 : Nat) / l.group = 1 / l.group ∧ (0 : Nat) / 32 = 8 / 32 := by decide +kernel
/-- Core 0 alone is in service, with its one strand for the kernel taken by a task of level 0; a READY task of level 3 has a token. -/
def victim (restart : Bool) (x : Ctx) (st : Strand) : State :=
  let v : Launch := { launch0 [{ task0 2 with kernel := some kernel0 }] with restart }
  let t : Launch := { launchK ready0 with id := 2, level := 3 }
  { space program { x with launches := [v, t], tokens := 1 } with
    strands := [(0, { st with run := .eligible, launch := 1 })],
    cores := (List.range 48).map (fun i => (i, { retired := decide (i ≠ 0) })), pkg := { draint := 5, killt := 9 } }
/-- Pre-emption of a victim that drains, of one that is killed, of one that is saved, and of one without a save area. -/
theorem test_met_preemption :
    ([(victim false {} { est := 3 }, true), (victim true {} { scyc := 8, est := 0xFFFFFFFFFFFFFFFF }, false),
      (victim false { savecount := 1, savefree := 1 } { scyc := 9, est := 0xFFFFFFFFFFFFFFFF }, false), (victim false {} { est := 6 }, false)].all (fun q =>
      let s := q.1;
      let l : Launch := { launchK ready0 with id := 2, level := 3 };
      !s.pkg.viral && (s.strands.all (fun p => !p.2.freed)) && !(s.die 0).spent && decide (s.candidates 0 = [(3, 0, l, ready0)]) &&
        decide (s.task? 0 2 0 = some (l, ready0)) && isData (s.readStruct (.dispatch 0) 0 0 0x80 128 0x0500) (2 ^ 176) &&
        (s.coreFor 0 0 l ready0 kernel0).isNone && decide ((s.ctx 0).tokens ≠ 0) && decide ((s.ctx 0).life = .live) &&
        ((bestVictim (s.victims 0 0 l ready0 kernel0)).map (fun b => b.2.2)) == some 0 && (s.taskOf 0).isSome && (s.strand 0).save.isNone &&
        decide ((s.strand 0).remaining ≤ s.pkg.draint) == q.2)) = true ∧
    (match (victim false {} {}).hintWait 0 0 { launchK ready0 with id := 2, level := 3 } ready0 kernel0 with | .held _ => false | .wait _ => false | _ => true) = true := by
  decide +kernel
/-- A save whose area is its context's and can be written; a CSWITCH that finds none; WAKE of one parked task, on its strand and off it. -/
theorem test_met_saved_image :
    (let s : State := { State.reset with
        strands := [(0, { run := .blocked .saving, save := some .park, launch := 1, words := [0xA0800001], delay := some (.taken 0x40), res := .at 3 false })],
        contexts := [(0, { ctx0 [task0 2] with savebase := 0x10000, savecount := 1, savefree := 1 })] };
      s.areaOk 0 0x10000 = true ∧ s.areaBad 0x10000 (s.image 0 2) = [] ∧ s.shadows = [] ∧ s.pkg.remap = [] ∧ s.anyOwned = false ∧
        (s.strand 0).special.length ≤ 192 ∧ (s.strand 0).markList.length ≤ 64 ∧ (s.strand 0).z.length ≤ 16 ∧
        (s.strand 0).words.head? = some 0xA0800001 ∧ (s.strand 0).res = .at 3 false ∧ (s.strand 0).delay = some (.taken 0x40)) ∧
    (let s : State := { State.reset with
        strands := [(0, { run := .blocked .saving, save := some (.cswitch 0 2 0 3), launch := 1 })], contexts := [(0, ctx0 [task0 2])] };
      (s.strand 0).run = .blocked .saving ∧ (s.strand 0).save = some (.cswitch 0 2 0 3) ∧ s.taskOf 0 = some (launch0 [task0 2], task0 2) ∧
        (s.ctx (s.ctxOf 0)).freeArea = none ∧ s.quiet 0 = true) ∧
    ([task0 2, ready0].all (fun q => let t : Task := { q with parked := .park 5 3 };
      let w : WakeMsg := ⟨0, 0, 5, 0, 0⟩;
      let s : State := { State.reset with dies := [(0, { wakes := [w] })], contexts := [(0, ctx0 [t])], strands := [(0, { run := .blocked (.parked false) })] };
      decide ((s.die 0).wakes.findIdx? (fun w => w.f ≠ 0 || s.releaseOk w.strand w.num 4) = some 0) && s.liveHandle w.handle && decide (w.f = 0) &&
        decide ((s.ctx 0).parkedTasks = [(1, t)]) && decide (s.task? 0 1 0 = some (launch0 [t], t)) && decide (t.parked = .park 5 3)) = true) := by
  decide +kernel
/-- Core errors: one affected task, on a strand, READY with a checkpoint pinned to the core; launches with and without RESTART; a stored
sector that a Hod command and an agent of a die read. -/
theorem test_met_core_errors :
    (let kp : Kernel := { kernel0 with foot := 1 };
      [({ task0 2 with errors := 3 } : Task), { ready0 with area := some 0, core := 0, kernel := some kp, errors := 4 },
        { offered0 with area := some 0, core := 0, kernel := some kp }].all (fun t => [true, false].all (fun restart =>
        let l : Launch := { launch0 [t] with restart };
        let s : State := { State.reset with contexts := [(0, { life := .live, launches := [l] })], strands := [(0, { run := .eligible, launch := 1 })] };
        decide (s.hwTasks 0 = [(0, 1, t)]) && decide (s.task? 0 1 t.id = some (l, t)) && decide (s.ctxOf 0 = 0) && (s.strand 0).save.isNone)) = true) ∧
    (let s := { channel { queue := [cmd 1] } with contexts := [(0, { life := .live })] };
      window (128 * 7) = .hbm ∧ fld 1 0 4 ≠ 0 ∧ ((s.cluster 0).chan 0).queue = [cmd 1] ∧ s.liveHandle (cmd 1).ctxh.toNat = true ∧ s.liveHandle 0 = true) := by
  decide +kernel

/-! ## Migration, the tier, invalidation -/

/-- A context with one KV object of one page, whose tier can be written; the stopped and restarted leaf. -/
def kv : State := { space [(0x10200, 0x10000), (0x10208, 1)] { kvcount := 1, kvlist := 0x200 } with pkg := { migs := [moved (some (0, 0, false)) 4 0] } }
theorem test_met_trowel_object : let m := moved (some (0, 0, false)) 4 0;
    kv.pkg.migs[0]? = some m ∧ m.stage = 4 ∧ m.status ≠ 5 ∧ gated (kv.gateAt (kv.remapped m.old) 65536 true) kv = true ∧ (kv.ctx 0).life = .live ∧
      (match kv.kvObjs 0 with
        | .ok os => (match os[0]? with | some o => o.ok && (kv.storeVa .trowel 0 0 (0x200 + 32 * 0 + 13) 1 (kv.tierOf 0 o)).2.isNone | none => false)
        | _ => false) = true := by decide +kernel
theorem test_met_leaf_write : let m := moved none 1 0;
    m.leaf % 8 = 0 ∧ window m.leaf = .hbm ∧ (space []).shadows = [] ∧ (space []).pkg.remap = [] ∧ (space []).anyOwned = false ∧
      look false (space []).badTag (m.leaf / 128) = false := by decide +kernel
/-- KilnAndReset: a device that holds one of two images of a half. -/
theorem test_met_devices :
    (let im (k : Nat) : KilnImage := ⟨k, 5, 0, false, false, [], []⟩;
      let s : State := { State.reset with dies := [(2, { images := [im 0x1000000000, im 0x1000200000] })], pkg := { fail := true } };
      let gone (im : KilnImage) : Bool := ([0] : List Nat).contains ((128 * im.sector - 0x80000000000) / 0x10000000);
      (s.die 2).images.filter gone = [im 0x1000000000] ∧ (s.die 3).images.filter gone = [] ∧ s.pkg.fail = true ∧ ∀ im ∈ (s.die 2).images, im.stores = []) ∧
    (let s : State := { State.reset with dies := [(2, { images := [⟨0x1000200000, 5, 0, false, false, [], []⟩] })] };
      [2, 3].all (fun d => (s.die d).images.all (fun im => !([0] : List Nat).contains ((128 * im.sector - 0x80000000000) / 0x10000000))) = true) := by decide +kernel
/-- InvalidationAndLaunchQueue: nothing to recall, and a sector that can be; no access held and one. -/
theorem test_met_recalls : State.reset.canRecallAll = true ∧
    (({ State.reset with clusters := [(0, { store := [⟨0, 1, 0, true, []⟩] })] } : State).canRecallAll = true) ∧
    (∀ l ∈ [[], [(⟨.strand 7, 0, 3, true⟩ : Replay)]], ({ State.reset with dies := [(0, { replay := l })] } : State).canRecallAll = true) ∧
    (State.reset.die 0).replay = [] := by decide +kernel

/-! ## The sequencer -/

/-- What a walk comes to. -/
def walkIs (w : Walk) (k : Nat) : Bool := match w with | .leaf _ _ _ => k = 0 | .fault _ _ => k = 1 | .replay _ => k = 2 | .bad _ => k = 3 | _ => false
/-- Sequencer: enabled with a handle that is stale and with a block that is mapped, not mapped, under migration, behind a table that
fails; a block that cannot be translated at all. -/
theorem test_met_gs_open :
    ([(0x5001F, 0), (0, 1), (0x5005E, 2)].all (fun q => let s := { space [(0x5000, q.1)] with pkg := { gs := { gb := 0, state := .off } } };
      !s.pkg.viral && s.liveHandle 0 && !bitOf s.gsBlock 56 && walkIs (s.walk 0 (s.ctx s.gsCtx).asid s.gsBlock) q.2)) = true ∧
    (let s := { space [] with badTag := [(0x5000 / 128, true)] }; walkIs (s.walk 0 (s.ctx s.gsCtx).asid s.gsBlock) 3 = true) ∧
    ({ State.reset with pkg := { gs := { gb := 0x100000000000000 } } } : State).gsBlock = 0x100000000000000 ∧ bitOf 0x100000000000000 56 = true ∧
    (space []).liveHandle 0x10000 = false := by decide +kernel
/-- An attempt whose handle is stale, whose block faults, whose block fails its check; a write that waits, and the later stages; an event
in WAIT. -/
theorem test_met_gs_attempts :
    (let g : Gs := { state := .run, ctxh := 0x10000 };
      let s := { space [] with pkg := { gs := g } }; s.liveHandle s.pkg.gs.ctxh.toNat = false) ∧
    (let s : State := { space [] with pkg := { gs := { state := .run, gb := 0x90000 } } };
      (match (s.onDie 0 Die.dropClean).structRead .sequencer 0 0 s.gsBlock 11 0x0800 with | (_, .fault _ _ _) => true | _ => false) = true) ∧
    (let s0 := block [(8, 1)] { state := .run };
      let s := { s0 with badTag := [(0x20000 / 128, true)] };
      (match (s.onDie 0 Die.dropClean).structRead .sequencer 0 0 s.gsBlock 11 0x0800 with | (_, .bad _) => true | _ => false) = true) ∧
    (let g : Gs := { state := .run, attempt := some (1, 0), tmpl := 0x14000 };
      let s0 := { space [(0x5008, 0x2000000001F)] with pkg := { gs := { g with gb := 0x10000 } } };
      (match s0.storeVa .sequencer 0 s0.gsCtx (s0.gsBlock + 0xB) 1 s0.pkg.gs.att.toNat with | (t, some .wait) => decide (t ≠ s0) | _ => false) = true) ∧
    (let s := block [(8, 1)] { state := .run, attempt := some (1, 0), tmpl := 0x14000, stage := .clear };
      let r := s.storeVa .sequencer 0 s.gsCtx (s.gsBlock + 0x840) 256 (2 ^ 2048 - 1);
      let t := r.1.onGs (fun g => { g with stage := .submit });
      r.2.isNone = true ∧ isOk (t.readStruct .sequencer 0 t.gsCtx t.pkg.gs.tmpl.toNat 64 0x0800) = true ∧ t.pkg.gs.stage = .submit) ∧
    (let g : Gs := { state := .wait, attempt := some (0, 0), event := some 7 }; g.attempt = some (0, 0) ∧ g.event = some 7) := by decide +kernel

/-! ## Requests from outside -/

/-- A request held behind a page in transit, one that is performed after the move; an atomic that crosses an edge; writes that failed. -/
theorem test_met_held_requests :
    State.reset.mustQueue (.memrd 0 0 false) = false ∧ State.reset.mustQueue (.memwr 1 0xBFFFFFFFFF ⟨5, 3⟩) = false ∧
    ((State.reset.die (homeDie 0)).filter.length + 0 < 65536) ∧
    (let r : Inbound := .memwr 0 0 ⟨5, 3⟩;
      let e : Replay := ⟨.outside r, 65536, State.reset.place r.pa / 65536, false⟩;
      let s : State := { State.reset with dies := [(0, { replay := [e] })] };
      e.who = .outside r ∧ s.turnsAway r = false ∧ s.inTransit (s.place r.pa) r.bytes = false ∧ (s.die 0).replay.find? r.follows = some e ∧
        (s.serveIn r).2.isSome = true) ∧
    (let s : State := { State.reset with pkg := { transit := some (0, 0x20) } };
      s.inTransit (s.place (hdmPa 0 0)) 64 = true ∧ window (hdmPa 0 0) = .hbm ∧
        ((s.die 0).hold (.outside (.memwr 0 0 ⟨5, 3⟩)) 65536 (s.place (hdmPa 0 0) / 65536)).isSome = true ∧
        ((s.die 0).hold (.outside (.memrd 0 0 true)) 65536 (s.place (hdmPa 0 0) / 65536)).isSome = true) ∧
    (let q : PeerReq := ⟨5, 0x20000, 8, 0xFF, .read, 0, 0, false⟩; State.reset.mustQueue (.peer q) = false) ∧
    (sectorsOf (State.reset.place (hdmPa 0 0)) 64).all State.reset.canRecall = true ∧ (3 : BitVec 2).getLsbD 1 = true := by decide +kernel
theorem test_met_spoilt_atomic :
    (let g : GEntry := { asked (.atomic 0 true) 1 0 0x1000078 8 with data := 1 };
      let s := storing g;
      g ∈ (s.strand 0).storeQ ∧ g.phase = 0 ∧ g.pa / 32 ∈ [0x1000078 / 32] ∧ s.homeOf g.pa ≠ 0 ∧
        ([0, 1, 2, 3].any (fun e => s.atomCrosses 0 e (g.pa / 32))) = true) ∧
    (let s : State := { State.reset with pkg := { failed := [some 3, none] } }; s.pkg.failed = some 3 :: [none]) ∧
    (let p : Package := { cxlReqs := [(0x800000000, true)] }; p.lines.length + 2 * 0 < 3145728 ∧ 64 * 0x800000000 / 65536 % 2 = 0) := by decide +kernel

end Sys2Proof.Tests
end

section
/-! PROOFS. Memory's canonical form is an invariant of `step` (log 2).

Memory changes in few places (the writes of `Laws/Memory.lean`, and what a reset keeps); everything else passes it on. So there is one
lemma for each function of the model that gives a machine, in the model's order, named after the function: `State.Formed.f` says that the
machine `s.f` gives has its memory in form where that of `s` is, and cites the lemmas of the functions that `f` calls. -/

set_option Elab.async false

namespace Sys2Proof.Machine

/-! ## The invariant -/

/-- A byte memory has its canonical form (log 2). -/
def Canonical (m : SMap Byte) : Prop := Memory.wf m
/-- The machine's memory has its canonical form. -/
def State.Formed (s : State) : Prop := Canonical s.mem

/-! What a function answers is in form when every machine in it is. -/

def SomeFormed : Option State → Prop
  | some s => s.Formed
  | none => True
def NextFormed : Host.Outcome State Fault Refusal → Prop
  | .next s => s.Formed
  | .fault _ => True
  | .refused _ => True
/-- The machine that stands in place of a value. -/
def ErrFormed {α : Type} : Except State α → Prop
  | .error s => s.Formed
  | .ok _ => True
def Rd.Formed : Rd → Prop
  | .wait s => s.Formed
  | .ok _ _ => True
  | .fault _ _ _ => True
  | .bad _ => True
  | .replay => True
def Entry.Formed : Entry → Prop
  | .wait s => s.Formed
  | .ok _ _ => True
  | .bad => True
def Walk.Formed : Walk → Prop
  | .wait s => s.Formed
  | .leaf _ _ _ => True
  | .fault _ _ => True
  | .replay _ => True
  | .bad _ => True
def Tr.Formed : Tr → Prop
  | .wait s => s.Formed
  | .ok _ _ => True
  | .fault _ _ => True
  | .replay => True
/-- The translation that stands in place of a value. -/
def ErrTr {α : Type} : Except Tr α → Prop
  | .error r => r.Formed
  | .ok _ => True
def Read.Formed : Read → Prop
  | .wait s => s.Formed
  | .ok _ => True
  | .held _ => True
  | .fault _ _ _ => True
  | .bad _ => True
def PageAt.Formed : PageAt → Prop
  | .wait s => s.Formed
  | .here _ => True
  | .big => True
  | .unmapped => True
  | .moving => True
  | .bad => True
def KvRead.Formed : KvRead → Prop
  | .wait s => s.Formed
  | .ok _ => True
  | .held _ => True
  | .bad _ => True
def Got.Formed : Got → Prop
  | .wait s => s.Formed
  | .data _ _ _ => True
  | .dead _ _ => True
  | .bad => True
def Hint.Formed : Hint → Prop
  | .wait s => s.Formed
  | .none => True
  | .near _ _ => True
  | .held _ => True
def Pick.Formed : Pick → Prop
  | .wait s => s.Formed
  | .task _ _ => True
  | .none => True
def Verdict.Formed : Verdict → Prop
  | .wait s => s.Formed
  | .answer _ _ _ => True
  | .accept _ _ => True
  | .held _ _ => True
  | .bad _ _ => True
def Tried.Formed : Tried → Prop
  | .served s => s.Formed
  | .waits s => s.Formed
def Walked.Formed : Walked → Prop
  | .over s => s.Formed
  | .asked s => s.Formed
  | .moving => True
def Loaded.Formed : Loaded → Prop
  | .ok s => s.Formed
  | .stop s r => s.Formed ∧ r.Formed
def MigJudge.Formed : MigJudge → Prop
  | .status s _ => s.Formed
  | .go _ => True
  | .wait s => s.Formed
def LoadEnd.Formed : LoadEnd → Prop
  | .done s _ => s.Formed
  | .wait s => s.Formed
  | .held _ => True
def CmdEnd.Formed : CmdEnd → Prop
  | .done s _ _ => s.Formed
  | .begun s => s.Formed
  | .wait s => s.Formed
  | .stuck => True
/-- The effect of an operation at its commit keeps memory in form. -/
def Act.Keeps (a : Act) : Prop := ∀ s : State, s.Formed → (a.commit s).Formed

/-! ## Rules that the lemmas share -/

section
variable {s : State}

theorem State.formed_mk {a b c d e f g} {m : SMap Byte} {i j k l o p q r t} :
    (State.mk a b c d e f g m i j k l o p q r t).Formed ↔ Canonical m := Iff.rfl
theorem State.Formed.mem (h : s.Formed) : Canonical s.mem := h
theorem State.Formed.withShadows (h : s.Formed) {x : List Shadow} : State.Formed { s with shadows := x } := h
theorem State.Formed.foldl {β : Type} (h : s.Formed) {f : State → β → State} {l : List β}
    (hf : ∀ s x, s.Formed → (f s x).Formed) : (l.foldl f s).Formed := foldl_keeps State.Formed f hf l s h
theorem State.Formed.loop (h : s.Formed) {f : Nat → State → State} {n i : Nat}
    (hf : ∀ i s, s.Formed → (f i s).Formed) : (Machine.loop f n i s).Formed := loop_keeps State.Formed f hf n i s h

end

section
variable {β : Type} {o : Option State}

theorem SomeFormed.of_some {s : State} (h : SomeFormed o) (e : o = some s) : s.Formed := by subst e; exact h
theorem ErrFormed.of_error {x : Except State β} {s : State} (h : ErrFormed x) (e : x = .error s) : s.Formed := by subst e; exact h
theorem SomeFormed.getD {s : State} (h : SomeFormed o) (hs : s.Formed) : (o.getD s).Formed := by
  cases o with
  | none => exact hs
  | some t => exact h
theorem SomeFormed.map {f : State → State} (h : SomeFormed o) (hf : ∀ t, t.Formed → (f t).Formed) : SomeFormed (o.map f) := by
  cases o with
  | none => trivial
  | some t => exact hf t h
/-- The machine made of what an option holds. -/
theorem SomeFormed.mapAny {f : β → State} {o : Option β} (hf : ∀ x, (f x).Formed) : SomeFormed (o.map f) := by
  cases o with
  | none => trivial
  | some x => exact hf x
theorem SomeFormed.bind {f : β → Option State} {o : Option β} (hf : ∀ x, SomeFormed (f x)) : SomeFormed (o.bind f) := by
  cases o with
  | none => trivial
  | some x => exact hf x
theorem SomeFormed.findSome? {f : β → Option State} {l : List β} (hf : ∀ x, SomeFormed (f x)) : SomeFormed (l.findSome? f) := by
  cases e : l.findSome? f with
  | none => trivial
  | some t =>
    obtain ⟨x, -, ex⟩ := List.exists_of_findSome?_eq_some e
    exact (hf x).of_some ex

end

/-! ## Cores, strands and the package -/

section
variable {s : State}

theorem State.Formed.setCluster (h : s.Formed) {cl x1} : (s.setCluster cl x1).Formed := h
theorem State.Formed.onCluster (h : s.Formed) {cl f} : (s.onCluster cl f).Formed := h
theorem State.Formed.setStrand (h : s.Formed) {n st} : (s.setStrand n st).Formed := h
theorem State.Formed.setCore (h : s.Formed) {c co} : (s.setCore c co).Formed := h
theorem State.Formed.onStrand (h : s.Formed) {n f} : (s.onStrand n f).Formed := h
theorem State.Formed.onCore (h : s.Formed) {c f} : (s.onCore c f).Formed := h

end

/-! ## The matrix unit's completions -/

section
variable {s : State}

theorem State.Formed.mxComplete (h : s.Formed) {m c} : (mxComplete m c s).Formed := by
  unfold Machine.mxComplete
  split
  · exact h.onStrand
  · exact h.onCore

end

/-! ## Micro-ops -/

section
variable {s : State}

theorem State.Formed.runWord (h : s.Formed) {c scl main} : NextFormed (runWord c scl main s) := by
  unfold Machine.runWord
  grind [State.Formed.setCore, State.Formed.setCluster, State.Formed.onStrand, NextFormed]
theorem State.Formed.execMmMac (h : s.Formed) {core o scl} : NextFormed (execMmMac core o scl s) := h.runWord
theorem State.Formed.execMmScl (h : s.Formed) {core o} : NextFormed (execMmScl core o s) := h.runWord
theorem State.Formed.execMmClr (h : s.Formed) {core o scl} : NextFormed (execMmClr core o scl s) := h.runWord
theorem State.Formed.execMmDrn (h : s.Formed) {core o scl} : NextFormed (execMmDrn core o scl s) := h.runWord
theorem State.Formed.execMmLoop (h : s.Formed) {core o scl} : NextFormed (execMmLoop core o scl s) := h.runWord
theorem State.Formed.execMmJmp (h : s.Formed) {core o scl} : NextFormed (execMmJmp core o scl s) := h.runWord
theorem State.Formed.execMmSetp (h : s.Formed) {core o scl} : NextFormed (execMmSetp core o scl s) := h.runWord
theorem State.Formed.execMmEnd (h : s.Formed) {core scl} : NextFormed (execMmEnd core scl s) := h.runWord
theorem State.Formed.execMmNop (h : s.Formed) {core} : NextFormed (execMmNop core s) := h.runWord
theorem State.Formed.execBadWord (h : s.Formed) {core} : NextFormed (execBadWord core s) := h.runWord
theorem State.Formed.execRoutineWatermarkResume (h : s.Formed) {core} : NextFormed (execRoutineWatermarkResume core s) := by
  unfold Machine.execRoutineWatermarkResume
  dsimp only
  split
  · split
    · exact h.setCore
    · trivial
  · trivial

end

/-! ## Memory at its home -/

section
variable {s : State}

theorem State.Formed.setDie (h : s.Formed) {d x1} : (s.setDie d x1).Formed := h
theorem State.Formed.onDie (h : s.Formed) {d f} : (s.onDie d f).Formed := h
theorem State.Formed.onPkg (h : s.Formed) {f} : (s.onPkg f).Formed := h
theorem State.Formed.setCtx (h : s.Formed) {i x1} : (s.setCtx i x1).Formed := h
theorem State.Formed.onCtx (h : s.Formed) {i f} : (s.onCtx i f).Formed := h
theorem State.Formed.onStack (h : s.Formed) {k f} : (s.onStack k f).Formed := h
theorem State.Formed.countInt (h : s.Formed) {pa n} : (s.countInt pa n).Formed := by
  unfold State.countInt
  grind [State.Formed.onStack, !State.Formed.foldl]
theorem State.Formed.countMerge (h : s.Formed) {pa n mask} : (s.countMerge pa n mask).Formed := by
  unfold State.countMerge
  split
  · exact h.countInt
  · exact h
theorem State.Formed.cellWrite (h : s.Formed) {pa n mask value poison} : (s.cellWrite pa n mask value poison).Formed :=
  cellWrite_wf s pa n mask value poison h
theorem State.Formed.recall (h : s.Formed) {sec} : (s.recall sec).Formed := recall_wf s sec h
theorem State.Formed.rawWrite (h : s.Formed) {q n mask value poison store} : (s.rawWrite q n mask value poison store).Formed :=
  rawWrite_wf s q n mask value poison store h
theorem State.Formed.rawPieces (h : s.Formed) {sec ps store} : (s.rawPieces sec ps store).Formed := rawPieces_wf s sec ps store h
theorem State.Formed.homeWrite (h : s.Formed) {pa n mask value poison store} : (s.homeWrite pa n mask value poison store).Formed :=
  homeWrite_wf s pa n mask value poison store h
theorem State.Formed.homeRange (h : s.Formed) {pa n value poison store} : (s.homeRange pa n value poison store).Formed :=
  homeRange_wf s pa n value poison store h
theorem State.Formed.setLine (h : s.Formed) {l x1} : (s.setLine l x1).Formed := h
theorem State.Formed.askLine (h : s.Formed) {l own} : (s.askLine l own).Formed := by
  unfold State.askLine
  split
  · exact h
  · exact h.onPkg
theorem State.Formed.askBisnp (h : s.Formed) {l inv} : (s.askBisnp l inv).Formed := by
  unfold State.askBisnp
  split
  · exact h
  · exact h.onDie
theorem State.Formed.gateAt (h : s.Formed) {q n write} : (s.gateAt q n write).1.Formed := by
  unfold State.gateAt
  grind [State.Formed.setLine, State.Formed.askLine, State.Formed.askBisnp, !State.Formed.foldl]
theorem State.Formed.recallAt (h : s.Formed) {q n} : SomeFormed (s.recallAt q n) := by
  unfold State.recallAt
  grind [State.Formed.recall, !State.Formed.foldl, SomeFormed]
theorem State.Formed.gateRaw (h : s.Formed) {q n write} : (s.gateRaw q n write).1.Formed := gateRaw_wf s q n write h
theorem State.Formed.gate (h : s.Formed) {pa n write} : (s.gate pa n write).1.Formed := gate_wf s pa n write h
theorem State.Formed.gates (h : s.Formed) {l} : (s.gates l).1.Formed := by
  induction l generalizing s with
  | nil => exact h
  | cons x l ih => unfold State.gates; grind [!State.Formed.gate]
theorem State.Formed.goViral (h : s.Formed) {reason} : (s.goViral reason).Formed := by
  unfold State.goViral
  split
  · exact h
  · exact h.onPkg
theorem State.Formed.structBad (h : s.Formed) {pa n} : (s.structBad pa n).Formed := h.countInt.goViral
theorem State.Formed.failsFor (h : s.Formed) {ctx pa n} : (s.failsFor ctx pa n).Formed := h.countInt.onPkg
theorem State.Formed.postFails (h : s.Formed) {w} : (s.postFails w).Formed := by
  unfold State.postFails
  split
  · exact h.failsFor
  · exact h
theorem State.Formed.performPosted (h : s.Formed) {w} : (s.performPosted w).1.Formed := performPosted_wf s w h
theorem State.Formed.postOne (h : s.Formed) {w} : (s.postOne w).Formed := by
  unfold State.postOne
  grind [State.Formed.onPkg, !State.Formed.performPosted]
theorem State.Formed.post (h : s.Formed) {pa n value queue ctx} : (s.post pa n value queue ctx).Formed :=
  post_wf s pa n value queue ctx h
theorem State.Formed.flushSome (h : s.Formed) {f} : (State.flushSome f s).Formed := flushSome_wf f s h
theorem State.Formed.flushPosted (h : s.Formed) : s.flushPosted.Formed := flushPosted_wf s h
theorem State.Formed.countRefusal (h : s.Formed) {pa} : (s.countRefusal pa).Formed := by
  unfold State.countRefusal
  split
  · exact h
  · exact h.onPkg
theorem State.Formed.askPeer (h : s.Formed) {q} : (s.askPeer q).Formed := by
  unfold State.askPeer
  split
  · exact h
  · exact h.onPkg
theorem State.Formed.onCopy (h : s.Formed) {d sec f} : (s.onCopy d sec f).Formed := h
theorem State.Formed.agentWrite (h : s.Formed) {d pa n value poison store} : (s.agentWrite d pa n value poison store).Formed := by
  unfold State.agentWrite
  grind [State.Formed.homeWrite, State.Formed.onCopy, !State.Formed.foldl]

end

/-! ## Translation -/

section
variable {s : State}

theorem State.Formed.walkRead (h : s.Formed) {d asid pa} : (s.walkRead d asid pa).Formed := by
  unfold State.walkRead
  grind [!State.Formed.gate, Entry.Formed]
theorem State.Formed.walkFrom (h : s.Formed) {d asid va f lvl t seen} : (s.walkFrom d asid va f lvl t seen).Formed := by
  induction f generalizing lvl t seen with
  | zero => trivial
  | succ f ih => unfold State.walkFrom; grind [!State.Formed.walkRead, Walk.Formed, Entry.Formed]
theorem State.Formed.walk (h : s.Formed) {d asid va} : (s.walk d asid va).Formed := by
  unfold State.walk
  grind [State.Formed.goViral, !State.Formed.walkRead, State.Formed.countInt, !State.Formed.walkFrom, Entry.Formed, Walk.Formed]
theorem State.judgeLeaf_formed {keydom l va k} : (s.judgeLeaf keydom l va k).Formed := by
  unfold State.judgeLeaf
  dsimp only
  split
  · trivial
  · split
    · trivial
    · split <;> trivial
theorem State.Formed.translate (h : s.Formed) {d c va k} : (s.translate d c va k).Formed := by
  unfold State.translate
  grind [!State.Formed.walk, !State.judgeLeaf_formed, Tr.Formed, Walk.Formed]
theorem State.Formed.countVa (h : s.Formed) {d c va} : (s.countVa d c va).Formed := by
  unfold State.countVa
  grind [State.Formed.countInt]
theorem State.Formed.tlbUsed (h : s.Formed) {n va} : (s.tlbUsed n va).Formed := h
theorem State.Formed.readPa (h : s.Formed) {pa n} : (s.readPa pa n).Formed := by
  unfold State.readPa
  grind [!State.Formed.gate, Rd.Formed]
theorem State.Formed.used (h : s.Formed) {who} : (s.used who).Formed := by
  unfold State.used
  split
  · exact h
  · exact h.onPkg
theorem State.Formed.serving {a : Host.Outcome State Fault Refusal} (h : NextFormed a) {who} : NextFormed (serving who a) := by
  unfold Machine.serving
  grind [State.Formed.used, NextFormed]
theorem State.Formed.readPeer (h : s.Formed) {who d c pa n va} : (s.readPeer who d c pa n va).Formed := by
  unfold State.readPeer
  grind [!State.Formed.gate, State.Formed.askPeer, Rd.Formed]
theorem State.Formed.readAs (h : s.Formed) {who d c pa n va} : (s.readAs who d c pa n va).Formed := by
  unfold State.readAs
  grind [!State.Formed.readPeer, !State.Formed.gate, Rd.Formed]
theorem State.Formed.readParts (h : s.Formed) {who d c va l v p} : (s.readParts who d c va l v p).Formed := by
  induction l generalizing v p with
  | nil => trivial
  | cons x l ih => unfold State.readParts; grind [!State.Formed.translate, !State.Formed.readAs, Rd.Formed, Tr.Formed]
theorem State.Formed.readVa (h : s.Formed) {who d c va n} : (s.readVa who d c va n).Formed := h.readParts
theorem State.Formed.countOwn (h : s.Formed) {d c va n} : (s.countOwn d c va n).Formed := by
  unfold State.countOwn
  grind [State.Formed.countInt, State.Formed.countRefusal, !State.Formed.foldl]
theorem State.Formed.readStruct (h : s.Formed) {who d c va n detail} : (s.readStruct who d c va n detail).Formed := by
  unfold State.readStruct
  grind [!State.Formed.readVa, Rd.Formed, Read.Formed]
theorem State.Formed.pages (h : s.Formed) {d c va k n i m} : ErrTr (s.pages d c va k n i m) := by
  induction n generalizing i m with
  | zero => trivial
  | succ n ih => unfold State.pages; grind [!State.Formed.translate, ErrTr]

end

/-! ## Records -/

section
variable {s : State}

theorem State.Formed.onQueue (h : s.Formed) {k f} : (s.onQueue k f).Formed := h
theorem State.Formed.deviceEntry (h : s.Formed) {k value} : (s.deviceEntry k value).1.Formed := by
  unfold State.deviceEntry
  dsimp only
  split
  · exact h.onQueue
  · exact h.post
theorem State.Formed.event (h : s.Formed) {kind die arg} : (s.event kind die arg).Formed := by
  unfold State.event
  split
  · exact h
  · exact h.deviceEntry
theorem State.Formed.touch (h : s.Formed) {d asid va l} : (s.touch d asid va l).Formed := by
  unfold State.touch
  grind [State.Formed.setDie, !State.Formed.deviceEntry, State.Formed.event, State.Formed.onDie]
theorem State.Formed.queueErr (h : s.Formed) {k} : (s.queueErr k).Formed := h.onQueue.event
theorem State.Formed.onLaunch (h : s.Formed) {c lid f} : (s.onLaunch c lid f).Formed := h
theorem State.Formed.onTask (h : s.Formed) {c lid t f} : (s.onTask c lid t f).Formed := h
theorem State.Formed.onTaskOf (h : s.Formed) {n f} : (s.onTaskOf n f).Formed := h
theorem State.Formed.gsEvent (h : s.Formed) {code} : (s.gsEvent code).Formed := h
theorem State.Formed.gsTaskEvent (h : s.Formed) {c lid code} : (s.gsTaskEvent c lid code).Formed := by
  unfold State.gsTaskEvent
  split
  · split
    · exact h.gsEvent
    · exact h
  · exact h
theorem State.Formed.coreSeq (h : s.Formed) {c} : (s.coreSeq c).1.Formed := h
theorem State.Formed.dieSeq (h : s.Formed) {d} : (s.dieSeq d).1.Formed := h
theorem State.Formed.appendNow (h : s.Formed) {c r} : (s.appendNow c r).1.Formed := by
  unfold State.appendNow
  extract_lets x s0 drop
  have h0 : s0.Formed := by
    have hr := h.readPa (pa := x.fqbase + 8) (n := 8)
    dsimp only [s0]; split
    · next s1 e => rw [e] at hr; exact hr
    · exact h
  have hd {t : State} (ht : t.Formed) : (drop t).Formed := ht.onCtx.post
  have hr := h0.readPa (pa := x.fqbase + 8) (n := 8)
  split
  · exact h
  · split
    · next s1 e => rw [e] at hr; exact hr
    · exact hd h0.failsFor
    · dsimp only; split
      · exact h0.post.onCtx.post.event
      · exact hd h0
    · exact h0
theorem State.Formed.drainRecords (h : s.Formed) : s.drainRecords.Formed := by
  unfold State.drainRecords
  grind [State.Formed.onPkg, !State.Formed.appendNow, !State.Formed.foldl]
theorem State.Formed.append (h : s.Formed) {c r} : (s.append c r).Formed := by
  unfold State.append
  grind [State.Formed.onPkg, !State.Formed.appendNow]
theorem State.Formed.coreRecord (h : s.Formed) {core ctxh launch task command cause detail faddr slot} :
    (s.coreRecord core ctxh launch task command cause detail faddr slot).Formed := by
  unfold State.coreRecord
  grind [!State.Formed.coreSeq, State.Formed.gsTaskEvent, State.Formed.append]
theorem State.Formed.settleWrites (h : s.Formed) : s.settleWrites.Formed := h.flushPosted.drainRecords
theorem State.Formed.dieRecord (h : s.Formed) {d c launch task cause detail faddr command} :
    (s.dieRecord d c launch task cause detail faddr command).Formed := by
  unfold State.dieRecord
  grind [!State.Formed.dieSeq, State.Formed.gsTaskEvent, State.Formed.append]
theorem State.Formed.freeStrand (h : s.Formed) {n} : (s.freeStrand n).Formed := h
theorem State.Formed.settle (h : s.Formed) {n} : (s.settle n).Formed := by
  unfold State.settle
  dsimp only
  split
  · exact h.freeStrand
  · exact h
theorem State.Formed.dropStrand (h : s.Formed) {n saving} : (s.dropStrand n saving).Formed := by
  unfold State.dropStrand
  grind [State.Formed.onTask, State.Formed.coreRecord, State.Formed.onStrand, State.Formed.onCore, State.Formed.onCluster,
    State.Formed.settle, State.Formed.onDie, !State.Formed.foldl]
theorem State.Formed.unpark (h : s.Formed) {c t} : (s.unpark c t).Formed := by
  unfold State.unpark
  split
  · exact h.onCtx
  · exact h
theorem State.Formed.endTask (h : s.Formed) {n status err} : (s.endTask n status err).Formed := by
  unfold State.endTask
  grind [State.Formed.unpark, State.Formed.onLaunch, State.Formed.dropStrand]
theorem State.Formed.endLoose (h : s.Formed) {c lid t status} : (s.endLoose c lid t status).Formed := h
theorem State.Formed.exitErr (h : s.Formed) {n err} : (s.exitErr n err).Formed := h
theorem State.Formed.unmark (h : s.Formed) {c index tile} : (s.unmark c index tile).Formed := h
theorem State.Formed.complete (h : s.Formed) {core n e live ctxh launch task command mark routine} :
    (s.complete core n e live ctxh launch task command mark routine).Formed := by
  unfold State.complete
  dsimp only
  split
  · exact h
  · split
    · split
      · exact h.setStrand.coreRecord
      · exact h.setStrand
    · exact h.setStrand

end

/-! ## Fetching -/

section
variable {s : State}

theorem State.Formed.askerRecord (h : s.Formed) {who d c cause detail va} : (s.askerRecord who d c cause detail va).Formed := by
  unfold State.askerRecord
  split
  · exact h.coreRecord
  · split
    · exact h.coreRecord
    · exact h.dieRecord
  · exact h.dieRecord
theorem State.Formed.recordReads (h : s.Formed) {who d c va n} : (s.recordReads who d c va n).Formed := by
  unfold State.recordReads
  grind [State.Formed.askerRecord, State.Formed.countOwn, !State.Formed.foldl]
theorem State.Formed.structRead (h : s.Formed) {who d c va n detail} :
    (s.structRead who d c va n detail).1.Formed ∧ (s.structRead who d c va n detail).2.Formed := by
  unfold State.structRead
  grind [State.Formed.recordReads, !State.Formed.readStruct, Read.Formed]
theorem State.Formed.agentHold (h : s.Formed) {d c va} : SomeFormed (s.agentHold d c va) := by
  unfold State.agentHold
  grind [State.Formed.setDie, !SomeFormed.mapAny]
theorem State.Formed.readCode (h : s.Formed) {n c base va} : (s.readCode n c base va).Formed := by
  unfold State.readCode
  grind [!State.Formed.readPeer, !State.Formed.gate, Rd.Formed]
theorem State.Formed.codeFails (h : s.Formed) {n base va} : (s.codeFails n base va).Formed := by
  unfold State.codeFails
  grind [State.Formed.countInt, State.Formed.askerRecord]
theorem State.Formed.fetchWord (h : s.Formed) {n va} : (s.fetchWord n va).1.Formed := by
  unfold State.fetchWord
  grind [!State.Formed.readCode, State.Formed.countInt, State.Formed.used, State.Formed.codeFails, State.Formed.tlbUsed,
    State.Formed.onCore, Rd.Formed]

end

/-! ## Leaving a strand -/

section
variable {s : State}

theorem State.Formed.select (h : s.Formed) {c} : (s.select c).Formed := by
  unfold State.select
  split
  · exact h
  · split
    · exact h
    · exact h.onStrand.onCore
theorem State.Formed.leave (h : s.Formed) {n run why} : (s.leave n run why).Formed := h.onStrand.onCore.select
theorem State.Formed.block (h : s.Formed) {n why} : (s.block n why).Formed := h.leave
theorem State.Formed.unblock (h : s.Formed) {n} : (s.unblock n).Formed := h

end

/-! ## Tasks and their strands -/

section
variable {s : State}

theorem State.Formed.rejudge (h : s.Formed) {c} : (s.rejudge c).Formed := by
  unfold State.rejudge
  grind [State.Formed.onTask, State.Formed.endLoose, State.Formed.dieRecord, !State.Formed.foldl]
theorem State.Formed.hintAt (h : s.Formed) {d c va} {k : Nat → Hint} (hk : ∀ v, (k v).Formed) : (s.hintAt d c va k).Formed := by
  unfold State.hintAt; grind [!State.Formed.translate, Tr.Formed, Hint.Formed]
theorem State.Formed.hintRead (h : s.Formed) {d c va n} {k : Nat → Hint} (hk : ∀ v, (k v).Formed) :
    (s.hintRead d c va n k).Formed := by
  unfold State.hintRead
  exact h.hintAt fun _ => by grind [!State.Formed.readVa, Rd.Formed, Hint.Formed]
theorem State.Formed.hint (h : s.Formed) {d c l t} : (s.hint d c l t).Formed := by
  unfold State.hint
  grind [!State.Formed.hintRead, !State.Formed.hintAt, Hint.Formed]
theorem State.Formed.readKernel (h : s.Formed) {who d c l} : (s.readKernel who d c l).Formed := h.readVa

end

/-! ## Tear-down -/

section
variable {s : State}

theorem State.Formed.unmarkCmd (h : s.Formed) {p} : (s.unmarkCmd p).Formed := by
  unfold State.unmarkCmd
  split
  · exact h
  · split
    · exact h.unmark
    · exact h
theorem State.Formed.undo (h : s.Formed) {cl ch p slot} : (s.undo cl ch p slot).Formed := by
  unfold State.undo
  grind [State.Formed.unmarkCmd, State.Formed.onCore, State.Formed.onDie, State.Formed.onCluster]
theorem State.Formed.abandonHead (h : s.Formed) {cl ch} : (s.abandonHead cl ch).Formed := by
  unfold State.abandonHead
  grind [State.Formed.undo, State.Formed.onDie, State.Formed.onCluster]
theorem State.Formed.abandonOf (h : s.Formed) {n} : (s.abandonOf n).Formed := by
  unfold State.abandonOf
  grind [State.Formed.abandonHead, State.Formed.onCluster, !State.Formed.foldl]
theorem State.Formed.releaseHalted (h : s.Formed) {c} : (s.releaseHalted c).Formed := by
  unfold State.releaseHalted
  grind [State.Formed.abandonHead, !State.Formed.foldl]
theorem State.Formed.switchNone (h : s.Formed) {n d} : (s.switchNone n d).Formed := h
theorem State.Formed.stopBound (h : s.Formed) {n} : (s.stopBound n).Formed := by
  unfold State.stopBound
  split
  · exact h.abandonOf.settle
  · exact h.abandonOf.dropStrand.onStrand
  · exact h.abandonOf.dropStrand.select
theorem State.Formed.unreserve (h : s.Formed) {p} : (s.unreserve p).Formed := h
theorem State.Formed.onGs (h : s.Formed) {f} : (s.onGs f).Formed := h
theorem State.Formed.endIteration (h : s.Formed) {c l} : (s.endIteration c l).Formed := by
  unfold State.endIteration
  grind [State.Formed.onCtx, State.Formed.unpark, State.Formed.stopBound, State.Formed.onDie, State.Formed.unreserve,
    !State.Formed.foldl, State.formed_mk, State.Formed.mem]
theorem State.Formed.endIterations (h : s.Formed) : s.endIterations.Formed := by
  unfold State.endIterations
  grind [State.Formed.endIteration, !State.Formed.foldl, State.formed_mk, State.Formed.mem]
theorem State.Formed.gsTorn (h : s.Formed) : s.gsTorn.Formed := h.endIterations.onGs
theorem State.Formed.teardown (h : s.Formed) {c} : (s.teardown c).Formed := by
  unfold State.teardown
  grind [State.Formed.switchNone, State.Formed.onCtx, State.Formed.stopBound, State.Formed.releaseHalted, State.Formed.onDie,
    State.Formed.unreserve, State.Formed.gsTorn, State.Formed.gsEvent, !State.Formed.foldl, State.formed_mk, State.Formed.mem]
theorem State.Formed.integrity (h : s.Formed) {core c launch task faddr slot command} :
    (s.integrity core c launch task faddr slot command).Formed := by
  unfold State.integrity
  dsimp only
  split
  · exact h.coreRecord.teardown
  · exact h
theorem State.Formed.dieLost (h : s.Formed) {d c launch task va} : (s.dieLost d c launch task va).Formed := by
  unfold State.dieLost
  split
  · exact h.dieRecord.teardown
  · exact h
theorem State.Formed.dieFatal (h : s.Formed) {d c launch task va} : (s.dieFatal d c launch task va).Formed := by
  unfold State.dieFatal
  split
  · exact h.countVa.dieLost
  · exact h
theorem State.Formed.settleFailed (h : s.Formed) : s.settleFailed.Formed := by
  unfold State.settleFailed
  grind [State.Formed.dieLost, State.Formed.goViral, State.Formed.onPkg, !State.Formed.foldl]

end

/-! ## Traps -/

section
variable {s : State}

theorem State.Formed.systemStop (h : s.Formed) {n cause} : (s.systemStop n cause).Formed := by
  unfold State.systemStop
  dsimp only
  split
  · split
    · exact h.onTaskOf.gsTaskEvent.leave.onStrand
    · exact h.onTaskOf.gsTaskEvent.onCtx.leave
  · split
    · exact h.teardown
    · exact h.endTask.select
theorem State.Formed.takeTrap (h : s.Formed) {n t after left} : (s.takeTrap n t after left).Formed := by
  unfold State.takeTrap
  grind [!State.Formed.coreSeq, State.Formed.gsTaskEvent, State.Formed.onCore, State.Formed.setStrand, State.Formed.append,
    State.Formed.systemStop]

end

/-! ## Operations on tasks -/

section
variable {s : State}

theorem State.Formed.arrive (h : s.Formed) {n wait} : (s.arrive n wait).Formed := h
theorem State.Formed.observePhase (h : s.Formed) {n} : (s.observePhase n).Formed := by
  unfold State.observePhase
  split
  · exact h.onDie
  · exact h
theorem State.Formed.pickFrom (h : s.Formed) {n own c l} : (s.pickFrom n own c l).Formed := by
  induction l with
  | nil => trivial
  | cons x l ih =>
    unfold State.pickFrom
    grind [!State.Formed.readKernel, !State.Formed.agentHold, SomeFormed.getD, Rd.Formed, Pick.Formed]
theorem State.Formed.cswitchPick (h : s.Formed) {n c} : (s.cswitchPick n c).Formed := by
  unfold State.cswitchPick
  split
  · trivial
  · exact h.pickFrom

end

/-! ## The effects of slot operations -/

theorem opWaitany_keeps (o : CE) (e : Env) : (opWaitany o e).Keeps := by
  unfold opWaitany; split <;> exact fun _ h => h
theorem opVcvt_keeps (u : VUnit) (o : VR) (e : Env) : (opVcvt u o e).Keeps := by
  unfold opVcvt; dsimp only; split
  · exact fun _ h => h
  · split <;> exact fun _ h => h
theorem opVpack_keeps (u : VUnit) (o : VR) (e : Env) : (opVpack u o e).Keeps := by
  unfold opVpack; dsimp only; split <;> exact fun _ h => h
theorem opTlook_keeps (o : RG) (e : Env) : (opTlook o e).Keeps := fun s h => by
  unfold opTlook; dsimp only; split <;> exact h
theorem opTdel_keeps (o : RG) (e : Env) : (opTdel o e).Keeps := fun s h => by
  unfold opTdel; dsimp only; split <;> exact h
theorem opTdelIdx_keeps (o : RG) (e : Env) : (opTdelIdx o e).Keeps := fun s h => by
  unfold opTdelIdx; dsimp only; split <;> exact h
theorem access_keeps {e : Env} {load a align k reads pend next g} : (access e load a align k reads pend next g).Keeps := by
  unfold access; dsimp only; split
  · exact fun _ h => h
  · exact fun _ h => h
  · exact fun s h => (State.Formed.tlbUsed h.onStrand).touch
theorem opPref_keeps (o : MG) (e : Env) : (opPref o e).Keeps := by
  unfold opPref; dsimp only; split <;> exact fun _ h => h
theorem opMabort_keeps (e : Env) : (opMabort e).Keeps := fun _ h => h.setCore.foldl fun _ _ ht => ht.mxComplete
theorem opAacc_keeps (o : AC) (e : Env) : (opAacc o e).Keeps := fun s h => by
  unfold opAacc; grind [State.Formed.setCore, State.Formed.onStrand, State.Formed.onCore]
theorem opAow_keeps (o : AC) (e : Env) : (opAow o e).Keeps := fun s h => by
  unfold opAow; grind [State.Formed.setCore, State.Formed.onStrand, State.Formed.onCluster]
theorem opAdrn_keeps (o : AC) (e : Env) : (opAdrn o e).Keeps := fun s h => by
  unfold opAdrn; dsimp only; split <;> exact h
theorem spawn_keeps {e : Env} {o : RG} {target} : (spawn e o target).Keeps := fun s h => by
  unfold spawn; dsimp only; split
  · exact h
  · exact h.onLaunch
theorem opTagwait_keeps (o : RG) (e : Env) : (opTagwait o e).Keeps := by
  unfold opTagwait; dsimp only; split
  · exact fun _ h => h
  · exact fun _ h => h
  · exact fun s h => iteInduction (fun _ => h.onDie) fun _ => h
theorem opCswitch_keeps (o : RG) (e : Env) : (opCswitch o e).Keeps := by
  unfold opCswitch; dsimp only; split
  · exact fun _ h => h
  · split
    · exact fun s h => h.used
    · exact fun _ h => h
    · exact fun s h => h.used
theorem opPark_keeps (o : RG) (e : Env) : (opPark o e).Keeps := by
  unfold opPark; dsimp only; split
  · exact fun _ h => h.onCtx
  · split <;> exact fun _ h => h
theorem opOf_keeps (i : Instr) (e : Env) : (opOf i e).Keeps := by
  cases i
  case waitany o => exact opWaitany_keeps o e
  case vcvt u o => exact opVcvt_keeps u o e
  case vpack u o => exact opVpack_keeps u o e
  case tlook o => exact opTlook_keeps o e
  case tdel o => exact opTdel_keeps o e
  case tdelIdx o => exact opTdelIdx_keeps o e
  case gld o | glds o | glda o | gst o | gsts o | gstl o | atom o | atomr o => exact access_keeps
  case pref o => exact opPref_keeps o e
  case mabort => exact opMabort_keeps e
  case aacc o => exact opAacc_keeps o e
  case aow o => exact opAow_keeps o e
  case adrn o => exact opAdrn_keeps o e
  case spawn o | spawnAt o => exact spawn_keeps
  case bar o | barArrive o => exact fun _ h => h.arrive
  case barWait o => exact fun _ h => h.observePhase
  case tagwait o => exact opTagwait_keeps o e
  case cswitch o => exact opCswitch_keeps o e
  case park o => exact opPark_keeps o e
  all_goals exact fun _ h => h

/-! ## The issue of an iteration -/

section
variable {s : State}

theorem State.Formed.parkTask (h : s.Formed) {n d deadline} : (s.parkTask n d deadline).Formed := by
  unfold State.parkTask
  grind [State.Formed.onTaskOf, State.Formed.onCtx, State.Formed.leave, State.Formed.gsTaskEvent, State.Formed.onStrand]
theorem State.Formed.switchTo (h : s.Formed) {n d c lid t} : (s.switchTo n d c lid t).Formed :=
  h.onStrand.onTask.onDie.leave.onStrand
theorem State.Formed.doYield (h : s.Formed) {n} : (s.doYield n).Formed := by
  unfold State.doYield
  dsimp only
  split
  · exact h.onStrand.leave
  · exact h.onStrand
theorem Iter.acts_keep {it : Iter} {s : State} {w : Fetch} {a : Acted} (h : a ∈ it.acts s w) : a.act.Keeps := by
  obtain ⟨x, -, hx⟩ := List.mem_filterMap.1 h
  split at hx
  · cases hx; exact opOf_keeps _ _
  · cases hx
theorem mem_of_mem_commitOrder {as : List Acted} {a : Acted} (h : a ∈ commitOrder as) : a ∈ as := by
  unfold commitOrder at h; grind
theorem State.Formed.effects (h : s.Formed) {it : Iter} {as : List Acted} (ha : ∀ a ∈ as, a.act.Keeps) :
    (it.effects s as).Formed := by
  refine State.Formed.onStrand (List.foldlRecOn _ _ (State.Formed.setStrand ?_) fun t ht a hm =>
    ha a (mem_of_mem_commitOrder hm) t ht)
  exact iteInduction (fun _ => h.observePhase) fun _ => h
theorem State.Formed.follow (h : s.Formed) {it : Iter} {p} : (it.follow s p).Formed := by
  unfold Iter.follow
  grind [State.Formed.takeTrap, State.Formed.doYield, State.Formed.exitErr, State.Formed.endTask, State.Formed.select,
    State.Formed.switchTo,
    State.Formed.parkTask]
theorem State.Formed.commit (h : s.Formed) {it : Iter} {as : List Acted} {words} (ha : ∀ a ∈ as, a.act.Keeps) :
    (it.commit s as words).Formed := State.Formed.follow (h.effects ha).onStrand
theorem State.Formed.attempt (h : s.Formed) {it : Iter} {words} : (it.attempt s words).Formed := by
  have hc {t : State} (ht : t.Formed) {u w ws} : (it.commit t (it.acts u w) ws).Formed := ht.commit fun a hm => Iter.acts_keep hm
  unfold Iter.attempt
  grind [!State.Formed.fetchWord, State.Formed.takeTrap, State.Formed.onCore, State.Formed.block]
theorem State.Formed.issueOne (h : s.Formed) {i} : NextFormed (issueOne i s) := by
  unfold Machine.issueOne
  split
  · exact h.attempt
  · trivial

end

/-! ## Strands -/

section
variable {s : State}

theorem State.Formed.fetchMany (h : s.Formed) {n left len va k ws} : (s.fetchMany n left len va k ws).1.Formed := by
  induction k generalizing s va ws with
  | zero => exact h
  | succ k ih => unfold State.fetchMany; grind [!State.Formed.fetchWord]
theorem State.Formed.fetchBundle (h : s.Formed) {n} : (s.fetchBundle n).1.Formed := by
  unfold State.fetchBundle
  grind [!State.Formed.fetchWord, !State.Formed.fetchMany]
theorem State.Formed.issueWords (h : s.Formed) {n ws} : (s.issueWords n ws).Formed := by
  unfold State.issueWords
  dsimp only
  split
  · exact h.takeTrap
  · exact h.attempt
theorem State.Formed.execBundleIssue (h : s.Formed) {core} : NextFormed (execBundleIssue core s) := by
  unfold Machine.execBundleIssue
  grind [!State.Formed.fetchBundle, State.Formed.issueWords, State.Formed.takeTrap, State.Formed.block, NextFormed, State.formed_mk,
    State.Formed.mem]
theorem State.Formed.askAgain (h : s.Formed) {n a} : (s.askAgain n a).Formed := by
  unfold State.askAgain
  grind [!State.Formed.fetchWord, !State.Formed.cswitchPick, Pick.Formed]
theorem State.Formed.execStrandUnblock (h : s.Formed) {strand} : NextFormed (execStrandUnblock strand s) := by
  unfold Machine.execStrandUnblock
  dsimp only
  split
  · split
    · exact h.unblock
    · split
      · trivial
      · exact h.askAgain
  · trivial
theorem State.Formed.execIdleCoreSelect (h : s.Formed) {core} : NextFormed (execIdleCoreSelect core s) := by
  unfold Machine.execIdleCoreSelect
  split
  · trivial
  · exact h.select
theorem State.Formed.execForcedYield (h : s.Formed) {core} : NextFormed (execForcedYield core s) := by
  unfold Machine.execForcedYield
  split
  · trivial
  · split
    · trivial
    · split
      · exact h.leave
      · exact h.onCore
theorem State.Formed.keepLeaf (h : s.Formed) {core asid va l seen} : (s.keepLeaf core asid va l seen).Formed := h
theorem State.Formed.fromDie (h : s.Formed) {core key t} : (s.fromDie core key t).Formed := h
theorem State.Formed.walkFor (h : s.Formed) {n va k} : (s.walkFor n va k).Formed := by
  unfold State.walkFor
  grind [State.Formed.onStrand, State.Formed.fromDie, !State.Formed.walk, State.Formed.keepLeaf, State.Formed.countInt, Walk.Formed,
    Walked.Formed]
theorem State.Formed.walkHeld (h : s.Formed) {d r} : (s.walkHeld d r).Formed := by
  unfold State.walkHeld
  grind [!State.Formed.walkFor, !State.Formed.walk, State.Formed.keepLeaf, Walk.Formed, Walked.Formed]
theorem State.Formed.walkReleased (h : s.Formed) {d f} : (s.walkReleased d f).Formed := by
  induction f generalizing s with
  | zero => exact h
  | succ f ih => unfold State.walkReleased; grind [!State.Formed.walkHeld, State.Formed.onDie, Walked.Formed]
theorem State.Formed.walkAll (h : s.Formed) : s.walkAll.Formed := by
  unfold State.walkAll
  grind [State.Formed.walkReleased]
theorem State.Formed.execTranslationWalkReturn (h : s.Formed) {strand} : NextFormed (execTranslationWalkReturn strand s) := by
  unfold Machine.execTranslationWalkReturn
  grind [State.Formed.walkReleased, !State.Formed.walkFor, !SomeFormed.mapAny, State.Formed.setDie, SomeFormed, NextFormed,
    Walked.Formed]

end

/-! ## Global accesses -/

section
variable {s : State}

theorem State.Formed.performed (h : s.Formed) {n num} : (s.performed n num).Formed := h.onStrand.settle
theorem State.Formed.acquired (h : s.Formed) {n g} : (s.acquired n g).Formed := by
  unfold State.acquired
  split
  · exact h.onDie
  · exact h
theorem State.Formed.accessRecord (h : s.Formed) {n g cause detail} : (s.accessRecord n g cause detail).Formed := h.coreRecord
theorem State.Formed.loaded (h : s.Formed) {n g v poison} : (s.loaded n g v poison).Formed := h.onStrand.acquired.performed
theorem State.Formed.recallRead (h : s.Formed) {d pa n mask} : (s.recallRead d pa n mask).Formed := by
  unfold State.recallRead
  grind [State.Formed.recall, !State.Formed.foldl]
theorem State.Formed.readDie (h : s.Formed) {d mask l v p seen} : (s.readDie d mask l v p seen).Formed := by
  induction l generalizing v p seen with
  | nil => trivial
  | cons x l ih => unfold State.readDie; grind [!State.Formed.gates, State.Formed.onDie, Got.Formed]
theorem Wrote.part_formed {w : Wrote} (h : w.s.Formed) {d mask value poison direct id p} :
    (w.part d mask value poison direct id p).s.Formed := by
  unfold Wrote.part
  grind [State.Formed.onDie, State.Formed.homeWrite, State.Formed.onCopy]
theorem State.Formed.storeArrived (h : s.Formed) {n num} : (s.storeArrived n num).Formed := by
  unfold State.storeArrived
  split
  · exact h.performed
  · exact h
theorem State.Formed.peerFailed (h : s.Formed) {n g cause detail} : (s.peerFailed n g cause detail).Formed := by
  unfold State.peerFailed
  grind [State.Formed.accessRecord, !State.Formed.foldl]
theorem State.Formed.sendPeer (h : s.Formed) {n g peer} : (s.sendPeer n g peer).Formed := by
  unfold State.sendPeer
  dsimp only
  split
  · exact h.performed
  · exact h.onStrand.onPkg
theorem State.Formed.accessBad (h : s.Formed) {n g} : (s.accessBad n g).Formed := h.countInt.integrity
theorem State.Formed.devRecord (h : s.Formed) {n g} : (s.devRecord n g).Formed := by
  unfold State.devRecord
  grind [State.Formed.accessRecord, !State.Formed.foldl]
theorem State.Formed.countOwnPath (h : s.Formed) {g pa} : (s.countOwnPath g pa).Formed := by
  unfold State.countOwnPath
  grind [State.Formed.countInt, !State.Formed.foldl]
theorem State.Formed.performLoad (h : s.Formed) {n g} : SomeFormed (s.performLoad n g) := by
  unfold State.performLoad
  grind [State.Formed.loaded, State.Formed.peerFailed, State.Formed.sendPeer, !State.Formed.gate, State.Formed.countOwnPath,
    State.Formed.onPkg, State.Formed.accessRecord, !State.Formed.readDie, State.Formed.recallRead, State.Formed.devRecord,
      State.Formed.onStrand, State.Formed.accessBad, Got.Formed, SomeFormed]
theorem State.Formed.execGlobalLoadArrival (h : s.Formed) {strand idx} : NextFormed (execGlobalLoadArrival strand idx s) := by
  unfold Machine.execGlobalLoadArrival
  grind [!State.Formed.performLoad, NextFormed, SomeFormed]
theorem State.Formed.execPrefAccepted (h : s.Formed) {strand idx} : NextFormed (execPrefAccepted strand idx s) := by
  unfold Machine.execPrefAccepted
  grind [!State.Formed.gate, State.Formed.onDie, State.Formed.settle, State.Formed.onStrand, !State.Formed.foldl, NextFormed]
theorem State.Formed.performStore (h : s.Formed) {n g} : SomeFormed (s.performStore n g) := by
  have parts : ∀ {w : Wrote} {l : List (Nat × Nat × Nat)} {f : Wrote → Nat × Nat × Nat → Wrote},
      w.s.Formed → (∀ w p, w.s.Formed → (f w p).s.Formed) → (l.foldl f w).s.Formed :=
    fun {w l f} hw hf => foldl_keeps (fun w : Wrote => w.s.Formed) f hf l w hw
  unfold State.performStore
  grind [!State.Formed.gates, !State.Formed.gate, !State.Formed.foldl, State.Formed.performed, State.Formed.peerFailed,
    State.Formed.sendPeer, State.Formed.homeWrite, State.Formed.countMerge, State.Formed.onPkg, State.Formed.accessRecord,
      State.Formed.onStrand, State.Formed.accessBad, !Wrote.part_formed, SomeFormed]
theorem State.Formed.execGlobalStorePerformed (h : s.Formed) {strand idx} : NextFormed (execGlobalStorePerformed strand idx s) := by
  unfold Machine.execGlobalStorePerformed
  grind [!State.Formed.performStore, NextFormed, SomeFormed]
theorem State.Formed.markAcquire (h : s.Formed) {n g} : (s.markAcquire n g).Formed := by
  unfold State.markAcquire
  split
  · exact h.onDie
  · exact h
theorem State.Formed.execMarkRetire (h : s.Formed) {strand} : NextFormed (execMarkRetire strand s) := by
  unfold Machine.execMarkRetire
  grind [State.Formed.settle, State.Formed.onStrand, State.Formed.markAcquire, !SomeFormed.findSome?, NextFormed, SomeFormed]
theorem State.Formed.atomHome (h : s.Formed) {pa n aop x1 y id} : (s.atomHome pa n aop x1 y id).1.Formed := by
  unfold State.atomHome
  split
  · exact h
  · exact h.homeWrite
theorem State.Formed.bringIn (h : s.Formed) {cl sec} : (s.bringIn cl sec).Formed := by
  unfold State.bringIn
  grind [State.Formed.setCluster, State.Formed.recall, State.Formed.onCluster]
theorem State.Formed.atomLocal (h : s.Formed) {cl pa n aop x1 y id} : (s.atomLocal cl pa n aop x1 y id).1.Formed := by
  unfold State.atomLocal
  dsimp only
  split
  · exact h.bringIn
  · exact h.bringIn.onCluster
theorem State.Formed.atomEnd (h : s.Formed) {n g old poison ret} : (s.atomEnd n g old poison ret).Formed := by
  unfold State.atomEnd
  grind [State.Formed.onStrand, State.Formed.accessRecord, State.Formed.onCopy, State.Formed.performed, State.Formed.acquired]
theorem State.Formed.performAtomic (h : s.Formed) {n g aop ret} : (s.performAtomic n g aop ret).Formed := by
  unfold State.performAtomic
  grind [State.Formed.performed, State.Formed.acquired, State.Formed.onStrand, State.Formed.accessRecord, !State.Formed.gate,
    State.Formed.atomEnd, State.Formed.countInt, State.Formed.accessBad, !State.Formed.atomHome, !State.Formed.gateAt,
      !State.Formed.atomLocal, State.Formed.peerFailed, State.Formed.sendPeer, State.Formed.onPkg, Tried.Formed]
theorem State.Formed.tryCore (h : s.Formed) {core r} (e : s.tryCore core = some r) : r.Formed := by
  unfold State.tryCore at e
  obtain ⟨p, -, rfl⟩ := Option.map_eq_some_iff.1 e
  exact h.performAtomic
theorem State.Formed.execAtomicEngineAccept (h : s.Formed) {cluster} : NextFormed (execAtomicEngineAccept cluster s) := by
  unfold Machine.execAtomicEngineAccept
  split
  · trivial
  · dsimp only; split
    · next k t e =>
      obtain ⟨i, -, e⟩ := List.exists_of_findSome?_eq_some e
      split at e
      · next u eu => cases e; exact State.Formed.onCluster (h.tryCore eu)
      · cases e
    · split
      · next t e =>
        obtain ⟨i, -, e⟩ := List.exists_of_findSome?_eq_some e
        split at e
        · next u eu =>
          split at e
          · cases e
          · cases e; exact h.tryCore eu
        · cases e
      · trivial
theorem State.Formed.execAtomicRecall (h : s.Formed) {cluster sector} : NextFormed (execAtomicRecall cluster sector s) := by
  unfold Machine.execAtomicRecall
  split
  · exact h.recall
  · trivial
theorem State.Formed.execCopyFillReturn (h : s.Formed) {die idx} : NextFormed (execCopyFillReturn die idx s) := by
  unfold Machine.execCopyFillReturn
  grind [State.Formed.onCopy, State.Formed.onDie, !State.Formed.gate, State.Formed.countInt, NextFormed]
theorem State.Formed.acked (h : s.Formed) {d idx sec m data poison direct} : (s.acked d idx sec m data poison direct).Formed := h
theorem State.Formed.execWriteThroughAck (h : s.Formed) {die idx} : NextFormed (execWriteThroughAck die idx s) := by
  unfold Machine.execWriteThroughAck
  grind [!State.Formed.gates, State.Formed.acked, State.Formed.accessRecord, State.Formed.storeArrived, State.Formed.homeWrite,
    State.Formed.accessBad, NextFormed]
theorem State.Formed.execCopySectorAgeout (h : s.Formed) {die sector} : NextFormed (execCopySectorAgeout die sector s) := by
  unfold Machine.execCopySectorAgeout
  dsimp only
  split
  · trivial
  · exact h.onCopy

end

/-! ## The Hod -/

section
variable {s : State}

theorem State.Formed.cmdRecord (h : s.Formed) {m f} : (s.cmdRecord m f).Formed := h.coreRecord
theorem State.Formed.deadRead (h : s.Formed) {m dead} : (s.deadRead m dead).Formed := by
  unfold State.deadRead
  grind [State.Formed.cmdRecord, !State.Formed.foldl]
theorem State.Formed.engineTr (h : s.Formed) {core c va k} :
    (s.engineTr core c va k).1.Formed ∧ (s.engineTr core c va k).2.Formed := by
  unfold State.engineTr
  grind [!State.judgeLeaf_formed, State.Formed.onCore, State.Formed.fromDie, !State.Formed.walk, State.Formed.keepLeaf, Tr.Formed,
    Walk.Formed]
theorem State.Formed.countTurn (h : s.Formed) {core c vas k} : (s.countTurn core c vas k).Formed := by
  unfold State.countTurn
  grind [!State.Formed.engineTr, State.Formed.touch, !State.Formed.foldl]
theorem State.Formed.unspoil (h : s.Formed) {cl q n} : (s.unspoil cl q n).Formed := by
  unfold State.unspoil
  split
  · exact h.onCluster
  · exact h
theorem State.Formed.pull (h : s.Formed) {tensor core c l g} : (s.pull tensor core c l g).1.Formed := by
  induction l generalizing s g with
  | nil => exact h
  | cons x l ih =>
    unfold State.pull
    grind [!State.Formed.engineTr, !State.Formed.gate, !State.Formed.readDie, State.Formed.countInt, State.Formed.countRefusal,
        State.Formed.unspoil, State.Formed.recallRead, Got.Formed]
theorem State.Formed.pullRest (h : s.Formed) {core c va n got} : (s.pullRest core c va n got).1.Formed := h.pull
theorem State.Formed.tensorPages (h : s.Formed) {d c va n i m} : ErrFormed (s.tensorPages d c va n i m) := by
  induction n generalizing i m with
  | zero => trivial
  | succ n ih => unfold State.tensorPages; grind [!State.Formed.translate, Tr.Formed, ErrFormed]
theorem State.Formed.learn (h : s.Formed) {c index part va pa} : (s.learn c index part va pa).Formed := h
theorem State.Formed.mapRead (h : s.Formed) {m index tile} : (s.mapRead m index tile).1.Formed := by
  unfold State.mapRead
  grind [!State.Formed.engineTr, State.Formed.learn, !State.Formed.gateRaw, State.Formed.cmdRecord]
theorem State.Formed.tensorParts (h : s.Formed) {d c t old} : ErrFormed (s.tensorParts d c t old) := by
  unfold State.tensorParts
  grind [!State.Formed.tensorPages, ErrFormed]
theorem State.Formed.describe (h : s.Formed) {cl ch m a tile w} : (s.describe cl ch m a tile w).1.Formed := by
  unfold State.describe
  dsimp only
  split
  · exact h
  · next va _ =>
    have hr := h.structRead (who := .hod cl ch m.id) (d := dieOfCore m.core) (c := m.ctx) (va := va) (n := 64) (detail := 0x0400)
    split
    case h_5 v e =>
      split; · exact h
      split; · exact h
      split; · exact h
      split
      · next s1 e => exact h.tensorParts.of_error e
      · split; · exact h
        split
        · split <;> exact h
        · split
          · exact h
          · generalize e : State.mapRead _ m _ _ = r
            have hm : r.1.Formed := by subst e; exact h.withShadows.mapRead
            split <;> exact hm
    all_goals grind [Read.Formed]
theorem State.Formed.gatesAt (h : s.Formed) {l} : (s.gatesAt l).1.Formed := by
  induction l generalizing s with
  | nil => exact h
  | cons x l ih => unfold State.gatesAt; grind [!State.Formed.gateRaw]
theorem State.Formed.shadowAddrs (h : s.Formed) {core e tile l acc} : (s.shadowAddrs core e tile l acc).1.Formed := by
  induction l generalizing s acc with
  | nil => exact h
  | cons x l ih => unfold State.shadowAddrs; grind [!State.Formed.engineTr, State.Formed.learn]
theorem State.Formed.shadowSector (h : s.Formed) {d plain id qs sec} : (s.shadowSector d plain id qs sec).Formed := by
  unfold State.shadowSector
  grind [State.Formed.rawPieces, State.Formed.onCopy, !State.Formed.foldl]
theorem State.Formed.shadowWrite (h : s.Formed) {core e tile ps id} : (s.shadowWrite core e tile ps id).1.Formed := by
  unfold State.shadowWrite
  grind [!State.Formed.shadowAddrs, !State.Formed.gatesAt, State.Formed.unspoil, State.Formed.shadowSector, !State.Formed.foldl,
      State.formed_mk, State.Formed.mem]
theorem State.Formed.publish (h : s.Formed) {d c index tile id} : (s.publish d c index tile id).1.Formed := by
  unfold State.publish
  grind [!State.Formed.gateRaw, State.Formed.unmark, State.Formed.rawWrite, State.Formed.onCopy, !State.Formed.foldl]
theorem State.Formed.hodFault (h : s.Formed) {cl ch m cause detail va} : (s.hodFault cl ch m cause detail va).Formed := by
  unfold State.hodFault
  grind [State.Formed.abandonHead, State.Formed.coreRecord, State.Formed.undo, State.Formed.onCluster, State.Formed.onCtx]
theorem State.Formed.hodHold (h : s.Formed) {cl ch m va} : SomeFormed (s.hodHold cl ch m va) := by
  unfold State.hodHold
  grind [State.Formed.setDie, !SomeFormed.mapAny]
theorem State.Formed.hodPeer (h : s.Formed) {cl ch m k sec} : (s.hodPeer cl ch m k sec).Formed := h
theorem State.Formed.hodKeep (h : s.Formed) {cl ch ps} : (s.hodKeep cl ch ps).Formed := h
theorem State.Formed.changed {t : State} (h : t.Formed) : SomeFormed (changed s t) := by
  unfold Machine.changed
  grind [SomeFormed]
theorem State.Formed.unheld {k : Option State} (h : s.Formed) (h1 : SomeFormed k) {cl ch} : SomeFormed (s.unheld cl ch k) := by
  unfold State.unheld
  grind [!State.Formed.changed, State.Formed.walkReleased]
theorem State.Formed.beginTensor (h : s.Formed) {cl ch m handle tile writes k} :
    (s.beginTensor cl ch m handle tile writes k).1.Formed := by
  unfold State.beginTensor
  grind [!State.Formed.describe]
theorem State.Formed.beginRead (h : s.Formed) {cl ch m va n} {k : Nat → State × Begin} (hk : ∀ v, (k v).1.Formed) :
    (s.beginRead cl ch m va n k).1.Formed := by
  unfold State.beginRead; grind [!State.Formed.structRead, Read.Formed]
theorem State.Formed.beginRing (h : s.Formed) {cl ch m} : (s.beginRing cl ch m).1.Formed := by
  unfold State.beginRing
  grind [State.Formed.onCluster, !State.Formed.beginTensor]
theorem State.Formed.beginCmd (h : s.Formed) {cl ch m} : (s.beginCmd cl ch m).1.Formed := by
  have hp := h.pages (d := m.strand / 384) (c := m.ctx) (va := m.a.toNat) (k := .read)
    (n := pageCount m.a.toNat (256 * m.c.toNat)) (i := 0) (m := [])
  unfold State.beginCmd
  dsimp only
  split
  case h_4 =>
    split
    · exact h.onCluster
    · exact h.beginRead fun v => by split; exacts [h, h.onCluster]
  all_goals grind [!State.Formed.beginTensor, State.Formed.onCluster, !State.Formed.beginRing, Tr.Formed, ErrTr]
theorem State.Formed.beginStep (h : s.Formed) {cl ch hd p} : (s.beginStep cl ch hd p).1.Formed := by
  unfold State.beginStep
  dsimp only
  split
  · exact h
  · refine h.beginRead fun v => ?_
    split
    · exact h
    · split
      · exact h.beginRead fun w => by split <;> exact h
      · split
        · exact h
        · refine h.beginRead fun w => ?_
          grind [!State.Formed.beginCmd]
theorem State.Formed.stopped {s1 : State} (h : s1.Formed) {cl ch m a} : SomeFormed (s.stopped s1 cl ch m a) := by
  unfold State.stopped
  grind [!State.Formed.changed, !State.Formed.hodHold, State.Formed.hodFault, State.Formed.integrity, State.Formed.countVa,
    SomeFormed]
theorem State.Formed.began {cl ch m r} (h : State.Formed r.1) : SomeFormed (s.began cl ch m r) := by
  unfold State.began
  grind [!State.Formed.stopped, State.Formed.onCluster, SomeFormed]
theorem State.Formed.execHodCommandBegin (h : s.Formed) {cluster ch} : NextFormed (execHodCommandBegin cluster ch s) := by
  unfold Machine.execHodCommandBegin
  grind [!State.Formed.unheld, !State.Formed.began, !State.Formed.beginCmd, !State.Formed.beginStep, State.Formed.used, NextFormed,
    SomeFormed]
theorem State.Formed.turnData (h : s.Formed) {p} : (s.turnData p).1.Formed := by
  have mapped : ∀ {r : State × Option Stop} {l : List (Nat × Option (Nat × Nat))}
      {f : State × Option Stop → Nat × Option (Nat × Nat) → State × Option Stop}, r.1.Formed →
      (∀ r x, r.1.Formed → (f r x).1.Formed) → (l.foldl f r).1.Formed :=
    fun {r l f} hr hf => foldl_keeps (fun r : State × Option Stop => r.1.Formed) f hf l r hr
  unfold State.turnData
  grind [!State.Formed.mapRead, !State.Formed.pull]
theorem State.Formed.deliver (h : s.Formed) {cl ch p ps} : SomeFormed (s.deliver cl ch p ps) := by
  unfold State.deliver
  grind [State.Formed.onCluster, State.Formed.hodFault, !State.Formed.shadowWrite, !State.Formed.stopped, State.Formed.countTurn,
    SomeFormed]
theorem State.Formed.saw (h : s.Formed) {n l} : (s.saw n l).Formed := h
theorem State.Formed.pulled (h : s.Formed) {m g} : (s.pulled m g).Formed := h.saw.deadRead
theorem State.Formed.turn (h : s.Formed) {cl ch} : SomeFormed (s.turn cl ch) := by
  unfold State.turn
  grind [!State.Formed.deliver, State.Formed.countTurn, State.Formed.pulled, !State.Formed.unheld, !State.Formed.turnData,
    !State.Formed.stopped, State.Formed.hodPeer, SomeFormed]
theorem State.Formed.execHodTurn (h : s.Formed) {cluster} : NextFormed (execHodTurn cluster s) := by
  unfold Machine.execHodTurn
  split
  · trivial
  · dsimp only; split
    · next ch t e =>
      obtain ⟨i, -, e⟩ := List.exists_of_findSome?_eq_some e
      obtain ⟨u, eu, e⟩ := Option.map_eq_some_iff.1 e
      grind [!State.Formed.turn, State.Formed.onCluster, SomeFormed, NextFormed]
    · trivial
theorem State.Formed.execHodWriteLand (h : s.Formed) {cluster ch} : NextFormed (execHodWriteLand cluster ch s) := by
  unfold Machine.execHodWriteLand
  dsimp only
  split
  · exact h.onCore.onCluster
  · split
    · split
      · trivial
      · split
        · exact h.onCore.onCluster
        · trivial
    · trivial
theorem State.Formed.execHmcastAck (h : s.Formed) {cluster ch rcv} : NextFormed (execHmcastAck cluster ch rcv s) := by
  unfold Machine.execHmcastAck
  grind [State.Formed.onCluster, NextFormed]
theorem State.Formed.execHaddRowStage (h : s.Formed) {cluster ch} : NextFormed (execHaddRowStage cluster ch s) := by
  unfold Machine.execHaddRowStage
  grind [State.Formed.onCluster, State.Formed.onCore, !State.Formed.unheld, !State.Formed.pullRest, State.Formed.countTurn,
    State.Formed.pulled, !State.Formed.stopped, State.Formed.hodPeer, State.Formed.hodKeep, NextFormed, SomeFormed]
theorem State.Formed.hodSignal (h : s.Formed) {m mark} : (s.hodSignal m mark).Formed := h.complete
theorem State.Formed.hodPop (h : s.Formed) {cl ch n} : (s.hodPop cl ch n).Formed := h.onCluster.onDie.settle
theorem State.Formed.hodFinish (h : s.Formed) {cl ch p} : SomeFormed (s.hodFinish cl ch p) := by
  unfold State.hodFinish
  dsimp only
  split
  · exact h.onCluster
  · split
    · exact h.hodPop
    · split
      · trivial
      · exact h.hodSignal.hodPop
theorem State.Formed.hodPublish (h : s.Formed) {cl ch p index tile} {k : State → Option State}
    (hk : ∀ t, t.Formed → SomeFormed (k t)) : SomeFormed (s.hodPublish cl ch p index tile k) := by
  unfold State.hodPublish
  grind [!State.Formed.engineTr, !State.Formed.stopped, !State.Formed.hodHold, !State.Formed.changed, State.Formed.hodFault,
    State.Formed.learn, !State.Formed.publish, SomeFormed]
theorem State.Formed.hodTag (h : s.Formed) {cl ch m} : (s.hodTag cl ch m).Formed := h
theorem State.Formed.execHodCommandComplete (h : s.Formed) {cluster ch} : NextFormed (execHodCommandComplete cluster ch s) := by
  unfold Machine.execHodCommandComplete
  grind [State.Formed.onCluster, !State.Formed.unheld, !State.Formed.hodFinish, !State.Formed.hodPublish, State.Formed.hodTag,
    NextFormed, SomeFormed]
theorem State.Formed.execHstepStageComplete (h : s.Formed) {cluster ch} : NextFormed (execHstepStageComplete cluster ch s) := by
  unfold Machine.execHstepStageComplete
  grind [State.Formed.onCluster, State.Formed.hodSignal, State.Formed.hodPop, NextFormed]

end

/-! ## Routines -/

section
variable {s : State}

theorem State.Formed.mxFinish (h : s.Formed) {core m mark} : (s.mxFinish core m mark).Formed := by
  unfold State.mxFinish
  grind [State.Formed.complete, State.Formed.onCore, State.Formed.coreRecord, State.Formed.settle]
theorem State.Formed.mxDeliver (h : s.Formed) {core m mark} : (s.mxDeliver core m mark).Formed := by
  unfold State.mxDeliver
  split
  · exact h.mxFinish
  · exact h.onCore
theorem State.Formed.execMxEntryBegin (h : s.Formed) {core} : NextFormed (execMxEntryBegin core s) := by
  unfold Machine.execMxEntryBegin
  dsimp only
  split
  · split
    · exact h.setCore
    · exact h.setCore.mxDeliver
    · exact h.setCore.mxDeliver
  · trivial
theorem State.Formed.execRoutineComplete (h : s.Formed) {core} : NextFormed (execRoutineComplete core s) := by
  unfold Machine.execRoutineComplete
  split
  · exact h.onCore.mxFinish
  · split
    · trivial
    · split
      · trivial
      · exact h.onCore.mxDeliver
theorem State.Formed.execRingDrainLand (h : s.Formed) {cluster} : NextFormed (execRingDrainLand cluster s) := by
  unfold Machine.execRingDrainLand
  dsimp only
  split
  · trivial
  · exact h.setCluster
theorem State.Formed.slotDone (h : s.Formed) {cl k ch} : (s.slotDone cl k ch).Formed := h
theorem State.Formed.epilogueWrite (h : s.Formed) {cl ch p t ps} : SomeFormed (s.epilogueWrite cl ch p t ps) := by
  unfold State.epilogueWrite
  grind [State.Formed.hodFault, !State.Formed.shadowWrite, !State.Formed.stopped, State.Formed.countTurn, State.Formed.onCluster,
    !State.Formed.loop, SomeFormed]
theorem State.Formed.execEpilogueSlot (h : s.Formed) {cluster} : NextFormed (execEpilogueSlot cluster s) := by
  unfold Machine.execEpilogueSlot
  split
  · trivial
  extract_lets x out
  suffices ho : SomeFormed out by
    clear_value out
    cases out
    · trivial
    · exact ho
  dsimp only [out]
  split; · trivial
  split; · trivial
  split; · trivial
  split; · exact h.slotDone
  split; · trivial
  refine h.unheld ?_
  split
  · trivial
  split
  · split
    · exact h.epilogueWrite
    · grind [!State.Formed.epilogueWrite, !State.Formed.pullRest, State.Formed.pulled, State.Formed.countTurn,
        !State.Formed.stopped, State.Formed.hodPeer, State.Formed.hodKeep, SomeFormed]
  · split
    · trivial
    · refine h.hodPublish fun t ht => ?_
      split
      · exact ht.hodTag.onCluster
      · exact ht.slotDone

end

/-! ## Checkpoints -/

section
variable {s : State}

theorem State.Formed.writeFields (h : s.Formed) {pa f} : (s.writeFields pa f).Formed := by
  unfold State.writeFields
  grind [State.Formed.homeRange, !State.Formed.foldl]
theorem State.Formed.handOver (h : s.Formed) {n reserved persist why} : (s.handOver n reserved persist why).Formed := by
  unfold State.handOver
  split
  · split
    · exact h.setStrand
    · exact h.setStrand.onTask.onCore
  · exact h.setStrand
theorem State.Formed.saveInto (h : s.Formed) {n a l t why} : (s.saveInto n a l t why).Formed :=
  h.writeFields.onCtx.onTask.gsTaskEvent.onCore.handOver
theorem State.Formed.goOn (h : s.Formed) {n l t} : (s.goOn n l t).Formed := by
  unfold State.goOn
  split
  · exact h.onStrand.gsTaskEvent
  · exact h.onStrand.gsTaskEvent
  · split
    · exact h.onStrand.onTaskOf.unblock.onDie
    · exact h.unblock
theorem State.Formed.noSave (h : s.Formed) {n l t why} : (s.noSave n l t why).Formed := by
  unfold State.noSave
  grind [State.Formed.onStrand, State.Formed.goOn, State.Formed.onCtx, State.Formed.onTask, State.Formed.unblock]
theorem State.Formed.saveGone (h : s.Formed) {n why} : (s.saveGone n why).Formed := h.onCore.handOver
theorem State.Formed.saveDenied (h : s.Formed) {n} : (s.saveDenied n).Formed := h.coreRecord.endTask
theorem State.Formed.saveBad (h : s.Formed) {n pa f} : (s.saveBad n pa f).Formed := by
  unfold State.saveBad
  grind [State.Formed.integrity, State.Formed.countInt, !State.Formed.foldl]
theorem State.Formed.execCheckpointSave (h : s.Formed) {strand} : NextFormed (execCheckpointSave strand s) := by
  unfold Machine.execCheckpointSave
  grind [State.Formed.saveDenied, !State.Formed.gateAt, State.Formed.saveInto, State.Formed.saveBad, State.Formed.noSave,
    State.Formed.saveGone, NextFormed]

end

/-! ## Launches -/

section
variable {s : State}

theorem State.Formed.waiting {old new : State} (h : new.Formed) :
    NextFormed (State.waiting old new) := by
  unfold State.waiting
  grind [NextFormed]
theorem State.Formed.storeParts (h : s.Formed) {who d c l acc} : (s.storeParts who d c l acc).1.Formed := by
  induction l generalizing acc with
  | nil => exact h
  | cons x l ih => unfold State.storeParts; grind [!State.Formed.translate, State.Formed.askPeer, Tr.Formed]
theorem State.Formed.storePart (h : s.Formed) {d value q} : (s.storePart d value q).Formed := by
  unfold State.storePart
  split
  · split
    · exact h.agentWrite
    · exact h.countMerge.homeRange
    · exact h.countRefusal
    · exact h
theorem State.Formed.storeVa (h : s.Formed) {who d c va n value} : (s.storeVa who d c va n value).1.Formed := by
  unfold State.storeVa
  grind [!State.Formed.storeParts, !State.Formed.gates, State.Formed.storePart, !State.Formed.foldl]
theorem State.Formed.setTag (h : s.Formed) {c launch task command k} : (s.setTag c launch task command k).Formed := by
  unfold State.setTag
  dsimp only
  split
  · split
    · exact h
    · split
      · exact h.setDie
      · exact h.dieRecord
  · split
    · exact h
    · split
      · exact h.setDie
      · split
        · exact h.setDie
        · exact h.setDie
theorem State.Formed.tagActed (h : s.Formed) {d i o} : (s.tagActed d i o).Formed := by
  unfold State.tagActed
  split
  · exact h.onDie
  · split
    · exact h.onDie.onCluster
    · exact h.onDie.performed
theorem State.Formed.execTagSetAct (h : s.Formed) {die} : NextFormed (execTagSetAct die s) := by
  unfold Machine.execTagSetAct
  grind [State.Formed.rejudge, State.Formed.setTag, State.Formed.tagActed, NextFormed]
theorem State.Formed.execTagClearAct (h : s.Formed) {die} : NextFormed (execTagClearAct die s) := by
  unfold Machine.execTagClearAct
  grind [State.Formed.rejudge, State.Formed.onDie, State.Formed.tagActed, NextFormed]
theorem State.Formed.verdictRead (h : s.Formed) {d c va n} {k : Nat → Verdict} (hk : ∀ v, (k v).Formed) :
    (s.verdictRead d c va n k).Formed := by
  unfold State.verdictRead; grind [!State.Formed.readStruct, Read.Formed, Verdict.Formed]
theorem State.Formed.verdict (h : s.Formed) {d m} : (s.verdict d m).Formed := by
  unfold State.verdict
  extract_lets own gate judge
  have hg : ∀ v ∈ gate, v.Formed := by dsimp only [gate]; grind [Verdict.Formed]
  have hj (r : Nat) : (judge r).Formed := by
    refine iteInduction (fun _ => trivial) fun _ => iteInduction (fun _ => trivial) fun _ => iteInduction (fun _ => trivial) fun _ => ?_
    refine h.verdictRead fun kd => h.verdictRead fun args => ?_
    refine iteInduction (fun _ => trivial) fun _ => iteInduction (fun _ => trivial) fun _ => iteInduction (fun _ => trivial) fun _ => ?_
    exact iteInduction (fun _ => trivial) fun _ => trivial
  clear_value gate judge
  split
  · exact hg _ rfl
  · split
    · exact hj _
    · exact h.verdictRead hj
theorem State.Formed.answerLaunch (h : s.Formed) {m word} : (s.answerLaunch m word).Formed := by
  unfold State.answerLaunch
  dsimp only
  split
  · split
    · split
      · split
        · exact h.setStrand
        · exact h
      · exact h
    · exact h
  · exact h.post
  · exact h
theorem State.Formed.execLaunchValidate (h : s.Formed) {die} : NextFormed (execLaunchValidate die s) := by
  unfold Machine.execLaunchValidate
  grind [State.Formed.onDie, State.Formed.gsEvent, !State.Formed.serving, !State.Formed.verdict, State.Formed.answerLaunch,
    State.Formed.recordReads, !State.Formed.agentHold, State.Formed.dieFatal, State.Formed.onCtx, State.Formed.rejudge,
      NextFormed, SomeFormed, Verdict.Formed]
theorem State.Formed.execLaunchAnswer (h : s.Formed) {strand} : NextFormed (execLaunchAnswer strand s) := by
  unfold Machine.execLaunchAnswer
  dsimp only
  split
  · trivial
  · split
    · split
      · exact h.setStrand.settle
      · split
        · trivial
        · exact h.setStrand
    · trivial
theorem State.Formed.execTaskWeightReturn (h : s.Formed) {ctx lid task} : NextFormed (execTaskWeightReturn ctx lid task s) := by
  unfold Machine.execTaskWeightReturn
  split
  · split
    · split
      · trivial
      · exact h.onLaunch
    · trivial
  · trivial
theorem State.Formed.completionFault (h : s.Formed) {c lid rec compl cause detail va} :
    (s.completionFault c lid rec compl cause detail va).Formed := by
  unfold State.completionFault
  split
  · exact h.dieRecord.onCtx
  · exact h.dieRecord
theorem State.Formed.rewriteOne (h : s.Formed) {c q} : (s.rewriteOne c q).Formed := by
  unfold State.rewriteOne
  grind [State.Formed.onCtx, !State.Formed.storeVa, !State.Formed.agentHold, State.Formed.completionFault, State.Formed.dieFatal,
    SomeFormed.getD]
theorem State.Formed.launchDone (h : s.Formed) {c l} : (s.launchDone c l).Formed := by
  unfold State.launchDone
  grind [State.Formed.onCtx, State.Formed.onDie, State.Formed.rejudge, State.Formed.gsEvent]
theorem State.Formed.execLaunchComplete (h : s.Formed) {ctx lid} : NextFormed (execLaunchComplete ctx lid s) := by
  unfold Machine.execLaunchComplete
  grind [!State.Formed.serving, !State.Formed.waiting, State.Formed.rewriteOne, State.Formed.launchDone, State.Formed.onCtx,
    NextFormed]
theorem State.Formed.execBarPhaseComplete (h : s.Formed) {ctx lid didx} : NextFormed (execBarPhaseComplete ctx lid didx s) := by
  unfold Machine.execBarPhaseComplete
  grind [State.Formed.onLaunch, State.Formed.onStrand, !State.Formed.foldl, NextFormed]
theorem State.Formed.wakeTask (h : s.Formed) {c lid t reason} : (s.wakeTask c lid t reason).Formed := by
  unfold State.wakeTask
  split
  · split
    · split
      · exact h.onCtx.onTask.onStrand.unblock.onDie
      · exact h.onCtx.onTask.onTask
    · exact h.onCtx.onTask.onTask
  · exact h
theorem State.Formed.wakeCtx (h : s.Formed) {c} : (s.wakeCtx c).Formed := by
  unfold State.wakeCtx
  grind [State.Formed.onCtx, State.Formed.wakeTask, State.Formed.onPkg, !State.Formed.foldl]
theorem State.Formed.execWakeRequestArrival (h : s.Formed) {die} : NextFormed (execWakeRequestArrival die s) := by
  unfold Machine.execWakeRequestArrival
  grind [State.Formed.onDie, State.Formed.wakeCtx, State.Formed.onCtx, NextFormed]
theorem State.Formed.execParkDeadline (h : s.Formed) {ctx lid task} : NextFormed (execParkDeadline ctx lid task s) := by
  unfold Machine.execParkDeadline
  split
  · split
    · split
      · exact h.wakeTask
      · trivial
    · trivial
  · trivial
theorem State.Formed.execTeardownComplete (h : s.Formed) {ctx} : NextFormed (execTeardownComplete ctx s) := by
  unfold Machine.execTeardownComplete
  grind [State.Formed.onCtx, State.Formed.onPkg, State.Formed.onQueue, State.Formed.post, NextFormed]

end

/-! ## The dispatcher -/

section
variable {s : State}

theorem State.Formed.claimStrand (h : s.Formed) {n} : (s.claimStrand n).Formed := h
theorem State.Formed.claims (h : s.Formed) : s.claims.Formed := by
  unfold State.claims
  grind [State.Formed.claimStrand, !State.Formed.foldl]
theorem State.Formed.reserveAll (h : s.Formed) {c lid plan} : (s.reserveAll c lid plan).Formed := by
  unfold State.reserveAll
  grind [State.Formed.onStrand, State.Formed.onLaunch, State.Formed.unreserve, !State.Formed.foldl]
theorem State.Formed.endOff (h : s.Formed) {c lid t} : (s.endOff c lid t).Formed := h
theorem State.Formed.endCandidate (h : s.Formed) {l t} {f : State → Nat → State} (hf : ∀ s k, s.Formed → (f s k).Formed) :
    (s.endCandidate l t f).Formed := by
  unfold State.endCandidate; split
  · exact h.foldl fun s k hs => hf s k.id hs
  · exact hf s t.id h
theorem State.Formed.bindPark (h : s.Formed) {d c l t detail va} : (s.bindPark d c l t detail va).Formed := h.dieRecord.onCtx.onTask
theorem State.Formed.bindEnd (h : s.Formed) {d c l t cause detail va} : (s.bindEnd d c l t cause detail va).Formed := by
  unfold State.bindEnd
  grind [State.Formed.endCandidate, State.Formed.endOff, State.Formed.dieRecord]
theorem State.Formed.bindFault (h : s.Formed) {d c l t cause detail va} : (s.bindFault d c l t cause detail va).Formed := by
  unfold State.bindFault
  split
  · exact h.bindPark
  · exact h.bindEnd
theorem State.Formed.hintWait (h : s.Formed) {d c l t k} : (s.hintWait d c l t k).Formed := by
  unfold State.hintWait
  dsimp only
  generalize (if l.persist then _ else _ : List Task) = ts
  cases e : ts.findSome? _ with
  | none => trivial
  | some r =>
    obtain ⟨t, -, e⟩ := List.exists_of_findSome?_eq_some e
    grind [!State.Formed.hint]
theorem State.Formed.offer (h : s.Formed) {d core c lid t} : (s.offer d core c lid t).Formed := h
theorem State.Formed.choose (h : s.Formed) {d l starved} : (s.choose d l starved).s.Formed := by
  induction l generalizing starved with
  | nil => exact h
  | cons x l ih =>
    unfold State.choose
    grind [!State.Formed.structRead, State.Formed.bindFault, State.Formed.dieFatal, !State.Formed.agentHold, !State.Formed.hintWait,
        State.Formed.reserveAll, State.Formed.offer, Read.Formed, Hint.Formed, SomeFormed]
theorem State.Formed.discard (h : s.Formed) {n} : (s.discard n).Formed := by
  unfold State.discard
  grind [State.Formed.unpark, State.Formed.onTaskOf, State.Formed.gsTaskEvent, State.Formed.dropStrand, State.Formed.abandonOf]
theorem State.Formed.preempt (h : s.Formed) {c lid t n} : (s.preempt c lid t n).Formed := by
  unfold State.preempt
  grind [State.Formed.onStrand, State.Formed.onTask, State.Formed.onCtx, State.Formed.select, State.Formed.discard,
    State.Formed.leave]
theorem State.Formed.considerPreempt (h : s.Formed) {d a} : (s.considerPreempt d a).Formed := by
  unfold State.considerPreempt
  split
  · exact h
  · split
    · exact h
    · split
      · exact h.preempt
      · exact h
theorem State.Formed.execDispatchCycle (h : s.Formed) {die} : NextFormed (execDispatchCycle die s) := by
  unfold Machine.execDispatchCycle
  grind [State.Formed.claims, State.Formed.onDie, !State.Formed.choose, State.Formed.considerPreempt, State.Formed.used, NextFormed]
theorem State.Formed.loadImages (h : s.Formed) {d c core k} : (s.loadImages d c core k).Formed := by
  unfold State.loadImages
  grind [!State.Formed.structRead, State.Formed.onCore, Loaded.Formed]
theorem State.Formed.bind (h : s.Formed) {d core n c l t k image} : (s.bind d core n c l t k image).Formed := by
  unfold State.bind
  dsimp only
  split
  · exact h.setStrand.onTask.onCtx.unreserve.onDie.onDie
  · exact h.setStrand.onTask.onCtx.unreserve.onDie
theorem State.Formed.unoffer (h : s.Formed) {c lid t} : (s.unoffer c lid t).Formed := by
  unfold State.unoffer
  split
  · exact h.onTask.onStrand
  · exact h.onTask
theorem State.Formed.judgeBinding (h : s.Formed) {core d c l t} : SomeFormed (s.judgeBinding core d c l t) := by
  unfold State.judgeBinding
  extract_lets back stopped ends
  have hb {u : State} (hu : u.Formed) : (back u).Formed := hu.unoffer
  have hs {u : State} {r : Read} (hu : u.Formed) (hr : r.Formed) : SomeFormed (stopped u r) := by
    cases r with
    | fault x y va => exact (hb hu).bindFault
    | bad va => exact (hb h).dieFatal
    | held va => exact h.agentHold
    | wait s1 => exact iteInduction (fun _ => trivial) fun _ => hr
    | ok v => exact hb h
  have he {x y} : SomeFormed (ends x y) := (hb h).dieRecord.endOff
  have hl {k} := h.loadImages (d := d) (c := c) (core := core) (k := k)
  have hr := h.structRead (who := .binding core) (d := d) (c := c) (va := l.kdesc.toNat) (n := 128) (detail := 0x0500)
  clear_value stopped ends
  split
  · refine iteInduction (fun _ => hb h) fun _ => ?_
    split
    · exact hb h
    · dsimp only
      split
      · next s1 r e => exact hs (e ▸ hl).1 (e ▸ hl).2
      · next s1 e =>
        have h1 : (Loaded.ok s1).Formed := e ▸ hl
        replace h1 : s1.Formed := h1
        split
        · exact h1.bind
        · refine iteInduction (fun _ => he) fun _ => ?_
          split
          · exact h1.bind
          · exact he
          · exact (hb h).countInt.dieLost
          · next s2 e2 =>
            have h2 : (Rd.wait s2).Formed := e2 ▸ h1.readPa
            exact iteInduction (fun _ => trivial) fun _ => h2
          · trivial
  · next s1 r e => rw [e] at hr; exact hs hr.1 hr.2
theorem State.Formed.execBindingJudge {s0 : State} (h : s0.Formed) {core} : NextFormed (execBindingJudge core s0) := by
  unfold Machine.execBindingJudge
  grind [State.Formed.claims, State.Formed.onCore, !State.Formed.judgeBinding, State.Formed.used, NextFormed, SomeFormed]
theorem State.Formed.execTaskReexecute (h : s.Formed) {ctx lid task} : NextFormed (execTaskReexecute ctx lid task s) := by
  unfold Machine.execTaskReexecute
  split
  · split
    · split
      · trivial
      · exact h.onTask
    · trivial
  · trivial
theorem State.Formed.hwTask (h : s.Formed) {core c lid t} : (s.hwTask core c lid t).Formed := by
  unfold State.hwTask
  grind [State.Formed.onTask, State.Formed.discard, State.Formed.onCtx, State.Formed.gsTaskEvent, State.Formed.unpark,
    State.Formed.coreRecord, State.Formed.endTask, State.Formed.endOff]
theorem State.Formed.hardwareError (h : s.Formed) {core} : (s.hardwareError core).Formed := by
  unfold State.hardwareError
  grind [State.Formed.hwTask, State.Formed.onCore, State.Formed.select, !State.Formed.foldl]
theorem State.Formed.execCoreHardwareError (h : s.Formed) {core} : NextFormed (execCoreHardwareError core s) := h.hardwareError
theorem State.Formed.execCoreParityError (h : s.Formed) {hit} : NextFormed (execCoreParityError hit s) := by
  unfold Machine.execCoreParityError
  grind [State.Formed.onCore, State.Formed.hardwareError, NextFormed]
theorem State.Formed.execClusterParityError (h : s.Formed) {cluster err} : NextFormed (execClusterParityError cluster err s) := by
  unfold Machine.execClusterParityError
  grind [State.Formed.onCluster, State.Formed.abandonOf, State.Formed.hardwareError, !State.Formed.foldl, NextFormed]

end

/-! ## The host's queues -/

section
variable {s : State}

theorem State.Formed.passEntry (h : s.Formed) {k} : (s.passEntry k).Formed := h
theorem State.Formed.completion (h : s.Formed) {k compl status handle} : (s.completion k compl status handle).Formed := by
  unfold State.completion
  split
  · exact h.passEntry
  · exact h.post
theorem State.Formed.takeEntry (h : s.Formed) {k off mine} {act : State → Nat → Bool → Nat → Host.Outcome State Fault Refusal}
    (ha : ∀ v p c, NextFormed (act s v p c)) : NextFormed (s.takeEntry k off mine act) := by
  unfold State.takeEntry
  grind [!State.Formed.readPa, State.Formed.passEntry, State.Formed.queueErr, !State.Formed.waiting, State.Formed.structBad,
    Rd.Formed, NextFormed]
theorem State.Formed.dropCover (h : s.Formed) {c} : (s.dropCover c).Formed := h
theorem State.Formed.recallAll (h : s.Formed) : s.recallAll.Formed := by
  unfold State.recallAll
  grind [State.Formed.recall, !State.Formed.foldl]
theorem State.Formed.serveIq (h : s.Formed) {mine cover} : NextFormed (s.serveIq mine cover) := by
  unfold State.serveIq
  grind [!State.Formed.takeEntry, State.Formed.completion, State.Formed.walkAll, State.Formed.dropCover, State.Formed.recallAll,
    NextFormed, State.formed_mk, State.Formed.mem]
theorem State.Formed.execInvalidateRange (h : s.Formed) : NextFormed (execInvalidateRange s) := h.serveIq
theorem State.Formed.execInvalidateAsid (h : s.Formed) : NextFormed (execInvalidateAsid s) := h.serveIq
theorem State.Formed.execInvalidateAll (h : s.Formed) : NextFormed (execInvalidateAll s) := h.serveIq
theorem State.Formed.execIcacheInvalidate (h : s.Formed) : NextFormed (execIcacheInvalidate s) := h.serveIq
theorem State.Formed.execLqLaunch (h : s.Formed) : NextFormed (execLqLaunch s) := by
  unfold Machine.execLqLaunch
  grind [!State.Formed.readPa, State.Formed.post, State.Formed.onDie, !State.Formed.waiting, State.Formed.structBad, NextFormed,
    Rd.Formed]

end

/-! ## Migrations -/

section
variable {s : State}

theorem State.Formed.dropCopies (h : s.Formed) {page} : (s.dropCopies page).Formed := h
theorem State.Formed.recallPage (h : s.Formed) {page} : (s.recallPage page).Formed := recallPage_wf s page h
theorem State.Formed.copySector (h : s.Formed) {src dst} : (s.copySector src dst).Formed := copySector_wf s src dst h
theorem State.Formed.countPage (h : s.Formed) {src} : (s.countPage src).Formed := by
  unfold State.countPage
  grind [State.Formed.onStack, !State.Formed.loop]
theorem State.Formed.copyPage (h : s.Formed) {src dst} : (s.copyPage src dst).1.Formed := copyPage_wf s src dst h
theorem State.Formed.clearPage (h : s.Formed) {page dom} : (s.clearPage page dom).Formed := clearPage_wf s page dom h
theorem State.Formed.clearNvPage (h : s.Formed) {page dom} : (s.clearNvPage page dom).Formed := clearNvPage_wf s page dom h
theorem State.Formed.kdsetPage (h : s.Formed) {page dom} : (s.kdsetPage page dom).Formed := kdsetPage_wf s page dom h
theorem State.Formed.gatePage (h : s.Formed) {page write} : (s.gatePage page write).1.Formed := h.gateAt
theorem State.Formed.judgeMig (h : s.Formed) {d asid big va new compl trowel} :
    (s.judgeMig d asid big va new compl trowel).Formed := by
  unfold State.judgeMig
  grind [!State.Formed.walk, State.Formed.countInt, MigJudge.Formed, Walk.Formed]
theorem State.Formed.beginMig (h : s.Formed) {m} : (s.beginMig m).Formed := by
  unfold State.beginMig
  grind [State.Formed.dropCover, State.Formed.homeRange, State.Formed.onPkg, State.Formed.dropCopies, !State.Formed.loop]
theorem State.Formed.onPool (h : s.Formed) {hbm f} : (s.onPool hbm f).Formed := h
theorem State.Formed.pageAt (h : s.Formed) {c va} : (s.pageAt c va).Formed := by
  unfold State.pageAt
  grind [!State.Formed.walk, PageAt.Formed, Walk.Formed]
theorem State.Formed.trowelRequest (h : s.Formed) : NextFormed s.trowelRequest := by
  unfold State.trowelRequest
  split
  · trivial
  · dsimp only
    split; · trivial
    split; · exact h.onPkg
    have hp {c va} := h.pageAt (c := c) (va := va)
    split
    · next s2 e => exact State.Formed.waiting (by have := @hp; grind [PageAt.Formed])
    · exact h.onPkg.dieFatal
    · grind [!State.Formed.judgeMig, !State.Formed.waiting, !State.Formed.gateAt, State.Formed.onPkg, State.Formed.onPool,
        State.Formed.beginMig, MigJudge.Formed, NextFormed]
theorem State.Formed.hostRequest (h : s.Formed) : NextFormed s.hostRequest := by
  unfold State.hostRequest
  grind [!State.Formed.takeEntry, State.Formed.completion, !State.Formed.judgeMig, !State.Formed.waiting, !State.Formed.gateAt,
    State.Formed.beginMig, MigJudge.Formed, NextFormed]
theorem State.Formed.execMigrationRequest (h : s.Formed) {trowel} : NextFormed (execMigrationRequest trowel s) := by
  unfold Machine.execMigrationRequest
  split
  · trivial
  · split
    · exact h.trowelRequest
    · exact h.hostRequest
theorem State.Formed.setMig (h : s.Formed) {i m} : (s.setMig i m).Formed := h
theorem State.Formed.gateMig (h : s.Formed) {m} : (s.gateMig m).1.Formed := by
  unfold State.gateMig
  exact loop_keeps (fun r : State × Bool => r.1.Formed) _ (fun k r hr => by grind [!State.Formed.gateAt]) _ _ _ h
theorem State.Formed.execMigrationCopy (h : s.Formed) {idx} : NextFormed (execMigrationCopy idx s) := by
  have copied : ∀ {r : State × Bool × Bool} {f : Nat → State × Bool × Bool → State × Bool × Bool} {n i : Nat}, r.1.Formed →
      (∀ i r, r.1.Formed → (f i r).1.Formed) → (Machine.loop f n i r).1.Formed :=
    fun {r f n i} hr hf => loop_keeps (fun r : State × Bool × Bool => r.1.Formed) f hf n i r hr
  unfold Machine.execMigrationCopy
  grind [!State.Formed.gateMig, !State.Formed.waiting, !State.Formed.copyPage, State.Formed.setMig, State.Formed.dieRecord,
    State.Formed.teardown, NextFormed]
theorem State.Formed.restart (h : s.Formed) {m} : (s.restart m).Formed := h.homeRange
theorem State.Formed.execMigrationRestart (h : s.Formed) {idx} : NextFormed (execMigrationRestart idx s) := by
  unfold Machine.execMigrationRestart
  grind [!State.Formed.gateAt, !State.Formed.waiting, State.Formed.walkAll, State.Formed.restart, State.Formed.setMig,
    State.Formed.completion, State.Formed.onPkg, NextFormed]
theorem State.Formed.pagesStop (h : s.Formed) {c vas r} (e : s.pagesStop c vas = some r) : r.Formed := by
  obtain ⟨a, -, e⟩ := List.exists_of_findSome?_eq_some e
  grind [!State.Formed.pageAt, PageAt.Formed, KvRead.Formed]
theorem State.Formed.kvFrom (h : s.Formed) {c l os} : (s.kvFrom c l os).Formed := by
  induction l generalizing os with
  | nil => trivial
  | cons i l ih =>
    unfold State.kvFrom
    grind [!State.Formed.readVa, !State.Formed.pagesStop, Rd.Formed, KvRead.Formed]
theorem State.Formed.kvObjs (h : s.Formed) {c} : (s.kvObjs c).Formed := h.kvFrom
theorem State.Formed.kvStop {a : KvRead} (h : s.Formed) (h1 : a.Formed) {c} : NextFormed (s.kvStop c a) := by
  unfold State.kvStop
  grind [!State.Formed.waiting, !State.Formed.agentHold, State.Formed.dieFatal, KvRead.Formed, NextFormed, SomeFormed]
theorem State.Formed.setPooled (h : s.Formed) {c os} : (s.setPooled c os).Formed := h
theorem State.Formed.scanRecords (h : s.Formed) {c os} : (s.scanRecords c os).Formed := by
  unfold State.scanRecords
  grind [State.Formed.dieRecord, State.Formed.recordReads, !State.Formed.foldl]
theorem State.Formed.kvAll (h : s.Formed) {l qs x} (e : s.kvAll l qs = .error x) : x.2.Formed := by
  induction l generalizing qs with
  | nil => cases e
  | cons c l ih => unfold State.kvAll at e; grind [!State.Formed.kvObjs]
theorem State.Formed.execTrowelScan (h : s.Formed) : NextFormed (execTrowelScan s) := by
  unfold Machine.execTrowelScan
  refine State.Formed.serving ?_
  refine iteInduction (fun _ => trivial) fun _ => ?_
  split
  · next c r e => exact h.kvStop (h.kvAll e)
  · exact State.Formed.onPkg (h.foldl fun _ _ ht => ht.setPooled.scanRecords)
theorem State.Formed.freePage (h : s.Formed) {idx m toHbm} : (s.freePage idx m toHbm).Formed := h.onPkg.kdsetPage.onPool
theorem State.Formed.execTrowelMigrationDone (h : s.Formed) {idx} : NextFormed (execTrowelMigrationDone idx s) := by
  unfold Machine.execTrowelMigrationDone
  refine State.Formed.serving ?_
  split; · trivial
  split
  · split
    · exact h.onPkg.onPool
    · have hg {q n w} := h.gateAt (q := q) (n := n) (write := w)
      split
      · grind [!State.Formed.waiting]
      · next s1 g _ e =>
        have h1 : s1.Formed := by have := @hg; grind
        have hk {c} := h1.kvObjs (c := c)
        split
        · exact h1.freePage
        · split
          · grind [!State.Formed.storeVa, !State.Formed.waiting, State.Formed.freePage, State.Formed.setPooled,
              !State.Formed.kvStop, KvRead.Formed, NextFormed]
          · exact h.kvStop hk
  · trivial
theorem State.Formed.replaceDue (h : s.Formed) : s.replaceDue.Formed := by
  unfold State.replaceDue
  dsimp only
  split
  · exact h.onPkg.event
  · exact h
theorem State.Formed.execMarginPlan (h : s.Formed) {cores} : NextFormed (execMarginPlan cores s) := by
  unfold Machine.execMarginPlan
  grind [State.Formed.replaceDue, State.Formed.onPkg, State.Formed.onCore, State.Formed.hardwareError, !State.Formed.foldl,
    NextFormed]
theorem State.Formed.execPowerManagerSample (h : s.Formed) {avg} : NextFormed (execPowerManagerSample avg s) := h
theorem State.Formed.execScrubCountPoll (h : s.Formed) {counts} : NextFormed (execScrubCountPoll counts s) := by
  unfold Machine.execScrubCountPoll
  grind [State.Formed.onStack, !State.Formed.loop, NextFormed]

end

/-! ## Kiln and resets -/

section
variable {s : State}

theorem State.Formed.poisonSector (h : s.Formed) {sec atoms} : (s.poisonSector sec atoms).Formed := h.recall
theorem State.Formed.execSliceError (h : s.Formed) {die sector kind} : NextFormed (execSliceError die sector kind s) := by
  unfold Machine.execSliceError
  grind [State.Formed.onDie, State.Formed.poisonSector, State.Formed.event, State.Formed.goViral, !State.Formed.loop, NextFormed,
      State.formed_mk, State.Formed.mem]
theorem State.Formed.mediaReport (h : s.Formed) {sector a} : (s.mediaReport sector a).Formed := by
  unfold State.mediaReport
  grind [State.Formed.coreRecord, State.Formed.dieRecord]
theorem State.Formed.tagFails (h : s.Formed) {sector a} : (s.tagFails sector a).Formed := by
  unfold State.tagFails
  grind [State.Formed.integrity, State.Formed.teardown, State.Formed.dieRecord, State.Formed.goViral]
theorem State.Formed.execHbmSectorRead (h : s.Formed) {sector who ecc tagBad} :
    NextFormed (execHbmSectorRead sector who ecc tagBad s) := by
  unfold Machine.execHbmSectorRead
  grind [State.Formed.goViral, State.Formed.onStack, State.Formed.mediaReport, State.Formed.cellWrite, State.Formed.recall,
    State.Formed.tagFails, NextFormed, State.formed_mk, State.Formed.mem]
theorem State.Formed.execKilnImageAccept (h : s.Formed) {half} : NextFormed (execKilnImageAccept half s) := by
  unfold Machine.execKilnImageAccept
  grind [State.Formed.onDie, State.Formed.homeWrite, State.Formed.storeArrived, NextFormed]
theorem State.Formed.toDevice (h : s.Formed) {im} : (s.toDevice im).Formed := h
theorem State.Formed.settleMode (h : s.Formed) : s.settleMode.Formed := by
  unfold State.settleMode
  split
  · exact h.onPkg
  · exact h
theorem State.Formed.execKilnImageAck (h : s.Formed) {half sector part} : NextFormed (execKilnImageAck half sector part s) := by
  unfold Machine.execKilnImageAck
  grind [State.Formed.settleMode, State.Formed.toDevice, State.Formed.onDie, NextFormed]
theorem State.Formed.nvFailed (h : s.Formed) {sector id} : (s.nvFailed sector id).Formed := by
  unfold State.nvFailed
  grind [State.Formed.setStrand, State.Formed.onTask, State.Formed.coreRecord]
theorem State.Formed.dropImage (h : s.Formed) {d sector} : (s.dropImage d sector).Formed := by
  unfold State.dropImage
  grind [State.Formed.onPkg, State.Formed.onDie, State.Formed.event, State.Formed.settleMode, State.Formed.nvFailed,
    !State.Formed.foldl]
theorem State.Formed.execKilnImageRefused (h : s.Formed) {half sector} : NextFormed (execKilnImageRefused half sector s) := by
  unfold Machine.execKilnImageRefused
  dsimp only
  split
  · exact h.dropImage
  · trivial
theorem State.Formed.execKilnDeviceTimeout (h : s.Formed) {units} : NextFormed (execKilnDeviceTimeout units s) := by
  unfold Machine.execKilnDeviceTimeout
  grind [State.Formed.dropImage, !State.Formed.foldl, NextFormed]
theorem State.Formed.execPbarComplete (h : s.Formed) {strand} : NextFormed (execPbarComplete strand s) := by
  unfold Machine.execPbarComplete
  dsimp only
  split
  · trivial
  · split
    · trivial
    · exact h.setStrand.complete.settle
theorem State.Formed.flush (h : s.Formed) : s.flush.Formed := by
  unfold State.flush
  grind [State.Formed.toDevice, State.Formed.settleMode, State.Formed.onDie, !State.Formed.foldl]
theorem State.Formed.execGlobalPersistentFlush (h : s.Formed) : NextFormed (execGlobalPersistentFlush s) := h.onPkg.flush
theorem State.Formed.execPowerLoss (h : s.Formed) : NextFormed (execPowerLoss s) := by
  unfold Machine.execPowerLoss
  refine iteInduction (fun _ => trivial) fun _ => inWindows_wf _ 1 _ ?_
  exact iteInduction (motive := State.Formed) (fun _ => h.flush) fun _ => h.foldl fun _ _ ht => ht.toDevice
theorem State.Formed.recallReset (h : s.Formed) : s.recallReset.Formed := by
  unfold State.recallReset
  grind [State.Formed.recallAll, State.formed_mk, State.Formed.mem]
theorem State.Formed.execWarmReset (h : s.Formed) : NextFormed (execWarmReset s) := by
  unfold Machine.execWarmReset
  refine iteInduction (fun _ => trivial) fun _ => memAfter_wf _ _ (State.Formed.foldl h.recallReset.flush fun t p ht => ?_)
  exact iteInduction (fun _ => ht.clearNvPage.flush) fun _ => ht.clearPage
theorem State.Formed.execColdBoot (h : s.Formed) {fwOk} : NextFormed (execColdBoot fwOk s) := by
  have hm : Canonical (s.memAfter [.host, .pooled]) := memAfter_wf s _ h
  unfold Machine.execColdBoot
  grind [NextFormed, State.formed_mk]

end

/-! ## The sequencer -/

section
variable {s : State}

theorem State.Formed.gsRecord (h : s.Formed) {cause detail va} : (s.gsRecord cause detail va).Formed := by
  unfold State.gsRecord
  split
  · exact h.dieRecord
  · exact h
theorem State.Formed.gsHalt (h : s.Formed) {why detail} : (s.gsHalt why detail).Formed := h.gsRecord.onGs
theorem State.Formed.gsFailed (h : s.Formed) : s.gsFailed.Formed := h
theorem State.Formed.gsFault (h : s.Formed) {cause va} : (s.gsFault cause va).Formed := by
  unfold State.gsFault
  split
  · exact h.gsRecord.onCtx.onGs
  · exact h.gsRecord.gsFailed
theorem State.Formed.gsLost (h : s.Formed) {va} : (s.gsLost va).Formed := h.countVa.gsRecord.gsFailed.teardown
theorem State.Formed.gsHeld {old : State} (h : s.Formed) {va} : NextFormed (old.gsHeld s va) := by
  unfold State.gsHeld
  grind [!State.Formed.agentHold, !State.Formed.waiting, NextFormed, SomeFormed]
theorem State.Formed.gsRead {old : State} (h : s.Formed) {va n} {k : State → Nat → Host.Outcome State Fault Refusal}
    (hk : ∀ t v, t.Formed → NextFormed (k t v)) : NextFormed (old.gsRead s va n k) := by
  unfold State.gsRead
  grind [!State.Formed.structRead, !State.Formed.waiting, !State.Formed.gsHeld, State.Formed.gsFault, State.Formed.gsLost,
    Read.Formed, NextFormed]
theorem State.Formed.gsWrite {old : State} (h : s.Formed) {va n v} {k : State → Host.Outcome State Fault Refusal}
    (hk : ∀ t, t.Formed → NextFormed (k t)) : NextFormed (old.gsWrite s va n v k) := by
  unfold State.gsWrite
  grind [!State.Formed.storeVa, !State.Formed.waiting, !State.Formed.gsHeld, State.Formed.gsFault, State.Formed.gsLost, NextFormed]
theorem State.Formed.gsAcquire (h : s.Formed) : s.gsAcquire.Formed := h
theorem State.Formed.gsOpen (h : s.Formed) : NextFormed s.gsOpen := by
  unfold State.gsOpen
  grind [State.Formed.gsHalt, State.Formed.onGs, !State.Formed.walk, State.Formed.gsLost, !State.Formed.waiting, NextFormed,
    Walk.Formed]
theorem State.Formed.gsEn (h : s.Formed) {en} : (s.gsEn en).Formed := by
  unfold State.gsEn
  grind [State.Formed.onGs, State.Formed.gsEvent]
theorem State.Formed.gsAbandoned (h : s.Formed) {code} : (s.gsAbandoned code).Formed := h.endIterations.onGs
theorem State.Formed.gsSettled (h : s.Formed) : s.gsSettled.Formed := by
  unfold State.gsSettled
  split
  · exact h.gsAbandoned
  · exact h
theorem State.Formed.writeGsctl (h : s.Formed) {value} : NextFormed (s.writeGsctl value) := by
  unfold State.writeGsctl
  grind [State.Formed.gsSettled, State.Formed.onGs, !State.Formed.gsOpen, State.Formed.gsEn, NextFormed]
theorem State.Formed.execGsEnable (h : s.Formed) {value} : NextFormed (execGsEnable value s) := by
  unfold Machine.execGsEnable
  split
  · exact h
  · split
    · trivial
    · exact h.writeGsctl
theorem State.Formed.execGsDisable (h : s.Formed) {value} : NextFormed (execGsDisable value s) := by
  unfold Machine.execGsDisable
  split
  · exact h
  · split
    · trivial
    · exact h.writeGsctl
theorem State.Formed.execGsStop (h : s.Formed) {value} : NextFormed (execGsStop value s) := by
  unfold Machine.execGsStop
  split
  · exact h
  · split
    · trivial
    · exact h.writeGsctl
theorem State.Formed.gsSubmit {old : State} (h : s.Formed) : NextFormed (old.gsSubmit s) :=
  h.gsRead fun _ _ ht => ht.onGs.onDie
theorem State.Formed.gsClear {old : State} (h : s.Formed) : NextFormed (old.gsClear s) :=
  h.gsWrite fun _ ht => ht.onGs.gsSubmit
theorem State.Formed.gsGo {old : State} (h : s.Formed) : NextFormed (old.gsGo s) := by
  unfold State.gsGo; split
  · exact h.gsWrite fun _ ht => ht.onGs.gsClear
  · exact h.gsClear
  · exact h.gsSubmit
theorem State.Formed.execGsAttempt (h : s.Formed) : NextFormed (execGsAttempt s) := by
  unfold Machine.execGsAttempt
  refine State.Formed.serving ?_
  refine iteInduction (fun _ => trivial) fun _ => iteInduction (fun _ => h.gsGo) fun _ => ?_
  refine iteInduction (fun _ => h.gsHalt) fun _ => h.gsAcquire.gsRead fun t v ht => ?_
  refine iteInduction (fun _ => ht.gsHalt) fun _ => iteInduction (fun _ => ht.onGs) fun _ => ?_
  split
  · exact ht.gsHalt
  · exact ht.onGs.gsGo
theorem State.Formed.execGsWaitRecheck (h : s.Formed) : NextFormed (execGsWaitRecheck s) := by
  unfold Machine.execGsWaitRecheck
  refine State.Formed.serving ?_
  refine iteInduction (fun _ => trivial) fun _ => h.gsAcquire.gsRead fun t v ht => ?_
  exact iteInduction (fun _ => ht.onGs.gsHalt) fun _ => ht.onGs
theorem State.Formed.execGsCommit (h : s.Formed) : NextFormed (execGsCommit s) := by
  unfold Machine.execGsCommit
  dsimp only
  split
  · trivial
  · refine iteInduction (fun _ => trivial) fun _ => State.Formed.serving (h.gsRead fun t0 _ h0 =>
      h0.gsAcquire.gsRead fun t1 _ h1 => h1.gsRead fun t2 _ h2 => ?_)
    split
    · exact h2.gsRecord.gsEvent
    · exact h2.gsWrite fun _ h3 => h3.gsWrite fun _ h4 => h4.onGs
theorem State.Formed.execGsAbandon (h : s.Formed) : NextFormed (execGsAbandon s) := by
  unfold Machine.execGsAbandon
  split
  · exact h.gsAbandoned
  · trivial

end

/-! ## The loader -/

section
variable {s : State}

theorem State.Formed.loadLost (h : s.Formed) {c va} : (s.loadLost c va).Formed := by
  unfold State.loadLost
  grind [State.Formed.dieFatal, LoadEnd.Formed]
theorem State.Formed.notWritable (h : s.Formed) {c w r} (e : s.notWritable c w = some r) : r.Formed := by
  obtain ⟨a, -, e⟩ := List.exists_of_findSome?_eq_some e
  grind [!State.Formed.translate, !State.Formed.loadLost, Tr.Formed, LoadEnd.Formed]
theorem State.Formed.writeAll (h : s.Formed) {c l} : (s.writeAll c l).1.Formed := by
  induction l generalizing s with
  | nil => exact h
  | cons x l ih => unfold State.writeAll; grind [!State.Formed.storeVa, State.Formed.askerRecord]
theorem State.Formed.load? (h : s.Formed) {c v} : (s.load? c v).Formed := by
  unfold State.load?
  grind [!State.Formed.readPa, State.Formed.countInt, State.Formed.dieLost, !State.Formed.notWritable, !State.Formed.writeAll,
      State.formed_mk, State.Formed.mem, Rd.Formed, LoadEnd.Formed]

end

/-! ## The host's commands -/

section
variable {s : State}

theorem State.Formed.serveCq (h : s.Formed) {mine} {act : State → Cmd → CmdEnd} (ha : ∀ c, (act s c).Formed) :
    NextFormed (s.serveCq mine act) := by
  unfold State.serveCq; split
  · trivial
  · exact h.takeEntry fun v p c => by grind [State.Formed.completion, !State.Formed.waiting, CmdEnd.Formed, NextFormed]
theorem State.Formed.execCreate (h : s.Formed) : NextFormed (execCreate s) := State.Formed.serving (h.serveCq fun c => by
  grind [!State.Formed.readPa, State.Formed.structBad, !State.Formed.kvObjs, State.Formed.onDie, State.Formed.setCtx,
    State.Formed.setPooled, State.Formed.dieFatal, Rd.Formed, KvRead.Formed, CmdEnd.Formed])
theorem State.Formed.execDestroy (h : s.Formed) : NextFormed (execDestroy s) := h.serveCq fun c => by
  grind [State.Formed.teardown, State.Formed.onCtx, CmdEnd.Formed]
theorem State.Formed.execSetwake (h : s.Formed) : NextFormed (execSetwake s) := h.serveCq fun c => by
  grind [State.Formed.onCtx, CmdEnd.Formed]
theorem State.Formed.execSettok (h : s.Formed) : NextFormed (execSettok s) := h.serveCq fun c => by
  grind [State.Formed.onCtx, CmdEnd.Formed]
theorem State.Formed.execSetclass (h : s.Formed) : NextFormed (execSetclass s) := h.serveCq fun c => by
  grind [State.Formed.onCtx, CmdEnd.Formed]
theorem State.Formed.execLoad (h : s.Formed) : NextFormed (execLoad s) := State.Formed.serving (h.serveCq fun c => by
  grind [!State.Formed.readPa, State.Formed.structBad, !State.Formed.load?, State.Formed.post, !State.Formed.agentHold, Rd.Formed,
    LoadEnd.Formed, SomeFormed, CmdEnd.Formed])
theorem State.Formed.resumeChan (h : s.Formed) {cl ch} : (s.resumeChan cl ch).Formed := by
  unfold State.resumeChan
  dsimp only
  split
  · split
    · exact h.onCluster
    · exact h.hodSignal.hodPop
  · exact h
theorem State.Formed.resumeTask (h : s.Formed) {c lid t} : (s.resumeTask c lid t).Formed := by
  unfold State.resumeTask
  split
  · exact h.onTask
  · exact h.onTask.wakeTask
  · split
    · split
      · exact h.onTask.onTask.unblock
      · exact h.onTask.onTask
    · exact h.onTask.onTask
theorem State.Formed.writeOwed (h : s.Formed) {c} : (s.writeOwed c).Formed := by
  unfold State.writeOwed
  grind [State.Formed.rewriteOne, State.Formed.onCtx, !State.Formed.foldl]
theorem State.Formed.execResume (h : s.Formed) : NextFormed (execResume s) := h.serveCq fun c => by
  have h0 : ({ s with dies := s.dies.map fun p => (p.1, p.2.dropClean) } : State).Formed := h
  dsimp only
  split
  · trivial
  · refine State.Formed.onPkg (State.Formed.writeOwed (State.Formed.foldl ?_ fun t l ht => ht.foldl fun u k hu => hu.resumeTask))
    exact h0.onCtx.foldl fun t q ht => ht.resumeChan

end

/-! ## Registers, keys and the mailbox -/

section
variable {s : State}

theorem State.Formed.regWrite {t : State} (h : s.Formed) (h1 : t.Formed) : NextFormed (s.regWrite t) := by
  unfold State.regWrite
  grind [NextFormed]
theorem State.Formed.execCqProdWrite (h : s.Formed) {q value} : NextFormed (execCqProdWrite q value s) := by
  unfold Machine.execCqProdWrite
  grind [!State.Formed.regWrite, State.Formed.queueErr, State.Formed.onQueue]
theorem State.Formed.execQcfgWrite (h : s.Formed) {q value} : NextFormed (execQcfgWrite q value s) := by
  unfold Machine.execQcfgWrite
  grind [!State.Formed.regWrite, State.Formed.queueErr, State.Formed.onQueue]
theorem State.Formed.push (h : s.Formed) {hbm value} : (s.push hbm value).Formed := by
  unfold State.push
  grind [State.Formed.event, State.Formed.onPool]
theorem State.Formed.execHppush (h : s.Formed) {value} : NextFormed (execHppush value s) := by
  unfold Machine.execHppush
  grind [!State.Formed.regWrite, State.Formed.push]
theorem State.Formed.execPppush (h : s.Formed) {value} : NextFormed (execPppush value s) := by
  unfold Machine.execPppush
  grind [!State.Formed.regWrite, State.Formed.push]
theorem State.Formed.pop (h : s.Formed) {hbm} : (s.pop hbm).Formed := h
theorem State.Formed.noAnswer (h : s.Formed) : s.noAnswer.Formed := h
theorem State.Formed.execHppop (h : s.Formed) : NextFormed (execHppop s) := by
  unfold Machine.execHppop
  grind [State.Formed.noAnswer, State.Formed.pop, NextFormed]
theorem State.Formed.execPppop (h : s.Formed) : NextFormed (execPppop s) := by
  unfold Machine.execPppop
  grind [State.Formed.noAnswer, State.Formed.pop, NextFormed]
theorem State.Formed.execForcev (h : s.Formed) {value} : NextFormed (execForcev value s) := by
  unfold Machine.execForcev
  grind [State.Formed.goViral, NextFormed]
theorem State.Formed.execKlctlGpfWrite (h : s.Formed) {value} : NextFormed (execKlctlGpfWrite value s) := by
  unfold Machine.execKlctlGpfWrite
  grind [!State.Formed.regWrite, State.Formed.settleMode, State.Formed.onPkg]
theorem State.Formed.writeQueue (h : s.Formed) {k o v} : (s.writeQueue k o v).Formed := by
  unfold State.writeQueue
  split
  · split
    · exact h
    · exact h.onQueue
  · split
    · exact h
    · exact h.onQueue
  · split
    · exact h
    · exact h.onQueue
  · exact h
theorem State.Formed.writeReg (h : s.Formed) {off v} : (s.writeReg off v).Formed := by
  unfold State.writeReg
  grind [State.Formed.onPkg, State.Formed.writeQueue, State.Formed.onGs]
theorem State.Formed.fence (h : s.Formed) {peer} : (s.fence peer).Formed := by
  unfold State.fence
  split
  · exact h
  · exact h.onPkg.event
theorem State.Formed.execFenceWrite (h : s.Formed) {reg value} : NextFormed (execFenceWrite reg value s) := by
  unfold Machine.execFenceWrite
  grind [State.Formed.fence, !State.Formed.regWrite, State.Formed.onPkg, !State.Formed.foldl]
theorem State.Formed.execFenceNotice (h : s.Formed) {peer} : NextFormed (execFenceNotice peer s) := by
  unfold Machine.execFenceNotice
  grind [State.Formed.fence, NextFormed]
theorem State.Formed.answer (h : s.Formed) {st v} : (s.answer st v).Formed := h
theorem State.Formed.writeHalf (h : s.Formed) {o v} : NextFormed (s.writeHalf o v) := by
  unfold State.writeHalf
  grind [!State.Formed.execForcev, !State.Formed.execHppush, !State.Formed.execPppush, !State.Formed.writeGsctl,
    !State.Formed.execKlctlGpfWrite, !State.Formed.execFenceWrite, !State.Formed.execQcfgWrite, !State.Formed.execCqProdWrite,
      NextFormed]
theorem State.Formed.readReg (h : s.Formed) {off bytes} : NextFormed (s.readReg off bytes) := by
  unfold State.readReg
  dsimp only
  split
  · exact h.noAnswer
  · split
    · split
      · trivial
      · exact h.pop.answer
    · exact h.answer
theorem State.Formed.execRegisterWrite (h : s.Formed) {off bytes value} : NextFormed (execRegisterWrite off bytes value s) := by
  unfold Machine.execRegisterWrite
  grind [State.Formed.answer, !State.Formed.readReg, !State.Formed.writeHalf, State.Formed.writeReg, !State.Formed.regWrite,
    NextFormed]
theorem State.Formed.inSession {k : State} (h : s.Formed) (h1 : k.Formed) : NextFormed (s.inSession k) := by
  unfold State.inSession
  grind [State.Formed.answer, NextFormed]
theorem State.Formed.setKey (h : s.Formed) {k x1} : (s.setKey k x1).Formed := h
theorem State.Formed.execKeyload (h : s.Formed) {slot retain} : NextFormed (execKeyload slot retain s) := by
  unfold Machine.execKeyload
  grind [!State.Formed.inSession, State.Formed.answer, State.Formed.setKey]
theorem State.Formed.execKeyzero (h : s.Formed) {slot} : NextFormed (execKeyzero slot s) := by
  unfold Machine.execKeyzero
  grind [!State.Formed.inSession, State.Formed.answer, State.Formed.setKey]
theorem State.Formed.kdsetOne (h : s.Formed) {page dom} : (s.kdsetOne page dom).Formed := by
  unfold State.kdsetOne
  split
  · exact h.kdsetPage.onPkg.flush
  · exact h.kdsetPage.onPkg
theorem State.Formed.execKdset (h : s.Formed) {page count dom} : NextFormed (execKdset page count dom s) := by
  have gated : ∀ {r : State × Bool} {l : List Nat} {f : State × Bool → Nat → State × Bool}, r.1.Formed →
      (∀ r p, r.1.Formed → (f r p).1.Formed) → (l.foldl f r).1.Formed :=
    fun {r l f} hr hf => foldl_keeps (fun r : State × Bool => r.1.Formed) f hf l r hr
  unfold Machine.execKdset
  grind [!State.Formed.gatePage, State.Formed.answer, !State.Formed.waiting, State.Formed.kdsetOne, !State.Formed.foldl, NextFormed]
theorem State.Formed.execSigkey (h : s.Formed) {addKey key sig} : NextFormed (execSigkey addKey key sig s) := by
  unfold Machine.execSigkey
  refine h.inSession ?_
  split
  · exact h.answer
  · split
    · exact h.answer
    · exact h.onPkg.answer
theorem State.Formed.execSpdmAttest (h : s.Formed) {kind} : NextFormed (execSpdmAttest kind s) := h

end

/-! ## Host, peers and links -/

section
variable {s : State}

theorem State.Formed.returned (h : s.Formed) {l give} : (s.returned l give).Formed := by
  unfold State.returned
  split <;> exact h.answer
theorem State.Formed.snoop (h : s.Formed) {l after current} : NextFormed (s.snoop l after current) := by
  unfold State.snoop
  grind [State.Formed.returned, State.Formed.setLine, NextFormed]
theorem State.Formed.execSnpInv (h : s.Formed) {line} : NextFormed (execSnpInv line s) := h.snoop
theorem State.Formed.execSnpData (h : s.Formed) {line} : NextFormed (execSnpData line s) := h.snoop
theorem State.Formed.execSnpCur (h : s.Formed) {line} : NextFormed (execSnpCur line s) := h.snoop
theorem State.Formed.execCxlResponse (h : s.Formed) {line grant data} : NextFormed (execCxlResponse line grant data s) := by
  unfold Machine.execCxlResponse
  grind [State.Formed.onPkg, State.Formed.cellWrite, State.Formed.settleWrites, State.Formed.setLine, NextFormed]
theorem State.Formed.comesPoisoned (h : s.Formed) {q atoms} : (s.comesPoisoned q atoms).Formed := by
  unfold State.comesPoisoned
  split <;> exact h
theorem State.Formed.serveRead (h : s.Formed) {port pa any} : (s.serveRead port pa any).1.Formed := by
  unfold State.serveRead
  grind [State.Formed.countRefusal, !State.Formed.recallAt, State.Formed.onDie, State.Formed.countInt, State.Formed.askBisnp,
    SomeFormed.getD]
theorem State.Formed.serveWrite (h : s.Formed) {pa w} : (s.serveWrite pa w).1.Formed := by
  unfold State.serveWrite
  split
  · exact h
  · split
    · exact h.countRefusal
    · exact h.countMerge.homeWrite.comesPoisoned
theorem State.Formed.servePeer (h : s.Formed) {req} : (s.servePeer req).1.Formed := by
  unfold State.servePeer
  grind [State.Formed.countRefusal, !State.Formed.gate, State.Formed.countInt, State.Formed.homeWrite, State.Formed.countMerge,
    !State.Formed.atomHome]
theorem State.Formed.serveIn (h : s.Formed) {r} : (s.serveIn r).1.Formed := by
  unfold State.serveIn
  split
  · exact h.serveRead
  · exact h.serveWrite
  · exact h.servePeer
theorem State.Formed.arrives (h : s.Formed) {r} : NextFormed (s.arrives r) := by
  unfold State.arrives
  grind [State.Formed.setDie, !State.Formed.serveIn, State.Formed.answer, !State.Formed.waiting, NextFormed]
theorem State.Formed.serveHeld (h : s.Formed) {d e} : (s.serveHeld d e).Formed := by
  unfold State.serveHeld
  grind [!State.Formed.serveIn, State.Formed.onPkg, State.Formed.onDie]
theorem State.Formed.serveOutside (h : s.Formed) : s.serveOutside.Formed := by
  unfold State.serveOutside
  grind [State.Formed.serveHeld, !State.Formed.foldl]
theorem State.Formed.execHostMemrd (h : s.Formed) {port off any} : NextFormed (execHostMemrd port off any s) := by
  unfold Machine.execHostMemrd
  split
  · trivial
  · exact h.arrives
theorem State.Formed.execHostMemwr (h : s.Formed) {port off data} : NextFormed (execHostMemwr port off data s) := by
  unfold Machine.execHostMemwr
  split
  · trivial
  · exact h.arrives
theorem State.Formed.takeDirty (h : s.Formed) {line v} : (s.takeDirty line v).Formed := by
  unfold State.takeDirty
  grind [State.Formed.onStack, State.Formed.comesPoisoned, State.Formed.rawWrite]
theorem State.Formed.execBisnpAnswer (h : s.Formed) {line dirty} : NextFormed (execBisnpAnswer line dirty s) := by
  unfold Machine.execBisnpAnswer
  grind [State.Formed.takeDirty, State.Formed.serveOutside, State.Formed.settleWrites, State.Formed.onDie, NextFormed]
theorem State.Formed.execPeerInbound (h : s.Formed) {req} : NextFormed (execPeerInbound req s) := by
  unfold Machine.execPeerInbound
  split
  · trivial
  · exact h.arrives
theorem State.Formed.answerStrand (h : s.Formed) {q data poison fail} : (s.answerStrand q data poison fail).Formed := by
  unfold State.answerStrand
  extract_lets n
  split
  · exact h
  · next g _ =>
    extract_lets s1
    have h1 : s1.Formed := by dsimp only [s1]; split; exacts [h.accessRecord, h]
    clear_value s1
    split
    · exact State.Formed.performed (State.Formed.acquired (iteInduction (fun _ => h1.onStrand) fun _ => h1))
    · exact h1.atomEnd
    · refine iteInduction (fun _ => h1.onStrand) fun _ => iteInduction (fun _ => ?_) fun _ => h1.performed
      exact h1.loaded
theorem State.Formed.answerHod (h : s.Formed) {idx cl ch data poison fail} :
    SomeFormed (s.answerHod idx cl ch data poison fail) := by
  unfold State.answerHod
  grind [State.Formed.onPkg, State.Formed.deadRead, State.Formed.hodKeep, !State.Formed.deliver, State.Formed.countTurn, SomeFormed]
theorem State.Formed.answerEngine (h : s.Formed) {q d a data poison fail} : (s.answerEngine q d a data poison fail).Formed := by
  unfold State.answerEngine
  grind [State.Formed.askerRecord, State.Formed.onPkg]
theorem State.Formed.peerAnswer (h : s.Formed) {idx data poison fail} : SomeFormed (s.peerAnswer idx data poison fail) := by
  unfold State.peerAnswer
  split
  · trivial
  · split
    · exact h.answerHod
    · exact h.onPkg.answerEngine
    · exact h.onPkg.answerStrand
theorem State.Formed.answering {r : Option State} (h : SomeFormed r) : NextFormed (answering r) := by
  unfold Machine.answering
  grind [NextFormed, SomeFormed]
theorem State.Formed.execPeerResponse (h : s.Formed) {idx data answer} : NextFormed (execPeerResponse idx data answer s) := by
  unfold Machine.execPeerResponse
  grind [!State.Formed.answering, !State.Formed.peerAnswer]
theorem State.Formed.execPeerTimeout (h : s.Formed) {idx} : NextFormed (execPeerTimeout idx s) := by
  unfold Machine.execPeerTimeout
  split
  · trivial
  · exact State.Formed.answering (h.peerAnswer.map fun t ht => by split; exacts [ht, ht.fence])
theorem State.Formed.viralStop (h : s.Formed) {n} : (s.viralStop n).Formed := by
  unfold State.viralStop
  dsimp only
  exact h.takeTrap
theorem State.Formed.discardRequests (h : s.Formed) : s.discardRequests.Formed := h
theorem State.Formed.execViralEntry (h : s.Formed) : NextFormed (execViralEntry s) := by
  unfold Machine.execViralEntry
  grind [State.Formed.serveOutside, State.Formed.discardRequests, State.Formed.viralStop, !State.Formed.foldl, NextFormed]
theorem State.Formed.losePort (h : s.Formed) {port} : (s.losePort port).Formed := by
  unfold State.losePort
  grind [State.Formed.event, State.Formed.poisonSector, State.Formed.onPkg, !State.Formed.foldl, State.formed_mk, State.Formed.mem]
theorem State.Formed.execHostPortLoss (h : s.Formed) {port} : NextFormed (execHostPortLoss port s) := by
  unfold Machine.execHostPortLoss
  split
  · trivial
  · exact h.losePort.settleWrites
theorem State.Formed.execHostViralIndication (h : s.Formed) {port} : NextFormed (execHostViralIndication port s) := by
  unfold Machine.execHostViralIndication
  split
  · trivial
  · exact h.goViral.losePort.losePort
theorem State.Formed.loseSector (h : s.Formed) {sec} : (s.loseSector sec).Formed := by
  unfold State.loseSector
  dsimp only
  split
  · exact h.poisonSector.onDie
  · exact h.poisonSector
theorem State.Formed.execDieLoss (h : s.Formed) {die} : NextFormed (execDieLoss die s) := by
  unfold Machine.execDieLoss
  grind [State.Formed.loseSector, State.Formed.goViral, State.Formed.onDie, !State.Formed.foldl, NextFormed, State.formed_mk,
    State.Formed.mem]
theorem State.Formed.damagedFill (h : s.Formed) {d sec atoms} : (s.damagedFill d sec atoms).Formed := by
  unfold State.damagedFill
  grind [!State.Formed.gate, State.Formed.onDie, State.Formed.countInt, State.Formed.onCopy]
theorem State.Formed.damageFlights (h : s.Formed) {hit atoms} : (s.damageFlights hit atoms).Formed := by
  unfold State.damageFlights
  grind [State.Formed.damagedFill, !State.Formed.foldl, State.formed_mk, State.Formed.mem]
theorem State.Formed.damageOthers (h : s.Formed) {e atoms} : (s.damageOthers e atoms).Formed := h
theorem State.Formed.poisonLine (h : s.Formed) {r atoms} : (s.poisonLine r atoms).Formed := h
theorem State.Formed.execLinkCrcFailure (h : s.Formed) {link atoms} : NextFormed (execLinkCrcFailure link atoms s) := by
  unfold Machine.execLinkCrcFailure
  grind [State.Formed.damageFlights, State.Formed.damageOthers, State.Formed.settleWrites, State.Formed.poisonLine,
    !State.Formed.peerAnswer, !State.Formed.foldl, SomeFormed.getD, NextFormed]
theorem State.Formed.execLinkDown (h : s.Formed) {link} : NextFormed (execLinkDown link s) := by
  unfold Machine.execLinkDown
  grind [State.Formed.onPkg, State.Formed.goViral, NextFormed]
theorem State.Formed.execLinkTrained (h : s.Formed) {link} : NextFormed (execLinkTrained link s) := by
  unfold Machine.execLinkTrained
  grind [State.Formed.onPkg, NextFormed]

end

/-! ## Retiring stacks -/

section
variable {s : State}

theorem State.Formed.beginTransit (h : s.Formed) {page dest} : (s.beginTransit page dest).Formed := h
theorem State.Formed.resumeTransit (h : s.Formed) : s.resumeTransit.Formed := h.settleWrites.walkAll.serveOutside
theorem State.Formed.endTransit (h : s.Formed) {page dest} : (s.endTransit page dest).Formed := h.onPkg.resumeTransit
theorem State.Formed.copyTransit (h : s.Formed) {page dest} : NextFormed (s.copyTransit page dest) := by
  unfold State.copyTransit
  grind [State.Formed.onPkg, !State.Formed.gatePage, !State.Formed.waiting, !State.Formed.copyPage, State.Formed.resumeTransit,
    State.Formed.endTransit, NextFormed]
theorem State.Formed.execStackRetire (h : s.Formed) {stack dests} : NextFormed (execStackRetire stack dests s) := by
  unfold Machine.execStackRetire
  dsimp only
  split
  · trivial
  · split
    · exact h.onStack
    · split
      · split
        · exact h.copyTransit
        · trivial
      · split
        · exact h.beginTransit
        · exact h.onStack.replaceDue

end

/-! ## Turns -/

section
variable {s : State}

theorem State.Formed.nextTurn (h : s.Formed) : (nextTurn s).2.2.Formed := by
  unfold Machine.nextTurn
  grind [State.formed_mk, State.Formed.mem]
theorem State.Formed.ready (h : s.Formed) : (ready s).Formed := by
  unfold Machine.ready
  grind [!State.Formed.nextTurn, State.Formed.settleFailed, State.formed_mk, State.Formed.mem]

end

/-! ## Every step -/

/-- Every instruction keeps memory in form: the event, the micro-op or the issue of the slot operation does. -/
theorem State.Formed.exec {s : State} (h : s.Formed) (i : Instr) : NextFormed (exec i s) := by
  cases i
  case mmMac => exact h.execMmMac
  case mmScl => exact h.execMmScl
  case mmClr => exact h.execMmClr
  case mmDrn => exact h.execMmDrn
  case mmLoop => exact h.execMmLoop
  case mmJmp => exact h.execMmJmp
  case mmSetp => exact h.execMmSetp
  case mmEnd => exact h.execMmEnd
  case mmNop => exact h.execMmNop
  case bundleIssue => exact h.execBundleIssue
  case strandUnblock => exact h.execStrandUnblock
  case idleCoreSelect => exact h.execIdleCoreSelect
  case forcedYield => exact h.execForcedYield
  case markRetire => exact h.execMarkRetire
  case globalLoadArrival => exact h.execGlobalLoadArrival
  case globalStorePerformed => exact h.execGlobalStorePerformed
  case prefAccepted => exact h.execPrefAccepted
  case translationWalkReturn => exact h.execTranslationWalkReturn
  case atomicEngineAccept => exact h.execAtomicEngineAccept
  case atomicRecall => exact h.execAtomicRecall
  case tagSetAct => exact h.execTagSetAct
  case tagClearAct => exact h.execTagClearAct
  case mxEntryBegin => exact h.execMxEntryBegin
  case routineWatermarkResume => exact h.execRoutineWatermarkResume
  case routineComplete => exact h.execRoutineComplete
  case hodCommandBegin => exact h.execHodCommandBegin
  case hodTurn => exact h.execHodTurn
  case hodWriteLand => exact h.execHodWriteLand
  case hodCommandComplete => exact h.execHodCommandComplete
  case hstepStageComplete => exact h.execHstepStageComplete
  case hmcastAck => exact h.execHmcastAck
  case haddRowStage => exact h.execHaddRowStage
  case ringDrainLand => exact h.execRingDrainLand
  case epilogueSlot => exact h.execEpilogueSlot
  case launchAnswer => exact h.execLaunchAnswer
  case launchValidate => exact h.execLaunchValidate
  case launchComplete => exact h.execLaunchComplete
  case dispatchCycle => exact h.execDispatchCycle
  case bindingJudge => exact h.execBindingJudge
  case taskWeightReturn => exact h.execTaskWeightReturn
  case barPhaseComplete => exact h.execBarPhaseComplete
  case wakeRequestArrival => exact h.execWakeRequestArrival
  case parkDeadline => exact h.execParkDeadline
  case checkpointSave => exact h.execCheckpointSave
  case taskReexecute => exact h.execTaskReexecute
  case coreHardwareError => exact h.execCoreHardwareError
  case coreParityError => exact h.execCoreParityError
  case clusterParityError => exact h.execClusterParityError
  case teardownComplete => exact h.execTeardownComplete
  case trowelMigrationDone => exact h.execTrowelMigrationDone
  case migrationRequest => exact h.execMigrationRequest
  case migrationCopy => exact h.execMigrationCopy
  case migrationRestart => exact h.execMigrationRestart
  case copyFillReturn => exact h.execCopyFillReturn
  case writeThroughAck => exact h.execWriteThroughAck
  case copySectorAgeout => exact h.execCopySectorAgeout
  case sliceError => exact h.execSliceError
  case hbmSectorRead => exact h.execHbmSectorRead
  case kilnImageAccept => exact h.execKilnImageAccept
  case kilnImageAck => exact h.execKilnImageAck
  case kilnImageRefused => exact h.execKilnImageRefused
  case kilnDeviceTimeout => exact h.execKilnDeviceTimeout
  case pbarComplete => exact h.execPbarComplete
  case coldBoot => exact h.execColdBoot
  case scrubCountPoll => exact h.execScrubCountPoll
  case stackRetire => exact h.execStackRetire
  case marginPlan => exact h.execMarginPlan
  case powerManagerSample => exact h.execPowerManagerSample
  case gsEnable => exact h.execGsEnable
  case gsDisable => exact h.execGsDisable
  case gsStop => exact h.execGsStop
  case cqProdWrite => exact h.execCqProdWrite
  case qcfgWrite => exact h.execQcfgWrite
  case hppush => exact h.execHppush
  case pppush => exact h.execPppush
  case forcev => exact h.execForcev
  case klctlGpfWrite => exact h.execKlctlGpfWrite
  case registerWrite => exact h.execRegisterWrite
  case keyload => exact h.execKeyload
  case keyzero => exact h.execKeyzero
  case kdset => exact h.execKdset
  case sigkey => exact h.execSigkey
  case spdmAttest => exact h.execSpdmAttest
  case snpInv => exact h.execSnpInv
  case snpData => exact h.execSnpData
  case snpCur => exact h.execSnpCur
  case hostMemrd => exact h.execHostMemrd
  case hostMemwr => exact h.execHostMemwr
  case bisnpAnswer => exact h.execBisnpAnswer
  case cxlResponse => exact h.execCxlResponse
  case peerInbound => exact h.execPeerInbound
  case peerResponse => exact h.execPeerResponse
  case peerTimeout => exact h.execPeerTimeout
  case fenceNotice => exact h.execFenceNotice
  case fenceWrite => exact h.execFenceWrite
  case hostViralIndication => exact h.execHostViralIndication
  case hostPortLoss => exact h.execHostPortLoss
  case dieLoss => exact h.execDieLoss
  case linkCrcFailure => exact h.execLinkCrcFailure
  case linkDown => exact h.execLinkDown
  case linkTrained => exact h.execLinkTrained
  case create => exact h.execCreate
  case destroy => exact h.execDestroy
  case resume => exact h.execResume
  case setwake => exact h.execSetwake
  case settok => exact h.execSettok
  case setclass => exact h.execSetclass
  case load => exact h.execLoad
  case trowelScan => exact h.execTrowelScan
  case invalidateRange => exact h.execInvalidateRange
  case invalidateAsid => exact h.execInvalidateAsid
  case invalidateAll => exact h.execInvalidateAll
  case icacheInvalidate => exact h.execIcacheInvalidate
  case lqLaunch => exact h.execLqLaunch
  case powerLoss => exact h.execPowerLoss
  case warmReset => exact h.execWarmReset
  case gsAttempt => exact h.execGsAttempt
  case gsWaitRecheck => exact h.execGsWaitRecheck
  case gsCommit => exact h.execGsCommit
  case gsAbandon => exact h.execGsAbandon
  case hppop => exact h.execHppop
  case pppop => exact h.execPppop
  case viralEntry => exact h.execViralEntry
  case globalPersistentFlush => exact h.execGlobalPersistentFlush
  all_goals exact h.issueOne
theorem State.Formed.step {s : State} (h : s.Formed) : NextFormed (step s) := by
  unfold Machine.step
  dsimp only
  split
  · trivial
  · split
    · exact h.ready.exec _
    · split
      · exact h.ready.exec _
      · exact h.ready.execBadWord

/-- Settles O60: the invariant `State.Formed` at the machine that `step` answers with. -/
theorem memoryForm : Obligations.MemoryForm := by
  intro s t hs e
  have ht : NextFormed (step s) := State.Formed.step hs
  rw [e] at ht
  exact ht

end Sys2Proof.Machine
end
section
/-! PROOFS. The device registers, Trowel's pools, and the keys (R8, R359, R398, R399, R420, R432 to R441). -/

set_option Elab.async false

namespace Sys2Proof.Machine

/-! ## Registers -/

/-- Outside the viral state a register write takes effect. -/
theorem State.regWrite_of_not_viral {s : State} (h : s.pkg.viral = false) (t : State) : s.regWrite t = .next t := by
  rw [State.regWrite, if_neg (by simp [h])]
/-- In the viral state it has none (R432). -/
theorem State.regWrite_of_viral {s : State} (h : s.pkg.viral = true) (t : State) : s.regWrite t = .next s := by
  rw [State.regWrite, if_pos h]

/-- An access of another size, or unaligned, is an Unsupported Request (R8). -/
theorem execRegisterWrite_unsupported {off n : Nat} (h : n ≠ 4 ∧ n ≠ 8 ∨ (n = 4 ∨ n = 8) ∧ off % n ≠ 0) (v : Option Nat)
    (s : State) :
    execRegisterWrite off n v s = .next (s.answer 2 0) := by
  rw [execRegisterWrite.eq_def, if_pos]
  simp only [Bool.or_eq_true, Bool.and_eq_true, decide_eq_true_eq]
  tauto
/-- An aligned access of 4 or 8 bytes is a read or a write. -/
theorem execRegisterWrite_none {off n : Nat} (hn : n = 4 ∨ n = 8) (ha : off % n = 0) (s : State) :
    execRegisterWrite off n none s = s.readReg off n := by
  rw [execRegisterWrite, if_neg]
  simp only [Bool.or_eq_true, Bool.and_eq_true, decide_eq_true_eq]
  omega
theorem execRegisterWrite_some {off n : Nat} (hn : n = 4 ∨ n = 8) (ha : off % n = 0) (ho : ownStep off n = false) (v : Nat) {s : State}
    (hv : s.pkg.viral = false) :
    execRegisterWrite off n (some v) s = .next (s.writeReg (off / 8 * 8) (merged (s.reg (off / 8 * 8)) off n v)) := by
  rw [execRegisterWrite, if_neg]
  · simp only [ho, Bool.false_eq_true, if_false, State.regWrite_of_not_viral hv, ite_self]
  · simp only [Bool.or_eq_true, Bool.and_eq_true, decide_eq_true_eq]
    omega
/-- A 4-byte write of a register outside DEV that is a step of its own has no effect in the viral state. -/
theorem State.writeHalf_of_viral {s : State} (h : s.pkg.viral = true) {o : Nat} (ho : o ≠ 0x10) (v : Nat) :
    s.writeHalf o v = .next s := by
  simp only [State.writeHalf, if_neg ho, execHppush, execPppush, execKlctlGpfWrite, execFenceWrite, execQcfgWrite, execCqProdWrite,
    State.regWrite_of_viral h, if_pos h, ite_self]
theorem execRegisterWrite_of_viral {s : State} (h : s.pkg.viral = true) {off n : Nat} (hn : n = 4 ∨ n = 8 ∧ ownStep off n = false)
    (ha : off % n = 0) (ho : 0x1000 ≤ off) (v : Nat) : execRegisterWrite off n (some v) s = .next s := by
  rw [execRegisterWrite, if_neg]
  · simp only [State.regWrite_of_viral h, if_neg (Nat.not_lt.2 ho), State.writeHalf_of_viral h (show off / 8 * 8 ≠ 0x10 by omega)]
    obtain rfl | ⟨rfl, hw⟩ := hn
    · simp
    · simp [hw]
  · simp only [Bool.or_eq_true, Bool.and_eq_true, decide_eq_true_eq]
    omega

/-- A read outside DEV does not answer in the viral state (R432). -/
theorem State.readReg_of_viral {s : State} (h : s.pkg.viral = true) {off : Nat} (ho : 0x1000 ≤ off) (n : Nat) :
    s.readReg off n = .next s.noAnswer := by
  rw [State.readReg, if_pos (by simp [h, ho])]
theorem State.readReg_eq {s : State} {off : Nat} (h : s.pkg.viral = false ∨ off < 0x1000) (h1 : off / 8 * 8 ≠ 0x3008)
    (h2 : off / 8 * 8 ≠ 0x3048) (n : Nat) :
    s.readReg off n = .next (s.answer 0 (if n = 8 then s.reg (off / 8 * 8) else fld (s.reg (off / 8 * 8)) (8 * (off % 8)) 32)) := by
  rw [State.readReg, if_neg, if_neg]
  · simp [h1, h2]
  · simp only [Bool.and_eq_true, decide_eq_true_eq]
    rintro ⟨hv, hb⟩
    rcases h with h | h
    · simp [h] at hv
    · omega
/-- A 4-byte read of a pool's POP takes the page (R439). -/
theorem State.readReg_pop {s : State} (h : s.pkg.viral = false) {off : Nat} (ho : off / 8 * 8 = 0x3008 ∨ off / 8 * 8 = 0x3048) :
    s.readReg off 4 =
      .next ((s.pop (off / 8 * 8 = 0x3008)).answer 0 (fld (s.pop (off / 8 * 8 = 0x3008)).pkg.reply.2 (8 * (off % 8)) 32)) := by
  rw [State.readReg, if_neg (by simp [h]), if_pos (by simpa using ho)]
  rfl

/-- The registers that are one field from bit 0 and take a write of 8 bytes, with the field's width: PWRLIM and those of scheduling
(R359, R434). -/
def fieldRegs : List (Nat × Nat) :=
  [(0x20, 16), (0x2000, 32), (0x2008, 32), (0x2010, 64), (0x2018, 64), (0x2020, 32), (0x2028, 32), (0x2030, 32)]
theorem fieldRegs_plain : ∀ p ∈ fieldRegs, p.1 % 8 = 0 ∧ ownStep p.1 8 = false ∧ p.2 ≤ 64 := by decide
theorem State.writeReg_fieldRegs {p : Nat × Nat} (h : p ∈ fieldRegs) (s : State) (v : Nat) :
    (s.writeReg p.1 v).reg p.1 = v % 2 ^ p.2 ∧ (s.writeReg p.1 v).mem = s.mem ∧ (s.writeReg p.1 v).strands = s.strands := by
  simp only [fieldRegs, List.mem_cons, List.not_mem_nil, or_false] at h
  obtain rfl | rfl | rfl | rfl | rfl | rfl | rfl | rfl := h <;>
    exact ⟨congrArg (· % _) (Nat.div_one v), rfl, rfl⟩
theorem execRegisterWrite_fieldRegs {p : Nat × Nat} (h : p ∈ fieldRegs) {s : State} (hv : s.pkg.viral = false) (v : Nat) :
    ∃ t, execRegisterWrite p.1 8 (some v) s = .next t ∧ t.reg p.1 = v % 2 ^ p.2 ∧ t.mem = s.mem ∧ t.strands = s.strands := by
  obtain ⟨ha, ho, hw⟩ := fieldRegs_plain p h
  obtain ⟨hr, hm, hs⟩ := State.writeReg_fieldRegs h s (v % 2 ^ 64)
  refine ⟨_, ?_, hr.trans (Nat.mod_mod_of_dvd v (pow_dvd_pow 2 hw)), hm, hs⟩
  rw [execRegisterWrite_some (.inr rfl) ha ho v hv, Nat.div_mul_cancel (Nat.dvd_of_mod_eq_zero ha)]
  rfl
/-- A write of half of PHOR keeps the other half (log 62). -/
theorem execRegisterWrite_lower {s : State} (hv : s.pkg.viral = false) (v : Nat) :
    ∃ t, execRegisterWrite 0x2010 4 (some v) s = .next t ∧ t.reg 0x2010 = s.reg 0x2010 / 2 ^ 32 % 2 ^ 32 * 2 ^ 32 + v % 2 ^ 32 := by
  refine ⟨_, execRegisterWrite_some (.inl rfl) rfl (by decide) v hv, ?_⟩
  refine (State.writeReg_fieldRegs (p := (0x2010, 64)) (by decide) s _).1.trans ?_
  simp only [merged, Nat.reduceEqDiff, Nat.reduceMod, if_false, Nat.reduceDiv, Nat.reduceMul, OfNat.zero_ne_ofNat]
  omega
theorem execRegisterWrite_upper {s : State} (hv : s.pkg.viral = false) (v : Nat) :
    ∃ t, execRegisterWrite 0x2014 4 (some v) s = .next t ∧ t.reg 0x2010 = s.reg 0x2010 % 2 ^ 32 + v % 2 ^ 32 * 2 ^ 32 := by
  refine ⟨_, execRegisterWrite_some (.inl rfl) rfl (by decide) v hv, ?_⟩
  refine (State.writeReg_fieldRegs (p := (0x2010, 64)) (by decide) s _).1.trans ?_
  simp only [merged, Nat.reduceEqDiff, Nat.reduceMod, if_false, if_true, Nat.reduceDiv, Nat.reduceMul]
  omega
theorem execRegisterWrite_read {s : State} {off n : Nat} (hn : n = 4 ∨ n = 8) (ha : off % n = 0)
    (h : s.pkg.viral = false ∨ off < 0x1000) (h1 : off / 8 * 8 ≠ 0x3008) (h2 : off / 8 * 8 ≠ 0x3048) :
    execRegisterWrite off n none s =
      .next (s.answer 0 (if n = 8 then s.reg off else s.reg (off / 8 * 8) / 2 ^ (8 * (off % 8)) % 2 ^ 32)) := by
  rw [execRegisterWrite_none hn ha, State.readReg_eq h h1 h2]
  rcases hn with rfl | rfl
  · rfl
  · rw [if_pos rfl, if_pos rfl, Nat.div_mul_cancel (Nat.dvd_of_mod_eq_zero ha)]

/-! ## Queues -/

@[simp] theorem State.onQueue_queue_same (s : State) (k : Nat) (f : Queue → Queue) : (s.onQueue k f).pkg.queue k = f (s.pkg.queue k) :=
  look_upd_same _ _ k _
theorem State.onQueue_queue_other (s : State) {j k : Nat} (f : Queue → Queue) (h : j ≠ k) :
    (s.onQueue k f).pkg.queue j = s.pkg.queue j :=
  look_upd_other _ _ _ h
theorem State.askLine_queue (s : State) (l : Nat) (own : Bool) (j : Nat) : (s.askLine l own).pkg.queue j = s.pkg.queue j := by
  unfold State.askLine; split <;> rfl
theorem State.gate_queue (s : State) (pa n : Nat) (write : Bool) (j : Nat) : (s.gate pa n write).1.pkg.queue j = s.pkg.queue j :=
  State.gate_keeps (fun s => s.pkg.queue j)
    (State.gateAt_keeps (fun s => s.pkg.queue j) (fun _ _ _ => rfl) (fun s l o => s.askLine_queue l o j)
      (fun s l o => by simp only [State.askBisnp_pkg]))
    (fun s k => by simp only [State.recall_pkg]) s pa n write
theorem State.postFails_queue (s : State) (w : Posted) (j : Nat) : (s.postFails w).pkg.queue j = s.pkg.queue j :=
  State.postFails_keeps (fun s => s.pkg.queue j) (fun _ _ _ => rfl) (fun _ _ => rfl) s w
theorem Package.passed_queue_other (p : Package) {q : Option Nat} {j : Nat} (h : q ≠ some j) : (p.passed q).queue j = p.queue j := by
  cases q with
  | none => rfl
  | some k =>
    have hj : j ≠ k := fun e => h (congrArg some e.symm)
    dsimp only [Package.passed]
    split <;> exact look_upd_other _ _ _ hj
/-- A write for another queue leaves a queue as it was (R436). -/
theorem State.performPosted_queue_other (s : State) {w : Posted} {j : Nat} (h : w.queue ≠ some j) :
    (s.performPosted w).1.pkg.queue j = s.pkg.queue j := by
  have hg := s.gate_queue w.pa w.n true j
  unfold State.performPosted
  split
  · next s1 e =>
    rw [e] at hg
    rw [State.onPkg_pkg, Package.passed_queue_other _ h, State.homeRange_pkg, State.postFails_queue, hg]
  · next s1 e => rw [e] at hg; exact hg
  · next s1 _ _ e =>
    rw [e] at hg
    rw [State.onPkg_pkg, Package.passed_queue_other _ h, hg]
theorem State.postOne_queue_other (s : State) {w : Posted} {j : Nat} (h : w.queue ≠ some j) :
    (s.postOne w).pkg.queue j = s.pkg.queue j := by
  have hw := s.performPosted_queue_other h
  unfold State.postOne
  dsimp only
  split
  · split
    · next s1 e => rw [e] at hw; exact hw
    · next s1 e => rw [e] at hw; exact hw
  · rfl
/-- Only the last part of a posted entry passes a queue, its own. -/
theorem queue_of_mem_postParts {pa n value : Nat} {queue ctx : Option Nat} {w : Posted} (h : w ∈ postParts pa n value queue ctx) :
    w.queue = queue ∨ w.queue = none := by
  obtain ⟨l, -, rfl⟩ := List.mem_map.1 h
  exact ite_eq_or_eq _ _ _
theorem State.post_queue_other (s : State) (pa n value : Nat) (ctx : Option Nat) {j k : Nat} (h : j ≠ k) :
    (s.post pa n value (some k) ctx).pkg.queue j = s.pkg.queue j := by
  refine List.foldlRecOn (motive := fun t : State => t.pkg.queue j = s.pkg.queue j) _ _ rfl fun t ht w hw => ?_
  have hq : w.queue ≠ some j := by
    rcases queue_of_mem_postParts hw with e | e <;> simp [e, Ne.symm h]
  exact (t.postOne_queue_other hq).trans ht
theorem State.deviceEntry_queue_other (s : State) (value : Nat) {j k : Nat} (h : j ≠ k) :
    (s.deviceEntry k value).1.pkg.queue j = s.pkg.queue j := by
  unfold State.deviceEntry
  dsimp only
  split
  · exact s.onQueue_queue_other _ h
  · exact s.post_queue_other _ _ _ _ h
/-- An event reaches the event queue alone (R440). -/
theorem State.event_queue_other (s : State) (kind die arg : Nat) {j : Nat} (h : j ≠ 4) :
    (s.event kind die arg).pkg.queue j = s.pkg.queue j := by
  unfold State.event
  split
  · rfl
  · exact s.deviceEntry_queue_other _ h
theorem State.queueErr_queue_same (s : State) {k : Nat} (h : k ≠ 4) :
    (s.queueErr k).pkg.queue k = { s.pkg.queue k with err := true } := by
  rw [State.queueErr, State.event_queue_other _ _ _ _ h, State.onQueue_queue_same]

/-- A producer count within the queue is taken, one beyond it is refused (R436). -/
theorem execCqProdWrite_within {s : State} {q v : Nat} (hv : s.pkg.viral = false) (hq : q < 4)
    (h : (BitVec.ofNat 32 v - (s.pkg.queue q).cons).toNat ≤ 2 ^ (s.pkg.queue q).log2n) :
    execCqProdWrite q v s = .next (s.onQueue q (fun x => { x with prod := BitVec.ofNat 32 v })) := by
  rw [execCqProdWrite, State.regWrite_of_not_viral hv, if_neg (by omega), if_neg (by omega)]
theorem execCqProdWrite_beyond {s : State} {q v : Nat} (hv : s.pkg.viral = false) (hq : q < 4)
    (h : 2 ^ (s.pkg.queue q).log2n < (BitVec.ofNat 32 v - (s.pkg.queue q).cons).toNat) :
    execCqProdWrite q v s = .next (s.queueErr q) := by
  rw [execCqProdWrite, State.regWrite_of_not_viral hv, if_neg (by omega), if_pos h]
/-- A queue that is off takes its configuration (R435). -/
theorem execQcfgWrite_off {s : State} {q v : Nat} (hv : s.pkg.viral = false) (hq : q < 6) (he : (s.pkg.queue q).en = false)
    (h : bitOf v 8 = false ∨ 4 ≤ v % 32 ∧ v % 32 ≤ 16) :
    execQcfgWrite q v s = .next (s.onQueue q (fun x => { x with en := bitOf v 8, log2n := v % 32 })) := by
  have hf : fld v 0 5 = v % 32 := by simp [fld]
  rw [execQcfgWrite, State.regWrite_of_not_viral hv, hf, if_neg (by simp [he]; omega), if_neg]
  simp only [Bool.and_eq_true, Bool.or_eq_true, decide_eq_true_eq]
  rintro ⟨hb, hn⟩
  simp only [hb, Bool.true_eq_false, false_or] at h
  omega

/-! ## Pools, the viral state and Kiln's mode -/

/-- A push of an aligned page of the pool's window that finds room (R439). -/
theorem State.push_page {s : State} {hbm : Bool} {v : Nat} (h52 : v < 2 ^ 52) (ha : v % 65536 = 0)
    (hw : window v = if hbm then .hbm else .pooled) (hn : (if hbm then s.pkg.hpool else s.pkg.ppool).length < 1048576) :
    s.push hbm v = s.onPool hbm (fun l => v :: l) := by
  have hpa : fld v 16 36 * 2 ^ 16 = v := by simp only [fld]; omega
  rw [State.push, hpa, if_neg]
  simpa [ha, hw] using hn
theorem State.goViral_of_not_viral {s : State} (h : s.pkg.viral = false) (r : Nat) :
    (s.goViral r).pkg.viral = true ∧ (s.goViral r).pkg.vreason = r ∧ (s.goViral r).mem = s.mem := by
  rw [State.goViral, if_neg (by simp [h])]
  exact ⟨rfl, rfl, rfl⟩
/-- BUFFERED follows GPF once the buffer is empty (R407). -/
theorem State.settleMode_eq (s : State) :
    s.settleMode.pkg.gpf = s.pkg.gpf ∧ s.settleMode.mem = s.mem ∧
      s.settleMode.pkg.buffered = if (s.die 2).images = [] ∧ (s.die 3).images = [] then s.pkg.gpf else s.pkg.buffered := by
  unfold State.settleMode
  split
  · next h =>
    simp only [Bool.and_eq_true, List.isEmpty_iff] at h
    exact ⟨rfl, rfl, (if_pos h).symm⟩
  · next h =>
    simp only [Bool.and_eq_true, List.isEmpty_iff] at h
    exact ⟨rfl, rfl, (if_neg h).symm⟩
theorem execKlctlGpfWrite_held {s : State} {v : Nat} (hv : s.pkg.viral = false) (h : bitOf v 1 = false ∨ s.pkg.holdok = true) :
    execKlctlGpfWrite v s = .next (s.onPkg (fun p => { p with gpf := bitOf v 1 })).settleMode := by
  rw [execKlctlGpfWrite, State.regWrite_of_not_viral hv, if_neg]
  rcases h with h | h <;> simp [h]

/-! ## Keys and signing keys -/

/-- Outside a secure session nothing about keys changes (R441). -/
theorem State.inSession_of_none {s : State} (h : s.pkg.session = false) (t : State) : s.inSession t = .next (s.answer 1 0) := by
  rw [State.inSession, if_neg (by simp [h])]
theorem State.inSession_of_open {s : State} (h : s.pkg.session = true) (t : State) : s.inSession t = .next t := by
  rw [State.inSession, if_pos h]
@[simp] theorem State.setKey_key_same (s : State) (k : Nat) (x : KeySlot) : (s.setKey k x).pkg.key k = x := by
  rw [State.setKey, State.onPkg_pkg, Package.key, find?_upd_same, Option.getD_some]
theorem State.setKey_key_other (s : State) {j k : Nat} (x : KeySlot) (h : j ≠ k) : (s.setKey k x).pkg.key j = s.pkg.key j := by
  rw [State.setKey, State.onPkg_pkg, Package.key, find?_upd_other _ _ h]
  rfl
theorem execKeyload_free {s : State} {k : Nat} {b : Bool} (hs : s.pkg.session = true) (h0 : 0 < k) (h1 : k < 256)
    (hk : (s.pkg.key k).valid = false) : execKeyload k b s = .next ((s.setKey k ⟨true, b⟩).answer 0 0) := by
  rw [execKeyload, State.inSession_of_open hs, if_neg (by simp; omega), if_neg (by simp [hk])]
theorem execKeyzero_unnamed {s : State} {k : Nat} (hs : s.pkg.session = true) (h0 : 0 < k) (h1 : k < 256) (hk : s.domainNamed k = false) :
    execKeyzero k s = .next ((s.setKey k ⟨false, false⟩).answer 0 0) := by
  rw [execKeyzero, State.inSession_of_open hs, if_neg (by simp; omega), if_neg (by simp [hk])]

/-- The signing keys after a signed command (R419). -/
def signKeysAfter (add : Bool) (k : Nat) (l : List Nat) : List Nat :=
  if add then (if l.contains k then l else l ++ [k]) else l.filter (fun j => j ≠ k)
theorem mem_signKeysAfter_same (add : Bool) (k : Nat) (l : List Nat) : k ∈ signKeysAfter add k l ↔ add = true := by
  cases add
  · simp [signKeysAfter]
  · by_cases h : k ∈ l <;> simp [signKeysAfter, h]
theorem mem_signKeysAfter_other (add : Bool) {j k : Nat} (l : List Nat) (hj : j ≠ k) : j ∈ signKeysAfter add k l ↔ j ∈ l := by
  cases add
  · simp [signKeysAfter, hj]
  · by_cases h : k ∈ l <;> simp [signKeysAfter, h, hj]
theorem not_ge_or_ge {k x m n : Nat} (hk : k < m) (hx : x < n) : ¬ (decide (k ≥ m) || decide (x ≥ n)) = true := by
  simp [hk, hx]
theorem execSigkey_signed {s : State} {b : Bool} {k x : Nat} (hs : s.pkg.session = true) (hk : k < 2 ^ 256) (hx : x < 2 ^ 512)
    (h : Config.commandSigned s.pkg.firmware b k x = true) :
    execSigkey b k x s = .next ((s.onPkg (fun p => { p with signKeys := signKeysAfter b k p.signKeys })).answer 0 0) := by
  rw [execSigkey, State.inSession_of_open hs, if_neg (not_ge_or_ge hk hx), if_neg (by simp [h])]
  rfl
theorem execSigkey_unsigned {s : State} {b : Bool} {k x : Nat} (hs : s.pkg.session = true) (hk : k < 2 ^ 256) (hx : x < 2 ^ 512)
    (h : Config.commandSigned s.pkg.firmware b k x = false) : execSigkey b k x s = .next (s.answer 1 0) := by
  rw [execSigkey, State.inSession_of_open hs, if_neg (not_ge_or_ge hk hx), if_pos (by simp [h])]

/-! ## Pages under a new key domain -/

theorem look_filter {α : Type} (d : α) (m : SMap α) (q : Nat → Bool) (k : Nat) :
    look d (m.filter (fun p => q p.1)) k = if q k then look d m k else d := by
  induction m with
  | nil => simp [look, find?]
  | cons p m ih =>
    obtain ⟨j, v⟩ := p
    simp only [look] at ih
    by_cases hj : j = k
    · subst hj
      cases hq : q j <;> simp_all [look, find?]
    · cases hq : q j <;> simp_all [look, find?]
theorem foldl_fixed_of_mem {σ β : Type} {f : σ → β → σ} {a : σ} {l : List β} (h : ∀ x ∈ l, f a x = a) : l.foldl f a = a := by
  induction l with
  | nil => rfl
  | cons x l ih =>
    rw [List.foldl_cons, h x List.mem_cons_self, ih fun y hy => h y (List.mem_cons_of_mem x hy)]
theorem State.remapped_of_nil {s : State} (h : s.pkg.remap = []) (pa : Nat) : s.remapped pa = pa := by
  unfold State.remapped
  rw [h]
  exact ite_self pa
/-- No sector is recalled where no atomic engine holds one. -/
theorem State.recallPage_of_none_owned {s : State} (h : s.anyOwned = false) (page : Nat) : s.recallPage page = s := by
  have hn : s.clusters.flatMap (fun p => p.2.store.map (fun a => a.sector)) = [] := by
    simp only [State.anyOwned, List.any_eq_false, Bool.not_eq_true', Bool.not_eq_false, List.isEmpty_iff] at h
    exact List.flatMap_eq_nil_iff.2 fun p hp => by rw [h p hp, List.map_nil]
  rw [State.recallPage, hn]
  rfl

/-- What KDSET has done once it has taken `pages` from the machine `s` (R399): the domains, the bytes, and what the next
page needs. -/
structure Rekeyed (s : State) (pages : List Nat) (dom : Nat) (t : State) : Prop where
  remap : t.pkg.remap = s.pkg.remap
  owned : t.anyOwned = s.anyOwned
  domain : ∀ p ∈ pages, look 0 t.pkg.domains p = dom
  domain_other : ∀ p, p ∉ pages → look 0 t.pkg.domains p = look 0 s.pkg.domains p
  byte : ∀ a, a / 65536 ∈ pages → look 0 t.mem a = 0
  byte_other : ∀ a, a / 65536 ∉ pages → look 0 t.mem a = look 0 s.mem a
theorem Rekeyed.nil (s : State) (dom : Nat) : Rekeyed s [] dom s where
  remap := rfl
  owned := rfl
  domain _ h := absurd h List.not_mem_nil
  domain_other _ _ := rfl
  byte _ h := absurd h List.not_mem_nil
  byte_other _ _ := rfl
/-- One page, then others. -/
theorem Rekeyed.cons {s t u : State} {page : Nat} {pages : List Nat} {dom : Nat} (h1 : Rekeyed s [page] dom t)
    (h2 : Rekeyed t pages dom u) :
    Rekeyed s (page :: pages) dom u where
  remap := h2.remap.trans h1.remap
  owned := h2.owned.trans h1.owned
  domain p hp := by
    by_cases h : p ∈ pages
    · exact h2.domain p h
    · rw [h2.domain_other p h, h1.domain p (by simpa [h] using hp)]
  domain_other p hp := by
    obtain ⟨hne, hn⟩ := not_or.1 (mt List.mem_cons.2 hp)
    rw [h2.domain_other p hn, h1.domain_other p (by simpa using hne)]
  byte a ha := by
    by_cases h : a / 65536 ∈ pages
    · exact h2.byte a h
    · rw [h2.byte_other a h, h1.byte a (by simpa [h] using ha)]
  byte_other a ha := by
    obtain ⟨hne, hn⟩ := not_or.1 (mt List.mem_cons.2 ha)
    rw [h2.byte_other a hn, h1.byte_other a (by simpa using hne)]
/-- KDSET of a page of HBM or of the pool while no stack is remapped and no sector is held (R399). -/
theorem State.kdsetOne_rekeyed {s : State} {page : Nat} (hr : s.pkg.remap = []) (ho : s.anyOwned = false)
    (hw : window (65536 * page) ≠ .nv) (dom : Nat) : Rekeyed s [page] dom (s.kdsetOne page dom) := by
  have hp : s.remapped (65536 * page) / 65536 = page := by
    rw [State.remapped_of_nil hr]
    exact Nat.mul_div_cancel_left page (by decide)
  have e : s.kdsetOne page dom = (s.clearPage page dom).onPkg (fun p => { p with domains := put 0 p.domains page dom }) := by
    rw [State.kdsetOne, hp, State.kdsetPage, if_neg hw, if_neg hw]
  have hm : (s.clearPage page dom).mem = s.mem.filter (fun p => !decide (p.1 / 65536 = page)) := by
    rw [State.clearPage, State.recallPage_of_none_owned ho]
    rfl
  have hd : (s.kdsetOne page dom).pkg.domains = put 0 (put 0 s.pkg.domains page dom) page dom := by
    rw [e, State.clearPage, State.recallPage_of_none_owned ho]
    rfl
  have hb (a : Nat) : look 0 (s.kdsetOne page dom).mem a = if a / 65536 = page then 0 else look 0 s.mem a := by
    rw [e, State.onPkg_mem, hm, look_filter 0 s.mem (fun a => !decide (a / 65536 = page))]
    simp
  refine ⟨?_, ?_, fun p h => ?_, fun p h => ?_, fun a h => ?_, fun a h => ?_⟩
  · rw [e, State.clearPage, State.recallPage_of_none_owned ho]
    rfl
  · rw [e, State.clearPage, State.recallPage_of_none_owned ho]
    rfl
  · rw [List.mem_singleton.1 h, hd, look_put_same]
  · have hne : p ≠ page := by simpa using h
    rw [hd, look_put_other _ _ _ hne, look_put_other _ _ _ hne]
  · rw [hb, if_pos (List.mem_singleton.1 h)]
  · rw [hb, if_neg (by simpa using h)]
theorem kdset_pages_rekeyed (pages : List Nat) (dom : Nat) {s : State} (hr : s.pkg.remap = []) (ho : s.anyOwned = false)
    (hw : ∀ p ∈ pages, window (65536 * p) ≠ .nv) : Rekeyed s pages dom (pages.foldl (fun s p => s.kdsetOne p dom) s) := by
  induction pages generalizing s with
  | nil => exact .nil s dom
  | cons p l ih =>
    have h1 := State.kdsetOne_rekeyed hr ho (hw p List.mem_cons_self) dom
    exact h1.cons (ih (h1.remap.trans hr) (h1.owned.trans ho) fun q hq => hw q (List.mem_cons_of_mem p hq))

/-- The pages that KDSET takes. -/
def kdsetPages (page n : Nat) : List Nat := (List.range n).map (fun k => page + k)
theorem mem_kdsetPages {page n p : Nat} : p ∈ kdsetPages page n ↔ page ≤ p ∧ p < page + n := by
  simp only [kdsetPages, List.mem_map, List.mem_range]
  exact ⟨fun ⟨k, hk, e⟩ => by omega, fun h => ⟨p - page, by omega, by omega⟩⟩
/-- KDSET of quiet pages of one window takes them at once (R399, log 51). -/
theorem execKdset_quiet {s : State} {page n d : Nat} {w : Window} (hw : w = .hbm ∨ w = .pooled) (hs : s.pkg.session = true) (h0 : 0 < n)
    (hn : n ≤ 2 ^ 24) (hd : d < 256) (hk : (s.pkg.key d).valid = true) (hr : s.pkg.remap = [])
    (hp : ∀ p ∈ kdsetPages page n, window (65536 * p) = w)
    (hq : ∀ p ∈ kdsetPages page n, s.kdsetBarred p = false ∧ s.pageQuiet p = true ∧ s.gatePage p true = (s, .ready)) :
    execKdset page n d s = .next (((kdsetPages page n).foldl (fun s p => s.kdsetOne p d) s).answer 0 0) := by
  have hf : window (65536 * page) = w := hp page (mem_kdsetPages.2 (by omega))
  have hl : window (65536 * (page + n - 1)) = w := hp _ (mem_kdsetPages.2 (by omega))
  have hdom : domainPage page = true ∧ domainPage (page + n - 1) = true := by
    rw [domainPage, domainPage, hf, hl]
    rcases hw with rfl | rfl <;> exact ⟨rfl, rfl⟩
  have hnv : w ≠ .nv := by rcases hw with rfl | rfl <;> decide
  have hpage (p : Nat) : s.remapped (65536 * p) / 65536 = p := by
    rw [State.remapped_of_nil hr]
    exact Nat.mul_div_cancel_left p (by decide)
  unfold execKdset
  rw [← kdsetPages, if_neg (by simp [hs]), if_neg (by simp; omega), if_neg (by simp [hdom, hf, hl]), if_neg, if_neg]
  · rw [foldl_fixed_of_mem (a := (s, true))]
    · simp [hf, hnv]
    · intro p h
      obtain ⟨-, -, hg⟩ := hq p h
      dsimp only
      rw [hpage, hg]
  · simp only [hpage, Bool.not_eq_true', Bool.not_eq_false, List.all_eq_true]
    exact fun p h => (hq p h).2.1
  · simp only [hk, Bool.not_true, Bool.false_or, List.any_eq_true, not_exists, not_and, Bool.not_eq_true]
    exact fun p h => (hq p h).1

/-! ## The obligation -/

/-- Without a session every operation on keys is refused (R441). -/
theorem key_ops_without_session {s : State} (h : s.pkg.session = false) (k : Nat) (b : Bool) (page n d x y : Nat) :
    ∀ i ∈ [Instr.keyload k b, .keyzero k, .kdset page n d, .sigkey b x y], exec i s = .next (s.answer 1 0) := by
  simp only [List.forall_mem_cons, List.not_mem_nil, IsEmpty.forall_iff, implies_true, and_true]
  refine ⟨s.inSession_of_none h _, s.inSession_of_none h _, ?_, s.inSession_of_none h _⟩
  change execKdset page n d s = _
  rw [execKdset, if_pos (by simp [h])]

/-- KDSET of pages of one window, with what it leaves in the domains and the bytes. -/
theorem execKdset_rekeys {s : State} {page n d : Nat} {w : Window} (hw : w = .hbm ∨ w = .pooled) (hs : s.pkg.session = true) (h0 : 0 < n)
    (hn : n ≤ 2 ^ 24) (hd : d < 256) (hk : (s.pkg.key d).valid = true) (hr : s.pkg.remap = []) (ho : s.anyOwned = false)
    (hp : ∀ k < n, window (65536 * (page + k)) = w)
    (hq : ∀ k < n, s.kdsetBarred (page + k) = false ∧ s.pageQuiet (page + k) = true ∧ s.gatePage (page + k) true = (s, .ready)) :
    ∃ t, execKdset page n d s = .next t ∧ t.pkg.reply = (0, 0) ∧ (∀ k < n, t.domainOf (65536 * (page + k)) = d) ∧
      (∀ a, page ≤ a / 65536 → a / 65536 < page + n → look 0 t.mem a = 0) ∧
      (∀ a, a / 65536 < page ∨ page + n ≤ a / 65536 → look 0 t.mem a = look 0 s.mem a) := by
  have hp' : ∀ p ∈ kdsetPages page n, window (65536 * p) = w := List.forall_mem_map.2 fun k hk => hp k (List.mem_range.1 hk)
  have hq' : ∀ p ∈ kdsetPages page n, s.kdsetBarred p = false ∧ s.pageQuiet p = true ∧ s.gatePage p true = (s, .ready) :=
    List.forall_mem_map.2 fun k hk => hq k (List.mem_range.1 hk)
  have hnv : w ≠ .nv := by rcases hw with rfl | rfl <;> decide
  have done := kdset_pages_rekeyed (kdsetPages page n) d hr ho fun p h => hp' p h ▸ hnv
  refine ⟨_, execKdset_quiet hw hs h0 hn hd hk hr hp' hq', rfl, fun k hk => ?_, fun a h1 h2 => ?_, fun a h => ?_⟩
  · have hdom := done.domain (page + k) (mem_kdsetPages.2 (by omega))
    rw [State.domainOf, hp k hk, Nat.mul_div_cancel_left _ (by decide)]
    rcases hw with rfl | rfl <;> exact hdom
  · exact done.byte a (mem_kdsetPages.2 ⟨h1, h2⟩)
  · exact done.byte_other a fun hm => by have := mem_kdsetPages.1 hm; omega

/-- Settles O46, clause by clause from the lemmas on what each operation does. -/
theorem registersAndKeys : Obligations.RegistersAndKeys := by
  refine ⟨⟨fun p hp s v hv => execRegisterWrite_fieldRegs hp hv v,
    fun s v hv => ⟨execRegisterWrite_lower hv v, execRegisterWrite_upper hv v⟩,
    fun s off n v h => execRegisterWrite_unsupported h v s,
    fun s off n v hv hn ha ho => execRegisterWrite_of_viral hv hn ha ho v,
    fun s off n hn ha h h1 h2 => execRegisterWrite_read hn ha h h1 h2,
    fun s off n hn ha hv ho => (execRegisterWrite_none hn ha s).trans (State.readReg_of_viral hv ho n), ?popHbm, ?popPooled,
    fun s q v hv hq h => execCqProdWrite_within hv hq h, ?prodBeyond,
    fun s q v hv hq he h => execQcfgWrite_off hv hq he h, ?pushHbm, ?pushPooled, ?hppop, ?pppop, ?forcev, ?gpf⟩,
    fun s k b page n d x y h => key_ops_without_session h k b page n d x y, ?keyload, ?keyzero, ?kdset, ?sigkey, ?spdm⟩
  case popHbm =>
    rintro s off (rfl | rfl) hv <;> exact (execRegisterWrite_none (.inl rfl) rfl s).trans (State.readReg_pop hv (.inl rfl))
  case popPooled =>
    rintro s off (rfl | rfl) hv <;> exact (execRegisterWrite_none (.inl rfl) rfl s).trans (State.readReg_pop hv (.inr rfl))
  case prodBeyond =>
    intro s q v hv hq h
    refine ⟨_, execCqProdWrite_beyond hv hq h, ?_⟩
    rw [s.queueErr_queue_same (by omega)]
    exact ⟨rfl, rfl⟩
  case pushHbm =>
    intro s v hv h52 ha hw hn
    exact (State.regWrite_of_not_viral hv _).trans (congrArg _ (State.push_page (hbm := true) h52 ha hw hn))
  case pushPooled =>
    intro s v hv h52 ha hw hn
    exact (State.regWrite_of_not_viral hv _).trans (congrArg _ (State.push_page (hbm := false) h52 ha hw hn))
  case hppop => exact fun s hv => congrArg _ (if_neg (by simp [hv]))
  case pppop => exact fun s hv => congrArg _ (if_neg (by simp [hv]))
  case forcev => exact fun s v hb hv => ⟨_, congrArg Host.Outcome.next (if_pos hb), State.goViral_of_not_viral hv 6⟩
  case gpf =>
    intro s v hv h
    obtain ⟨hg, hm, hb⟩ := State.settleMode_eq (s.onPkg (fun p => { p with gpf := bitOf v 1 }))
    exact ⟨_, execKlctlGpfWrite_held hv h, hg, hm, hb⟩
  case keyload =>
    intro s k b hs h0 h1 hk
    exact ⟨_, execKeyload_free hs h0 h1 hk, s.setKey_key_same k _, fun j hj => s.setKey_key_other _ hj, rfl, rfl⟩
  case keyzero =>
    intro s k hs h0 h1 hk
    exact ⟨_, execKeyzero_unnamed hs h0 h1 hk, congrArg _ (s.setKey_key_same k _), fun j hj => s.setKey_key_other _ hj, rfl, rfl⟩
  case kdset =>
    rintro s page n d hs h0 hn hd hk hr ho (hw | hw) hq
    · exact execKdset_rekeys (.inl rfl) hs h0 hn hd hk hr ho hw hq
    · exact execKdset_rekeys (.inr rfl) hs h0 hn hd hk hr ho hw hq
  case sigkey =>
    intro s b k x hs hk hx
    cases h : Config.commandSigned s.pkg.firmware b k x
    · exact ⟨_, execSigkey_unsigned hs hk hx h, rfl, fun e => Bool.noConfusion e, fun _ => ⟨rfl, rfl⟩⟩
    · exact ⟨_, execSigkey_signed hs hk hx h, rfl,
        fun _ => ⟨rfl, mem_signKeysAfter_same b k _, fun j hj => mem_signKeysAfter_other b _ hj⟩, fun e => Bool.noConfusion e⟩
  case spdm => exact fun s k => ⟨_, rfl, rfl, rfl, rfl, rfl⟩

end Sys2Proof.Machine
end
section
/-! PROOFS. The words of operations, bundles and micro-ops (R46, R47, R53, R62 to R69, R185 to R194).

What the encoder writes is read back in three layers: a field from its word, an operation by its format and its slot's class, and a
bundle by its header. -/

set_option Elab.async false

namespace Sys2Proof.Machine

/-- Settles O53: each word is a closed term that the decoder evaluates. -/
theorem decodedWords : Obligations.DecodedWords := by
  unfold Obligations.DecodedWords
  decide +kernel

/-! ## Fields of a word -/

/-- Reading a field gives back the bit vector that stands there. -/
theorem ofNat_fld_eq {n w lo : Nat} {v : BitVec n} (h : fld w lo n = v.toNat) : BitVec.ofNat n (fld w lo n) = v := by
  rw [h, BitVec.ofNat_toNat, BitVec.setWidth_eq]
/-- A field that ends at or below bit `m` depends on the number modulo 2^m alone. -/
theorem fld_mod_two_pow {lo n m : Nat} (w : Nat) (h : lo + n ≤ m) : fld (w % 2 ^ m) lo n = fld w lo n := by
  have hd : 2 ^ lo * 2 ^ n ∣ 2 ^ m := by rw [← Nat.pow_add]; exact Nat.pow_dvd_pow 2 h
  simp only [fld, ← Nat.mod_mul_right_div_self, Nat.mod_mod_of_dvd _ hd]

/-- The first word of an operation with OP `op` and the body `body` below it (R52): LONG says that a second word `x` follows. -/
structure FirstWord (w : Nat) (x : Option Nat) (op body : Nat) : Prop where
  long : isLong w = x.isSome
  opcode : opcodeOf w = op
  field : ∀ lo n, lo + n ≤ 24 → fld w lo n = fld body lo n

theorem firstWord_encoded {k body : Nat} (x : Option Nat) (hk : k % 0x1000000 = 0) (hk' : k < 0x80000000) (hb : body < 0x1000000) :
    FirstWord (k + body + longBit x) x (k / 0x1000000) body where
  long := by
    cases x <;> simp only [isLong, bitOf, longBit, Option.isSome_none, Option.isSome_some, if_true, Bool.false_eq_true, if_false,
      decide_eq_true_eq, decide_eq_false_iff_not] <;> omega
  opcode := by simp only [opcodeOf, fld, longBit]; split <;> omega
  field lo n hn := by
    have hmod : (k + body + longBit x) % 2 ^ 24 = body := by simp only [longBit]; split <;> omega
    rw [← fld_mod_two_pow _ hn, hmod]

theorem firstWord_short {k body : Nat} (hk : k % 0x1000000 = 0) (hk' : k < 0x80000000) (hb : body < 0x1000000) :
    FirstWord (k + body) none (k / 0x1000000) body := by
  have h := firstWord_encoded none hk hk' hb
  rwa [show longBit none = 0 from rfl, Nat.add_zero] at h

theorem FirstWord.half {w op body : Nat} {x : Option Nat} {α : Type} (h : FirstWord w x op body) (y : α) :
    half w y = if x.isSome then some y else none := by rw [Sys2Proof.half, h.long]

/-! ## The formats (R53)

For each format: what the encoder writes is a first word, and the format's reader gives the fields back. -/

section
variable {w k : Nat} {x : Option Nat}

theorem rg_encoded {o : RG} (he : some (k + rgWord o + longBit (rgWord2 o), rgWord2 o) = some (w, x)) (hk : k % 0x1000000 = 0)
    (hk' : k < 0x80000000) : FirstWord w x (k / 0x1000000) (rgWord o) ∧ rgOf w (x.getD 0) = o := by
  obtain ⟨d, a, b, f, y⟩ := o
  cases he
  have h := firstWord_encoded (rgWord2 ⟨d, a, b, f, y⟩) hk hk' (body := rgWord ⟨d, a, b, f, y⟩) (by simp only [rgWord]; omega)
  refine ⟨h, ?_⟩
  simp only [rgOf, RG.mk.injEq]
  refine ⟨ofNat_fld_eq ?_, ofNat_fld_eq ?_, ofNat_fld_eq ?_, ofNat_fld_eq ?_, ?_⟩
  iterate 4 (rw [h.field _ _ (by decide)]; simp only [fld, rgWord]; omega)
  rw [h.half]
  rcases y with _ | ⟨c, ext⟩
  · rfl
  · simp only [rgWord2, Option.map_some, Option.isSome_some, if_true, Option.getD_some, Option.some.injEq, RGX.mk.injEq]
    refine ⟨ofNat_fld_eq ?_, ofNat_fld_eq ?_⟩ <;> simp only [fld] <;> omega

theorem si_encoded {o : SI} (he : some (k + siWord o + longBit (siWord2 o), siWord2 o) = some (w, x)) (hk : k % 0x1000000 = 0)
    (hk' : k < 0x80000000) : FirstWord w x (k / 0x1000000) (siWord o) ∧ siOf w (x.getD 0) = o := by
  obtain ⟨d, a, imm, y⟩ := o
  cases he
  have h := firstWord_encoded (siWord2 ⟨d, a, imm, y⟩) hk hk' (body := siWord ⟨d, a, imm, y⟩) (by simp only [siWord]; omega)
  refine ⟨h, ?_⟩
  simp only [siOf, SI.mk.injEq]
  refine ⟨ofNat_fld_eq ?_, ofNat_fld_eq ?_, ofNat_fld_eq ?_, ?_⟩
  iterate 3 (rw [h.field _ _ (by decide)]; simp only [fld, siWord]; omega)
  rw [h.half]
  cases y <;> simp [siWord2]

theorem vr_encoded {o : VR} (he : some (k + vrWord o + longBit (vrWord2 o), vrWord2 o) = some (w, x)) (hk : k % 0x1000000 = 0)
    (hk' : k < 0x80000000) : FirstWord w x (k / 0x1000000) (vrWord o) ∧ vrOf w (x.getD 0) = o := by
  obtain ⟨d, a, b, m, t, y⟩ := o
  cases he
  have h := firstWord_encoded (vrWord2 ⟨d, a, b, m, t, y⟩) hk hk' (body := vrWord ⟨d, a, b, m, t, y⟩)
    (by simp only [vrWord]; omega)
  refine ⟨h, ?_⟩
  simp only [vrOf, VR.mk.injEq]
  refine ⟨ofNat_fld_eq ?_, ofNat_fld_eq ?_, ofNat_fld_eq ?_, ofNat_fld_eq ?_, ofNat_fld_eq ?_, ?_⟩
  iterate 5 (rw [h.field _ _ (by decide)]; simp only [fld, vrWord]; omega)
  rw [h.half]
  rcases y with _ | ⟨c, rm, ext⟩
  · rfl
  · simp only [vrWord2, Option.map_some, Option.isSome_some, if_true, Option.getD_some, Option.some.injEq, VRX.mk.injEq]
    refine ⟨ofNat_fld_eq ?_, ofNat_fld_eq ?_, ofNat_fld_eq ?_⟩ <;> simp only [fld] <;> omega

theorem ms_encoded {o : MS} (he : some (k + msWord o + longBit (msWord2 o), msWord2 o) = some (w, x)) (hk : k % 0x1000000 = 0)
    (hk' : k < 0x80000000) :
    FirstWord w x (k / 0x1000000) (msWord o) ∧ msOf w (x.getD 0) = o ∧ msRsv w (x.getD 0) = false := by
  obtain ⟨q, a, off, stp, y⟩ := o
  cases he
  have h := firstWord_encoded (msWord2 ⟨q, a, off, stp, y⟩) hk hk' (body := msWord ⟨q, a, off, stp, y⟩)
    (by simp only [msWord]; omega)
  refine ⟨h, ?_, ?_⟩
  · simp only [msOf, MS.mk.injEq]
    refine ⟨ofNat_fld_eq ?_, ofNat_fld_eq ?_, ofNat_fld_eq ?_, ofNat_fld_eq ?_, ?_⟩
    iterate 4 (rw [h.field _ _ (by decide)]; simp only [fld, msWord]; omega)
    rw [h.half]
    rcases y with _ | ⟨m, xr, disp⟩
    · rfl
    · simp only [msWord2, Option.map_some, Option.isSome_some, if_true, Option.getD_some, Option.some.injEq, MSX.mk.injEq]
      refine ⟨ofNat_fld_eq ?_, ofNat_fld_eq ?_, ofNat_fld_eq ?_⟩ <;> simp only [fld] <;> omega
  · rw [msRsv, h.long]
    rcases y with _ | ⟨m, xr, disp⟩
    · rfl
    · have hgap : fld (m.toNat * 2 ^ 29 + xr.toNat * 2 ^ 23 + disp.toNat) 20 3 = 0 := by simp only [fld]; omega
      simp [msWord2, hgap, -Nat.reducePow]

theorem mg_encoded {o : MG} (he : some (k + mgWord o + longBit (mgWord2 o), mgWord2 o) = some (w, x)) (hk : k % 0x1000000 = 0)
    (hk' : k < 0x80000000) :
    FirstWord w x (k / 0x1000000) (mgWord o) ∧ mgOf w (x.getD 0) = o ∧ mgRsv w (x.getD 0) = false := by
  obtain ⟨q, a, e, stp, y⟩ := o
  cases he
  have h := firstWord_encoded (mgWord2 ⟨q, a, e, stp, y⟩) hk hk' (body := mgWord ⟨q, a, e, stp, y⟩) (by simp only [mgWord]; omega)
  refine ⟨h, ?_, ?_⟩
  · simp only [mgOf, MG.mk.injEq]
    refine ⟨ofNat_fld_eq ?_, ofNat_fld_eq ?_, ofNat_fld_eq ?_, ofNat_fld_eq ?_, ?_⟩
    iterate 4 (rw [h.field _ _ (by decide)]; simp only [fld, mgWord]; omega)
    rw [h.half]
    rcases y with _ | ⟨m, sc, disp⟩
    · rfl
    · simp only [mgWord2, Option.map_some, Option.isSome_some, if_true, Option.getD_some, Option.some.injEq, MGX.mk.injEq]
      refine ⟨ofNat_fld_eq ?_, ofNat_fld_eq ?_, ofNat_fld_eq ?_⟩ <;> simp only [fld] <;> omega
  · have hgap : fld (mgWord ⟨q, a, e, stp, y⟩) 6 2 = 0 := by simp only [fld, mgWord]; omega
    rw [mgRsv, h.long, h.field _ _ (by decide), hgap]
    rcases y with _ | ⟨m, sc, disp⟩
    · rfl
    · have hgap2 : fld (m.toNat * 2 ^ 29 + sc.toNat * 2 ^ 26 + disp.toNat) 20 6 = 0 := by simp only [fld]; omega
      simp [mgWord2, hgap2, -Nat.reducePow]

theorem xc_encoded {o : XC} (he : some (k + xcWord o + longBit (xcWord2 o), xcWord2 o) = some (w, x)) (hk : k % 0x1000000 = 0)
    (hk' : k < 0x80000000) :
    FirstWord w x (k / 0x1000000) (xcWord o) ∧ xcOf w (x.getD 0) = o ∧ xcRsv w (x.getD 0) = false := by
  obtain ⟨rt, e, gang, y⟩ := o
  cases he
  have h := firstWord_encoded (xcWord2 ⟨rt, e, gang, y⟩) hk hk' (body := xcWord ⟨rt, e, gang, y⟩) (by simp only [xcWord]; omega)
  refine ⟨h, ?_, ?_⟩
  · simp only [xcOf, XC.mk.injEq]
    refine ⟨ofNat_fld_eq ?_, ofNat_fld_eq ?_, ofNat_fld_eq ?_, ?_⟩
    iterate 3 (rw [h.field _ _ (by decide)]; simp only [fld, xcWord]; omega)
    rw [h.half]
    cases y <;> simp [xcWord2]
  · have hgap : fld (xcWord ⟨rt, e, gang, y⟩) 0 10 = 0 := by simp only [fld, xcWord]; omega
    simp [xcRsv, h.field, hgap]

theorem ac_encoded {o : AC} (he : some (k + acWord o + longBit (acWord2 o), acWord2 o) = some (w, x)) (hk : k % 0x1000000 = 0)
    (hk' : k < 0x80000000) :
    FirstWord w x (k / 0x1000000) (acWord o) ∧ acOf w (x.getD 0) = o ∧ acRsv w (x.getD 0) = false := by
  obtain ⟨v, row, stp, y⟩ := o
  cases he
  have h := firstWord_encoded (acWord2 ⟨v, row, stp, y⟩) hk hk' (body := acWord ⟨v, row, stp, y⟩) (by simp only [acWord]; omega)
  refine ⟨h, ?_, ?_⟩
  · simp only [acOf, AC.mk.injEq]
    refine ⟨ofNat_fld_eq ?_, ofNat_fld_eq ?_, ofNat_fld_eq ?_, ?_⟩
    iterate 3 (rw [h.field _ _ (by decide)]; simp only [fld, acWord]; omega)
    rw [h.half]
    rcases y with _ | ⟨a, m, ext⟩
    · rfl
    · simp only [acWord2, Option.map_some, Option.isSome_some, if_true, Option.getD_some, Option.some.injEq, ACX.mk.injEq]
      refine ⟨ofNat_fld_eq ?_, ofNat_fld_eq ?_, ofNat_fld_eq ?_⟩ <;> simp only [fld] <;> omega
  · have hgap : fld (acWord ⟨v, row, stp, y⟩) 6 2 = 0 := by simp only [fld, acWord]; omega
    simp [acRsv, h.field, hgap]

theorem hc_encoded {o : HC} (he : some (k + hcWord o + longBit (hcWord2 o), hcWord2 o) = some (w, x)) (hk : k % 0x1000000 = 0)
    (hk' : k < 0x80000000) : FirstWord w x (k / 0x1000000) (hcWord o) ∧ hcOf w (x.getD 0) = o := by
  obtain ⟨a, b, ch, e, f, y⟩ := o
  cases he
  have h := firstWord_encoded (hcWord2 ⟨a, b, ch, e, f, y⟩) hk hk' (body := hcWord ⟨a, b, ch, e, f, y⟩)
    (by simp only [hcWord]; omega)
  refine ⟨h, ?_⟩
  simp only [hcOf, HC.mk.injEq]
  refine ⟨ofNat_fld_eq ?_, ofNat_fld_eq ?_, ofNat_fld_eq ?_, ofNat_fld_eq ?_, ofNat_fld_eq ?_, ?_⟩
  iterate 5 (rw [h.field _ _ (by decide)]; simp only [fld, hcWord]; omega)
  rw [h.half]
  rcases y with _ | ⟨c, d, ext⟩
  · rfl
  · simp only [hcWord2, Option.map_some, Option.isSome_some, if_true, Option.getD_some, Option.some.injEq, HCX.mk.injEq]
    refine ⟨ofNat_fld_eq ?_, ofNat_fld_eq ?_, ofNat_fld_eq ?_⟩ <;> simp only [fld] <;> omega

theorem cl_encoded {o : CL} (he : some (k + clWord o + longBit (clWord2 o), clWord2 o) = some (w, x)) (hk : k % 0x1000000 = 0)
    (hk' : k < 0x80000000) : FirstWord w x (k / 0x1000000) (clWord o) ∧ clOf w (x.getD 0) = o := by
  obtain ⟨l, a, off, y⟩ := o
  cases he
  have h := firstWord_encoded (clWord2 ⟨l, a, off, y⟩) hk hk' (body := clWord ⟨l, a, off, y⟩) (by simp only [clWord]; omega)
  refine ⟨h, ?_⟩
  simp only [clOf, CL.mk.injEq]
  refine ⟨ofNat_fld_eq ?_, ofNat_fld_eq ?_, ofNat_fld_eq ?_, ?_⟩
  iterate 3 (rw [h.field _ _ (by decide)]; simp only [fld, clWord]; omega)
  rw [h.half]
  cases y <;> simp [clWord2]

theorem cj_encoded {o : CJ} (he : some (k + cjWord o, none) = some (w, x)) (hk : k % 0x1000000 = 0) (hk' : k < 0x80000000) :
    x = none ∧ FirstWord w x (k / 0x1000000) (cjWord o) ∧ cjOf w (x.getD 0) = o := by
  cases he
  have h := firstWord_short hk hk' (body := cjWord o) (by simp only [cjWord]; omega)
  refine ⟨rfl, h, congrArg CJ.mk (ofNat_fld_eq ?_)⟩
  rw [h.field _ _ (by decide)]; simp only [fld, cjWord]; omega

theorem cc_encoded {o : CC} (he : some (k + ccWord o, none) = some (w, x)) (hk : k % 0x1000000 = 0) (hk' : k < 0x80000000) :
    x = none ∧ FirstWord w x (k / 0x1000000) (ccWord o) ∧ ccOf w (x.getD 0) = o := by
  obtain ⟨p, q, sense, off⟩ := o
  cases he
  have h := firstWord_short hk hk' (body := ccWord ⟨p, q, sense, off⟩) (by simp only [ccWord]; omega)
  refine ⟨rfl, h, ?_⟩
  simp only [ccOf, CC.mk.injEq]
  refine ⟨ofNat_fld_eq ?_, ofNat_fld_eq ?_, ofNat_fld_eq ?_, ofNat_fld_eq ?_⟩
  iterate 4 (rw [h.field _ _ (by decide)]; simp only [fld, ccWord]; omega)

theorem ce_encoded {o : CE} (he : some (k + ceWord o, none) = some (w, x)) (hk : k % 0x1000000 = 0) (hk' : k < 0x80000000) :
    x = none ∧ FirstWord w x (k / 0x1000000) (ceWord o) ∧ ceOf w (x.getD 0) = o ∧ ceRsv w (x.getD 0) = false := by
  obtain ⟨e, imm⟩ := o
  cases he
  have h := firstWord_short hk hk' (body := ceWord ⟨e, imm⟩) (by simp only [ceWord]; omega)
  refine ⟨rfl, h, ?_, ?_⟩
  · simp only [ceOf, CE.mk.injEq]
    refine ⟨ofNat_fld_eq ?_, ofNat_fld_eq ?_⟩
    iterate 2 (rw [h.field _ _ (by decide)]; simp only [fld, ceWord]; omega)
  · have hgap : fld (ceWord ⟨e, imm⟩) 16 4 = 0 := by simp only [fld, ceWord]; omega
    simp [ceRsv, h.field, hgap]

theorem cs_encoded {o : CS} (he : some (k + csWord o, none) = some (w, x)) (hk : k % 0x1000000 = 0) (hk' : k < 0x80000000) :
    x = none ∧ FirstWord w x (k / 0x1000000) (csWord o) ∧ csOf w (x.getD 0) = o := by
  obtain ⟨d, a, srn⟩ := o
  cases he
  have h := firstWord_short hk hk' (body := csWord ⟨d, a, srn⟩) (by simp only [csWord]; omega)
  refine ⟨rfl, h, ?_⟩
  simp only [csOf, CS.mk.injEq]
  refine ⟨ofNat_fld_eq ?_, ofNat_fld_eq ?_, ofNat_fld_eq ?_⟩
  iterate 3 (rw [h.field _ _ (by decide)]; simp only [fld, csWord]; omega)

theorem mk_encoded {o : MK} (he : some (k + mkWord o, none) = some (w, x)) (hk : k % 0x1000000 = 0) (hk' : k < 0x80000000) :
    x = none ∧ FirstWord w x (k / 0x1000000) (mkWord o) ∧ mkOf w (x.getD 0) = o ∧ mkRsv w (x.getD 0) = false := by
  obtain ⟨scope, kind⟩ := o
  cases he
  have h := firstWord_short hk hk' (body := mkWord ⟨scope, kind⟩) (by simp only [mkWord]; omega)
  refine ⟨rfl, h, ?_, ?_⟩
  · simp only [mkOf, MK.mk.injEq]
    refine ⟨ofNat_fld_eq ?_, ofNat_fld_eq ?_⟩
    iterate 2 (rw [h.field _ _ (by decide)]; simp only [fld, mkWord]; omega)
  · have hhigh : fld (mkWord ⟨scope, kind⟩) 11 13 = 0 := by simp only [fld, mkWord]; omega
    have hlow : fld (mkWord ⟨scope, kind⟩) 0 6 = 0 := by simp only [fld, mkWord]; omega
    simp [mkRsv, h.field, hhigh, hlow]

end

/-- The F field of format RG and its parts, which tell apart the operations of one opcode. -/
theorem fld_rgWord (o : RG) {lo n : Nat} (h : lo + n ≤ 6) : fld (rgWord o) lo n = o.f.toNat / 2 ^ lo % 2 ^ n := by
  rw [← fld_mod_two_pow _ h, show rgWord o % 2 ^ 6 = o.f.toNat by simp only [rgWord]; omega, fld]
/-- The F field of format HC and its parts. -/
theorem fld_hcWord (o : HC) {lo n : Nat} (h : lo + n ≤ 4) : fld (hcWord o) lo n = o.f.toNat / 2 ^ lo % 2 ^ n := by
  rw [← fld_mod_two_pow _ h, show hcWord o % 2 ^ 4 = o.f.toNat by simp only [hcWord]; omega, fld]

/-! ## The classes (R62 to R69) -/

theorem chk_eq_none {form rsv coded rng : Bool} :
    chk form rsv coded rng = none ↔ form = false ∧ rsv = false ∧ coded = false ∧ rng = false := by
  simp only [chk]
  cases form <;> cases rsv <;> cases coded <;> cases rng <;> decide

/-- The words of an operation show whether a second one follows, and its slot's class reads the operation back with no error. -/
structure ReadBack (i : Instr) (sl : Slot) (w : Nat) (x : Option Nat) : Prop where
  long : isLong w = x.isSome
  raw : rawOp sl w (x.getD 0) = some { i }

theorem rawOp_scalar {u : SUnit} {sl : Slot} (h : (match u with | .a => some Slot.sa | .b => some Slot.sb) = some sl) (w w2 : Nat) :
    rawOp sl w w2 = decodeS u w w2 := by cases u <;> cases h <;> rfl
theorem rawOp_vector {u : VUnit} {sl : Slot} (h : (match u with | .a => some Slot.va | .b => some Slot.vb) = some sl) (w w2 : Nat) :
    rawOp sl w w2 = decodeV u w w2 := by cases u <;> cases h <;> rfl

theorem readBack_encoded {i : Instr} {sl : Slot} {w : Nat} {x : Option Nat} (hs : slotOf i = some sl) (hc : check i = none)
    (he : encodeOp i = some (w, x)) : ReadBack i sl w x := by
  cases i
  case nop =>
    cases hs; cases he
    cases sl <;> exact ⟨rfl, rfl⟩
  case ret | yield | rte | mabort =>
    cases hs; cases he
    exact ⟨rfl, rfl⟩
  -- class CT (R62)
  case br | call =>
    cases hs
    obtain ⟨rfl, h, ho⟩ := cj_encoded he rfl (by decide)
    refine ⟨h.long, ?_⟩
    rw [rawOp, decodeCT.eq_def, h.opcode, ho, h.long]
    rfl
  case brc | brv =>
    cases hs
    obtain ⟨rfl, h, ho⟩ := cc_encoded he rfl (by decide)
    refine ⟨h.long, ?_⟩
    rw [rawOp, decodeCT.eq_def, h.opcode, ho, h.long]
    rfl
  case bri | calli | launch | tagwait | cswitch | park | pbar =>
    cases hs
    obtain ⟨h, ho⟩ := rg_encoded he rfl (by decide)
    refine ⟨h.long, ?_⟩
    rw [rawOp, decodeCT.eq_def, h.opcode, ho]
    rfl
  case loop | loopi =>
    cases hs
    obtain ⟨h, ho⟩ := cl_encoded he rfl (by decide)
    refine ⟨h.long, ?_⟩
    rw [rawOp, decodeCT.eq_def, h.opcode, ho]
    rfl
  case wait | waitany | signal | trap =>
    cases hs
    obtain ⟨rfl, h, ho, hr⟩ := ce_encoded he rfl (by decide)
    refine ⟨h.long, ?_⟩
    rw [rawOp, decodeCT.eq_def, h.opcode, ho, hr, h.long]
    rfl
  case srd | swr =>
    cases hs
    obtain ⟨rfl, h, ho⟩ := cs_encoded he rfl (by decide)
    refine ⟨h.long, ?_⟩
    rw [rawOp, decodeCT.eq_def, h.opcode, ho, h.long]
    rfl
  case barArrive | barWait | bar | spawnAt | spawn | exitErr | exit | wakeAt | wakeIn | wake | estsetWake | estset =>
    cases hs
    obtain ⟨h, ho⟩ := rg_encoded he rfl (by decide)
    refine ⟨h.long, ?_⟩
    simp only [check, rgS, chk_eq_none, Bool.or_eq_false_iff, decide_eq_false_iff_not, ne_eq, not_not] at hc
    simp [rawOp, decodeCT.eq_def, h.opcode, h.field, fld_rgWord, ho, hc]
  -- class S (R63)
  case sadd | ssub | smul | smulh | smulhs | sdiv | sdivs | srem | srems | sand | sor | sxor | sshl | sshr | ssra | srot | smin | smins
      | smax | smaxs | sclz | spop | sbfx | sbfi | saddr | smov | ssel | scmp | pand | por | pxor | pnot | sfadd | sfsub | sfmul | sfma
      | sfdiv | sfsqrt | sfmin | sfmax | sfcmp | sfcvt | sfclass =>
    obtain ⟨h, ho⟩ := rg_encoded he rfl (by decide)
    refine ⟨h.long, ?_⟩
    rw [rawOp_scalar hs, decodeS.eq_def, h.opcode, ho]
    rfl
  case saddi | sandi | sori | sxori | smovi | slui | scmpi =>
    obtain ⟨h, ho⟩ := si_encoded he rfl (by decide)
    refine ⟨h.long, ?_⟩
    rw [rawOp_scalar hs, decodeS.eq_def, h.opcode, ho]
    rfl
  case pmovFromScalar | pmovToScalar | pmovPred | schkP | schk =>
    obtain ⟨h, ho⟩ := rg_encoded he rfl (by decide)
    refine ⟨h.long, ?_⟩
    simp only [check, rgS, chk_eq_none, Bool.or_eq_false_iff, decide_eq_false_iff_not, ne_eq, not_not] at hc
    simp [rawOp_scalar hs, decodeS.eq_def, h.opcode, h.field, fld_rgWord, ho, hc]
  -- class V (R64)
  case vadd | vsub | vmul | vfma | vfms | vmin | vmax | vabs | vneg | vcmp | vsel | vmov | vbcast | vextr | vidx | viadd | visub | vimul
      | vimad | vimin | vimax | vand | vor | vxor | vnot | vshl | vshr | vsra | vcvt | vpack | vunpack | vqmx | vdqmx | vexp2 | vlog2 |
      vrcp | vrsq | vsqrt | vdiv | vperm | vrotl | vsum | vmaxr | vargmax | vscan | vsrch | vrng | vacpt | kand | kor | kxor | knot |
      kpop | kfirst | vchk =>
    obtain ⟨h, ho⟩ := vr_encoded he rfl (by decide)
    refine ⟨h.long, ?_⟩
    rw [rawOp_vector hs, decodeV.eq_def, h.opcode, ho]
    rfl
  -- class LD (R65)
  case spld | splds | spldb | spldx =>
    cases hs
    obtain ⟨h, ho, hr⟩ := ms_encoded he rfl (by decide)
    refine ⟨h.long, ?_⟩
    rw [rawOp, decodeLD.eq_def, h.opcode, ho, hr]
    rfl
  case gld | glds | glda | pref =>
    cases hs
    obtain ⟨h, ho, hr⟩ := mg_encoded he rfl (by decide)
    refine ⟨h.long, ?_⟩
    rw [rawOp, decodeLD.eq_def, h.opcode, ho, hr]
    rfl
  case tlookWm | tlook =>
    cases hs
    obtain ⟨h, ho⟩ := rg_encoded he rfl (by decide)
    refine ⟨h.long, ?_⟩
    simp only [check, rgS, chk_eq_none, Bool.or_eq_false_iff, decide_eq_false_iff_not, ne_eq, not_not] at hc
    simp [rawOp, decodeLD.eq_def, h.opcode, h.field, fld_rgWord, ho, hc]
  -- class ST (R66)
  case spst | spsts | spstx =>
    cases hs
    obtain ⟨h, ho, hr⟩ := ms_encoded he rfl (by decide)
    refine ⟨h.long, ?_⟩
    rw [rawOp, decodeST.eq_def, h.opcode, ho, hr]
    rfl
  case gst | gsts | gstl =>
    cases hs
    obtain ⟨h, ho, hr⟩ := mg_encoded he rfl (by decide)
    refine ⟨h.long, ?_⟩
    rw [rawOp, decodeST.eq_def, h.opcode, ho, hr]
    rfl
  case tins | atom | atomr =>
    cases hs
    obtain ⟨h, ho⟩ := rg_encoded he rfl (by decide)
    refine ⟨h.long, ?_⟩
    rw [rawOp, decodeST.eq_def, h.opcode, ho]
    rfl
  case tdelIdx | tdel | tagpubClearTile | tagpubClearTensor | tagpubSet =>
    cases hs
    obtain ⟨h, ho⟩ := rg_encoded he rfl (by decide)
    refine ⟨h.long, ?_⟩
    simp only [check, rgS, chk_eq_none, Bool.or_eq_false_iff, decide_eq_false_iff_not, ne_eq, not_not] at hc
    simp [rawOp, decodeST.eq_def, h.opcode, h.field, fld_rgWord, ho, hc]
  -- class MX (R67)
  case mcall =>
    cases hs
    obtain ⟨h, ho, hr⟩ := xc_encoded he rfl (by decide)
    refine ⟨h.long, ?_⟩
    rw [rawOp, decodeMX.eq_def, h.opcode, ho, hr]
    rfl
  case mlduc | mldrt =>
    cases hs
    obtain ⟨h, ho⟩ := rg_encoded he rfl (by decide)
    refine ⟨h.long, ?_⟩
    rw [rawOp, decodeMX.eq_def, h.opcode, ho]
    rfl
  case mstatFault | mstatTake | mstatCsat | mstatSetm | mstatGetm | mstat =>
    cases hs
    obtain ⟨h, ho⟩ := rg_encoded he rfl (by decide)
    refine ⟨h.long, ?_⟩
    simp only [check, rgS, chk_eq_none, Bool.or_eq_false_iff, decide_eq_false_iff_not, ne_eq, not_not] at hc
    simp [rawOp, decodeMX.eq_def, h.opcode, h.field, fld_rgWord, ho, hc]
  -- class A (R68)
  case ard | aclr | awr | aacc | aow | adrn =>
    cases hs
    obtain ⟨h, ho, hr⟩ := ac_encoded he rfl (by decide)
    refine ⟨h.long, ?_⟩
    rw [rawOp, decodeA.eq_def, h.opcode, ho, hr]
    rfl
  -- class HD (R69)
  case hcopyG2s | hcopyG2t | hcopyS2s | hwmOff | hwm | hfillT | hfill | hstatStage | hstatLast | hstat =>
    cases hs
    obtain ⟨h, ho⟩ := hc_encoded he rfl (by decide)
    refine ⟨h.long, ?_⟩
    simp only [check, hcS, hcL, chk_eq_none, Bool.or_eq_false_iff, decide_eq_false_iff_not, ne_eq, not_not] at hc
    simp [rawOp, decodeHD.eq_def, h.opcode, h.field, fld_hcWord, ho, hc]
  case hpubRing | hpub =>
    cases hs
    obtain ⟨h, ho⟩ := hc_encoded he rfl (by decide)
    refine ⟨h.long, ?_⟩
    simp only [check, hpub, chk_eq_none, Bool.or_eq_false_iff, bitOf, Nat.reducePow, Bool.not_eq_false',
      decide_eq_false_iff_not, decide_eq_true_eq] at hc
    simp [rawOp, decodeHD.eq_def, h.opcode, h.field, fld_hcWord, ho, hc]
  case htile | htwr | hsched | hstep | hmcast | hmwait | hadd =>
    cases hs
    obtain ⟨h, ho⟩ := hc_encoded he rfl (by decide)
    refine ⟨h.long, ?_⟩
    rw [rawOp, decodeHD.eq_def, h.opcode, ho]
    rfl
  -- the halves of a MARK (R233)
  case mark side o =>
    cases side
    all_goals
      cases hs
      obtain ⟨rfl, h, ho, hr⟩ := mk_encoded he rfl (by decide)
      refine ⟨h.long, ?_⟩
    · rw [rawOp, decodeLD.eq_def, h.opcode, ho, hr, h.long]
      rfl
    · rw [rawOp, decodeST.eq_def, h.opcode, ho, hr, h.long]
      rfl
  all_goals cases hs

theorem check_of_wellFormed {i : Instr} (h : WellFormed i = true) : check i = none := by
  simp only [WellFormed, Bool.and_eq_true, Option.isNone_iff_eq_none] at h
  exact h.1

/-- A well-formed operation passes every encoding check of R455. -/
theorem decodeOp_encodeOp {i : Instr} {sl : Slot} {w : Nat} {x : Option Nat} (hs : slotOf i = some sl) (hw : WellFormed i = true)
    (he : encodeOp i = some (w, x)) : decodeOp sl w (x.getD 0) = .ok i := by
  have hc := check_of_wellFormed hw
  simp [decodeOp, (readBack_encoded hs hc he).raw, hc]

/-! ## Bundles (R46) -/

/-- The header of a bundle that holds one operation. -/
theorem decodeHeader_headerWord {n : Nat} (sl : Slot) (h : n = 1 ∨ n = 2) :
    decodeHeader (headerWord sl n) = .ok ⟨n + 1, false, 0, 2 ^ sl.num⟩ := by
  rcases h with rfl | rfl <;> cases sl <;> rfl
/-- Where one slot is present, the words that follow the header are its operation's. -/
theorem frameOps_short (sl : Slot) {w : Nat} (h : isLong w = false) : frameOps (2 ^ sl.num) slots [w] = some [(sl, w, 0)] := by
  cases sl <;> simp [frameOps, slots, Slot.num, bitOf, h]
theorem frameOps_long (sl : Slot) {w w2 : Nat} (h : isLong w = true) :
    frameOps (2 ^ sl.num) slots [w, w2] = some [(sl, w, w2)] := by
  cases sl <;> simp [frameOps, slots, Slot.num, bitOf, h]

theorem encode_of_encodeOp {i : Instr} {sl : Slot} {w : Nat} {x : Option Nat} (hs : slotOf i = some sl)
    (he : encodeOp i = some (w, x)) : encode i = headerWord sl (1 + x.toList.length) :: w :: x.toList := by
  cases x <;> simp [encode, hs, he]

/-- Every operation has words. -/
theorem encodeOp_isSome {i : Instr} {sl : Slot} (hs : slotOf i = some sl) : (encodeOp i).isSome = true := by
  cases i <;> try cases hs
  all_goals rfl

theorem decodeBundle1_encode {i : Instr} {sl : Slot} (hs : slotOf i = some sl) (hw : WellFormed i = true) :
    decodeBundle1 (encode i) = some i := by
  obtain ⟨⟨w, x⟩, he⟩ := Option.isSome_iff_exists.1 (encodeOp_isSome hs)
  have hlong := (readBack_encoded hs (check_of_wellFormed hw) he).long
  have hop := decodeOp_encodeOp hs hw he
  rw [encode_of_encodeOp hs he]
  cases x with
  | none => simp [decodeBundle1, decodeHeader_headerWord, frameOps_short sl hlong, show decodeOp sl w 0 = .ok i from hop]
  | some w2 => simp [decodeBundle1, decodeHeader_headerWord, frameOps_long sl hlong, show decodeOp sl w w2 = .ok i from hop]

/-! ## Micro-ops (R186 to R194) -/

/-- The scale slot of a micro-op word: bits [23:0], below the main slot (R188). -/
theorem sclWord_lt (x : Option MmScl) : sclWord x < 2 ^ 24 := by
  rcases x with _ | ⟨d, p, w⟩
  · decide
  · simp only [sclWord]; omega
/-- The scale slot does not depend on the main slot. -/
theorem sclOf_encoded {m : Nat} (x : Option MmScl) (hm : m % 2 ^ 24 = 0) : sclOf (m + sclWord x) = .ok x := by
  rcases x with _ | ⟨d, p, w⟩
  · have hbit : bitOf (m + sclWord none) 23 = false := decide_eq_false (by simp only [sclWord]; omega)
    have hrest : fld (m + sclWord none) 0 23 = 0 := by simp only [fld, sclWord]; omega
    simp [sclOf, hbit, hrest]
  · have hbit : bitOf (m + sclWord (some ⟨d, p, w⟩)) 23 = true := decide_eq_true (by simp only [sclWord]; omega)
    have hrest : fld (m + sclWord (some ⟨d, p, w⟩)) 0 16 = 0 := by simp only [fld, sclWord]; omega
    have hd : BitVec.ofNat 3 (fld (m + sclWord (some ⟨d, p, w⟩)) 20 3) = d := ofNat_fld_eq (by simp only [fld, sclWord]; omega)
    have hp : BitVec.ofNat 3 (fld (m + sclWord (some ⟨d, p, w⟩)) 17 3) = p := ofNat_fld_eq (by simp only [fld, sclWord]; omega)
    have hw : BitVec.ofNat 1 (fld (m + sclWord (some ⟨d, p, w⟩)) 16 1) = w := ofNat_fld_eq (by simp only [fld, sclWord]; omega)
    simp [sclOf, hbit, hrest, hd, hp, hw]

/-- A field of the main slot, from bit 24 up, does not depend on the scale slot. -/
theorem fld_mainSlot {m s lo n : Nat} (hm : m % 2 ^ 24 = 0) (hs : s < 2 ^ 24) (hlo : 24 ≤ lo) : fld (m + s) lo n = fld m lo n := by
  have hdiv : (m + s) / 2 ^ 24 = m / 2 ^ 24 := by omega
  obtain ⟨k, rfl⟩ := Nat.exists_eq_add_of_le hlo
  simp only [fld, Nat.pow_add, ← Nat.div_div_eq_div_mul, hdiv]

/-- The word of a micro-op (R186): its operation stands in bits [63:60], its scale slot reads as `x`, and the bits [24+gap-1:24] that
the operation reserves are clear. -/
structure MicroWord (w op gap : Nat) (x : Option MmScl) : Prop where
  scl : sclOf w = .ok x
  op : fld w 60 4 = op
  gap : fld w 24 gap = 0

theorem microWord_encoded {m op gap : Nat} (x : Option MmScl) (hm : m % 2 ^ 24 = 0) (hop : fld m 60 4 = op) (hgap : fld m 24 gap = 0) :
    MicroWord (m + sclWord x) op gap x where
  scl := sclOf_encoded x hm
  op := (fld_mainSlot hm (sclWord_lt x) (by decide)).trans hop
  gap := (fld_mainSlot hm (sclWord_lt x) (by decide)).trans hgap

section
variable {w : Nat} {x : Option MmScl}

theorem mmMac_encoded {o : MmMac} (he : some (mmMacWord o + sclWord x) = some w) : MicroWord w 0 8 x ∧ mmMacOf w = o := by
  cases he
  have hm : mmMacWord o % 2 ^ 24 = 0 := by simp only [mmMacWord]; omega
  refine ⟨microWord_encoded x hm (by simp only [fld, mmMacWord]; omega) (by simp only [fld, mmMacWord]; omega), ?_⟩
  obtain ⟨pa, pb, pd, ea, eb, sca, scb, shape, zero, klast, satm⟩ := o
  simp only [mmMacOf, MmMac.mk.injEq]
  refine ⟨ofNat_fld_eq ?_, ofNat_fld_eq ?_, ofNat_fld_eq ?_, ofNat_fld_eq ?_, ofNat_fld_eq ?_, ofNat_fld_eq ?_, ofNat_fld_eq ?_,
    ofNat_fld_eq ?_, ofNat_fld_eq ?_, ofNat_fld_eq ?_, ofNat_fld_eq ?_⟩
  all_goals rw [fld_mainSlot hm (sclWord_lt x) (by decide)]; simp only [fld, mmMacWord]; omega

theorem mmClr_encoded {o : MmClr} (he : some (mmClrWord o + sclWord x) = some w) : MicroWord w 2 23 x ∧ mmClrOf w = o := by
  cases he
  have hm : mmClrWord o % 2 ^ 24 = 0 := by simp only [mmClrWord]; omega
  refine ⟨microWord_encoded x hm (by simp only [fld, mmClrWord]; omega) (by simp only [fld, mmClrWord]; omega), ?_⟩
  obtain ⟨p, nm1⟩ := o
  simp only [mmClrOf, MmClr.mk.injEq]
  refine ⟨ofNat_fld_eq ?_, ofNat_fld_eq ?_⟩
  all_goals rw [fld_mainSlot hm (sclWord_lt x) (by decide)]; simp only [fld, mmClrWord]; omega

theorem mmDrn_encoded {o : MmDrn} (he : some (mmDrnWord o + sclWord x) = some w) : MicroWord w 3 12 x ∧ mmDrnOf w = o := by
  cases he
  have hm : mmDrnWord o % 2 ^ 24 = 0 := by simp only [mmDrnWord]; omega
  refine ⟨microWord_encoded x hm (by simp only [fld, mmDrnWord]; omega) (by simp only [fld, mmDrnWord]; omega), ?_⟩
  obtain ⟨p, nm1, slot, pos, clr⟩ := o
  simp only [mmDrnOf, MmDrn.mk.injEq]
  refine ⟨ofNat_fld_eq ?_, ofNat_fld_eq ?_, ofNat_fld_eq ?_, ofNat_fld_eq ?_, ofNat_fld_eq ?_⟩
  all_goals rw [fld_mainSlot hm (sclWord_lt x) (by decide)]; simp only [fld, mmDrnWord]; omega

theorem mmLoop_encoded {o : MmLoop} (he : some (mmLoopWord o + sclWord x) = some w) : MicroWord w 4 2 x ∧ mmLoopOf w = o := by
  cases he
  have hm : mmLoopWord o % 2 ^ 24 = 0 := by simp only [mmLoopWord]; omega
  refine ⟨microWord_encoded x hm (by simp only [fld, mmLoopWord]; omega) (by simp only [fld, mmLoopWord]; omega), ?_⟩
  obtain ⟨l, src, fin, imm⟩ := o
  simp only [mmLoopOf, MmLoop.mk.injEq]
  refine ⟨ofNat_fld_eq ?_, ofNat_fld_eq ?_, ofNat_fld_eq ?_, ofNat_fld_eq ?_⟩
  all_goals rw [fld_mainSlot hm (sclWord_lt x) (by decide)]; simp only [fld, mmLoopWord]; omega

theorem mmJmp_encoded {o : MmJmp} (he : some (mmJmpWord o + sclWord x) = some w) : MicroWord w 5 19 x ∧ mmJmpOf w = o := by
  cases he
  have hm : mmJmpWord o % 2 ^ 24 = 0 := by simp only [mmJmpWord]; omega
  refine ⟨microWord_encoded x hm (by simp only [fld, mmJmpWord]; omega) (by simp only [fld, mmJmpWord]; omega), ?_⟩
  obtain ⟨target, cond, bit⟩ := o
  simp only [mmJmpOf, MmJmp.mk.injEq]
  refine ⟨ofNat_fld_eq ?_, ofNat_fld_eq ?_, ofNat_fld_eq ?_⟩
  all_goals rw [fld_mainSlot hm (sclWord_lt x) (by decide)]; simp only [fld, mmJmpWord]; omega

theorem mmSetp_encoded {o : MmSetp} (he : some (mmSetpWord o + sclWord x) = some w) : MicroWord w 6 10 x ∧ mmSetpOf w = o := by
  cases he
  have hm : mmSetpWord o % 2 ^ 24 = 0 := by simp only [mmSetpWord]; omega
  refine ⟨microWord_encoded x hm (by simp only [fld, mmSetpWord]; omega) (by simp only [fld, mmSetpWord]; omega), ?_⟩
  obtain ⟨p, src, half, add, stride, keep⟩ := o
  simp only [mmSetpOf, MmSetp.mk.injEq]
  refine ⟨ofNat_fld_eq ?_, ofNat_fld_eq ?_, ofNat_fld_eq ?_, ofNat_fld_eq ?_, ofNat_fld_eq ?_, ofNat_fld_eq ?_⟩
  all_goals rw [fld_mainSlot hm (sclWord_lt x) (by decide)]; simp only [fld, mmSetpWord]; omega

theorem mmEnd_encoded (he : some (7 * 2 ^ 60 + sclWord x) = some w) : MicroWord w 7 36 x := by
  cases he
  exact microWord_encoded x (by decide) (by decide) (by decide)
/-- MM.SCL and MM.NOP share an operation: the scale slot tells them apart (R194). -/
theorem mmNop_encoded (he : some (8 * 2 ^ 60 + sclWord x) = some w) : MicroWord w 8 36 x := by
  cases he
  exact microWord_encoded x (by decide) (by decide) (by decide)

end

theorem decodeMicro_encodeMicro {i : Instr} {w : Nat} (he : encodeMicro i = some w) (hw : WellFormed i = true) :
    ∃ core, decodeMicro core w = some i := by
  have hc := check_of_wellFormed hw
  cases i
  case mmMac core o x =>
    obtain ⟨h, ho⟩ := mmMac_encoded he
    exact ⟨core, by simp [decodeMicro, h.scl, h.op, h.gap, ho]⟩
  case mmClr core o x =>
    obtain ⟨h, ho⟩ := mmClr_encoded he
    exact ⟨core, by simp [decodeMicro, h.scl, h.op, h.gap, ho]⟩
  case mmDrn core o x =>
    obtain ⟨h, ho⟩ := mmDrn_encoded he
    exact ⟨core, by simp [decodeMicro, h.scl, h.op, h.gap, ho]⟩
  case mmLoop core o x =>
    obtain ⟨h, ho⟩ := mmLoop_encoded he
    have hsrc : mloopRsv o = false := by simpa [check, own] using hc
    exact ⟨core, by simp [decodeMicro, h.scl, h.op, h.gap, ho, hsrc]⟩
  case mmJmp core o x =>
    obtain ⟨h, ho⟩ := mmJmp_encoded he
    exact ⟨core, by simp [decodeMicro, h.scl, h.op, h.gap, ho]⟩
  case mmSetp core o x =>
    obtain ⟨h, ho⟩ := mmSetp_encoded he
    have hsrc : setpRsv o = false := by simpa [check, own] using hc
    exact ⟨core, by simp [decodeMicro, h.scl, h.op, h.gap, ho, hsrc]⟩
  case mmEnd core x =>
    have h := mmEnd_encoded he
    exact ⟨core, by simp [decodeMicro, h.scl, h.op, h.gap]⟩
  case mmScl core o =>
    have h := mmNop_encoded he
    exact ⟨core, by simp [decodeMicro, h.scl, h.op, h.gap]⟩
  case mmNop core =>
    have h := mmNop_encoded (x := none) he
    exact ⟨core, by simp [decodeMicro, h.scl, h.op, h.gap]⟩
  all_goals cases he

/-- Settles O54: reading back is done in three layers: a field from its word, an operation from its class, and a bundle from its
header; a micro-op word has the first layer alone. -/
theorem decodeEncode : Obligations.DecodeEncode :=
  ⟨fun _ _ hs hw => decodeBundle1_encode hs hw, fun _ _ _ _ hs hw he => decodeOp_encodeOp hs hw he,
    fun _ _ he hw => decodeMicro_encodeMicro he hw⟩

end Sys2Proof.Machine
end

section
/-! PROOFS. The issue of one operation: its checks and its commit (R22 to R37).

The laws of `Laws/Issue.lean` say what an operation does that meets no check. Here the checks themselves: which trap an operation alone
in its bundle takes, and why it blocks. -/

set_option Elab.async false

namespace Sys2Proof.Machine

/-- A register that is never pending and never poisoned: a predicate, a lane mask, a mask of routines, a loop counter. -/
def Reg.Quiet (r : Reg) : Prop := ∀ st : Strand, st.pending r = false ∧ st.poisoned r = false

theorem Reg.quiet_k (i : Nat) : (Reg.k i).Quiet := fun _ => ⟨rfl, rfl⟩

/-- An action whose registers are those that `Issues` speaks of, that transfers no control and uses no accumulator bank and no MARK:
beside its own conditions it meets no check of R22 to R24, R34, R35, R59 and R205. -/
structure Act.Plain (a : Act) (reads writes : List Reg) (more : Nat) : Prop where
  reads : ∀ r ∈ a.reads, r ∈ reads ∨ r.Quiet
  writes : ∀ r ∈ a.vdest.toList ++ a.dests.map (fun d => d.1), r ∈ writes
  room : (a.results.filter (fun r => r.cnt > 1)).length ≤ more
  twice : twice a.dests = false
  early : a.early = none
  mark : a.mark = none
  ctl : a.ctl = .seq

section
variable {i : Instr} {s : State} {n : Nat} {sl : Slot} {reads writes : List Reg} {more : Nat} {a : Act}

theorem Issues.read_clear (h : Issues s n reads writes more) (hp : a.Plain reads writes more) :
    ∀ r ∈ a.reads, (s.strand n).pending r = false ∧ (s.strand n).poisoned r = false := by
  obtain ⟨-, -, -, -, -, hr, -⟩ := h
  exact fun r hm => (hp.reads r hm).elim (hr r) (fun q => q _)
theorem Issues.pendingTrap_eq (h : Issues s n reads writes more) (hp : a.Plain reads writes more) :
    pendingTrap (s.strand n) [⟨sl, i, a⟩] = none := by
  have hread : a.reads.any (s.strand n).pending = false := List.any_eq_false.2 fun r hm => by simp [(h.read_clear hp r hm).1]
  obtain ⟨-, -, -, -, -, -, hw⟩ := h
  have hwrite : (a.vdest.toList ++ a.dests.map (fun d => d.1)).any (s.strand n).pending = false :=
    List.any_eq_false.2 fun r hm => by simp [hw r (hp.writes r hm)]
  simp only [pendingTrap, List.findSome?, hread, hwrite]
  rfl
theorem Issues.poisonTrap_eq (h : Issues s n reads writes more) (hp : a.Plain reads writes more) :
    poisonTrap (s.strand n) [⟨sl, i, a⟩] = none := by
  have hread : a.reads.any (s.strand n).poisoned = false := List.any_eq_false.2 fun r hm => by simp [(h.read_clear hp r hm).2]
  simp only [poisonTrap, List.findSome?, hread]
  rfl
theorem Issues.inFlight_le (h : Issues s n reads writes more) (hp : a.Plain reads writes more) :
    (s.strand n).inFlight a.results ≤ 16 := by
  obtain ⟨-, -, -, -, hroom, -, -⟩ := h
  have := hp.room
  simp only [Strand.inFlight, List.append_nil, List.filter_append, List.length_append] at hroom ⊢
  omega
theorem Issues.bundleRule_eq (h : Issues s n reads writes more) (hp : a.Plain reads writes more) :
    bundleRule (oneIter i n sl) (counted s n) [⟨sl, i, a⟩] = none := by
  have hroom := h.inFlight_le hp
  simp only [bundleRule, oneIter, counted_strand, List.flatMap_cons, List.flatMap_nil, List.append_nil, List.any_cons, List.any_nil,
    Bool.or_false, hp.twice, isTransfer, hp.ctl]
  rw [if_neg (by omega)]
  simp

theorem Issues.illegal_eq (h : Issues s n reads writes more) :
    illegal (oneIter i n sl) (counted s n) .miss =
      (opOf i (oneEnv i s n sl)).own.map (fun d => { cause := 2, detail := d, slot := sl.num }) := by
  obtain ⟨-, -, heng, -, -, -, -⟩ := h
  rw [illegal, oneIter_execs i (counted s n) n sl heng]
  simp only [List.findSome?, oneIter_env, abortClash_one]
  cases (opOf i (oneEnv i s n sl)).own <;> rfl

/-- A plain action takes the trap of its own ILLEGAL_OP condition, or its trap of group 7 (R37). -/
theorem Issues.trap_eq (h : Issues s n reads writes more) (hp : (opOf i (oneEnv i s n sl)).Plain reads writes more) :
    (oneIter i n sl).trap (counted s n) .miss =
      ((opOf i (oneEnv i s n sl)).own.map (fun d => { cause := 2, detail := d, slot := sl.num })
        <|> (opOf i (oneEnv i s n sl)).trap) := by
  have hn : (oneIter i n sl).n = n := rfl
  obtain ⟨-, -, heng, -, -, -, -⟩ := id h
  rw [Iter.trap, h.illegal_eq, oneIter_acts i s n sl heng]
  simp only [hn, counted_strand, h.bundleRule_eq hp, h.pendingTrap_eq hp, h.poisonTrap_eq hp,
    unpaired_one ⟨sl, i, opOf i (oneEnv i s n sl)⟩ hp.mark, portClash_one ⟨sl, i, opOf i (oneEnv i s n sl)⟩ hp.early]
  cases (opOf i (oneEnv i s n sl)).own <;> cases ht : (opOf i (oneEnv i s n sl)).trap <;> simp [List.findSome?, ht]

/-- A plain action blocks for its own condition, or where its queue has no room (R221). -/
theorem Issues.blocked_eq (h : Issues s n reads writes more) (a : Act) :
    (oneIter i n sl).blocked (counted s n) [⟨sl, i, a⟩] =
      (a.block <|> (if a.loadEnt ≠ 0 && (s.strand n).loadQ.length + a.loadEnt > 64 then some .loadFull
        else if a.storeEnt ≠ 0 && (s.strand n).storeQ.length + a.storeEnt > 64 then some .storeFull else none)) := by
  obtain ⟨-, -, -, hb, -, -, -⟩ := h
  have hn : (oneIter i n sl).n = n := rfl
  simp only [Iter.blocked, hn, counted_strand, hb, List.findSome?, List.map_cons, List.map_nil, List.sum_cons, List.sum_nil,
    Nat.add_zero]
  cases a.block <;> rfl

/-- An attempt at one operation that is no call. -/
theorem issueOne_attempt (h : Issues s n reads writes more) (hsl : slotOf i = some sl) (hc : check i = none)
    (hcall : callsIn [(sl, .ok i)] = false) :
    issueOne i s = .next (match (oneIter i n sl).trap (counted s n) .miss with
      | some t => s.trapsAt n (bundleLen i) t
      | none => match (oneIter i n sl).blocked (counted s n) [⟨sl, i, opOf i (oneEnv i s n sl)⟩] with
        | some why => s.blocksAt n why
        | none => (oneIter i n sl).commit (counted s n) [⟨sl, i, opOf i (oneEnv i s n sl)⟩] []) := by
  obtain ⟨hv, ha, heng, -, -, -, -⟩ := h
  rw [← oneIter_acts i s n sl heng]
  have hops : (oneIter i n sl).ops = [(sl, .ok i)] := rfl
  have hatt : issueOne i s = .next ((oneIter i n sl).attempt s []) := by simp only [issueOne, ha, hsl, hc, oneIter]
  rw [hatt]
  simp only [Iter.attempt, hv, hops, hcall, Bool.false_eq_true, if_false]
  rfl

/-- An operation whose own ILLEGAL_OP condition holds (R455). -/
theorem issueOne_illegal (h : Issues s n reads writes more) (hsl : slotOf i = some sl) (hc : check i = none)
    (hcall : callsIn [(sl, .ok i)] = false) {d : Nat} (hown : (opOf i (oneEnv i s n sl)).own = some d) :
    issueOne i s = .next (s.trapsAt n (bundleLen i) { cause := 2, detail := d, slot := sl.num }) := by
  rw [issueOne_attempt h hsl hc hcall, Iter.trap, h.illegal_eq, hown]
  rfl
/-- A plain operation that takes its own trap. -/
theorem issueOne_traps (h : Issues s n reads writes more) (hsl : slotOf i = some sl) (hc : check i = none)
    (hcall : callsIn [(sl, .ok i)] = false) (hp : (opOf i (oneEnv i s n sl)).Plain reads writes more)
    (hown : (opOf i (oneEnv i s n sl)).own = none) {t : Trap} (ht : (opOf i (oneEnv i s n sl)).trap = some t) :
    issueOne i s = .next (s.trapsAt n (bundleLen i) t) := by
  rw [issueOne_attempt h hsl hc hcall, h.trap_eq hp, hown, ht]
  rfl
/-- A plain operation that blocks for its own condition. -/
theorem issueOne_blocks (h : Issues s n reads writes more) (hsl : slotOf i = some sl) (hc : check i = none)
    (hcall : callsIn [(sl, .ok i)] = false) (hp : (opOf i (oneEnv i s n sl)).Plain reads writes more)
    (hown : (opOf i (oneEnv i s n sl)).own = none) (ht : (opOf i (oneEnv i s n sl)).trap = none) {why : Why}
    (hb : (opOf i (oneEnv i s n sl)).block = some why) : issueOne i s = .next (s.blocksAt n why) := by
  rw [issueOne_attempt h hsl hc hcall, h.trap_eq hp, hown, ht]
  simp only [h.blocked_eq, hb]
  rfl

/-- A plain action that meets none of its own conditions and enters no queue is clear. -/
theorem Issues.clear_of_plain (h : Issues s n reads writes more) (hp : a.Plain reads writes more) (own : a.own = none)
    (trap : a.trap = none) (block : a.block = none) (loads : a.loadEnt = 0) (stores : a.storeEnt = 0) : Clear (s.strand n) a := by
  obtain ⟨-, -, -, hb, -, -, hw⟩ := id h
  exact ⟨own, hp.early, trap, block, hp.mark, h.inFlight_le hp, hp.twice, .inl hp.ctl, h.read_clear hp,
    fun r hm => hw r (hp.writes r hm), hb, .inl loads, .inl stores⟩

/-! ## What a commit comes to -/

theorem Strand.with_eng_of_eq {st : Strand} {e : SMap Engine} (h : st.eng = e) : { st with eng := e } = st := by subst h; rfl
theorem Strand.with_barWait_of_eq {st : Strand} {b : Option (BitVec 32)} (h : st.barWait = b) : { st with barWait := b } = st := by
  subst h; rfl

/-- The effects of one action are those of an issue that leaves the slot's engine as R28 says. -/
theorem landed_eq_issued (hb : (s.strand n).barWait = none) (hp : holds a.post = false) {j : Option Delay}
    (hj : j = match a.ctl with | .seq => none | .jump b t => some (if b then .taken t else .notTaken) | .rte => some .ret) :
    landed i s n sl a = s.issued n (bundleLen i) a.results
      (fun t => a.commit (t.onStrand n (fun st => { st with eng := engines [] [⟨sl, i, a⟩] }))) j := by
  have heq : ({ s.strand n with eng := engines [] [⟨sl, i, a⟩], walk := none, barWait := none } : Strand) =
      { s.strand n with eng := engines [] [⟨sl, i, a⟩], walk := none } :=
    Strand.with_barWait_of_eq (st := { s.strand n with eng := engines [] [⟨sl, i, a⟩], walk := none }) hb
  simp only [landed, hp, advance_onward _ _ _ _ _ j hj, State.issued, State.onStrand, strand_setStrand_same, setStrand_setStrand,
    counted_strand, heq]

/-- An operation without a sticky engine, or a NOP, leaves no engine primed. -/
theorem engines_one_of_not_primed (h : sticky sl = false ∨ ∃ x, i = .nop x) : engines [] [⟨sl, i, a⟩] = [] := by
  rcases h with h | ⟨x, rfl⟩
  · simp [engines, h]
  · simp only [engines, List.foldl_cons, List.foldl_nil, del, ite_self]
/-- Any other operation of a sticky slot stays in its engine with its next address. -/
theorem engines_one_of_primed (h : sticky sl = true) (hi : ∀ x, i ≠ .nop x) :
    engines [] [⟨sl, i, a⟩] = [(sl.num, ⟨i, a.next⟩)] := by
  simp only [engines, List.foldl_cons, List.foldl_nil, h, Bool.not_true, Bool.false_eq_true, if_false]
  rfl

/-- Effects that agree on the machine that an issue hands to them. -/
theorem State.issued_congr {f g : State → State} {len : Nat} {rs : List Result} {j : Option Delay}
    (h : f ((counted s n).onStrand n (fun st => { st with walk := none })) =
      g ((counted s n).onStrand n (fun st => { st with walk := none }))) :
    s.issued n len rs f j = s.issued n len rs g j := by simp only [State.issued, h]
/-- A clear operation that primes no engine. -/
theorem Issues.commits (h : Issues s n reads writes more) (hsl : slotOf i = some sl) (hc : check i = none)
    (hcall : callsIn [(sl, .ok i)] = false) (hcl : Clear (s.strand n) (opOf i (oneEnv i s n sl)))
    (hq : sticky sl = false ∨ ∃ x, i = .nop x) (hctl : (opOf i (oneEnv i s n sl)).ctl = .seq)
    (hpost : holds (opOf i (oneEnv i s n sl)).post = false) :
    issueOne i s = .next ((oneIter i n sl).follow
      (s.issued n (bundleLen i) (opOf i (oneEnv i s n sl)).results (opOf i (oneEnv i s n sl)).commit)
      (opOf i (oneEnv i s n sl)).post) := by
  obtain ⟨hv, ha, heng, hb, -, -, -⟩ := h
  have hsame : ({ s.strand n with walk := none, eng := [] } : Strand) = { s.strand n with walk := none } :=
    Strand.with_eng_of_eq (st := { s.strand n with walk := none }) heng
  rw [issueOne_commit hv ha heng hsl hc hcall hcl, landed_eq_issued hb hpost (j := none) (by rw [hctl]), engines_one_of_not_primed hq,
    State.issued_congr (g := (opOf i (oneEnv i s n sl)).commit)]
  simp only [State.onStrand_eq, strand_setStrand_same, setStrand_setStrand, counted_strand, hsame]

/-- A clear operation that stays in its engine. -/
theorem Issues.primes (h : Issues s n reads writes more) (hsl : slotOf i = some sl) (hc : check i = none)
    (hcall : callsIn [(sl, .ok i)] = false) (hcl : Clear (s.strand n) (opOf i (oneEnv i s n sl))) (hst : sticky sl = true)
    (hi : ∀ x, i ≠ .nop x) (hctl : (opOf i (oneEnv i s n sl)).ctl = .seq) (hpost : (opOf i (oneEnv i s n sl)).post = none) :
    issueOne i s = .next (s.issued n (bundleLen i) (opOf i (oneEnv i s n sl)).results
      (primed n sl i (opOf i (oneEnv i s n sl)).next (opOf i (oneEnv i s n sl)).commit)) := by
  obtain ⟨hv, ha, heng, hb, -, -, -⟩ := h
  rw [issueOne_commit hv ha heng hsl hc hcall hcl, landed_eq_issued hb (by rw [hpost]; rfl) (j := none) (by rw [hctl]),
    engines_one_of_primed hst hi, hpost]
  rfl

end

end Sys2Proof.Machine
end

section
/-! PROOFS. NOP, YIELD and the semaphores (R60, R97 to R101, R183). -/

set_option Elab.async false

namespace Sys2Proof.Machine

/-! ## Searches -/

theorem firstIdx_eq_find? (p : Nat → Bool) (n i : Nat) : firstIdx p n i = (List.range' i n).find? p := by
  induction n generalizing i with
  | zero => rfl
  | succ n ih =>
    rw [firstIdx, List.range'_succ, List.find?_cons, ih]
    cases p i <;> rfl
theorem firstIdx_zero_eq_find? (p : Nat → Bool) (n : Nat) : firstIdx p n 0 = (List.range n).find? p := by
  rw [firstIdx_eq_find?, List.range_eq_range']

/-! ## NOP and YIELD (R60, R97) -/

theorem exec_nop (sl : Slot) (s : State) : exec (.nop sl) s = issueOne (.nop sl) s := rfl
theorem exec_yield (s : State) : exec .yield s = issueOne .yield s := rfl

theorem exec_nop_delivers (sl : Slot) : Delivers (.nop sl) [] [] 0 (fun _ => []) := by
  intro s n _ h
  have hp : (opOf (.nop sl) (oneEnv (.nop sl) s n sl)).Plain [] [] 0 :=
    ⟨nofun, nofun, Nat.le_refl 0, rfl, rfl, rfl, rfl⟩
  rw [exec_nop, h.commits rfl rfl rfl (h.clear_of_plain hp rfl rfl rfl rfl rfl) (.inr ⟨sl, rfl⟩) rfl rfl]
  rfl

/-- Another strand of the core is ELIGIBLE. -/
theorem State.others_eq_any (s : State) (n : Nat) :
    s.others n = (List.range 8).any (fun k => k != n % 8 && decide ((s.strand (n / 8 * 8 + k)).run = .eligible)) := by
  rw [State.others, firstIdx_zero_eq_find?, Bool.eq_iff_iff, List.find?_isSome, List.any_eq_true]
  simp only [Bool.and_eq_true, decide_eq_true_eq, bne_iff_ne]

theorem exec_yield_spec {s : State} {n : Nat} (h : Issues s n [] [] 0) :
    exec .yield s = .next ((s.issued n 2 []).doYield n) := by
  have hp : (opOf .yield (oneEnv .yield s n .ct)).Plain [] [] 0 := ⟨nofun, nofun, Nat.le_refl 0, rfl, rfl, rfl, rfl⟩
  rw [exec_yield, h.commits rfl rfl rfl (h.clear_of_plain hp rfl rfl rfl rfl rfl) (.inl rfl) rfl rfl]
  rfl

/-! ## Semaphores (R98 to R101, R183) -/

/-- Of completions one of which is earlier than every other, that one is the oldest. -/
theorem foldl_earlier {l : List (Nat × Completion)} {x p : Nat × Completion} (hp : p ∈ x :: l)
    (hmin : ∀ q ∈ x :: l, q ≠ p → p.2.order < q.2.order) : l.foldl earlier x = p := by
  induction l generalizing x with
  | nil => exact (List.mem_singleton.1 hp).symm
  | cons y l ih =>
    have hxy : earlier x y = x ∨ earlier x y = y := by unfold earlier; split <;> simp
    have hkeep : p = x ∨ p = y → earlier x y = p := by
      intro h
      by_cases he : x = y
      · subst he
        rw [earlier, ite_self]
        exact (or_self_iff.1 h).symm
      · unfold earlier
        rcases h with rfl | rfl
        · have := hmin y (by simp) (Ne.symm he)
          rw [if_neg (by omega)]
        · have := hmin x (by simp) he
          rw [if_pos this]
    refine ih ?_ fun q hq hne => hmin q ?_ hne
    · simp only [List.mem_cons] at hp ⊢
      rcases hp with h | h | h
      · exact .inl (hkeep (.inl h)).symm
      · exact .inl (hkeep (.inr h)).symm
      · exact .inr h
    · simp only [List.mem_cons] at hq ⊢
      rcases hq with rfl | h
      · exact hxy.imp id .inl
      · exact .inr (.inr h)
theorem oldest_eq {l : List (Nat × Completion)} {p : Nat × Completion} (hp : p ∈ l)
    (hmin : ∀ q ∈ l, q ≠ p → p.2.order < q.2.order) : oldest l = some p := by
  cases l with
  | nil => cases hp
  | cons x l => exact congrArg some (foldl_earlier hp hmin)

/-- The oldest completion is one. -/
theorem mem_oldestOf_one {st : Strand} {k : Nat} {c d : Completion} (hd : d ∈ st.oldestOf k 1) (hc : c ∈ st.oldestOf k 1) : d = c := by
  unfold Strand.oldestOf at hc hd
  cases h : st.getE k with
  | nil => simp [h] at hd
  | cons x l => simp only [h, List.take_succ_cons, List.take_zero, List.mem_singleton] at hc hd; rw [hc, hd]
/-- Completions without a mark raise no trap. -/
theorem markTrap_none {e : Env} {k m : Nat} (h : ∀ c ∈ e.st.oldestOf k m, c.mark = none) : markTrap e k m = none := by
  have hnil : ((e.st.getE k).take m).filter (fun c => c.mark.isSome) = [] :=
    List.filter_eq_nil_iff.2 fun c hc => by rw [h c hc]; simp
  rw [markTrap, hnil]
  rfl
/-- The oldest mark decides (R183). -/
theorem markTrap_some {e : Env} {k m : Nat} {c : Completion} {x : Mark} (hc : c ∈ e.st.oldestOf k m) (hx : c.mark = some x)
    (hmin : ∀ d ∈ e.st.oldestOf k m, d.mark.isSome = true → d ≠ c → c.order < d.order) :
    markTrap e k m = some (e.trapOf x.cause (x.index * 2 ^ 20 + 2 ^ 16 + x.detail) x.addr) := by
  have hold : oldest ((((e.st.getE k).take m).filter (fun c => c.mark.isSome)).map (fun c => (k, c))) = some (k, c) := by
    refine oldest_eq (List.mem_map_of_mem (List.mem_filter.2 ⟨hc, by simp [hx]⟩)) fun q hq hne => ?_
    obtain ⟨d, hd, rfl⟩ := List.mem_map.1 hq
    obtain ⟨hd, hmark⟩ := List.mem_filter.1 hd
    exact hmin d hd hmark fun hdc => hne (by rw [hdc])
  rw [markTrap, hold]
  simp only [hx]
  rfl

theorem consumeAt_eq_consumes (e : Env) (k m : Nat) : consumeAt e k m = consumes e.n k m := rfl
theorem appendN_eq_foldl (k m : Nat) (st : Strand) :
    appendN k m st = (List.range m).foldl (fun st _ => st.append k none none none) st := by
  induction m generalizing st with
  | zero => rfl
  | succ m ih => rw [appendN, ih, List.range_succ_eq_map, List.foldl_cons, List.foldl_map]

section
variable {o : CE} {s : State} {n : Nat}

theorem opWait_of_enough {e : Env} (h : o.imm.toNat ≤ e.st.count o.e.toNat) :
    opWait o e = { trap := markTrap e o.e.toNat o.imm.toNat, commit := consumes e.n o.e.toNat o.imm.toNat } := by
  simp only [opWait, h, decide_true, if_true, consumeAt_eq_consumes]
theorem opWait_of_few {e : Env} (h : e.st.count o.e.toNat < o.imm.toNat) :
    opWait o e = { block := some (.sem o.e.toNat o.imm.toNat), commit := consumes e.n o.e.toNat o.imm.toNat } := by
  simp only [opWait, Nat.not_le.2 h, decide_false, Bool.false_eq_true, if_false, consumeAt_eq_consumes]

/-- The two shapes an action of the CT slot has here: it may trap or block, and if it does neither it has its effect. -/
theorem trap_plain (t : Option Trap) (f : State → State) : ({ trap := t, commit := f } : Act).Plain [] [] 0 :=
  ⟨nofun, nofun, Nat.le_refl 0, rfl, rfl, rfl, rfl⟩
theorem block_plain (w : Option Why) (f : State → State) : ({ block := w, commit := f } : Act).Plain [] [] 0 :=
  ⟨nofun, nofun, Nat.le_refl 0, rfl, rfl, rfl, rfl⟩

end

section
variable {i : Instr} {s : State} {n : Nat} {f : State → State}

/-- An operation of CT that may trap. -/
theorem ct_traps (h : Issues s n [] [] 0) (hsl : slotOf i = some .ct) (hw : WellFormed i = true) (hcall : callsIn [(.ct, .ok i)] = false)
    {t : Trap} (ha : opOf i (oneEnv i s n .ct) = { trap := some t, commit := f }) :
    issueOne i s = .next (s.trapsAt n (bundleLen i) t) :=
  issueOne_traps h hsl (check_of_wellFormed hw) hcall (by rw [ha]; exact trap_plain _ f) (by rw [ha]) (by rw [ha])
theorem ct_blocks (h : Issues s n [] [] 0) (hsl : slotOf i = some .ct) (hw : WellFormed i = true) (hcall : callsIn [(.ct, .ok i)] = false)
    {why : Why} (ha : opOf i (oneEnv i s n .ct) = { block := some why, commit := f }) :
    issueOne i s = .next (s.blocksAt n why) :=
  issueOne_blocks h hsl (check_of_wellFormed hw) hcall (by rw [ha]; exact block_plain _ f) (by rw [ha]) (by rw [ha]) (by rw [ha])
theorem ct_commits (h : Issues s n [] [] 0) (hsl : slotOf i = some .ct) (hw : WellFormed i = true) (hcall : callsIn [(.ct, .ok i)] = false)
    (ha : opOf i (oneEnv i s n .ct) = { commit := f }) : issueOne i s = .next (s.issued n (bundleLen i) [] f) := by
  have hcl : Clear (s.strand n) (opOf i (oneEnv i s n .ct)) :=
    h.clear_of_plain (by rw [ha]; exact trap_plain none f) (by rw [ha]) (by rw [ha]) (by rw [ha]) (by rw [ha]) (by rw [ha])
  rw [h.commits hsl (check_of_wellFormed hw) hcall hcl (.inl rfl) (by rw [ha]) (by rw [ha]; rfl), ha]
  rfl

end

section
variable {o : CE} {s : State} {n : Nat}

theorem exec_wait_consumes (hw : WellFormed (.wait o) = true) (h : Issues s n [] [] 0)
    (hn : o.imm.toNat ≤ (s.strand n).count o.e.toNat) (hm : ∀ c ∈ (s.strand n).oldestOf o.e.toNat o.imm.toNat, c.mark = none) :
    exec (.wait o) s = .next (s.issued n 2 [] (consumes n o.e.toNat o.imm.toNat)) :=
  ct_commits h rfl hw rfl ((opWait_of_enough hn).trans (by rw [markTrap_none hm]; rfl))
theorem exec_wait_traps (hw : WellFormed (.wait o) = true) (h : Issues s n [] [] 0)
    (hn : o.imm.toNat ≤ (s.strand n).count o.e.toNat) {c : Completion} {m : Mark}
    (hc : c ∈ (s.strand n).oldestOf o.e.toNat o.imm.toNat) (hm : c.mark = some m)
    (hmin : ∀ d ∈ (s.strand n).oldestOf o.e.toNat o.imm.toNat, d.mark.isSome = true → d ≠ c → c.order < d.order) :
    exec (.wait o) s = .next (s.trapsAt n 2
      { cause := m.cause, detail := m.index * 2 ^ 20 + 2 ^ 16 + m.detail, faddr := m.addr, slot := 0 }) :=
  ct_traps h rfl hw rfl ((opWait_of_enough hn).trans (by rw [markTrap_some hc hm hmin]; rfl))
theorem exec_wait_blocks (hw : WellFormed (.wait o) = true) (h : Issues s n [] [] 0)
    (hn : (s.strand n).count o.e.toNat < o.imm.toNat) :
    exec (.wait o) s = .next (s.blocksAt n (.sem o.e.toNat o.imm.toNat)) :=
  ct_blocks h rfl hw rfl (opWait_of_few hn)

/-- The semaphore that WAITANY takes: the lowest selected one that holds a completion (R100). -/
def anyOf (o : CE) (st : Strand) : Option Nat :=
  (List.range 16).find? (fun i => o.imm.getLsbD i && decide (0 < st.count i))
theorem opWaitany_eq (o : CE) (e : Env) :
    opWaitany o e = match anyOf o e.st with
      | none => { block := some (.semAny o.imm.toNat) }
      | some k =>
        { trap := markTrap e k 1,
          commit := fun s => (consumes e.n k 1 s).onStrand e.n (fun st => { st with wsem := BitVec.ofNat 4 k }) } := by
  rw [opWaitany, firstIdx_zero_eq_find?]
  rfl

theorem exec_waitany_blocks (hw : WellFormed (.waitany o) = true) (h : Issues s n [] [] 0) (ho : anyOf o (s.strand n) = none) :
    exec (.waitany o) s = .next (s.blocksAt n (.semAny o.imm.toNat)) :=
  ct_blocks h rfl hw rfl ((opWaitany_eq o _).trans (by simp only [oneEnv, ho]; rfl))
theorem exec_waitany_consumes (hw : WellFormed (.waitany o) = true) (h : Issues s n [] [] 0) {k : Nat}
    (ho : anyOf o (s.strand n) = some k) (hm : ∀ c ∈ (s.strand n).oldestOf k 1, c.mark = none) :
    exec (.waitany o) s = .next (s.issued n 2 [] (fun t =>
      (consumes n k 1 t).onStrand n (fun st => { st with wsem := BitVec.ofNat 4 k }))) :=
  ct_commits h rfl hw rfl ((opWaitany_eq o _).trans (by simp only [oneEnv, ho]; rw [markTrap_none hm]))
theorem exec_waitany_traps (hw : WellFormed (.waitany o) = true) (h : Issues s n [] [] 0) {k : Nat}
    (ho : anyOf o (s.strand n) = some k) {c : Completion} {m : Mark} (hc : c ∈ (s.strand n).oldestOf k 1) (hm : c.mark = some m) :
    exec (.waitany o) s = .next (s.trapsAt n 2
      { cause := m.cause, detail := m.index * 2 ^ 20 + 2 ^ 16 + m.detail, faddr := m.addr, slot := 0 }) := by
  have hmin : ∀ d ∈ (s.strand n).oldestOf k 1, d.mark.isSome = true → d ≠ c → c.order < d.order :=
    fun d hd _ hne => absurd (mem_oldestOf_one hd hc) hne
  exact ct_traps h rfl hw rfl ((opWaitany_eq o _).trans (by simp only [oneEnv, ho]; rw [markTrap_some hc hm hmin]; rfl))

theorem opSignal_of_room {e : Env} (h : e.st.count o.e.toNat + o.imm.toNat ≤ 0xFFFF) :
    opSignal o e = { commit := fun t => t.onStrand e.n (fun st => (List.range o.imm.toNat).foldl
      (fun st _ => st.append o.e.toNat none none none) st) } := by
  have hown : own (decide (e.st.count o.e.toNat + o.imm.toNat > 0xFFFF)) 0x0104 = none := by
    rw [own, if_neg (by simpa using h)]
  simp only [opSignal, hown, ← appendN_eq_foldl]
theorem opSignal_own {e : Env} (h : 0xFFFF < e.st.count o.e.toNat + o.imm.toNat) : (opSignal o e).own = some 0x0104 := by
  simp only [opSignal, own, gt_iff_lt, h, decide_true, if_true]
theorem exec_signal_appends (hw : WellFormed (.signal o) = true) (h : Issues s n [] [] 0)
    (hc : (s.strand n).count o.e.toNat + o.imm.toNat ≤ 0xFFFF) :
    exec (.signal o) s = .next (s.issued n 2 [] (fun t => t.onStrand n (fun st => (List.range o.imm.toNat).foldl
      (fun st _ => st.append o.e.toNat none none none) st))) :=
  ct_commits h rfl hw rfl (opSignal_of_room hc)
theorem exec_signal_illegal (hw : WellFormed (.signal o) = true) (h : Issues s n [] [] 0)
    (hc : 0xFFFF < (s.strand n).count o.e.toNat + o.imm.toNat) :
    exec (.signal o) s = .next (s.trapsAt n 2 { cause := 0x02, detail := 0x0104, slot := 0 }) := by
  have hown : (opOf (.signal o) (oneEnv (.signal o) s n .ct)).own = some 0x0104 :=
    opSignal_own (e := oneEnv (.signal o) s n .ct) hc
  exact issueOne_illegal (i := .signal o) (sl := .ct) h rfl (check_of_wellFormed hw) rfl hown

end

/-- Settles O11: every clause is one commit, trap or block of the issue of one operation. -/
theorem nopYieldAndSemaphores : Obligations.NopYieldAndSemaphores := by
  refine ⟨exec_nop_delivers, fun s n h => ?_, fun o s n hw h => ?_, fun o s n hw h => ?_, fun o s n hw h => exec_signal_appends hw h,
    fun o s n hw h => exec_signal_illegal hw h⟩
  · rw [exec_yield_spec h, State.doYield]
    simp only [State.others_eq_any]
  · exact ⟨exec_wait_consumes hw h, fun hn c m hc hm hmin => exec_wait_traps hw h hn hc hm hmin, exec_wait_blocks hw h⟩
  · change match anyOf o (s.strand n) with | none => _ | some k => _
    cases ho : anyOf o (s.strand n) with
    | none => exact exec_waitany_blocks hw h ho
    | some k => exact ⟨exec_waitany_consumes hw h ho, fun c m hc hm => exec_waitany_traps hw h ho hc hm⟩

end Sys2Proof.Machine
end

section
/-! PROOFS. Scratchpad loads and stores (R57, R207 to R212). -/

set_option Elab.async false

namespace Sys2Proof.Machine

/-! ## Addresses and checks (R57, R207 to R212) -/

theorem counted_core (s : State) (n : Nat) : (counted s n).core (n / 8) = { s.core (n / 8) with count := (s.core (n / 8)).count + 1 } :=
  core_setCore_same s (n / 8) _

section
variable (i : Instr) (s : State) (n : Nat) (sl : Slot) (o : MS)

theorem msAddr_one (unit : Nat) : msAddr (oneEnv i s n sl) o unit = o.addr (s.strand n) unit := rfl
theorem msMask_one : msMask (oneEnv i s n sl) o = o.mask (s.strand n) := by
  simp only [msMask, msK, MS.mask, oneEnv]
  cases o.x <;> rfl
theorem msX_eq_index : BitVec.ofNat 6 (msX o) = o.index := by
  simp only [msX, MS.index]
  cases o.x with
  | none => rfl
  | some x => simp

/-- Words that are aligned and open meet no check of R212. -/
theorem spadCheck_of_open {align : Nat} {alignAt parts : List (Nat × Nat)} (ha : ∀ p ∈ alignAt, p.1 % align = 0)
    (hp : ∀ p ∈ parts, (s.core (n / 8)).open_ p.1 p.2 ∧ 0 < p.2) :
    spadCheck (oneEnv i s n sl) align alignAt parts = (none, none) := by
  have hbad : alignAt.filter (fun p => p.1 % align ≠ 0) = [] := List.filter_eq_nil_iff.2 fun p hm => by simp [ha p hm]
  have hout : parts.filter (fun p => p.1 + p.2 - 1 > spadTop) = [] := by
    refine List.filter_eq_nil_iff.2 fun p hm => ?_
    obtain ⟨⟨hle, -⟩, hpos⟩ := hp p hm
    simp only [spadTop, gt_iff_lt, decide_eq_true_eq]
    omega
  have hfill : ((counted s n).core (n / 8)).unfilledParts parts = false := by
    rw [counted_core]
    refine List.any_eq_false.2 fun p hm => ?_
    obtain ⟨⟨-, hopen⟩, -⟩ := hp p hm
    rw [Bool.not_eq_true]
    exact hopen
  have hcore : (oneEnv i s n sl).s.core (oneEnv i s n sl).c = (counted s n).core (n / 8) := rfl
  rw [spadCheck, hbad, hout, hcore, hfill]
  rfl

end

/-- A lane of a vector that is packed from its lanes. -/
theorem lane_ofNat_pack (f : Nat → Nat) {i : Nat} (h : i < 64) : lane (BitVec.ofNat 2048 (pack 32 f 64 0)) i = f i % 2 ^ 32 := by
  have hi : 32 * i + 32 ≤ 2048 := by omega
  rw [lane, BitVec.toNat_ofNat, fld_mod_two_pow _ hi, fld_pack 32 f 64 0 i h, Nat.zero_add]
theorem mem_activeLanes {k : Word} {i : Nat} : i ∈ activeLanes k ↔ i < 64 ∧ k.getLsbD i = true := by
  simp [activeLanes]

/-! ## Loads and stores of the scratchpad (R209, R211) -/

section
variable {i : Instr} {s : State} {n : Nat} {o : MS} {reads writes : List Reg} {more unit align : Nat} {rd : List Reg}
  {alignAt parts : List (Nat × Nat)} {a : Act}

/-- An operation of a sticky slot that meets no condition of its own and enters no queue stays in its engine. -/
theorem sticky_commits {sl : Slot} (h : Issues s n reads writes more) (hsl : slotOf i = some sl) (hw : WellFormed i = true)
    (hcall : callsIn [(sl, .ok i)] = false) (hst : sticky sl = true) (hi : ∀ x, i ≠ .nop x) (hop : opOf i (oneEnv i s n sl) = a)
    (hp : a.Plain reads writes more) (own : a.own = none) (trap : a.trap = none) (block : a.block = none)
    (loads : a.loadEnt = 0) (stores : a.storeEnt = 0) (hpost : a.post = none) :
    issueOne i s = .next (s.issued n (bundleLen i) a.results (primed n sl i a.next a.commit)) := by
  subst hop
  exact h.primes hsl (check_of_wellFormed hw) hcall (h.clear_of_plain hp own trap block loads stores) hst hi hp.ctl hpost

theorem mem_reads (ha : .s o.a.toNat ∈ reads) (hrd : ∀ r ∈ rd, r ∈ reads) :
    ∀ r ∈ [rs o.a] ++ rd ++ [.k (msK o)], r ∈ reads ∨ r.Quiet := by
  intro r hr
  simp only [List.mem_append, List.mem_singleton] at hr
  rcases hr with (rfl | hr) | rfl
  · exact .inl ha
  · exact .inl (hrd r hr)
  · exact .inr (Reg.quiet_k _)

/-- A load into a vector register whose words are aligned and open: each active lane takes its word. -/
theorem spLoadV_issued {src : Nat → Nat} (h : Issues s n reads [.v o.q.toNat] 1) (hsl : slotOf i = some .ld) (hw : WellFormed i = true)
    (hcall : callsIn [(.ld, .ok i)] = false) (hi : ∀ x, i ≠ .nop x) (ha : .s o.a.toNat ∈ reads) (hrd : ∀ r ∈ rd, r ∈ reads)
    (hop : opOf i (oneEnv i s n .ld) = spLoadV (oneEnv i s n .ld) o unit align rd alignAt parts src)
    (halign : ∀ p ∈ alignAt, p.1 % align = 0) (hopen : ∀ p ∈ parts, (s.core (n / 8)).open_ p.1 p.2 ∧ 0 < p.2) :
    ∃ r, issueOne i s = .next (s.issued n (bundleLen i)
        [vres (s.strand n) o.q 5 r (o.mask (s.strand n)) 15 (parts.any (fun p => (s.core (n / 8)).spPoison p.1 p.2))]
        (primed n .ld i (o.step (o.addr (s.strand n) unit) unit))) ∧
      ∀ l ∈ activeLanes (o.mask (s.strand n)), lane r l = getBytes (s.core (n / 8)).spad (src l) 4 % 2 ^ 32 := by
  have hcheck := spadCheck_of_open i s n .ld halign hopen
  have hact : spLoadV (oneEnv i s n .ld) o unit align rd alignAt parts src =
      { reads := [rs o.a] ++ rd ++ [.k (msK o)], next := o.step (o.addr (s.strand n) unit) unit, dests := [(rv o.q, 5)],
        results := [vres (s.strand n) o.q 5 (BitVec.ofNat 2048 (pack 32 (fun l =>
          if (o.mask (s.strand n)).getLsbD l then getBytes (s.core (n / 8)).spad (src l) 4 else 0) 64 0)) (o.mask (s.strand n)) 15
          (parts.any (fun p => (s.core (n / 8)).spPoison p.1 p.2))] } := by
    have hcore : (oneEnv i s n .ld).s.core (oneEnv i s n .ld).c = (counted s n).core (n / 8) := rfl
    simp only [spLoadV, hcheck, msMask_one, msAddr_one, hcore, counted_core]
    rfl
  refine ⟨_, sticky_commits h hsl hw hcall rfl hi (hop.trans hact) ⟨mem_reads ha hrd, ?_, Nat.le_refl 1, rfl, rfl, rfl, rfl⟩
    rfl rfl rfl rfl rfl rfl, fun l hl => ?_⟩
  · simp only [Option.toList_none, List.nil_append, List.map_cons, List.map_nil]
    exact fun r hr => hr
  · obtain ⟨hlt, hbit⟩ := mem_activeLanes.1 hl
    rw [lane_ofNat_pack _ hlt, if_pos hbit]

end

section
variable {o : MS} {s : State} {n : Nat}

/-- The words of active lanes are open and of four bytes where each lane's address is. -/
theorem open_words {co : Core} {k : Word} {f : Nat → Nat} (h : ∀ l ∈ activeLanes k, co.open_ (f l) 4) :
    ∀ p ∈ (activeLanes k).map (fun l => (f l, 4)), co.open_ p.1 p.2 ∧ 0 < p.2 := by
  intro p hp
  obtain ⟨l, hl, rfl⟩ := List.mem_map.1 hp
  exact ⟨h l hl, by omega⟩
/-- An address that is checked only where some word is touched is aligned if every active lane says so. -/
theorem aligned_base {k : Word} {f : Nat → Nat} {a align : Nat} (h : ∀ l ∈ activeLanes k, a % align = 0) :
    ∀ p ∈ (if ((activeLanes k).map (fun l => (f l, 4))).isEmpty then [] else [(a, 1)]), p.1 % align = 0 := by
  intro p hp
  split at hp
  · cases hp
  · next hne =>
    obtain ⟨l, hl⟩ := List.exists_mem_of_ne_nil (activeLanes k) (fun hnil => hne (by rw [hnil]; rfl))
    rw [List.mem_singleton.1 hp]
    exact h l hl
theorem aligned_words {k : Word} {f : Nat → Nat} {align : Nat} (h : ∀ l ∈ activeLanes k, f l % align = 0) :
    ∀ p ∈ (activeLanes k).map (fun l => (f l, 4)), p.1 % align = 0 := by
  intro p hp
  obtain ⟨l, hl, rfl⟩ := List.mem_map.1 hp
  exact h l hl
/-- Poison of the words of active lanes. -/
theorem any_words (g : Nat → Nat → Bool) (k : Word) (f : Nat → Nat) :
    ((activeLanes k).map (fun l => (f l, 4))).any (fun p => g p.1 p.2) = (activeLanes k).any (fun l => g (f l) 4) := List.any_map

/-- The words of the active lanes with their data. -/
theorem zip_words (k : Word) (f g : Nat → Nat) :
    List.zip (((activeLanes k).map (fun l => (f l, 4))).map (fun p => p.1)) ((activeLanes k).map g) =
      (activeLanes k).map (fun l => (f l, g l)) := by
  rw [List.map_map]
  exact List.zip_map'

theorem opSpld_eq (i : Instr) : opSpld o (oneEnv i s n .ld) = spLoadV (oneEnv i s n .ld) o 256 128 []
    (if ((activeLanes (o.mask (s.strand n))).map (fun l => ((o.addr (s.strand n) 256).toNat + 4 * l, 4))).isEmpty then []
      else [((o.addr (s.strand n) 256).toNat, 1)])
    ((activeLanes (o.mask (s.strand n))).map (fun l => ((o.addr (s.strand n) 256).toNat + 4 * l, 4)))
    (fun l => (o.addr (s.strand n) 256).toNat + 4 * l) := by
  rw [opSpld, msMask_one]
  rfl
theorem opSpldb_eq (i : Instr) : opSpldb o (oneEnv i s n .ld) = spLoadV (oneEnv i s n .ld) o 4 4 []
    (if o.mask (s.strand n) = 0 then [] else [((o.addr (s.strand n) 4).toNat, 4)])
    (if o.mask (s.strand n) = 0 then [] else [((o.addr (s.strand n) 4).toNat, 4)])
    (fun _ => (o.addr (s.strand n) 4).toNat) := by
  rw [opSpldb, msMask_one]
  rfl

/-- The address of an indexed lane. -/
def laneAddr (o : MS) (st : Strand) (l : Nat) : Nat :=
  ((o.addr st 256).toNat + lane (st.getV o.index.toNat) l) % 2 ^ 64
theorem opSpldx_eq (i : Instr) : opSpldx o (oneEnv i s n .ld) = spLoadV (oneEnv i s n .ld) o 256 4 [rv o.index]
    ((activeLanes (o.mask (s.strand n))).map (fun l => (laneAddr o (s.strand n) l, 4)))
    ((activeLanes (o.mask (s.strand n))).map (fun l => (laneAddr o (s.strand n) l, 4)))
    (laneAddr o (s.strand n)) := by
  rw [opSpldx, msMask_one, msX_eq_index]
  rfl

theorem exec_spld (hw : WellFormed (.spld o) = true) (h : Issues s n [.s o.a.toNat] [.v o.q.toNat] 1)
    (ho : ∀ l ∈ activeLanes (o.mask (s.strand n)), (o.addr (s.strand n) 256).toNat % 128 = 0 ∧
      (s.core (n / 8)).open_ ((o.addr (s.strand n) 256).toNat + 4 * l) 4) :
    ∃ r, exec (.spld o) s = .next (s.issued n (bundleLen (.spld o))
        [vres (s.strand n) o.q 5 r (o.mask (s.strand n)) 15 ((activeLanes (o.mask (s.strand n))).any (fun l =>
          (s.core (n / 8)).spPoison ((o.addr (s.strand n) 256).toNat + 4 * l) 4))]
        (primed n .ld (.spld o) (o.step (o.addr (s.strand n) 256) 256))) ∧
      ∀ l ∈ activeLanes (o.mask (s.strand n)),
        lane r l = getBytes (s.core (n / 8)).spad ((o.addr (s.strand n) 256).toNat + 4 * l) 4 % 2 ^ 32 := by
  have hload := spLoadV_issued (i := .spld o) (rd := []) h rfl hw rfl nofun (by simp) nofun (opSpld_eq (.spld o))
    (aligned_base fun l hl => (ho l hl).1) (open_words fun l hl => (ho l hl).2)
  rw [any_words] at hload
  exact hload

theorem exec_spldb (hw : WellFormed (.spldb o) = true) (h : Issues s n [.s o.a.toNat] [.v o.q.toNat] 1)
    (ho : o.mask (s.strand n) ≠ 0 → (o.addr (s.strand n) 4).toNat % 4 = 0 ∧
      (s.core (n / 8)).open_ (o.addr (s.strand n) 4).toNat 4) :
    ∃ r, exec (.spldb o) s = .next (s.issued n (bundleLen (.spldb o))
        [vres (s.strand n) o.q 5 r (o.mask (s.strand n)) 15
          (o.mask (s.strand n) != 0 && (s.core (n / 8)).spPoison (o.addr (s.strand n) 4).toNat 4)]
        (primed n .ld (.spldb o) (o.step (o.addr (s.strand n) 4) 4))) ∧
      ∀ l ∈ activeLanes (o.mask (s.strand n)),
        lane r l = getBytes (s.core (n / 8)).spad (o.addr (s.strand n) 4).toNat 4 % 2 ^ 32 := by
  have hmem : ∀ p ∈ (if o.mask (s.strand n) = 0 then [] else [((o.addr (s.strand n) 4).toNat, 4)]),
      o.mask (s.strand n) ≠ 0 ∧ p = ((o.addr (s.strand n) 4).toNat, 4) := by
    intro p hp
    split at hp
    · cases hp
    · next hk => exact ⟨hk, List.mem_singleton.1 hp⟩
  have hany : (if o.mask (s.strand n) = 0 then [] else [((o.addr (s.strand n) 4).toNat, 4)]).any
      (fun p => (s.core (n / 8)).spPoison p.1 p.2) =
      (o.mask (s.strand n) != 0 && (s.core (n / 8)).spPoison (o.addr (s.strand n) 4).toNat 4) := by
    by_cases hk : o.mask (s.strand n) = 0
    · simp [hk]
    · rw [if_neg hk, bne_iff_ne.2 hk]
      simp
  have hload := spLoadV_issued (i := .spldb o) (rd := []) h rfl hw rfl nofun (by simp) nofun (opSpldb_eq (.spldb o))
    (fun p hp => by obtain ⟨hk, rfl⟩ := hmem p hp; exact (ho hk).1)
    (fun p hp => by obtain ⟨hk, rfl⟩ := hmem p hp; exact ⟨(ho hk).2, by omega⟩)
  rw [hany] at hload
  exact hload

theorem exec_spldx (hw : WellFormed (.spldx o) = true) (h : Issues s n [.s o.a.toNat, .v o.index.toNat] [.v o.q.toNat] 1)
    (ho : ∀ l ∈ activeLanes (o.mask (s.strand n)), laneAddr o (s.strand n) l % 4 = 0 ∧
      (s.core (n / 8)).open_ (laneAddr o (s.strand n) l) 4) :
    ∃ r, exec (.spldx o) s = .next (s.issued n (bundleLen (.spldx o))
        [vres (s.strand n) o.q 5 r (o.mask (s.strand n)) 15 ((activeLanes (o.mask (s.strand n))).any (fun l =>
          (s.core (n / 8)).spPoison (laneAddr o (s.strand n) l) 4))]
        (primed n .ld (.spldx o) (o.step (o.addr (s.strand n) 256) 256))) ∧
      ∀ l ∈ activeLanes (o.mask (s.strand n)),
        lane r l = getBytes (s.core (n / 8)).spad (laneAddr o (s.strand n) l) 4 % 2 ^ 32 := by
  have hload := spLoadV_issued (i := .spldx o) (rd := [rv o.index]) h rfl hw rfl nofun (by simp)
    (fun r hr => by rw [List.mem_singleton.1 hr]; exact .tail _ (.head _)) (opSpldx_eq (.spldx o))
    (aligned_words fun l hl => (ho l hl).1) (open_words fun l hl => (ho l hl).2)
  rw [any_words] at hload
  exact hload

/-- One destination is not named twice. -/
theorem twice_one (d : Reg × Nat) : twice [d] = false := by simp [twice]

/-- The check of the one double-word of a scalar access. -/
theorem spadCheck_scalar (i : Instr) (sl : Slot) {a : Nat} (ha : a % 8 = 0) (ho : (s.core (n / 8)).open_ a 8) :
    spadCheck (oneEnv i s n sl) 8 [(a, 8)] [(a, 8)] = (none, none) :=
  spadCheck_of_open i s n sl (fun p hp => by rw [List.mem_singleton.1 hp]; exact ha)
    (fun p hp => by rw [List.mem_singleton.1 hp]; exact ⟨ho, Nat.succ_pos 7⟩)

theorem exec_splds (hw : WellFormed (.splds o) = true) (h : Issues s n [.s o.a.toNat] [.s o.q.toNat] 1)
    (ha : (o.addr (s.strand n) 8).toNat % 8 = 0) (ho : (s.core (n / 8)).open_ (o.addr (s.strand n) 8).toNat 8) :
    exec (.splds o) s = .next (s.issued n (bundleLen (.splds o))
      [lres (s.strand n) o.q 5 (getBytes (s.core (n / 8)).spad (o.addr (s.strand n) 8).toNat 8)
        ((s.core (n / 8)).spPoison (o.addr (s.strand n) 8).toNat 8)] (primed n .ld (.splds o) (o.step (o.addr (s.strand n) 8) 8))) := by
  have hcheck := spadCheck_scalar (.splds o) .ld ha ho
  have hop : opOf (.splds o) (oneEnv (.splds o) s n .ld) =
      { reads := [rs o.a], next := o.step (o.addr (s.strand n) 8) 8, dests := [(rs o.q, 5)],
        results := [lres (s.strand n) o.q 5 (getBytes (s.core (n / 8)).spad (o.addr (s.strand n) 8).toNat 8)
          ((s.core (n / 8)).spPoison (o.addr (s.strand n) 8).toNat 8)] } := by
    have hcore : (oneEnv (.splds o) s n .ld).s.core (oneEnv (.splds o) s n .ld).c = (counted s n).core (n / 8) := rfl
    change opSplds o _ = _
    simp only [opSplds, msAddr_one, hcheck, hcore, counted_core]
    rfl
  exact sticky_commits h rfl hw rfl rfl nofun hop ⟨fun r hr => .inl hr, fun r hr => hr, Nat.le_refl 1, twice_one _, rfl, rfl, rfl⟩
    rfl rfl rfl rfl rfl rfl

/-- A store of the active lanes of a vector register, whose words are aligned and open. -/
theorem spStoreV_issued {i : Instr} {reads : List Reg} {align : Nat} {rd : List Reg} {alignAt : List (Nat × Nat)} {f : Nat → Nat}
    (h : Issues s n reads [] 0) (hsl : slotOf i = some .st) (hw : WellFormed i = true)
    (hcall : callsIn [(.st, .ok i)] = false) (hi : ∀ x, i ≠ .nop x)
    (hreads : ∀ r ∈ [rs o.a] ++ rd ++ [rv o.q, .k (msK o)], r ∈ reads ∨ r.Quiet)
    (hop : opOf i (oneEnv i s n .st) = spStoreV (oneEnv i s n .st) o rd align alignAt
      ((activeLanes (o.mask (s.strand n))).map (fun l => (f l, 4))))
    (halign : ∀ p ∈ alignAt, p.1 % align = 0) (hopen : ∀ l ∈ activeLanes (o.mask (s.strand n)), (s.core (n / 8)).open_ (f l) 4) :
    issueOne i s = .next (s.issued n (bundleLen i) [] (primed n .st i (o.step (o.addr (s.strand n) 256) 256)
      (fun t => t.onCore (n / 8) (fun co => co.spWords ((activeLanes (o.mask (s.strand n))).map (fun l =>
        (f l, lane ((s.strand n).getV o.q.toNat) l))))))) := by
  have hcheck := spadCheck_of_open i s n .st halign (open_words hopen)
  have hact : spStoreV (oneEnv i s n .st) o rd align alignAt ((activeLanes (o.mask (s.strand n))).map (fun l => (f l, 4))) =
      { reads := [rs o.a] ++ rd ++ [rv o.q, .k (msK o)], next := o.step (o.addr (s.strand n) 256) 256,
        commit := fun t => t.onCore (n / 8) (fun co => co.spWords ((activeLanes (o.mask (s.strand n))).map (fun l =>
          (f l, lane ((s.strand n).getV o.q.toNat) l)))) } := by
    rw [← zip_words _ f (fun l => lane ((s.strand n).getV o.q.toNat) l)]
    simp only [spStoreV, hcheck, msMask_one, msAddr_one]
    rfl
  exact sticky_commits h hsl hw hcall rfl hi (hop.trans hact) ⟨hreads, nofun, Nat.le_refl 0, rfl, rfl, rfl, rfl⟩
    rfl rfl rfl rfl rfl rfl

theorem opSpst_eq (i : Instr) : opSpst o (oneEnv i s n .st) = spStoreV (oneEnv i s n .st) o [] 128
    (if ((activeLanes (o.mask (s.strand n))).map (fun l => ((o.addr (s.strand n) 256).toNat + 4 * l, 4))).isEmpty then []
      else [((o.addr (s.strand n) 256).toNat, 1)])
    ((activeLanes (o.mask (s.strand n))).map (fun l => ((o.addr (s.strand n) 256).toNat + 4 * l, 4))) := by
  rw [opSpst, msMask_one]
  rfl
theorem opSpstx_eq (i : Instr) : opSpstx o (oneEnv i s n .st) = spStoreV (oneEnv i s n .st) o [rv o.index] 4
    ((activeLanes (o.mask (s.strand n))).map (fun l => (laneAddr o (s.strand n) l, 4)))
    ((activeLanes (o.mask (s.strand n))).map (fun l => (laneAddr o (s.strand n) l, 4))) := by
  rw [opSpstx, msMask_one, msX_eq_index]
  rfl

theorem exec_spst (hw : WellFormed (.spst o) = true) (h : Issues s n [.s o.a.toNat, .v o.q.toNat] [] 0)
    (ho : ∀ l ∈ activeLanes (o.mask (s.strand n)), (o.addr (s.strand n) 256).toNat % 128 = 0 ∧
      (s.core (n / 8)).open_ ((o.addr (s.strand n) 256).toNat + 4 * l) 4) :
    exec (.spst o) s = .next (s.issued n (bundleLen (.spst o)) [] (primed n .st (.spst o) (o.step (o.addr (s.strand n) 256) 256)
      (fun t => t.onCore (n / 8) (fun co => co.spWords ((activeLanes (o.mask (s.strand n))).map (fun l =>
        ((o.addr (s.strand n) 256).toNat + 4 * l, lane ((s.strand n).getV o.q.toNat) l))))))) := by
  have hreads : ∀ r ∈ [rs o.a] ++ [] ++ [rv o.q, .k (msK o)], r ∈ [Reg.s o.a.toNat, .v o.q.toNat] ∨ r.Quiet := by
    simp [rs, rv, Reg.quiet_k]
  exact spStoreV_issued (i := .spst o) (rd := []) h rfl hw rfl nofun hreads (opSpst_eq (.spst o))
    (aligned_base fun l hl => (ho l hl).1) (fun l hl => (ho l hl).2)
theorem exec_spstx (hw : WellFormed (.spstx o) = true)
    (h : Issues s n [.s o.a.toNat, .v o.q.toNat, .v o.index.toNat] [] 0)
    (ho : ∀ l ∈ activeLanes (o.mask (s.strand n)), laneAddr o (s.strand n) l % 4 = 0 ∧
      (s.core (n / 8)).open_ (laneAddr o (s.strand n) l) 4) :
    exec (.spstx o) s = .next (s.issued n (bundleLen (.spstx o)) [] (primed n .st (.spstx o) (o.step (o.addr (s.strand n) 256) 256)
      (fun t => t.onCore (n / 8) (fun co => co.spWords ((activeLanes (o.mask (s.strand n))).map (fun l =>
        (laneAddr o (s.strand n) l, lane ((s.strand n).getV o.q.toNat) l))))))) := by
  have hreads : ∀ r ∈ [rs o.a] ++ [rv o.index] ++ [rv o.q, .k (msK o)],
      r ∈ [Reg.s o.a.toNat, .v o.q.toNat, .v o.index.toNat] ∨ r.Quiet := by
    simp [rs, rv, Reg.quiet_k]
  exact spStoreV_issued (i := .spstx o) (rd := [rv o.index]) h rfl hw rfl nofun hreads (opSpstx_eq (.spstx o))
    (aligned_words fun l hl => (ho l hl).1) (fun l hl => (ho l hl).2)

theorem exec_spsts (hw : WellFormed (.spsts o) = true) (h : Issues s n [.s o.a.toNat, .s o.q.toNat] [] 0)
    (ha : (o.addr (s.strand n) 8).toNat % 8 = 0) (ho : (s.core (n / 8)).open_ (o.addr (s.strand n) 8).toNat 8) :
    exec (.spsts o) s = .next (s.issued n (bundleLen (.spsts o)) [] (primed n .st (.spsts o) (o.step (o.addr (s.strand n) 8) 8)
      (fun t => t.onCore (n / 8) (fun co =>
        co.spWrite (o.addr (s.strand n) 8).toNat 8 ((s.strand n).getS o.q.toNat).toNat false)))) := by
  have hcheck := spadCheck_scalar (.spsts o) .st ha ho
  have hop : opOf (.spsts o) (oneEnv (.spsts o) s n .st) =
      { reads := [rs o.a, rs o.q], next := o.step (o.addr (s.strand n) 8) 8,
        commit := fun t => t.onCore (n / 8) (fun co =>
          co.spWrite (o.addr (s.strand n) 8).toNat 8 ((s.strand n).getS o.q.toNat).toNat false) } := by
    change opSpsts o _ = _
    simp only [opSpsts, msAddr_one, hcheck]
    rfl
  exact sticky_commits h rfl hw rfl rfl nofun hop ⟨fun r hr => .inl hr, nofun, Nat.le_refl 0, rfl, rfl, rfl, rfl⟩
    rfl rfl rfl rfl rfl rfl

end

/-- Settles O17: each access whose words are aligned and open is one clear commit of its slot. -/
theorem scratchpadAccesses : Obligations.ScratchpadAccesses :=
  ⟨⟨fun _ _ _ hw h ho => exec_spld hw h ho, fun _ _ _ hw h ho => exec_spldb hw h ho, fun _ _ _ hw h ho => exec_spldx hw h ho,
      fun _ _ _ hw h ha ho => exec_splds hw h ha ho⟩,
    fun _ _ _ hw h ho => exec_spst hw h ho, fun _ _ _ hw h ho => exec_spstx hw h ho,
    fun _ _ _ hw h ha ho => exec_spsts hw h ha ho⟩

end Sys2Proof.Machine
end

section
/-! PROOFS. MARK pairs (R28, R42, R59, R233). -/

set_option Elab.async false

namespace Sys2Proof.Machine

/-- A handler's strand in the delay bundle of its RTE (R42): ST's engine holds a MARK, and the engines that return with the RTE are
empty. -/
def markUnderRte : State :=
  { State.reset with
    strands := [(0, { run := .active, tl := true, eng := [(6, ⟨.mark .st ⟨0, 0⟩, 0⟩)], delay := some .ret })]
    cores := [(0, { active := some 0 })] }

/-- The engines of a strand after a step. -/
def enginesAfter (n : Nat) : Host.Outcome State Fault Refusal → SMap Engine
  | .next t => (t.strand n).eng
  | _ => []

/-- The pair commits, and then the end of the delay bundle reloads the engines from XSTK. -/
theorem enginesAfter_markUnderRte : enginesAfter 0 (exec (.mark .ld ⟨0, 0⟩) markUnderRte) = [] := by decide +kernel

/-- Refutes O21: a pair that stands in the delay bundle of an RTE does not stay in the engines, which that bundle's end reloads from
XSTK (R42). -/
theorem not_marksAndPublications : ¬ Obligations.MarksAndPublications := by
  intro h
  obtain ⟨⟨hpair, -⟩, -⟩ := h
  obtain ⟨t, hexec, -, -, -, -, heng⟩ := hpair ⟨0, 0⟩ markUnderRte 0 0 (by decide +kernel) (by decide +kernel) (by decide +kernel)
    (by decide +kernel) (by decide +kernel) (by decide +kernel) (by decide +kernel) (by decide +kernel)
  have hempty : (t.strand 0).eng = [] := by
    have h := enginesAfter_markUnderRte
    rwa [hexec] at h
  rw [heng] at hempty
  cases hempty

end Sys2Proof.Machine
end

section
/-! PROOFS. Words and the numbers they stand for. -/

set_option Elab.async false

namespace Sys2Proof.Machine

/-! ## Signed readings and wrapping -/

theorem ofNat_wrap (n : Nat) (x : Int) : BitVec.ofNat n (wrap n x) = BitVec.ofInt n x := by
  apply BitVec.eq_of_toNat_eq
  have hnonneg : 0 ≤ x % (2 ^ n : Nat) := Int.emod_nonneg _ (by positivity)
  have hlt : x % (2 ^ n : Nat) < (2 ^ n : Nat) := Int.emod_lt_of_pos _ (by positivity)
  rw [wrap, BitVec.toNat_ofNat, BitVec.toNat_ofInt, Nat.mod_eq_of_lt (by omega)]

theorem sext_toNat {n : Nat} (h : 0 < n) (x : BitVec n) : sext n x.toNat = x.toInt := by
  have hpow : 2 ^ n = 2 * 2 ^ (n - 1) := by rw [← Nat.pow_succ']; congr 1; omega
  rw [sext, Nat.mod_eq_of_lt x.isLt, BitVec.toInt_eq_toNat_cond]
  split <;> split <;> omega
@[simp] theorem i64_toNat (x : Word) : i64 x.toNat = x.toInt := sext_toNat (by decide) x

theorem fld_toNat (x : Word) (lo n : Nat) : fld x.toNat lo n = (x.extractLsb' lo n).toNat := by
  rw [BitVec.extractLsb'_toNat, Nat.shiftRight_eq_div_pow]; rfl
theorem bitOf_toNat {n : Nat} (x : BitVec n) (i : Nat) : bitOf x.toNat i = x.getLsbD i := by
  rw [bitOf, ← Nat.testBit_eq_decide_div_mod_eq]; rfl

theorem popCount_eq_countP (v n i : Nat) : popCount v n i = (List.range' i n).countP (bitOf v) := by
  induction n generalizing i with
  | zero => rfl
  | succ n ih =>
    rw [popCount, ih, List.range'_succ, List.countP_cons, b2n, Nat.add_comm]

theorem ofNat_ite (p : Prop) [Decidable p] (x y : Word) :
    BitVec.ofNat 64 (if p then x.toNat else y.toNat) = if p then x else y := by
  split <;> rw [BitVec.ofNat_toNat, BitVec.setWidth_eq]

/-- A field replaced in a number: what stands above and below it stays. -/
theorem testBit_replace_field {a v p l : Nat} (hv : v < 2 ^ l) (j : Nat) :
    (a - fld a p l * 2 ^ p + v * 2 ^ p).testBit j =
      if j < p ∨ p + l ≤ j then a.testBit j else v.testBit (j - p) := by
  have hsplit : a = 2 ^ p * (2 ^ l * (a / 2 ^ p / 2 ^ l) + fld a p l) + a % 2 ^ p := by
    rw [fld, Nat.div_add_mod, Nat.div_add_mod]
  have hnew : a - fld a p l * 2 ^ p + v * 2 ^ p = 2 ^ p * (2 ^ l * (a / 2 ^ p / 2 ^ l) + v) + a % 2 ^ p := by
    rw [Nat.mul_add] at hsplit ⊢
    rw [Nat.mul_comm _ (2 ^ p), Nat.mul_comm v]
    omega
  rw [hnew, Nat.testBit_two_pow_mul_add _ (Nat.mod_lt _ (by positivity)), Nat.testBit_two_pow_mul_add _ hv]
  by_cases hp : j < p
  · simp [hp]
  · by_cases hl : j - p < l
    · simp [hp, hl, show ¬ p + l ≤ j by omega]
    · rw [if_neg hp, if_neg hl, if_pos (by omega), ← Nat.shiftRight_eq_div_pow, ← Nat.shiftRight_eq_div_pow,
        Nat.testBit_shiftRight, Nat.testBit_shiftRight]
      congr 1
      omega

end Sys2Proof.Machine
end
section
/-! PROOFS. Scalar integers, predicates and compares (R77 to R89). -/

set_option Elab.async false

namespace Sys2Proof.Machine

/-! ## Results -/

/-- The slot of a scalar unit. -/
def slotOfUnit : SUnit → Slot
  | .a => .sa
  | .b => .sb

theorem sticky_slotOfUnit (u : SUnit) : sticky (slotOfUnit u) = false := by cases u <;> rfl

/-- An operation of a slot is issued. -/
theorem exec_of_slotOf {i : Instr} {sl : Slot} (h : slotOf i = some sl) (s : State) : exec i s = issueOne i s := by
  cases i
  all_goals try cases h
  all_goals rfl

theorem mkResult_eq_sres (e : Env) (d : BitVec 6) (l : Nat) (w : Word) :
    mkResult e (.s d.toNat) l w.toNat = sres e.st d l w := by
  rw [mkResult, BitVec.ofNat_toNat]
  rfl
theorem mkResult_eq_bres (e : Env) (d : BitVec 6) (l : Nat) (v : Bool) : mkResult e (.b d.toNat) l (b2n v) = bres e.st d l v := by
  cases v <;> rfl

theorem Reg.quiet_b (i : Nat) : (Reg.b i).Quiet := fun _ => ⟨rfl, rfl⟩
/-- A register without pending and poison flags may be written at any time. -/
theorem Issues.write_quiet {s : State} {n : Nat} {reads : List Reg} {more : Nat} {r : Reg} (h : Issues s n reads [] more)
    (hr : r.Quiet) : Issues s n reads [r] more := by
  obtain ⟨hv, ha, heng, hb, hroom, hread, -⟩ := h
  refine ⟨hv, ha, heng, hb, hroom, hread, fun x hx => ?_⟩
  rw [List.mem_singleton.1 hx]
  exact (hr _).1

section
variable {i : Instr} {u : SUnit} {regs reads : List Reg} {r : Reg} {d : BitVec 6} {lat : Nat} {v : Env → Nat}

/-- An operation of SA or SB whose action is one result issues with it. -/
theorem exec_of_one {s : State} {n : Nat} (hsl : slotOf i = some (slotOfUnit u)) (hcall : callsIn [(slotOfUnit u, .ok i)] = false)
    (hop : ∀ e, opOf i e = one e regs r lat (v e)) (hregs : ∀ x ∈ regs, x ∈ reads ∨ x.Quiet) (hw : WellFormed i = true)
    (h : Issues s n reads [r] (late lat)) : ∃ e : Env, e.st = s.strand n ∧
      exec i s = .next (s.issued n (bundleLen i) [mkResult e r lat (v e)]) :=
  ⟨oneEnv i s n (slotOfUnit u), rfl, (exec_of_slotOf hsl s).trans
    (one_issued h hw hsl (sticky_slotOfUnit u) hcall (hop _) fun x hx => (hregs x hx).imp id fun q => q _)⟩

/-- An operation whose action is one word of its strand's registers delivers it. -/
theorem delivers_word {w : Strand → Word} (hop : WellFormed i = true → ∀ e, opOf i e = one e regs (rs d) lat (w e.st).toNat)
    (hregs : ∀ x ∈ regs, x ∈ reads ∨ x.Quiet) (hsl : slotOf i = some (slotOfUnit u))
    (hcall : callsIn [(slotOfUnit u, .ok i)] = false) :
    Delivers i reads [.s d.toNat] (late lat) (fun st => [sres st d lat (w st)]) := by
  intro s n hw h
  obtain ⟨e, hst, hexec⟩ := exec_of_one hsl hcall (hop hw) hregs hw h
  rw [hexec, rs, mkResult_eq_sres, hst]
/-- An operation whose action is one predicate of its strand's registers delivers it. -/
theorem delivers_flag {p : Strand → Bool} (hop : ∀ e, opOf i e = one e regs (.b d.toNat) 1 (b2n (p e.st)))
    (hregs : ∀ x ∈ regs, x ∈ reads ∨ x.Quiet) (hsl : slotOf i = some (slotOfUnit u))
    (hcall : callsIn [(slotOfUnit u, .ok i)] = false) : Delivers i reads [] 0 (fun st => [bres st d 1 (p st)]) := by
  intro s n hw h
  obtain ⟨e, hst, hexec⟩ := exec_of_one hsl hcall hop hregs hw (h.write_quiet (Reg.quiet_b d.toNat))
  rw [hexec, mkResult_eq_bres, hst]

end

section
variable {mk : SUnit → RG → Instr} {lat : Nat}

/-- The operations of two operands, from the numbers they compute with. -/
theorem scalar2_of_alu2 (g : RG → Nat → Nat → Nat) {f : RG → Word → Word → Word}
    (hval : ∀ u o, WellFormed (mk u o) = true → ∀ a b : Word, BitVec.ofNat 64 (g o a.toNat b.toNat) = f o a b)
    (hop : ∀ u o e, opOf (mk u o) e = alu2 e o lat (g o) := by intros; rfl)
    (hsl : ∀ u o, slotOf (mk u o) = some (slotOfUnit u) := by intro u o; cases u <;> rfl)
    (hcall : ∀ u o, callsIn [(slotOfUnit u, .ok (mk u o))] = false := by intros; rfl) : Scalar2 mk lat f := by
  intro u o
  refine delivers_word (w := fun st => f o (st.getS o.a.toNat) (st.getS o.b.toNat)) (fun hw e => ?_) (fun _ hx => .inl hx) (hsl u o)
    (hcall u o)
  rw [hop, ← hval u o hw, BitVec.toNat_ofNat]
  rfl
/-- The operations of one operand. -/
theorem scalar1_of_alu1 (g : RG → Nat → Nat) {f : RG → Word → Word}
    (hval : ∀ o, ∀ a : Word, BitVec.ofNat 64 (g o a.toNat) = f o a)
    (hop : ∀ u o e, opOf (mk u o) e = alu1 e o (g o) := by intros; rfl)
    (hsl : ∀ u o, slotOf (mk u o) = some (slotOfUnit u) := by intro u o; cases u <;> rfl)
    (hcall : ∀ u o, callsIn [(slotOfUnit u, .ok (mk u o))] = false := by intros; rfl) : Scalar1 mk f := by
  intro u o
  refine delivers_word (lat := 1) (w := fun st => f o (st.getS o.a.toNat)) (fun _ e => ?_) (fun _ hx => .inl hx) (hsl u o) (hcall u o)
  rw [hop, ← hval, BitVec.toNat_ofNat]
  rfl

end

theorem siImm_eq_value (o : SI) : siImm o = o.value := by
  simp only [siImm, SI.value, sx]
/-- The operations with an immediate. -/
theorem scalarImm_of_aluI {mk : SUnit → SI → Instr} (g : Nat → Nat → Nat) {f : Word → Word → Word}
    (hval : ∀ a b : Word, BitVec.ofNat 64 (g a.toNat b.toNat) = f a b)
    (hop : ∀ u o e, opOf (mk u o) e = aluI e o g := by intros; rfl)
    (hsl : ∀ u o, slotOf (mk u o) = some (slotOfUnit u) := by intro u o; cases u <;> rfl)
    (hcall : ∀ u o, callsIn [(slotOfUnit u, .ok (mk u o))] = false := by intros; rfl) : ScalarImm mk f := by
  intro u o
  refine delivers_word (lat := 1) (w := fun st => f (st.getS o.a.toNat) o.value) (fun _ e => ?_) (fun _ hx => .inl hx) (hsl u o)
    (hcall u o)
  rw [hop, ← hval, BitVec.toNat_ofNat, ← siImm_eq_value]
  rfl

/-! ## Integer operations (R80) -/

section
variable (a b : Word)

theorem ofNat_toNat_add : BitVec.ofNat 64 (a.toNat + b.toNat) = a + b := by simp [BitVec.ofNat_add]
theorem ofNat_toNat_sub : BitVec.ofNat 64 (a.toNat + 2 ^ 64 - b.toNat) = a - b := by
  have := b.isLt
  apply BitVec.eq_of_toNat_eq
  rw [BitVec.toNat_ofNat, BitVec.toNat_sub]
  congr 1
  omega
theorem ofNat_toNat_and : BitVec.ofNat 64 (a.toNat &&& b.toNat) = a &&& b := by simp [← BitVec.toNat_and]
theorem ofNat_toNat_or : BitVec.ofNat 64 (a.toNat ||| b.toNat) = a ||| b := by simp [← BitVec.toNat_or]
theorem ofNat_toNat_xor : BitVec.ofNat 64 (a.toNat ^^^ b.toNat) = a ^^^ b := by simp [← BitVec.toNat_xor]

end

section
variable {β : Type} [LinearOrder β] (r : Word → β) (a b : Word)

/-- The smaller of two words, by a reading of words. -/
theorem ofNat_smaller : BitVec.ofNat 64 (if r a ≤ r b then a.toNat else b.toNat) = if r b < r a then b else a := by
  rw [ofNat_ite]
  simp only [← not_lt, ite_not]
/-- The larger, of two words that a reading tells apart. -/
theorem ofNat_larger (hr : Function.Injective r) :
    BitVec.ofNat 64 (if r a ≤ r b then b.toNat else a.toNat) = if r a < r b then b else a := by
  rw [ofNat_ite]
  rcases lt_trichotomy (r a) (r b) with h | h | h
  · rw [if_pos h.le, if_pos h]
  · rw [hr h, if_pos le_rfl, ite_self]
  · rw [if_neg h.not_ge, if_neg h.not_gt]

end

theorem toNat_injective : Function.Injective (BitVec.toNat : Word → Nat) := fun _ _ => BitVec.eq_of_toNat_eq
theorem toInt_injective : Function.Injective (BitVec.toInt : Word → Int) := fun _ _ => BitVec.eq_of_toInt_eq

theorem toNat_eq_zero {n : Nat} (a : BitVec n) : a.toNat = 0 ↔ a = 0 := BitVec.toNat_inj (y := 0#n)
theorem clz64_toNat (a : Word) : clz64 a.toNat = if a = 0 then 64 else 63 - Nat.log2 a.toNat := by
  simp only [clz64, ilog2, toNat_eq_zero]
theorem popCount_toNat (a : Word) : popCount a.toNat 64 0 = (List.range 64).countP (fun i => a.getLsbD i) := by
  rw [popCount_eq_countP, List.range_eq_range']
  exact congrArg (fun p => (List.range' 0 64).countP p) (funext (bitOf_toNat a))

/-- Settles O1: the numbers that the operations compute with give the words of R80. -/
theorem scalarIntegers : Obligations.ScalarIntegers := by
  refine ⟨scalar2_of_alu2 (fun _ a b => a + b) fun _ _ _ => ofNat_toNat_add,
    scalar2_of_alu2 (fun _ a b => a + 2 ^ 64 - b) fun _ _ _ => ofNat_toNat_sub,
    scalar2_of_alu2 (fun _ a b => a &&& b) fun _ _ _ => ofNat_toNat_and,
    scalar2_of_alu2 (fun _ a b => a ||| b) fun _ _ _ => ofNat_toNat_or,
    scalar2_of_alu2 (fun _ a b => a ^^^ b) fun _ _ _ => ofNat_toNat_xor,
    scalar2_of_alu2 (fun _ a b => if a ≤ b then a else b) fun _ _ _ a b => ?_,
    scalar2_of_alu2 (fun _ a b => if a ≤ b then b else a) fun _ _ _ a b => ?_,
    scalar2_of_alu2 (fun _ a b => if i64 a ≤ i64 b then a else b) fun _ _ _ a b => ?_,
    scalar2_of_alu2 (fun _ a b => if i64 a ≤ i64 b then b else a) fun _ _ _ a b => ?_,
    scalarImm_of_aluI (fun a b => a + b) ofNat_toNat_add, scalarImm_of_aluI (fun a b => a &&& b) ofNat_toNat_and,
    scalarImm_of_aluI (fun a b => a ||| b) ofNat_toNat_or, scalarImm_of_aluI (fun a b => a ^^^ b) ofNat_toNat_xor,
    scalar1_of_alu1 (fun _ => clz64) fun _ a => by rw [clz64_toNat],
    scalar1_of_alu1 (fun _ a => popCount a 64 0) fun _ a => by rw [popCount_toNat]⟩
  · simpa [BitVec.ult] using ofNat_smaller BitVec.toNat a b
  · simpa [BitVec.ult] using ofNat_larger BitVec.toNat a b toNat_injective
  · simpa [BitVec.slt] using ofNat_smaller BitVec.toInt a b
  · simpa [BitVec.slt] using ofNat_larger BitVec.toInt a b toInt_injective

/-! ## Products and quotients (R81, R82) -/

section
variable (a b : Word)

theorem ofNat_toNat_mul : BitVec.ofNat 64 (a.toNat * b.toNat) = a * b := by simp [BitVec.ofNat_mul]
theorem toInt_eq_zero : b.toInt = 0 ↔ b = 0 := BitVec.toInt_inj (y := 0#64)

theorem ofNat_udiv : BitVec.ofNat 64 (udiv a.toNat b.toNat) = if b = 0 then BitVec.allOnes 64 else a / b := by
  simp only [udiv, toNat_eq_zero]
  split
  · rfl
  · rw [← BitVec.toNat_udiv, BitVec.ofNat_toNat, BitVec.setWidth_eq]
theorem ofNat_urem : BitVec.ofNat 64 (urem a.toNat b.toNat) = if b = 0 then a else a % b := by
  simp only [urem, toNat_eq_zero, ← BitVec.toNat_umod, ofNat_ite]
theorem ofNat_sdivQ : BitVec.ofNat 64 (sdivQ a.toNat b.toNat) =
    if b = 0 then BitVec.allOnes 64 else BitVec.ofInt 64 (a.toInt.tdiv b.toInt) := by
  simp only [sdivQ, i64_toNat, toInt_eq_zero]
  split
  · rfl
  · rw [ofNat_wrap]
theorem ofNat_sremQ : BitVec.ofNat 64 (sremQ a.toNat b.toNat) =
    if b = 0 then a else BitVec.ofInt 64 (a.toInt - b.toInt * a.toInt.tdiv b.toInt) := by
  simp only [sremQ, i64_toNat, toInt_eq_zero]
  split
  · rw [ofNat_wrap, BitVec.ofInt_toInt]
  · rw [ofNat_wrap, Int.tmod_def]

end

/-- Settles O2: the numbers of R81 and R82 give their words. -/
theorem productsAndQuotients : Obligations.ProductsAndQuotients :=
  ⟨scalar2_of_alu2 (fun _ a b => a * b) fun _ _ _ => ofNat_toNat_mul,
    scalar2_of_alu2 (fun _ a b => a * b / 2 ^ 64) fun _ _ _ _ _ => rfl,
    scalar2_of_alu2 (fun _ a b => wrap 64 (i64 a * i64 b / (2 ^ 64 : Nat))) fun _ _ _ a b => by
      rw [ofNat_wrap, i64_toNat, i64_toNat]; rfl,
    scalar2_of_alu2 (fun _ => udiv) fun _ _ _ => ofNat_udiv, scalar2_of_alu2 (fun _ => urem) fun _ _ _ => ofNat_urem,
    scalar2_of_alu2 (fun _ => sdivQ) fun _ _ _ => ofNat_sdivQ, scalar2_of_alu2 (fun _ => sremQ) fun _ _ _ => ofNat_sremQ⟩

/-! ## Shifts, fields and moves (R78, R83 to R86) -/

section
variable (o : RG) (a b : Word)

theorem ofNat_shiftLeft (n : Nat) : BitVec.ofNat 64 (a.toNat * 2 ^ n) = a <<< n := by
  apply BitVec.eq_of_toNat_eq
  rw [BitVec.toNat_ofNat, BitVec.toNat_shiftLeft, Nat.shiftLeft_eq]
theorem ofNat_shiftRight (n : Nat) : BitVec.ofNat 64 (a.toNat / 2 ^ n) = a >>> n := by
  rw [← Nat.shiftRight_eq_div_pow, ← BitVec.toNat_ushiftRight, BitVec.ofNat_toNat, BitVec.setWidth_eq]
theorem ofNat_sshiftRight (n : Nat) : BitVec.ofNat 64 (wrap 64 (i64 a.toNat / (2 ^ n : Nat))) = a.sshiftRight n := by
  rw [ofNat_wrap, i64_toNat, BitVec.sshiftRight, Int.shiftRight_eq_div_pow]
theorem ofNat_rotateLeft {n : Nat} (h : n < 64) :
    BitVec.ofNat 64 ((a.toNat * 2 ^ n) % 2 ^ 64 ||| a.toNat / 2 ^ (64 - n)) = a.rotateLeft n := by
  have hnum : (a.rotateLeft n).toNat = (a.toNat * 2 ^ n) % 2 ^ 64 ||| a.toNat / 2 ^ (64 - n) := by
    rw [BitVec.toNat_rotateLeft, Nat.mod_eq_of_lt h, Nat.shiftLeft_eq, Nat.shiftRight_eq_div_pow]
  rw [← hnum, BitVec.ofNat_toNat, BitVec.setWidth_eq]
theorem ofNat_canonVa (n : Nat) :
    BitVec.ofNat 64 (canonVa (BitVec.ofNat 64 (a.toNat + b.toNat * 2 ^ n))).toNat = ((a + b <<< n).setWidth 57).signExtend 64 := by
  rw [BitVec.ofNat_add, ofNat_shiftLeft]
  simp [canonVa]

theorem shAmt_lt : shAmt o b.toNat < 64 := Nat.mod_lt _ (by decide)

theorem ofNat_sbfx : BitVec.ofNat 64 (if bitOf (extOf o) 12 then wrap 64 (sext (bfLen o) (fld a.toNat (bfPos o) (bfLen o)))
      else fld a.toNat (bfPos o) (bfLen o)) =
    if bitOf (extOf o) 12 then (a.extractLsb' (bfPos o) (bfLen o)).signExtend 64
      else (a.extractLsb' (bfPos o) (bfLen o)).setWidth 64 := by
  rw [fld_toNat]
  split
  · rw [ofNat_wrap, sext_toNat (show 0 < bfLen o from Nat.succ_pos _)]
    rfl
  · rw [BitVec.ofNat_toNat]

theorem ofNat_sbfi {p l : Nat} (h : p + l ≤ 64) :
    BitVec.ofNat 64 (a.toNat - fld a.toNat p l * 2 ^ p + fld b.toNat 0 l * 2 ^ p) =
      (a &&& ~~~(((BitVec.allOnes l).setWidth 64 : Word) <<< p)) ||| ((b &&& (BitVec.allOnes l).setWidth 64) <<< p) := by
  have hv : fld b.toNat 0 l < 2 ^ l := Nat.mod_lt _ (by positivity)
  apply BitVec.eq_of_getLsbD_eq
  intro j hj
  have hold : a.toNat.testBit j = a.getLsbD j := rfl
  have hnew : (fld b.toNat 0 l).testBit (j - p) = (decide (j - p < l) && b.getLsbD (j - p)) := by
    rw [fld, Nat.pow_zero, Nat.div_one, Nat.testBit_mod_two_pow]
    rfl
  rw [BitVec.getLsbD_ofNat, testBit_replace_field hv, hold, hnew]
  simp only [BitVec.getLsbD_or, BitVec.getLsbD_and, BitVec.getLsbD_not, BitVec.getLsbD_shiftLeft, BitVec.getLsbD_setWidth,
    BitVec.getLsbD_allOnes]
  have hjp : j - p < 64 := by omega
  by_cases hlow : j < p
  · simp [hj, hlow]
  · by_cases hhigh : p + l ≤ j
    · simp [hj, hlow, hhigh, hjp, show ¬ j - p < l by omega]
    · simp [hj, hlow, hhigh, hjp, show j - p < l by omega]

end

theorem toNat_append_low (hi : BitVec 32) (a : Word) : (hi ++ a.setWidth 32).toNat = hi.toNat * 2 ^ 32 + a.toNat % 2 ^ 32 := by
  rw [BitVec.toNat_append, BitVec.toNat_setWidth, ← Nat.shiftLeft_add_eq_or_of_lt (Nat.mod_lt _ (by decide)), Nat.shiftLeft_eq]

theorem bfield_fits_of_check {c : Option Nat} {o : RG} {d : Nat} (h : (c <|> own (bfPos o + bfLen o > 64) d) = none) :
    bfPos o + bfLen o ≤ 64 := by
  cases c with
  | some _ => cases h
  | none =>
    by_contra hgt
    simp [own, Nat.not_le.1 hgt] at h
theorem bfield_fits (u : SUnit) (o : RG) (hw : WellFormed (.sbfi u o) = true) : bfPos o + bfLen o ≤ 64 :=
  bfield_fits_of_check (check_of_wellFormed hw)

/-- What SBFX delivers of the field it selects. -/
def bfieldOf (o : RG) (a : Nat) : Nat :=
  if bitOf (extOf o) 12 then wrap 64 (sext (bfLen o) (fld a (bfPos o) (bfLen o))) else fld a (bfPos o) (bfLen o)

/-- Settles O3: the numbers that shifts and fields compute with give the words of R83 to R86. -/
theorem scalarFieldsAndMoves : Obligations.ScalarFieldsAndMoves := by
  refine ⟨scalar2_of_alu2 (fun o a b => a * 2 ^ shAmt o b) fun _ o _ a b => ofNat_shiftLeft a _,
    scalar2_of_alu2 (fun o a b => a / 2 ^ shAmt o b) fun _ o _ a b => ofNat_shiftRight a _,
    scalar2_of_alu2 (fun o a b => wrap 64 (i64 a / (2 ^ shAmt o b : Nat))) fun _ o _ a b => ofNat_sshiftRight a _,
    scalar2_of_alu2 (fun o a b => (a * 2 ^ shAmt o b) % 2 ^ 64 ||| a / 2 ^ (64 - shAmt o b)) fun _ o _ a b =>
      ofNat_rotateLeft a (shAmt_lt o b),
    scalar2_of_alu2 (fun o a b => (canonVa (BitVec.ofNat 64 (a + b * 2 ^ (o.f.toNat % 8)))).toNat) fun _ _ _ a b =>
      ofNat_canonVa a b _,
    scalar1_of_alu1 bfieldOf ofNat_sbfx,
    scalar2_of_alu2 (fun o a b => a - fld a (bfPos o) (bfLen o) * 2 ^ bfPos o + fld b 0 (bfLen o) * 2 ^ bfPos o) fun u o hw a b =>
      ofNat_sbfi a b (bfield_fits u o hw), fun u o => ?_, fun u o w hx => ?_, scalar1_of_alu1 (fun _ a => a) fun _ a => by simp,
    fun u o => ?_⟩
  · exact delivers_word (u := u) (regs := []) (lat := 1) (w := fun _ => o.value) (fun _ e => by rw [← siImm_eq_value]; rfl) nofun
      (by cases u <;> rfl) rfl
  · refine delivers_word (u := u) (lat := 1) (w := fun st => w ++ (st.getS o.a.toNat).setWidth 32) (fun _ e => ?_) (fun _ hx => .inl hx)
      (by cases u <;> rfl) rfl
    rw [toNat_append_low, ← Option.getD_some (a := w) (b := 0), ← hx]
    rfl
  · refine delivers_word (u := u) (lat := 1) (w := fun st => if st.getB (o.f.toNat % 8) then st.getS o.a.toNat else st.getS o.b.toNat)
      (regs := [.b (o.f.toNat % 8), rs o.a, rs o.b]) (fun _ e => ?_) ?_ (by cases u <;> rfl) rfl
    · rw [← ofNat_ite, BitVec.toNat_ofNat]
      rfl
    · simp [rs, Reg.quiet_b]

/-! ## Compares and predicates (R87, R88) -/

theorem cond_toNat (c : Nat) (a b : Word) : cond c a.toNat b.toNat = holdsCond c a b := by
  have hand : (a.toNat &&& b.toNat = 0) ↔ (a &&& b = 0) := by rw [← BitVec.toNat_and, toNat_eq_zero]
  rw [Bool.eq_iff_iff]
  rcases c with _ | _ | _ | _ | _ | _ | _ | c
  all_goals simp [cond, holdsCond, BitVec.slt, BitVec.ult, BitVec.toNat_inj, hand]

/-- The operations of two predicates. -/
theorem pred2_of_flag {mk : SUnit → RG → Instr} {f : Bool → Bool → Bool} (hop : ∀ u o e, opOf (mk u o) e = pred2 e o f)
    (hsl : ∀ u o, slotOf (mk u o) = some (slotOfUnit u) := by intro u o; cases u <;> rfl)
    (hcall : ∀ u o, callsIn [(slotOfUnit u, .ok (mk u o))] = false := by intros; rfl) : Pred2 mk f := by
  intro u o
  exact delivers_flag (regs := [.b o.a.toNat, .b o.b.toNat]) (p := fun st => f (st.getB o.a.toNat) (st.getB o.b.toNat)) (hop u o)
    (by simp [Reg.quiet_b]) (hsl u o) (hcall u o)

/-- Settles O4: each compare is one predicate of its operands. -/
theorem comparesAndPredicates : Obligations.ComparesAndPredicates := by
  refine ⟨fun u o => ?_, fun u o w hx => ?_, pred2_of_flag fun _ _ _ => rfl, pred2_of_flag fun _ _ _ => rfl,
    pred2_of_flag fun _ o e => ?_, fun u o => ?_, fun u o => ?_, fun u o => ?_, fun u o => ?_⟩
  · refine delivers_flag (u := u) (p := fun st => holdsCond (o.f.toNat % 16) (st.getS o.a.toNat) (st.getS o.b.toNat))
      (fun e => ?_) (fun _ hx => .inl hx) (by cases u <;> rfl) rfl
    rw [← cond_toNat]
    rfl
  · refine delivers_flag (u := u) (p := fun st => holdsCond (o.imm.toNat % 16) (st.getS o.a.toNat) (w.signExtend 64))
      (fun e => ?_) (fun _ hx => .inl hx) (by cases u <;> rfl) rfl
    rw [← cond_toNat, ← Option.getD_some (a := w) (b := 0), ← hx]
    rfl
  · simp only [← Bool.bne_eq_xor]
    rfl
  · exact delivers_flag (u := u) (regs := [.b o.a.toNat]) (p := fun st => !st.getB o.a.toNat) (fun _ => rfl) (by simp [Reg.quiet_b])
      (by cases u <;> rfl) rfl
  · exact delivers_flag (u := u) (regs := [.b o.a.toNat]) (p := fun st => st.getB o.a.toNat) (fun _ => rfl) (by simp [Reg.quiet_b])
      (by cases u <;> rfl) rfl
  · refine delivers_flag (u := u) (p := fun st => st.getS o.a.toNat != 0) (fun e => ?_) (fun _ hx => .inl hx) (by cases u <;> rfl) rfl
    have hne : decide (e.sv o.a ≠ 0) = (e.st.getS o.a.toNat != 0) := by
      rw [Bool.eq_iff_iff, decide_eq_true_eq, bne_iff_ne, Env.sv, Ne, toNat_eq_zero]
    rw [← hne]
    rfl
  · refine delivers_word (u := u) (lat := 1) (regs := [.b o.a.toNat]) (w := fun st => if st.getB o.a.toNat then 1 else 0) (fun _ e => ?_)
      (by simp [Reg.quiet_b]) (by cases u <;> rfl) rfl
    rw [apply_ite BitVec.toNat]
    rfl

/-! ## Checks (R89, R166) -/

/-- A plain operation that enters no queue and waits for nothing: it takes the trap of its own ILLEGAL_OP condition, or its trap of
group 7, or it has its results and its effect (R37). -/
theorem exec_of_plain {i : Instr} {s : State} {n : Nat} {sl : Slot} {reads writes : List Reg} {more : Nat} {a : Act}
    (h : Issues s n reads writes more) (hw : WellFormed i = true) (hsl : slotOf i = some sl) (hst : sticky sl = false)
    (hcall : callsIn [(sl, .ok i)] = false) (hop : opOf i (oneEnv i s n sl) = a) (hp : a.Plain reads writes more)
    (hblock : a.block = none) (hload : a.loadEnt = 0) (hstore : a.storeEnt = 0) (hpost : a.post = none) :
    exec i s = .next (a.own.elim (a.trap.elim (s.issued n (bundleLen i) a.results a.commit) (s.trapsAt n (bundleLen i)))
      (fun d => s.trapsAt n (bundleLen i) { cause := 2, detail := d, slot := sl.num })) := by
  subst hop
  have hc := check_of_wellFormed hw
  rw [exec_of_slotOf hsl]
  cases hown : (opOf i (oneEnv i s n sl)).own with
  | some d => exact issueOne_illegal h hsl hc hcall hown
  | none =>
    cases htrap : (opOf i (oneEnv i s n sl)).trap with
    | some t => exact issueOne_traps h hsl hc hcall hp hown htrap
    | none =>
      have hcl := h.clear_of_plain hp hown htrap hblock hload hstore
      rw [h.commits hsl hc hcall hcl (.inl hst) hp.ctl (by rw [hpost]; rfl), hpost]
      rfl
/-- An operation without results that may trap: it does so, or nothing happens. -/
theorem exec_of_check {i : Instr} {s : State} {n : Nat} {sl : Slot} {regs reads : List Reg} {t : Option Trap}
    (h : Issues s n reads [] 0) (hw : WellFormed i = true) (hsl : slotOf i = some sl) (hst : sticky sl = false)
    (hcall : callsIn [(sl, .ok i)] = false) (hop : opOf i (oneEnv i s n sl) = { reads := regs, trap := t })
    (hregs : ∀ r ∈ regs, r ∈ reads ∨ r.Quiet) :
    exec i s = .next (t.elim (s.issued n (bundleLen i) []) (s.trapsAt n (bundleLen i))) :=
  exec_of_plain h hw hsl hst hcall hop ⟨hregs, nofun, Nat.le_refl 0, rfl, rfl, rfl, rfl⟩ rfl rfl rfl rfl

theorem num_slotOfUnit (u : SUnit) : (slotOfUnit u).num = u.slot := by cases u <;> rfl
theorem opSchk_eq (u : SUnit) (o : RG) (e : Env) : opSchk u o e =
    { reads := [rs o.a, rs o.b],
      trap := if e.st.getS o.a.toNat = e.st.getS o.b.toNat then none else some (e.trapOf 0x08 0) } := by
  simp only [opSchk, Env.sv, ne_eq, BitVec.toNat_inj, ite_not]
theorem opSchkP_eq (u : SUnit) (o : RG) (e : Env) : opSchkP u o e =
    { reads := [.b o.a.toNat, .b o.b.toNat],
      trap := if e.st.getB o.a.toNat = e.st.getB o.b.toNat then none else some (e.trapOf 0x08 1) } := by
  simp only [opSchkP, bne_iff_ne, ne_eq, ite_not]

/-- The slot of a vector unit. -/
def slotOfVUnit : VUnit → Slot
  | .a => .va
  | .b => .vb

theorem sticky_slotOfVUnit (u : VUnit) : sticky (slotOfVUnit u) = false := by cases u <;> rfl
theorem num_slotOfVUnit (u : VUnit) : (slotOfVUnit u).num = u.slot := by cases u <;> rfl
/-- The lanes in which VCHK finds its operands different (R166). -/
def differing (o : VR) (st : Strand) : List Nat :=
  (List.range 64).filter (fun i => (actLanes (st.getK o.k.toNat) o.ty).getLsbD i &&
    lane (st.getV o.a.toNat) i != lane (st.getV o.b.toNat) i)
theorem opVchk_eq (u : VUnit) (o : VR) (e : Env) : opVchk u o e =
    { reads := [.k o.k.toNat, rv o.a, rv o.b],
      trap := (differing o e.st).head?.map (fun i => e.trapOf 0x08 (2 + 0x100 * i)) } := by
  have hne : ∀ x y : Nat, (x != y) = decide (x ≠ y) := fun x y => by rw [Bool.eq_iff_iff, bne_iff_ne, decide_eq_true_eq]
  rw [opVchk, firstIdx_zero_eq_find?, differing, List.head?_filter]
  simp only [hne]
  rfl

/-- Settles O10: a check is an operation without results that traps where its operands differ. -/
theorem silentChecks : Obligations.SilentChecks := by
  refine ⟨fun u o s n hw h => ?_, fun u o s n hw h => ?_, fun u o s n hw h => ?_⟩
  · have hcheck := exec_of_check h hw (by cases u <;> rfl) (sticky_slotOfUnit u) rfl (opSchk_eq u o _) fun _ hx => .inl hx
    rw [hcheck, ← num_slotOfUnit]
    by_cases heq : (s.strand n).getS o.a.toNat = (s.strand n).getS o.b.toNat <;> simp [oneEnv, Env.trapOf, heq]
  · have hcheck := exec_of_check h hw (by cases u <;> rfl) (sticky_slotOfUnit u) rfl (opSchkP_eq u o _) (by simp [Reg.quiet_b])
    rw [hcheck, ← num_slotOfUnit]
    by_cases heq : (s.strand n).getB o.a.toNat = (s.strand n).getB o.b.toNat <;> simp [oneEnv, Env.trapOf, heq]
  · have hcheck := exec_of_check h hw (by cases u <;> rfl) (sticky_slotOfVUnit u) rfl (opVchk_eq u o _)
      (by simp [VR.rab, rv, Reg.quiet_k])
    rw [hcheck, ← num_slotOfVUnit]
    change _ = Host.Outcome.next (match differing o (s.strand n) with | [] => _ | _ :: _ => _)
    simp only [oneEnv]
    cases differing o (s.strand n) <;> rfl

end Sys2Proof.Machine
end

section
/-! PROOFS. Control transfers and their delay bundle (R91 to R96). -/

set_option Elab.async false

namespace Sys2Proof.Machine

/-! ## The issue of a transfer -/

/-- What a transfer sees that has read the word at its delay bundle (R95). -/
def transferEnv (i : Instr) (s : State) (n : Nat) (w : Fetch) : Env := { oneEnv i s n .ct with delayW := w }

/-- An action whose control transfer is left out. -/
def Act.straight (a : Act) : Act := { a with ctl := .seq }

/-- An action of CT that transfers control to `target`, where `taken`, and meets no condition but a trap of its own. -/
structure Act.Transfers (a : Act) (reads writes : List Reg) (taken : Bool) (target : Word) : Prop where
  plain : a.straight.Plain reads writes 0
  own : a.own = none
  block : a.block = none
  ctl : a.ctl = .jump taken target
  loads : a.loadEnt = 0
  stores : a.storeEnt = 0
  post : a.post = none

section
variable {i : Instr} {s : State} {n : Nat} {w : Fetch} {reads writes : List Reg} {taken : Bool} {target : Word} {a : Act}

theorem acts_of_transfer (heng : (s.strand n).eng = []) :
    (oneIter i n .ct).acts (counted s n) w = [⟨.ct, i, opOf i (transferEnv i s n w)⟩] := by
  rw [Iter.acts, oneIter_execs i (counted s n) n .ct heng]
  rfl

theorem illegal_of_transfer (heng : (s.strand n).eng = []) (hown : (opOf i (transferEnv i s n w)).own = none) :
    illegal (oneIter i n .ct) (counted s n) w = none := by
  have henv : (oneIter i n .ct).env (counted s n) w ⟨.ct, .ok i, none⟩ = transferEnv i s n w := rfl
  rw [illegal, oneIter_execs i (counted s n) n .ct heng]
  simp only [List.findSome?, henv, hown, abortClash_one]
  rfl

/-- Outside a delay bundle a transfer takes no trap but its own (R24, R37). -/
theorem trap_of_transfer (h : Issues s n reads writes 0) (hd : (s.strand n).delay = none)
    (ha : opOf i (transferEnv i s n w) = a) (ht : a.Transfers reads writes taken target) :
    (oneIter i n .ct).trap (counted s n) w = a.trap := by
  obtain ⟨-, -, heng, -, -, -, -⟩ := id h
  have hrule : bundleRule (oneIter i n .ct) (counted s n) [⟨.ct, i, a⟩] = none := by
    have hroom : (s.strand n).inFlight a.results ≤ 16 := h.inFlight_le (a := a.straight) ht.plain
    have htwice : twice a.dests = false := ht.plain.twice
    simp only [bundleRule, oneIter, counted_strand, List.flatMap_cons, List.flatMap_nil, List.append_nil, List.any_cons,
      List.any_nil, Bool.or_false, htwice, hd]
    rw [if_neg (by omega)]
    simp
  have hpend : pendingTrap (s.strand n) [⟨.ct, i, a⟩] = none := h.pendingTrap_eq (sl := .ct) (i := i) (a := a.straight) ht.plain
  have hpoison : poisonTrap (s.strand n) [⟨.ct, i, a⟩] = none := h.poisonTrap_eq (sl := .ct) (i := i) (a := a.straight) ht.plain
  have hn : (oneIter i n .ct).n = n := rfl
  rw [Iter.trap, illegal_of_transfer heng (by rw [ha]; exact ht.own), acts_of_transfer heng, ha]
  simp only [hn, counted_strand, hrule, hpend, hpoison, unpaired_one ⟨.ct, i, a⟩ ht.plain.mark, portClash_one ⟨.ct, i, a⟩ ht.plain.early]
  cases htrap : a.trap <;> simp [List.findSome?, htrap]

theorem blocked_of_transfer (h : Issues s n reads writes 0) (ht : a.Transfers reads writes taken target) :
    (oneIter i n .ct).blocked (counted s n) [⟨.ct, i, a⟩] = none := by
  rw [h.blocked_eq, ht.block, ht.loads, ht.stores]
  rfl

/-- What follows the checks: the transfer's effects, and the bundle behind it is its delay bundle (R91). -/
theorem commit_of_transfer (h : Issues s n reads writes 0) (ht : a.Transfers reads writes taken target) :
    (oneIter i n .ct).commit (counted s n) [⟨.ct, i, a⟩] [] =
      s.issued n (bundleLen i) a.results a.commit (toward taken target) := by
  obtain ⟨-, -, heng, hb, -, -, -⟩ := h
  have hland : (oneIter i n .ct).commit (counted s n) [⟨.ct, i, a⟩] [] = landed i s n .ct a := by
    have hn : (oneIter i n .ct).n = n := rfl
    have hseen : (oneIter i n .ct).seen (counted s n) = s.strand n := by simp [Iter.seen, oneIter, counted_strand]
    simp only [Iter.commit, postOf_one, ctlOf_one, hn, ht.post, Iter.follow, landed, Iter.effects, commitOrder_one, List.foldl_cons,
      List.foldl_nil, List.flatMap_cons, List.flatMap_nil, List.append_nil, hseen, hb, heng, Option.isSome_none, Bool.false_eq_true,
      if_false]
  have hjump : toward taken target = match a.ctl with
      | .seq => none | .jump b t => some (if b then .taken t else .notTaken) | .rte => some .ret := by rw [ht.ctl]; rfl
  have hsame : ({ s.strand n with walk := none, eng := [] } : Strand) = { s.strand n with walk := none } :=
    Strand.with_eng_of_eq (st := { s.strand n with walk := none }) heng
  rw [hland, landed_eq_issued hb (by rw [ht.post]; rfl) hjump, engines_one_of_not_primed (.inl rfl),
    State.issued_congr (g := a.commit)]
  simp only [State.onStrand_eq, strand_setStrand_same, setStrand_setStrand, counted_strand, hsame]

end

section
variable {i : Instr} {s : State} {n : Nat} {regs reads : List Reg} {taken : Bool} {target : Word} {t : Option Trap} {f : State → State}

/-- A transfer without a call: it goes to its target, or takes its trap. -/
theorem exec_of_transfer (h : Issues s n reads [] 0) (hd : (s.strand n).delay = none) (hw : WellFormed i = true)
    (hop : opOf i (oneEnv i s n .ct) = { jump regs taken target with trap := t, commit := f })
    (hregs : ∀ r ∈ regs, r ∈ reads ∨ r.Quiet) (hsl : slotOf i = some .ct := by rfl)
    (hcall : callsIn [(.ct, .ok i)] = false := by rfl) :
    exec i s = .next (t.elim (s.issued n (bundleLen i) [] f (toward taken target)) (s.trapsAt n (bundleLen i))) := by
  have ht : ({ jump regs taken target with trap := t, commit := f } : Act).Transfers reads [] taken target :=
    ⟨⟨hregs, nofun, Nat.le_refl 0, rfl, rfl, rfl, rfl⟩, rfl, rfl, rfl, rfl, rfl, rfl⟩
  rw [exec_of_slotOf hsl, issueOne_attempt h hsl (check_of_wellFormed hw) hcall,
    trap_of_transfer (w := .miss) h hd (a := { jump regs taken target with trap := t, commit := f }) hop ht, hop]
  cases t with
  | some t => rfl
  | none =>
    simp only [jump] at ht ⊢
    rw [blocked_of_transfer h ht]
    simp only
    rw [commit_of_transfer h ht]
    rfl

end

/-! ## Branches and loops (R93, R94, R96) -/

section
variable {s : State} {n : Nat}

theorem targetTrap_of_mayTarget (e : Env) {a : Word} (h : mayTarget a) : targetTrap e a = none := by
  obtain ⟨halign, hcanon⟩ := h
  rw [targetTrap, if_neg (not_not.2 halign), if_neg (not_not.2 (show canonVa a = a from hcanon))]

theorem opBr_eq (o : CJ) (i : Instr) : opBr o (oneEnv i s n .ct) = jump [] true (s.relative n o.off) := rfl
theorem opBrc_eq (o : CC) (i : Instr) : opBrc o (oneEnv i s n .ct) = jump [.b o.p.toNat, .b o.q.toNat]
    (((s.strand n).getB o.p.toNat && (s.strand n).getB o.q.toNat) == (o.sense == 1)) (s.relative n o.off) := rfl
theorem opBri_eq {o : RG} (i : Instr) (hm : mayTarget ((s.strand n).getS o.a.toNat)) :
    opBri o (oneEnv i s n .ct) = jump [rs o.a] true ((s.strand n).getS o.a.toNat) := by
  have htrap : targetTrap (oneEnv i s n .ct) ((oneEnv i s n .ct).sw o.a) = none := targetTrap_of_mayTarget _ hm
  rw [opBri, htrap]
  rfl
theorem opRet_eq (i : Instr) (hm : mayTarget ((s.strand n).getS 63)) :
    opRet (oneEnv i s n .ct) = jump [.s 63] true ((s.strand n).getS 63) := by
  have htrap : targetTrap (oneEnv i s n .ct) ((oneEnv i s n .ct).st.getS 63) = none := targetTrap_of_mayTarget _ hm
  rw [opRet, htrap]
  rfl
/-- The loop counter that a loop operation leaves. -/
def leavesLc (n l : Nat) (c : BitVec 32) (t : State) : State := t.onStrand n (fun st => { st with lc := put 0 st.lc l c })
/-- The count LOOPI starts with (R96). -/
def startCount (o : CL) (st : Strand) : BitVec 32 :=
  (st.getS o.a.toNat).setWidth 32 + (match o.x with | some w => w | none => 0)
theorem opLoopi_eq (o : CL) (i : Instr) : opLoopi o (oneEnv i s n .ct) =
    { jump [rs o.a] (startCount o (s.strand n) == 0) (s.relative n o.off) with
      commit := leavesLc n o.l.toNat (startCount o (s.strand n)) } := by
  have hcount : loopiCount o (oneEnv i s n .ct) = startCount o (s.strand n) := by
    simp only [loopiCount, startCount, Env.sw, oneEnv]
    cases o.x <;> rfl
  simp only [opLoopi, hcount]
  rfl
theorem opLoop_eq (o : CL) (i : Instr) : opLoop o (oneEnv i s n .ct) =
    { jump [] (decide (1 < ((s.strand n).getLc o.l.toNat).toNat)) (s.relative n o.off) with
      commit := leavesLc n o.l.toNat
        (if 1 < ((s.strand n).getLc o.l.toNat).toNat then (s.strand n).getLc o.l.toNat - 1 else 0) } := rfl

theorem not_form_of_chk {form rsv coded rng : Bool} (h : chk form rsv coded rng = none) : form = false := by
  cases form with
  | false => rfl
  | true => cases h
/-- A short form is a header and one word (R46). -/
theorem bundleLen_of_short {i : Instr} {sl : Slot} {w : Nat} {α : Type} {x : Option α} {g : α → Nat}
    (hsl : slotOf i = some sl) (he : encodeOp i = some (w, x.map g)) (hx : x.isSome = false) : bundleLen i = 2 := by
  rw [Option.isSome_eq_false_iff, Option.isNone_iff_eq_none] at hx
  simp only [bundleLen, encode, hsl, he, hx, Option.map_none]
  rfl
theorem bundleLen_bri {o : RG} (hw : WellFormed (.bri o) = true) : bundleLen (.bri o) = 2 :=
  bundleLen_of_short rfl rfl (not_form_of_chk (check_of_wellFormed hw))
theorem bundleLen_calli {o : RG} (hw : WellFormed (.calli o) = true) : bundleLen (.calli o) = 2 :=
  bundleLen_of_short rfl rfl (not_form_of_chk (check_of_wellFormed hw))
theorem bundleLen_loop {o : CL} (hw : WellFormed (.loop o) = true) : bundleLen (.loop o) = 2 :=
  bundleLen_of_short rfl rfl (not_form_of_chk (check_of_wellFormed hw))

theorem exec_br {o : CJ} (hw : WellFormed (.br o) = true) (h : Issues s n [] [] 0) (hd : (s.strand n).delay = none) :
    exec (.br o) s = .next (s.issued n 2 [] id (toward true (s.relative n o.off))) :=
  exec_of_transfer (t := none) h hd hw (opBr_eq o _) nofun
theorem exec_brc {o : CC} (hw : WellFormed (.brc o) = true) (h : Issues s n [] [] 0) (hd : (s.strand n).delay = none) :
    exec (.brc o) s = .next (s.issued n 2 [] id
      (toward (((s.strand n).getB o.p.toNat && (s.strand n).getB o.q.toNat) == (o.sense == 1)) (s.relative n o.off))) :=
  exec_of_transfer (t := none) h hd hw (opBrc_eq o _) (by simp [Reg.quiet_b])
theorem exec_bri {o : RG} (hw : WellFormed (.bri o) = true) (h : Issues s n [.s o.a.toNat] [] 0)
    (hd : (s.strand n).delay = none) (hm : mayTarget ((s.strand n).getS o.a.toNat)) :
    exec (.bri o) s = .next (s.issued n 2 [] id (toward true ((s.strand n).getS o.a.toNat))) := by
  rw [← bundleLen_bri hw]
  exact exec_of_transfer (t := none) h hd hw (opBri_eq _ hm) fun _ hx => .inl hx
theorem exec_ret (hw : WellFormed .ret = true) (h : Issues s n [.s 63] [] 0) (hd : (s.strand n).delay = none)
    (hm : mayTarget ((s.strand n).getS 63)) :
    exec .ret s = .next (s.issued n 2 [] id (toward true ((s.strand n).getS 63))) :=
  exec_of_transfer (t := none) h hd hw (opRet_eq _ hm) fun _ hx => .inl hx
theorem exec_loopi {o : CL} (hw : WellFormed (.loopi o) = true) (h : Issues s n [.s o.a.toNat] [] 0)
    (hd : (s.strand n).delay = none) :
    exec (.loopi o) s = .next (s.issued n (bundleLen (.loopi o)) [] (leavesLc n o.l.toNat (startCount o (s.strand n)))
      (toward (startCount o (s.strand n) == 0) (s.relative n o.off))) :=
  exec_of_transfer (t := none) h hd hw (opLoopi_eq o _) fun _ hx => .inl hx
theorem exec_loop {o : CL} (hw : WellFormed (.loop o) = true) (h : Issues s n [] [] 0) (hd : (s.strand n).delay = none) :
    exec (.loop o) s = .next (s.issued n 2 [] (leavesLc n o.l.toNat
        (if 1 < ((s.strand n).getLc o.l.toNat).toNat then (s.strand n).getLc o.l.toNat - 1 else 0))
      (toward (decide (1 < ((s.strand n).getLc o.l.toNat).toNat)) (s.relative n o.off))) := by
  have hexec := exec_of_transfer (t := none) h hd hw (opLoop_eq o _) nofun
  rwa [bundleLen_loop hw] at hexec

/-! ## Branches on lane masks (R94) -/

theorem lowBit_eq_find? (v m i : Nat) : lowBit v m i = (List.range' i m).find? (bitOf v) := by
  induction m generalizing i with
  | zero => rfl
  | succ m ih =>
    rw [lowBit, ih, List.range'_succ, List.find?_cons]
    cases bitOf v i <;> rfl

/-- The lanes whose bit differs from the lowest's, of the active lanes of a mask: the first. -/
def odd (act x : Word) : Option Nat :=
  (activeLanes act).find? (fun i => x.getLsbD i != x.getLsbD ((activeLanes act).headD 0))
theorem odd_eq (act x : Word) : odd act x = (activeLanes act).head?.bind (fun j =>
    firstIdx (fun i => act.getLsbD i && x.getLsbD i != x.getLsbD j) 64 0) := by
  cases hact : activeLanes act with
  | nil => rw [odd, hact]; rfl
  | cons j l =>
    rw [odd, hact, List.headD_cons, ← hact, activeLanes, List.find?_filter, ← activeLanes, hact, List.head?_cons, Option.bind_some,
      firstIdx_zero_eq_find?]
    simp only [Bool.decide_and, Bool.decide_coe]
theorem lowBit_eq_head? (act : Word) : lowBit act.toNat 64 0 = (activeLanes act).head? := by
  rw [lowBit_eq_find?, ← List.range_eq_range', activeLanes, List.head?_filter]
  exact congrArg (fun p => (List.range 64).find? p) (funext (bitOf_toNat act))
theorem opBrv_eq (o : CC) (i : Instr) : opBrv o (oneEnv i s n .ct) =
    { jump [.k o.p.toNat, .k o.q.toNat] ((((s.strand n).getK o.q.toNat != 0) &&
          ((s.strand n).getK o.p.toNat &&& (s.strand n).getK o.q.toNat) == (s.strand n).getK o.q.toNat) == (o.sense == 1))
        (s.relative n o.off) with
      trap := (odd ((s.strand n).getK o.q.toNat) ((s.strand n).getK o.p.toNat &&& (s.strand n).getK o.q.toNat)).map
        (fun i => { cause := 0x06, detail := i, slot := 0 }) } := by
  generalize hk : (s.strand n).getK o.q.toNat = k
  generalize hx : (s.strand n).getK o.p.toNat &&& k = x
  have htaken : ((k ≠ 0 && x = k) = decide (o.sense = 1) : Bool) = ((k != 0 && x == k) == (o.sense == 1)) := by
    rw [bne, beq_eq_decide, beq_eq_decide, beq_eq_decide, beq_eq_decide, decide_not]
  have hst : (oneEnv i s n .ct).st = s.strand n := rfl
  have hslot : (oneEnv i s n .ct).slot = 0 := rfl
  simp only [opBrv, hst, hk, hx, htaken, Env.trapOf, hslot, lowBit_eq_head?, odd_eq]
  cases (activeLanes k).head? <;> rfl

theorem exec_brv {o : CC} (hw : WellFormed (.brv o) = true) (h : Issues s n [] [] 0) (hd : (s.strand n).delay = none) :
    exec (.brv o) s = .next ((odd ((s.strand n).getK o.q.toNat) ((s.strand n).getK o.p.toNat &&& (s.strand n).getK o.q.toNat)).elim
      (s.issued n 2 [] id (toward (((s.strand n).getK o.q.toNat != 0 &&
        (s.strand n).getK o.p.toNat &&& (s.strand n).getK o.q.toNat == (s.strand n).getK o.q.toNat) == (o.sense == 1))
        (s.relative n o.off)))
      (fun i => s.trapsAt n 2 { cause := 0x06, detail := i, slot := 0 })) := by
  rw [exec_of_transfer (f := id) h hd hw (opBrv_eq o _) (by simp [Reg.quiet_k])]
  cases odd _ _ <;> rfl

end

/-! ## Calls (R95) -/

section
variable {i : Instr} {s t : State} {n : Nat} {w : BitVec 32} {regs reads writes : List Reg} {target : Word} {a : Act}

/-- A transfer that has read the word at its delay bundle and takes no trap. -/
theorem exec_of_fetched (hv : s.pkg.viral = false) (ha : s.activeOf s.cur = some n)
    (hf : s.fetchWord n (canonVa ((s.strand n).pc + 8)) = (t, .word w)) (h : Issues t n reads writes 0)
    (hd : (t.strand n).delay = none) (hw : WellFormed i = true) (hlen : bundleLen i = 2)
    (hact : opOf i (transferEnv i t n (.word w)) = a) (ht : a.Transfers reads writes true target) (htrap : a.trap = none)
    (hsl : slotOf i = some .ct) (hcall : callsIn [(.ct, .ok i)] = true) :
    exec i s = .next (t.issued n 2 a.results a.commit (toward true target)) := by
  obtain ⟨-, -, heng, -, -, -, -⟩ := id h
  have hafter : (oneIter i n .ct).after s = canonVa ((s.strand n).pc + 8) := by
    simp only [Iter.after, oneIter, hlen]
    rfl
  have hn : (oneIter i n .ct).n = n := rfl
  have hops : (oneIter i n .ct).ops = [(.ct, .ok i)] := rfl
  have hcount : t.onCore (n / 8) (fun co => { co with count := co.count + 1 }) = counted t n := rfl
  have hatt : issueOne i s = .next ((oneIter i n .ct).attempt s []) := by
    simp only [issueOne, ha, hsl, check_of_wellFormed hw, oneIter]
  rw [exec_of_slotOf hsl, hatt]
  simp only [Iter.attempt, hv, hops, hcall, hn, hafter, hf, hcount, Bool.false_eq_true, if_false, if_true,
    trap_of_transfer h hd hact ht, htrap, acts_of_transfer heng, hact, blocked_of_transfer h ht, commit_of_transfer h ht, hlen]

/-- The address that a call leaves in s63: behind its delay bundle, whose header gives the length (R95). -/
def returnTo (t : State) (n : Nat) (w : BitVec 32) : Word :=
  canonVa (canonVa ((t.strand n).pc + 8) + BitVec.ofNat 64 (4 * fld w.toNat 22 6))

/-- A call whose delay bundle's word is fetched. -/
theorem exec_of_call (hv : s.pkg.viral = false) (ha : s.activeOf s.cur = some n)
    (hf : s.fetchWord n (canonVa ((s.strand n).pc + 8)) = (t, .word w)) (h : Issues t n reads [.s 63] 0)
    (hd : (t.strand n).delay = none) (hw : WellFormed i = true) (hlen : bundleLen i = 2)
    (hop : opOf i (transferEnv i t n (.word w)) = callOp (transferEnv i t n (.word w)) regs none target)
    (hregs : ∀ r ∈ regs, r ∈ reads ∨ r.Quiet) (hsl : slotOf i = some .ct) (hcall : callsIn [(.ct, .ok i)] = true) :
    exec i s = .next (t.issued n 2 [sres (t.strand n) 63 1 (returnTo t n w)] id (toward true target)) := by
  have hret : retAddr (transferEnv i t n (.word w)) = returnTo t n w := by
    simp only [retAddr, transferEnv, Env.delayAt, oneEnv, hlen]
    rfl
  have hres : mkResult (transferEnv i t n (.word w)) (.s 63) 1 (retAddr (transferEnv i t n (.word w))).toNat =
      sres (t.strand n) 63 1 (returnTo t n w) := by
    rw [← hret]
    exact mkResult_eq_sres (transferEnv i t n (.word w)) 63 1 _
  have hact : opOf i (transferEnv i t n (.word w)) =
      { jump regs true target with dests := [(.s 63, 1)], results := [sres (t.strand n) 63 1 (returnTo t n w)] } := by
    rw [hop, ← hres]
    rfl
  exact exec_of_fetched hv ha hf h hd hw hlen hact
    ⟨⟨hregs, fun r hr => hr, Nat.le_refl 0, twice_one _, rfl, rfl, rfl⟩, rfl, rfl, rfl, rfl, rfl, rfl⟩ rfl hsl hcall

theorem exec_call {o : CJ} (hw : WellFormed (.call o) = true) (hv : s.pkg.viral = false) (ha : s.activeOf s.cur = some n)
    (hf : s.fetchWord n (canonVa ((s.strand n).pc + 8)) = (t, .word w)) (h : Issues t n [] [.s 63] 0)
    (hd : (t.strand n).delay = none) :
    exec (.call o) s = .next (t.issued n 2 [sres (t.strand n) 63 1 (returnTo t n w)] id (toward true (t.relative n o.off))) :=
  exec_of_call (regs := []) hv ha hf h hd hw rfl rfl nofun rfl rfl
theorem exec_calli {o : RG} (hw : WellFormed (.calli o) = true) (hv : s.pkg.viral = false) (ha : s.activeOf s.cur = some n)
    (hf : s.fetchWord n (canonVa ((s.strand n).pc + 8)) = (t, .word w)) (h : Issues t n [.s o.a.toNat] [.s 63] 0)
    (hd : (t.strand n).delay = none) (hm : mayTarget ((t.strand n).getS o.a.toNat)) :
    exec (.calli o) s = .next (t.issued n 2 [sres (t.strand n) 63 1 (returnTo t n w)] id
      (toward true ((t.strand n).getS o.a.toNat))) := by
  have htrap : targetTrap (transferEnv (.calli o) t n (.word w)) ((transferEnv (.calli o) t n (.word w)).sw o.a) = none :=
    targetTrap_of_mayTarget _ hm
  have hop : opOf (.calli o) (transferEnv (.calli o) t n (.word w)) =
      callOp (transferEnv (.calli o) t n (.word w)) [rs o.a] none ((t.strand n).getS o.a.toNat) := by
    change opCalli o _ = _
    rw [opCalli, htrap]
    rfl
  exact exec_of_call hv ha hf h hd hw (bundleLen_calli hw) hop (fun _ hx => .inl hx) rfl rfl

end

/-- Settles O12: each transfer is one action of CT that names its target. -/
theorem transfers : Obligations.Transfers := by
  refine ⟨⟨fun o s n hw h hd => exec_br hw h hd, fun o s n hw h hd => exec_brc hw h hd, fun o s n hw h hd hm => exec_bri hw h hd hm,
    fun s n hw h hd hm => exec_ret hw h hd hm, fun o s n hw h hd => exec_loopi hw h hd, fun o s n hw h hd => exec_loop hw h hd⟩,
    fun o s n hw h hd => ?_, fun o s n w hw hv ha => ?_, fun o s n w hw hv ha => ?_⟩
  · rw [exec_brv hw h hd]
    change _ = Host.Outcome.next (match odd _ _ with | none => _ | some _ => _)
    cases odd ((s.strand n).getK o.q.toNat) ((s.strand n).getK o.p.toNat &&& (s.strand n).getK o.q.toNat) <;> rfl
  · exact fun hf h hd => exec_call hw hv ha (Prod.ext rfl hf) h hd
  · exact fun hf h hd hm => exec_calli hw hv ha (Prod.ext rfl hf) h hd hm

end Sys2Proof.Machine
end

section
/-! PROOFS. The MX slot: its queue, and MSTAT (R177, R183, R196 to R199). -/

set_option Elab.async false

namespace Sys2Proof.Machine

/-! ## The oldest mark (R183, R198) -/

theorem mem_of_find? {α : Type} {m : SMap α} {k : Nat} {v : α} (h : find? m k = some v) : (k, v) ∈ m := by
  induction m with
  | nil => cases h
  | cons p m ih =>
    obtain ⟨j, w⟩ := p
    rw [find?] at h
    split at h
    · next hj =>
      cases h
      rw [hj]
      exact List.mem_cons_self
    · exact List.mem_cons_of_mem _ (ih h)
theorem Strand.exists_of_mem_getE {st : Strand} {k : Nat} {c : Completion} (h : c ∈ st.getE k) : ∃ l, (k, l) ∈ st.sem ∧ c ∈ l := by
  rw [Strand.getE, look] at h
  cases hl : find? st.sem k with
  | none => simp [hl] at h
  | some l =>
    rw [hl] at h
    exact ⟨l, mem_of_find? hl, h⟩

theorem Strand.mem_marked {st : Strand} {q : Nat × Completion} :
    q ∈ st.marked ↔ ∃ p ∈ st.sem, p.1 = q.1 ∧ q.2 ∈ p.2 ∧ q.2.mark.isSome = true := by
  obtain ⟨k, c⟩ := q
  rw [Strand.marked, ← List.flatMap_eq_foldl, List.mem_flatMap]
  simp only [List.mem_map, List.mem_filter, Prod.mk.injEq]
  constructor
  · rintro ⟨p, hp, d, ⟨hd, hm⟩, hk, rfl⟩
    exact ⟨p, hp, hk, hd, hm⟩
  · rintro ⟨p, hp, hk, hc, hm⟩
    exact ⟨p, hp, c, ⟨hc, hm⟩, hk, rfl⟩

theorem Strand.marked_eq_nil {st : Strand} (h : ∀ p ∈ st.sem, ∀ c ∈ p.2, c.mark = none) : st.marked = [] := by
  rw [List.eq_nil_iff_forall_not_mem]
  intro q hq
  obtain ⟨p, hp, -, hc, hm⟩ := Strand.mem_marked.1 hq
  rw [h p hp q.2 hc] at hm
  cases hm

/-- The completion `c` of e[k] carries a mark, and it was appended before every other that does. -/
structure Strand.OldestMark (st : Strand) (k : Nat) (c : Completion) (m : Mark) : Prop where
  mem : c ∈ st.getE k
  mark : c.mark = some m
  first : ∀ p ∈ st.sem, ∀ d ∈ p.2, d.mark ≠ none → (p.1, d) = (k, c) ∨ c.order < d.order

section
variable {st : Strand} {k : Nat} {c : Completion} {m : Mark}

theorem Strand.OldestMark.oldest_marked (h : st.OldestMark k c m) : oldest st.marked = some (k, c) := by
  obtain ⟨hmem, hmark, hfirst⟩ := h
  obtain ⟨l, hl, hc⟩ := Strand.exists_of_mem_getE hmem
  refine oldest_eq (Strand.mem_marked.2 ⟨(k, l), hl, rfl, hc, by rw [hmark]; rfl⟩) fun q hq hne => ?_
  obtain ⟨p, hp, hk, hd, hm⟩ := Strand.mem_marked.1 hq
  refine (hfirst p hp q.2 hd (Option.isSome_iff_ne_none.1 hm)).resolve_left fun heq => hne ?_
  rw [← heq, hk]

theorem Strand.OldestMark.faultWord_eq (h : st.OldestMark k c m) : faultWord st =
    m.cause * 2 ^ 56 + m.detail % 2 ^ 16 * 2 ^ 40 + m.index % 2 ^ 12 * 2 ^ 28 + k * 2 ^ 24 + m.addr.toNat % 2 ^ 24 := by
  simp only [faultWord, h.oldest_marked, h.mark]

theorem Strand.OldestMark.takeMark_eq (h : st.OldestMark k c m) : st.takeMark =
    { st with sem := upd st.sem k ((st.getE k).map (fun d => if d.order = c.order then { d with mark := none } else d)) } := by
  simp only [Strand.takeMark, h.oldest_marked]

/-- Of the completions of e[k], the one appended with `c` is `c`, or it carries no mark. -/
theorem Strand.OldestMark.clears_only (h : st.OldestMark k c m) {d : Completion} (hd : d ∈ st.getE k) :
    (if d.order = c.order then { d with mark := none } else d) = if d = c then { d with mark := none } else d := by
  by_cases heq : d = c
  · rw [heq, if_pos rfl, if_pos rfl]
  · rw [if_neg heq]
    split
    · next horder =>
      obtain ⟨l, hl, hdl⟩ := Strand.exists_of_mem_getE hd
      have hmark : d.mark = none := by
        by_contra hne
        rcases h.first (k, l) hl d hdl hne with hsame | hlt
        · exact heq (Prod.mk.inj hsame).2
        · omega
      rw [← hmark]
    · rfl

theorem Strand.OldestMark.takeMark_getE (h : st.OldestMark k c m) (e : Nat) :
    st.takeMark.getE e = (st.getE e).map (fun d => if e = k ∧ d = c then { d with mark := none } else d) := by
  rw [h.takeMark_eq]
  by_cases he : e = k
  · subst he
    rw [Strand.getE, look_upd_same]
    refine List.map_congr_left fun d hd => ?_
    simp only [h.clears_only hd, true_and]
  · rw [Strand.getE, look_upd_other _ _ _ he]
    simp only [he, false_and, if_false, List.map_id']
    rfl

end

/-! ## MSTAT (R198) -/

section
variable {s : State} {n : Nat}

/-- The status word that MSTAT reads (R198). -/
def statusOf (s : State) (n : Nat) : Nat :=
  (s.core (n / 8)).ownedBy (n % 8) * 2 ^ 48 + (if (s.strand n).marked.isEmpty then 0 else 16) + (if (s.strand n).sat then 8 else 0) +
    (s.core (n / 8)).outstanding (n % 8)
theorem mstatWord_eq (i : Instr) : mstatWord (oneEnv i s n .mx) = statusOf s n := by
  have hcore : (oneEnv i s n .mx).s.core (oneEnv i s n .mx).c = (counted s n).core (n / 8) := rfl
  have hst : (oneEnv i s n .mx).st = s.strand n := rfl
  simp only [mstatWord, hcore, counted_core, hst, statusOf]
  cases (s.strand n).marked.isEmpty <;> cases (s.strand n).sat <;> rfl

/-- MSTAT in one of its forms: one scalar result, and an effect. -/
theorem exec_of_mstat {i : Instr} {regs : List Reg} {d : BitVec 6} {v : Nat} {f : State → State}
    (h : Issues s n [] [.s d.toNat] 0) (hw : WellFormed i = true)
    (hop : opOf i (oneEnv i s n .mx) = { one (oneEnv i s n .mx) regs (rs d) 1 v with commit := f })
    (hregs : ∀ r ∈ regs, r ∈ [] ∨ r.Quiet) (hsl : slotOf i = some .mx := by rfl)
    (hcall : callsIn [(.mx, .ok i)] = false := by rfl) :
    exec i s = .next (s.issued n (bundleLen i) [lres (s.strand n) d 1 v false] f) :=
  exec_of_plain h hw hsl rfl hcall hop ⟨hregs, fun _ hr => hr, Nat.le_refl 0, twice_one _, rfl, rfl, rfl⟩ rfl rfl rfl rfl

theorem exec_mstat {o : RG} (hw : WellFormed (.mstat o) = true) (h : Issues s n [] [.s o.d.toNat] 0) :
    exec (.mstat o) s = .next (s.issued n (bundleLen (.mstat o)) [lres (s.strand n) o.d 1 (statusOf s n) false]) := by
  rw [← mstatWord_eq (.mstat o)]
  exact exec_of_mstat h hw rfl nofun
theorem exec_mstatCsat {o : RG} (hw : WellFormed (.mstatCsat o) = true) (h : Issues s n [] [.s o.d.toNat] 0) :
    exec (.mstatCsat o) s = .next (s.issued n (bundleLen (.mstatCsat o)) [lres (s.strand n) o.d 1 (statusOf s n) false]
      (fun t => t.onStrand n (fun st => { st with sat := false }))) := by
  rw [← mstatWord_eq (.mstatCsat o)]
  exact exec_of_mstat h hw rfl nofun
theorem exec_mstatSetm {o : RG} (hw : WellFormed (.mstatSetm o) = true) (h : Issues s n [.s o.a.toNat] [] 0) :
    exec (.mstatSetm o) s = .next (s.issued n (bundleLen (.mstatSetm o))
      [⟨.m o.d.toNat, ((s.strand n).getS o.a.toNat).setWidth 2048, 0, 15, 1, (s.strand n).tl, 0, false⟩]) := by
  have hquiet : (Reg.m o.d.toNat).Quiet := fun _ => ⟨rfl, rfl⟩
  rw [← BitVec.ofNat_toNat]
  exact exec_of_plain (h.write_quiet hquiet) hw rfl rfl rfl rfl
    ⟨fun _ hr => .inl hr, fun _ hr => hr, Nat.le_refl 0, twice_one _, rfl, rfl, rfl⟩ rfl rfl rfl rfl
theorem exec_mstatGetm {o : RG} (hw : WellFormed (.mstatGetm o) = true) (h : Issues s n [] [.s o.d.toNat] 0) :
    exec (.mstatGetm o) s = .next (s.issued n (bundleLen (.mstatGetm o))
      [sres (s.strand n) o.d 1 ((s.strand n).getM o.a.toNat)]) := by
  have hquiet : ∀ r ∈ [Reg.m o.a.toNat], r ∈ [] ∨ r.Quiet := fun r hr => .inr (by rw [List.mem_singleton.1 hr]; exact fun _ => ⟨rfl, rfl⟩)
  rw [sres, ← BitVec.ofNat_toNat]
  exact exec_of_mstat (f := id) h hw rfl hquiet

end

/-! ## The queue (R177, R196, R197, R199) -/

/-- An entry joins the core's queue, with the banks that its MCALL owns from then on (R177, R181). -/
def joins (s : State) (n : Nat) (sem : BitVec 4) (k : MxKind) (banks : Nat) (t : State) : State :=
  t.onCore (n / 8) (fun co => { co with
    mxq := co.mxq ++ [⟨co.mxid, n % 8, true, (s.strand n).ctxh, (s.strand n).launch, (s.strand n).task, sem.toNat, k⟩],
    owned := if banks = 0 then co.owned else upd co.owned co.mxid (n % 8, banks), mxid := co.mxid + 1 })

section
variable {s : State} {n : Nat}

theorem mxFull_eq (i : Instr) : mxFull (oneEnv i s n .mx) = decide (4 ≤ (s.core (n / 8)).outstanding (n % 8)) := by
  have hcore : (oneEnv i s n .mx).s.core (oneEnv i s n .mx).c = (counted s n).core (n / 8) := rfl
  rw [mxFull, hcore, counted_core]
  rfl

/-- The table's entry that an MCALL names. -/
def entryOf (o : XC) (s : State) (n : Nat) : Nat := (look 0 (s.core (n / 8)).rtab o.rt.toNat).toNat
/-- The conditions of R196 and R177 on an MCALL, in their order. -/
def callIllegal (o : XC) (s : State) (n : Nat) : Option Nat :=
  if bitOf (entryOf o s n) 12 = false then some 0x0200 else if fld (entryOf o s n) 46 2 ≠ o.gang.toNat then some 0x0201
  else if 4 ≤ (s.core (n / 8)).outstanding (n % 8) then some 0x0202 else none
/-- The banks and the argument of an MCALL (R196). -/
def callBanks (o : XC) (s : State) (n : Nat) : Nat := match o.x with | some w => w.toNat / 2 ^ 16 | none => fld (entryOf o s n) 48 16
def callArg (o : XC) : Nat := match o.x with | some w => w.toNat % 2 ^ 16 | none => 0
/-- The entry that an MCALL makes. -/
def callKind (o : XC) (s : State) (n : Nat) : MxKind :=
  .call (fld (entryOf o s n) 0 12) o.gang.toNat (callBanks o s n) (callArg o) ((List.range 8).map (s.strand n).getM)

theorem opMcall_eq (o : XC) (i : Instr) : opMcall o (oneEnv i s n .mx) =
    { own := callIllegal o s n, commit := joins s n o.e (callKind o s n) (callBanks o s n) } := by
  have hcore : (oneEnv i s n .mx).s.core (oneEnv i s n .mx).c = (counted s n).core (n / 8) := rfl
  simp only [opMcall, mxFull_eq, hcore, counted_core, decide_eq_true_eq, Bool.not_eq_true']
  rfl

theorem exec_mcall {o : XC} (hw : WellFormed (.mcall o) = true) (h : Issues s n [] [] 0) :
    exec (.mcall o) s = .next ((callIllegal o s n).elim
      (s.issued n (bundleLen (.mcall o)) [] (joins s n o.e (callKind o s n) (callBanks o s n)))
      (fun d => s.trapsAt n (bundleLen (.mcall o)) { cause := 0x02, detail := d, slot := 7 })) :=
  exec_of_plain h hw rfl rfl rfl (opMcall_eq o _) ⟨nofun, nofun, Nat.le_refl 0, rfl, rfl, rfl, rfl⟩ rfl rfl rfl rfl

/-- The conditions of R197 and R177 on a load of `count` words from index `first` of a store of `size`. -/
def loadIllegal (s : State) (n first count size : Nat) : Option Nat :=
  if 0 < count ∧ first + count ≤ size then (if 4 ≤ (s.core (n / 8)).outstanding (n % 8) then some 0x0202 else none) else some 0x0203
/-- The checks of R197 on the source of a load of `count` words, in their order. -/
def loadTrap (a : Word) (count : Nat) : Option Trap :=
  if a.toNat % 8 ≠ 0 then some { cause := 0x0A, detail := 0x0201, faddr := a, slot := 7 }
  else if 0x60000 < a.toNat + 8 * count then
    some { cause := 0x0B, detail := 0x0201, faddr := BitVec.ofNat 64 (if 0x60000 ≤ a.toNat then a.toNat else 0x60000), slot := 7 }
  else none

theorem mxLoad_eq {i : Instr} {o : RG} (hd : o.d.toNat < 16) (first count size : Nat) (k : MxKind) :
    mxLoad o (oneEnv i s n .mx) first count size k =
      { reads := [rs o.a, rs o.b], own := loadIllegal s n first count size, trap := loadTrap ((s.strand n).getS o.a.toNat) count,
        commit := joins s n (o.d.setWidth 4) k 0 } := by
  have hown : (if count = 0 || first + count > size then some 0x0203 else if mxFull (oneEnv i s n .mx) then some 0x0202 else none) =
      loadIllegal s n first count size := by
    rw [mxFull_eq, loadIllegal]
    by_cases hfit : 0 < count ∧ first + count ≤ size
    · rw [if_neg (by simp; omega), if_pos hfit]
      simp only [decide_eq_true_eq]
    · rw [if_pos (by simp; omega), if_neg hfit]
  have htop : ∀ a : Nat, (a + 8 * count - 1 > spadTop) = (0x60000 < a + 8 * count) := fun a => by
    simp only [spadTop, eq_iff_iff]
    omega
  have haddr : ∀ a : Nat, (if a > spadTop then a else spadTop + 1) = if 0x60000 ≤ a then a else 0x60000 := fun a => by
    simp only [spadTop, gt_iff_lt, Nat.lt_iff_add_one_le]
  have hsem : mxPush (oneEnv i s n .mx) o.d.toNat k 0 = joins s n (o.d.setWidth 4) k 0 := by
    rw [← Nat.mod_eq_of_lt hd, ← BitVec.toNat_setWidth 4 o.d]
    rfl
  simp only [mxLoad, hown, htop, haddr, hsem]
  rfl

theorem not_range_of_chk {form rsv coded rng : Bool} (h : chk form rsv coded rng = none) : rng = false := by
  cases rng with
  | false => rfl
  | true => cases form <;> cases rsv <;> cases coded <;> cases h
/-- The semaphore of a load is one of the sixteen (R197). -/
theorem sem_lt_of_check {c : Bool} {o : RG} (h : rgS o c false (o.d.toNat > 15) = none) : o.d.toNat < 16 := by
  have := of_decide_eq_false (not_range_of_chk h)
  omega

theorem exec_of_mxLoad {i : Instr} {o : RG} {first count size : Nat} {k : MxKind} (hw : WellFormed i = true)
    (h : Issues s n [.s o.a.toNat, .s o.b.toNat] [] 0) (hd : o.d.toNat < 16)
    (hop : opOf i (oneEnv i s n .mx) = mxLoad o (oneEnv i s n .mx) first count size k) (hsl : slotOf i = some .mx)
    (hcall : callsIn [(.mx, .ok i)] = false) :
    exec i s = .next ((loadIllegal s n first count size).elim
      ((loadTrap ((s.strand n).getS o.a.toNat) count).elim (s.issued n (bundleLen i) [] (joins s n (o.d.setWidth 4) k 0))
        (s.trapsAt n (bundleLen i)))
      (fun d => s.trapsAt n (bundleLen i) { cause := 0x02, detail := d, slot := 7 })) :=
  exec_of_plain h hw hsl rfl hcall (hop.trans (mxLoad_eq hd first count size k))
    ⟨fun _ hr => .inl hr, nofun, Nat.le_refl 0, rfl, rfl, rfl, rfl⟩ rfl rfl rfl rfl

/-- The fields of s[B] of a load into a store of 2^w indexes (R197). -/
def loadFirst (o : RG) (s : State) (n w : Nat) : Nat := fld ((s.strand n).getS o.b.toNat).toNat 0 w
def loadCount (o : RG) (s : State) (n w : Nat) : Nat := fld ((s.strand n).getS o.b.toNat).toNat w (w + 1)
theorem exec_mlduc {o : RG} (hw : WellFormed (.mlduc o) = true) (h : Issues s n [.s o.a.toNat, .s o.b.toNat] [] 0) :
    exec (.mlduc o) s = .next ((loadIllegal s n (loadFirst o s n 12) (loadCount o s n 12) 4096).elim
      ((loadTrap ((s.strand n).getS o.a.toNat) (loadCount o s n 12)).elim
        (s.issued n (bundleLen (.mlduc o)) [] (joins s n (o.d.setWidth 4)
          (.ldUc ((s.strand n).getS o.a.toNat).toNat (loadFirst o s n 12) (loadCount o s n 12)) 0))
        (s.trapsAt n (bundleLen (.mlduc o))))
      (fun d => s.trapsAt n (bundleLen (.mlduc o)) { cause := 0x02, detail := d, slot := 7 })) :=
  exec_of_mxLoad hw h (sem_lt_of_check (check_of_wellFormed hw)) rfl rfl rfl
theorem exec_mldrt {o : RG} (hw : WellFormed (.mldrt o) = true) (h : Issues s n [.s o.a.toNat, .s o.b.toNat] [] 0) :
    exec (.mldrt o) s = .next ((loadIllegal s n (loadFirst o s n 8) (loadCount o s n 8) 256).elim
      ((loadTrap ((s.strand n).getS o.a.toNat) (loadCount o s n 8)).elim
        (s.issued n (bundleLen (.mldrt o)) [] (joins s n (o.d.setWidth 4)
          (.ldRt ((s.strand n).getS o.a.toNat).toNat (loadFirst o s n 8) (loadCount o s n 8)) 0))
        (s.trapsAt n (bundleLen (.mldrt o))))
      (fun d => s.trapsAt n (bundleLen (.mldrt o)) { cause := 0x02, detail := d, slot := 7 })) :=
  exec_of_mxLoad hw h (sem_lt_of_check (check_of_wellFormed hw)) rfl rfl rfl

/-- The live MCALLs of the strand (R199). -/
def callOf (n : Nat) (m : MxEntry) : Bool :=
  m.strand = n % 8 && m.live && (match m.kind with | .call _ _ _ _ _ => true | _ => false)
/-- MABORT: the strand's unstarted MCALLs leave the queue, its running one is to stop, and what left completes (R199). -/
def aborts (s : State) (n : Nat) (t : State) : State :=
  ((s.core (n / 8)).mxq.filter (callOf n)).foldl (fun t m => mxComplete m (n / 8) t) (t.onCore (n / 8) (fun co => { co with
    mxq := co.mxq.filter (fun m => !callOf n m)
    run := co.run.map (fun r => if callOf n r.entry then { r with abort := true } else r) }))
theorem exec_mabort (h : Issues s n [] [] 0) : exec .mabort s = .next (s.issued n 2 [] (aborts s n)) := by
  have hexec := exec_of_plain (i := .mabort) h rfl rfl rfl rfl rfl ⟨nofun, nofun, Nat.le_refl 0, rfl, rfl, rfl, rfl⟩ rfl rfl rfl rfl
  refine hexec.trans (congrArg Host.Outcome.next (State.issued_congr ?_))
  have hq : ((counted s n).core (n / 8)).mxq = (s.core (n / 8)).mxq := by rw [counted_core]
  rw [aborts, ← hq]
  rfl

end

theorem mxRoom_iff {s : State} {m : MxEntry} {c : Nat} (hm : m.live = true) : s.mxRoom c m = true ↔
    ¬ ((s.strand (8 * c + m.strand)).count m.sem ≥ 0xFFFF ∨
      ∃ p ∈ (s.core c).mxheld, p.1.live = true ∧ p.1.strand = m.strand ∧ p.1.sem = m.sem) := by
  have hany : (s.core c).mxheld.any (fun p => p.1.live && p.1.strand = m.strand && p.1.sem = m.sem) = true ↔
      ∃ p ∈ (s.core c).mxheld, p.1.live = true ∧ p.1.strand = m.strand ∧ p.1.sem = m.sem := by
    simp only [List.any_eq_true, Bool.and_eq_true, decide_eq_true_eq, and_assoc]
  rw [← hany, State.mxRoom, hm]
  simp

section
variable {s : State} {n : Nat}

/-- What a load of the stores does: the conditions of R197 and R177, the checks of its source, and its entry (R37). -/
theorem mxLoad_outcomes {i : Instr} {a : Word} {first count size : Nat} {f : State → State}
    (hexec : exec i s = .next ((loadIllegal s n first count size).elim
      ((loadTrap a count).elim (s.issued n (bundleLen i) [] f) (s.trapsAt n (bundleLen i)))
      (fun d => s.trapsAt n (bundleLen i) { cause := 0x02, detail := d, slot := 7 }))) :
    let fits := 0 < count ∧ first + count ≤ size
    let full := 4 ≤ (s.core (n / 8)).outstanding (n % 8)
    let traps (c x : Nat) (v : Word) : Prop :=
      exec i s = .next (s.trapsAt n (bundleLen i) { cause := c, detail := x, faddr := v, slot := 7 })
    (¬ fits → traps 0x02 0x0203 0) ∧ (fits → full → traps 0x02 0x0202 0) ∧
    (fits → ¬ full → a.toNat % 8 ≠ 0 → traps 0x0A 0x0201 a) ∧
    (fits → ¬ full → a.toNat % 8 = 0 → 0x60000 < a.toNat + 8 * count →
      traps 0x0B 0x0201 (BitVec.ofNat 64 (if 0x60000 ≤ a.toNat then a.toNat else 0x60000))) ∧
    (fits → ¬ full → a.toNat % 8 = 0 → a.toNat + 8 * count ≤ 0x60000 → exec i s = .next (s.issued n (bundleLen i) [] f)) := by
  refine ⟨fun hf => ?_, fun hf hfull => ?_, fun hf hfull ha => ?_, fun hf hfull ha hpast => ?_, fun hf hfull ha hend => ?_⟩
  · rw [hexec, loadIllegal, if_neg hf]
    rfl
  · rw [hexec, loadIllegal, if_pos hf, if_pos hfull]
    rfl
  · rw [hexec, loadIllegal, if_pos hf, if_neg hfull, loadTrap, if_pos ha]
    rfl
  · rw [hexec, loadIllegal, if_pos hf, if_neg hfull, loadTrap, if_neg (not_not.2 ha), if_pos hpast]
    rfl
  · rw [hexec, loadIllegal, if_pos hf, if_neg hfull, loadTrap, if_neg (not_not.2 ha), if_neg (Nat.not_lt.2 hend)]
    rfl

/-- What an MCALL does, by the conditions of R196 and R177 in their order. -/
theorem mcall_outcomes {o : XC} (hw : WellFormed (.mcall o) = true) (h : Issues s n [] [] 0) :
    let e := entryOf o s n
    let traps (d : Nat) : Prop :=
      exec (.mcall o) s = .next (s.trapsAt n (bundleLen (.mcall o)) { cause := 0x02, detail := d, slot := 7 })
    (bitOf e 12 = false → traps 0x0200) ∧ (bitOf e 12 = true → fld e 46 2 ≠ o.gang.toNat → traps 0x0201) ∧
    (bitOf e 12 = true → fld e 46 2 = o.gang.toNat → 4 ≤ (s.core (n / 8)).outstanding (n % 8) → traps 0x0202) ∧
    (bitOf e 12 = true → fld e 46 2 = o.gang.toNat → (s.core (n / 8)).outstanding (n % 8) < 4 →
      exec (.mcall o) s = .next (s.issued n (bundleLen (.mcall o)) [] (joins s n o.e (callKind o s n) (callBanks o s n)))) := by
  refine ⟨fun hinv => ?_, fun hv hg => ?_, fun hv hg hfull => ?_, fun hv hg hroom => ?_⟩
  · rw [exec_mcall hw h, callIllegal, if_pos hinv]
    rfl
  · rw [exec_mcall hw h, callIllegal, if_neg (by simp [hv]), if_pos hg]
    rfl
  · rw [exec_mcall hw h, callIllegal, if_neg (by simp [hv]), if_neg (not_not.2 hg), if_pos hfull]
    rfl
  · rw [exec_mcall hw h, callIllegal, if_neg (by simp [hv]), if_neg (not_not.2 hg), if_neg (Nat.not_le.2 hroom)]
    rfl

end

/-- Settles O23: every operation of the MX slot is one plain action on the core's queue or on the strand. -/
theorem matrixQueue : Obligations.MatrixQueue := by
  refine ⟨⟨fun o s n hw h => ?_, fun o s n hw h => ?_, fun o s n hw h => ?_, fun s n h => exec_mabort h, fun s m c hm => ?_,
      fun o s n hw h => ?_, ⟨fun o s n hw h => ?_, fun o s n hw h => ?_⟩⟩,
    fun o s n hw h => exec_mstat hw h, fun o s n hw h => exec_mstatCsat hw h, fun o s n hw h => exec_of_mstat h hw rfl nofun,
    fun o s n hw h => exec_of_mstat h hw rfl nofun, fun o s n hw h => exec_mstatSetm hw h, fun o s n hw h => exec_mstatGetm hw h,
    fun st h => ?_, fun st k c m hc hm hfirst => ?_⟩
  · obtain ⟨-, -, -, hjoins⟩ := mcall_outcomes hw h
    exact hjoins
  · obtain ⟨-, -, -, -, hjoins⟩ := mxLoad_outcomes (exec_mlduc hw h)
    exact fun hpos hfit hroom => hjoins ⟨hpos, hfit⟩ (Nat.not_le.2 hroom)
  · obtain ⟨-, -, -, -, hjoins⟩ := mxLoad_outcomes (exec_mldrt hw h)
    exact fun hpos hfit hroom => hjoins ⟨hpos, hfit⟩ (Nat.not_le.2 hroom)
  · exact ⟨fun hroom => if_pos ((mxRoom_iff hm).2 hroom), fun hfull => if_neg fun hroom => (mxRoom_iff hm).1 hroom hfull⟩
  · obtain ⟨hinvalid, hgang, hfull, -⟩ := mcall_outcomes hw h
    exact ⟨hinvalid, hgang, hfull⟩
  · obtain ⟨hrange, hfull, halign, hpast, -⟩ := mxLoad_outcomes (exec_mlduc hw h)
    exact ⟨hrange, hfull, halign, hpast⟩
  · obtain ⟨hrange, hfull, halign, hpast, -⟩ := mxLoad_outcomes (exec_mldrt hw h)
    exact ⟨hrange, hfull, halign, hpast⟩
  · have hnil := Strand.marked_eq_nil h
    exact ⟨by rw [faultWord, hnil]; rfl, by rw [Strand.takeMark, hnil]; rfl⟩
  · have hold : st.OldestMark k c m := ⟨hc, hm, hfirst⟩
    exact ⟨hold.faultWord_eq, by rw [hold.takeMark_eq], hold.takeMark_getE⟩

end Sys2Proof.Machine
end

section
/-! PROOFS. Matrix routines: faults of words, waits, beginnings and ends (R98, R172 to R193). -/

set_option Elab.async false

namespace Sys2Proof.Machine

/-! ## Words that end their routine (R182, R186) -/

/-- A core's routine runs: it neither waits nor has ended. -/
def Runs (s : State) (c : Nat) (r : Routine) : Prop := (s.core c).run = some r ∧ r.wait = false ∧ r.done = none
/-- The machine after a word that fails a check. -/
def failsWith (s : State) (c : Nat) (r : Routine) (f : MmFault) : State :=
  s.setCore c { (s.core c) with run := some (r.fail f) }
/-- The machine after a word that waits. -/
def waitsAt (s : State) (c : Nat) (r : Routine) : State := s.setCore c { (s.core c) with run := some { r with wait := true } }

section
variable {c : Nat} {scl : Option MmScl} {main : Routine → Core → Cluster → MmWord} {s : State} {r : Routine} {f : MmFault}

theorem runWord_of_fault (h : Runs s c r) (hf : (main r (s.core c) (s.cluster (c / 4))).fault = some f) :
    runWord c scl main s = .next (failsWith s c r f) := by
  obtain ⟨hrun, hwait, hdone⟩ := h
  exact runWord_fails hrun hwait hdone hf
/-- A next index past the store, in a word without a fault of its own. -/
theorem runWord_of_past (h : Runs s c r) (hf : (main r (s.core c) (s.cluster (c / 4))).fault = none)
    (hn : 4096 ≤ (main r (s.core c) (s.cluster (c / 4))).next) :
    runWord c scl main s = .next (failsWith s c r (0x02, 0x0216, 0)) := by
  obtain ⟨hrun, hwait, hdone⟩ := h
  simp only [runWord, hrun, hwait, hdone, hf, ge_iff_le, hn, if_true]
  rfl
/-- A scale slot that fails its checks, in a word whose own pass. -/
theorem runWord_of_scale_fault {o : MmScl} (h : Runs s c r) (hf : (main r (s.core c) (s.cluster (c / 4))).fault = none)
    (hn : (main r (s.core c) (s.cluster (c / 4))).next < 4096)
    (ho : sclCheck r o (main r (s.core c) (s.cluster (c / 4))).groups = some f) :
    runWord c (some o) main s = .next (failsWith s c r f) := by
  obtain ⟨hrun, hwait, hdone⟩ := h
  simp only [runWord, hrun, hwait, hdone, hf, ge_iff_le, Nat.not_le.2 hn, if_false, ho]
  rfl
/-- A word whose checks pass waits where the ring refuses its rows, or where it reads above a watermark (R173, R190). -/
theorem runWord_of_wait (h : Runs s c r) (hf : (main r (s.core c) (s.cluster (c / 4))).fault = none)
    (hn : (main r (s.core c) (s.cluster (c / 4))).next < 4096)
    (ho : ∀ o, scl = some o → sclCheck r o (main r (s.core c) (s.cluster (c / 4))).groups = none)
    (hw : (main r (s.core c) (s.cluster (c / 4))).stall = true ∨
      (s.core c).unfilledParts ((main r (s.core c) (s.cluster (c / 4))).reads ++ scaleReads r scl) = true) :
    runWord c scl main s = .next (waitsAt s c r) := by
  obtain ⟨hrun, hwait, hdone⟩ := h
  rw [← Bool.or_eq_true] at hw
  cases scl with
  | none =>
    simp only [scaleReads] at hw
    simp only [runWord, hrun, hwait, hdone, hf, ge_iff_le, Nat.not_le.2 hn, if_false, hw, if_true,
      waitsAt, Option.isSome_none, Bool.or_self, Bool.false_eq_true]
  | some o =>
    simp only [scaleReads] at hw
    simp only [runWord, hrun, hwait, hdone, hf, ge_iff_le, Nat.not_le.2 hn, if_false, ho o rfl, hw,
      if_true, waitsAt, Option.isSome_none, Bool.or_self, Bool.false_eq_true]

end

/-! ## The checks of an operand (R172) -/

theorem alignCheck_of_aligned {a n : Nat} (h : a % 128 = 0) : alignCheck (a, n) = none := if_neg (not_not.2 h)
theorem alignCheck_of_not_aligned {a n : Nat} (h : a % 128 ≠ 0) : alignCheck (a, n) = some (0x0A, 0x0200, a) := if_pos h
theorem past_iff {a n : Nat} : a + n - 1 > spadTop ↔ 0x60000 < a + n := by
  simp only [spadTop]
  omega
theorem rangeCheck_of_inside {a n : Nat} (h : a + n ≤ 0x60000) : rangeCheck (a, n) = none :=
  if_neg (mt past_iff.1 (Nat.not_lt.2 h))
theorem rangeCheck_of_past {a n : Nat} (h : 0x60000 < a + n) : rangeCheck (a, n) = some (0x0B, 0x0200, a) := if_pos (past_iff.2 h)
theorem groupCheck_of_one_group {a n : Nat} (h : a / 0x18000 = (a + n - 1) / 0x18000) : groupCheck (a, n) = none :=
  if_neg (not_not.2 h)
theorem groupCheck_of_two_groups {a n : Nat} (h : a / 0x18000 ≠ (a + n - 1) / 0x18000) : groupCheck (a, n) = some (0x04, 0x0001, a) :=
  if_pos h

/-- The checks are made one after the other, each over both operands (R172). -/
theorem placeChecks_two (p q : Nat × Nat) : placeChecks [p, q] =
    (alignCheck p <|> alignCheck q <|> rangeCheck p <|> rangeCheck q <|> groupCheck p <|> groupCheck q) := by
  have hpair : ∀ f : Nat × Nat → Option MmFault, [p, q].findSome? f = (f p <|> f q) := fun f => by
    simp only [List.findSome?]
    cases f p <;> cases f q <;> rfl
  simp only [placeChecks, hpair]
  cases alignCheck p <;> cases alignCheck q <;> cases rangeCheck p <;> cases rangeCheck q <;> rfl
theorem placeCheck_of_not_aligned {a n : Nat} (h : a % 128 ≠ 0) : placeCheck a n = some (0x0A, 0x0200, a) := by
  rw [placeCheck, placeChecks, List.findSome?_cons, alignCheck_of_not_aligned h]
  rfl

theorem leavesOwn_eq_true {own d n i : Nat} (hi : i < n) (h : bitOf own (bankOf (d + i)) = false) : leavesOwn own d n = true := by
  rw [leavesOwn, firstIdx_isSome_iff]
  exact ⟨i, hi, by simp [h]⟩

/-! ## MM.MAC (R172, R187) -/

section
variable {c : Nat} {o : MmMac} {scl : Option MmScl} {s : State} {r : Routine} {m n k : Nat}

/-- The operands of a step: address and bytes. -/
def stepA (o : MmMac) (r : Routine) (m k : Nat) : Nat × Nat := ((r.ptr o.pa.toNat).toNat, m * k * efmtWidth o.ea.toNat / 8)
def stepB (o : MmMac) (r : Routine) (n k : Nat) : Nat × Nat := ((r.ptr o.pb.toNat).toNat, n * k * efmtWidth o.eb.toNat / 8)
/-- The routine's gang is that of the class. -/
abbrev Ganged (cls gang : Nat) : Prop := (cls = 5 ↔ gang = 1) ∧ (cls = 6 ↔ gang = 2)
/-- An open block to which this step does not belong (R187). -/
def mismatched (o : MmMac) (r : Routine) : Bool :=
  match r.block with
  | some b => r.kphase ≠ 0 && (b.d ≠ r.ptr o.pd.toNat || b.ea ≠ o.ea.toNat || b.eb ≠ o.eb.toNat || b.shape ≠ o.shape.toNat)
  | none => false
theorem mismatched_of_block {b : Block} (hb : r.block = some b) (hphase : r.kphase ≠ 0)
    (hdiff : b.d ≠ r.ptr o.pd.toNat ∨ b.ea ≠ o.ea.toNat ∨ b.eb ≠ o.eb.toNat ∨ b.shape ≠ o.shape.toNat) : mismatched o r = true := by
  simp only [mismatched, hb, ne_eq, hphase, not_false_eq_true, decide_true, Bool.true_and, Bool.or_eq_true, decide_eq_true_eq, or_assoc]
  exact hdiff

/-- The checks of a step on its operands' place and its rows (R172, R181). -/
def placeFault (o : MmMac) (r : Routine) (m n k : Nat) : Option MmFault :=
  placeChecks [stepA o r m k, stepB o r n k] <|>
    if groupOf (stepA o r m k).1 = groupOf (stepB o r n k).1 then some (0x04, 0x0000, (stepB o r n k).1)
    else if leavesOwn r.ownOf ((r.ptr o.pd.toNat).toNat % 1024) (m * n * (if mmClass o.ea.toNat = 6 then 2 else 1) / 64) then
      some (0x03, 0x0002, (r.ptr o.pd.toNat).toNat % 1024)
    else none

theorem mainMac_fault_of_no_shape (h : mmClass o.eb.toNat ≠ mmClass o.ea.toNat ∨ mmShape (mmClass o.ea.toNat) o.shape.toNat = none)
    (co : Core) (cl : Cluster) : (mainMac o r co cl).fault = some (0x02, 0x0211, 0) := by
  have hnone : (if mmClass o.eb.toNat = mmClass o.ea.toNat then mmShape (mmClass o.ea.toNat) o.shape.toNat else none) = none := by
    rcases h with h | h
    · exact if_neg h
    · rw [h, ite_self]
  simp only [mainMac, hnone]

theorem mainMac_fault_of_shape (hcls : mmClass o.eb.toNat = mmClass o.ea.toNat)
    (hshape : mmShape (mmClass o.ea.toNat) o.shape.toNat = some (m, n, k)) (co : Core) (cl : Cluster) :
    (mainMac o r co cl).fault =
      if ¬ Ganged (mmClass o.ea.toNat) r.gangOf then some (0x02, 0x0213, 0)
      else if o.satm = 1 ∧ mmClass o.ea.toNat ≠ 1 then some (0x02, 0x0214, 0)
      else if mismatched o r = true then some (0x02, 0x0212, 0)
      else placeFault o r m n k := by
  have hgang : (((mmClass o.ea.toNat = 5) != (r.call.1 = 1) || (mmClass o.ea.toNat = 6) != (r.call.1 = 2) : Bool) = true) ↔
      ¬ Ganged (mmClass o.ea.toNat) r.gangOf := by
    simp only [Ganged, Routine.gangOf, Bool.or_eq_true, bne_iff_ne, ne_eq, decide_eq_decide, not_and_or]
  have hplace : ∀ x : Option MmFault, (match placeChecks [stepA o r m k, stepB o r n k] with | some f => some f | none => x) =
      (placeChecks [stepA o r m k, stepB o r n k] <|> x) := fun x => by
    cases placeChecks [stepA o r m k, stepB o r n k] <;> rfl
  rw [placeFault, ← hplace]
  rcases hb : r.block with _ | b
  all_goals
    simp only [mainMac, hcls, if_true, hshape, hgang, Bool.and_eq_true, decide_eq_true_eq, mismatched, hb]
    rfl

/-- A step that belongs to its gang and its block is judged by the place of its operands and its rows. -/
theorem mainMac_fault_of_belongs (hcls : mmClass o.eb.toNat = mmClass o.ea.toNat)
    (hshape : mmShape (mmClass o.ea.toNat) o.shape.toNat = some (m, n, k)) (hgang : Ganged (mmClass o.ea.toNat) r.gangOf)
    (hsat : o.satm = 1 → mmClass o.ea.toNat = 1) (hblock : r.block = none ∨ r.kphase = 0) (co : Core) (cl : Cluster) :
    (mainMac o r co cl).fault = placeFault o r m n k := by
  have hmis : mismatched o r = false := by
    rcases hblock with h | h
    · simp only [mismatched, h]
    · simp only [mismatched, h, ne_eq, not_true, decide_false, Bool.false_and]
      cases r.block <;> rfl
  rw [mainMac_fault_of_shape hcls hshape, if_neg (not_not.2 hgang), if_neg (fun h => h.2 (hsat h.1)), if_neg (by simp [hmis])]

theorem placeChecks_of_placed {a b na nb : Nat} (ha : placed a na) (hb : placed b nb) : placeChecks [(a, na), (b, nb)] = none := by
  obtain ⟨ha1, ha2, ha3⟩ := ha
  obtain ⟨hb1, hb2, hb3⟩ := hb
  rw [placeChecks_two, alignCheck_of_aligned ha1, alignCheck_of_aligned hb1, rangeCheck_of_inside ha2, rangeCheck_of_inside hb2,
    groupCheck_of_one_group ha3, groupCheck_of_one_group hb3]
  rfl

/-- What the checks on a step's operands find, in their order (R172, R181). -/
theorem placeFault_outcomes (o : MmMac) (r : Routine) (m n k : Nat) :
    let pa := (r.ptr o.pa.toNat).toNat
    let pb := (r.ptr o.pb.toNat).toNat
    let na := m * k * efmtWidth o.ea.toNat / 8
    let nb := n * k * efmtWidth o.eb.toNat / 8
    let d := (r.ptr o.pd.toNat).toNat % 1024
    let finds (cause detail addr : Nat) : Prop := placeFault o r m n k = some (cause, detail, addr)
    (pa % 128 ≠ 0 → finds 0x0A 0x0200 pa) ∧ (pa % 128 = 0 → pb % 128 ≠ 0 → finds 0x0A 0x0200 pb) ∧
    (pa % 128 = 0 → pb % 128 = 0 →
      (0x60000 < pa + na → finds 0x0B 0x0200 pa) ∧ (pa + na ≤ 0x60000 → 0x60000 < pb + nb → finds 0x0B 0x0200 pb) ∧
      (pa + na ≤ 0x60000 → pb + nb ≤ 0x60000 →
        (pa / 0x18000 ≠ (pa + na - 1) / 0x18000 → finds 0x04 0x0001 pa) ∧
        (pa / 0x18000 = (pa + na - 1) / 0x18000 → pb / 0x18000 ≠ (pb + nb - 1) / 0x18000 → finds 0x04 0x0001 pb))) ∧
    (placed pa na → placed pb nb →
      (pa / 0x18000 = pb / 0x18000 → finds 0x04 0x0000 pb) ∧
      (pa / 0x18000 ≠ pb / 0x18000 → (∃ i < m * n * (if mmClass o.ea.toNat = 6 then 2 else 1) / 64,
        bitOf r.ownOf (bankOf (d + i)) = false) → finds 0x03 0x0002 d)) := by
  simp only [placeFault, stepA, stepB]
  refine ⟨fun ha => ?_, fun ha hb => ?_, fun ha hb => ⟨fun hpa => ?_, fun hpa hpb => ?_, fun hpa hpb => ⟨fun hga => ?_, fun hga hgb => ?_⟩⟩,
    fun ha hb => ⟨fun hg => ?_, fun hg ⟨i, hi, hown⟩ => ?_⟩⟩
  · rw [placeChecks_two, alignCheck_of_not_aligned ha]
    rfl
  · rw [placeChecks_two, alignCheck_of_aligned ha, alignCheck_of_not_aligned hb]
    rfl
  · rw [placeChecks_two, alignCheck_of_aligned ha, alignCheck_of_aligned hb, rangeCheck_of_past hpa]
    rfl
  · rw [placeChecks_two, alignCheck_of_aligned ha, alignCheck_of_aligned hb, rangeCheck_of_inside hpa, rangeCheck_of_past hpb]
    rfl
  · rw [placeChecks_two, alignCheck_of_aligned ha, alignCheck_of_aligned hb, rangeCheck_of_inside hpa, rangeCheck_of_inside hpb,
      groupCheck_of_two_groups hga]
    rfl
  · rw [placeChecks_two, alignCheck_of_aligned ha, alignCheck_of_aligned hb, rangeCheck_of_inside hpa, rangeCheck_of_inside hpb,
      groupCheck_of_one_group hga, groupCheck_of_two_groups hgb]
    rfl
  · rw [placeChecks_of_placed ha hb]
    exact if_pos hg
  · rw [placeChecks_of_placed ha hb]
    exact (if_neg hg).trans (if_pos (leavesOwn_eq_true hi hown))

theorem exec_mmMac_fails {f : MmFault} (h : Runs s c r) (hf : (mainMac o r (s.core c) (s.cluster (c / 4))).fault = some f) :
    exec (.mmMac c o scl) s = .next (failsWith s c r f) := runWord_of_fault h hf

end

/-! ## The other words (R189 to R194) -/

section
variable {c : Nat} {scl : Option MmScl} {s : State} {r : Routine}

theorem exec_mmLoop_fails {o : MmLoop} (h : Runs s c r) :
    (mloopRsv o = true → exec (.mmLoop c o scl) s = .next (failsWith s c r (0x02, 0x0210, 0))) ∧
    (mloopRsv o = false → o.fin.toNat ≤ r.pc → exec (.mmLoop c o scl) s = .next (failsWith s c r (0x02, 0x0215, 0))) := by
  refine ⟨fun hrsv => runWord_of_fault h ?_, fun hrsv hfin => runWord_of_fault h ?_⟩
  · simp only [mainLoop, hrsv, if_true]
  · simp only [mainLoop, hrsv, hfin, if_true, Bool.false_eq_true, if_false]
theorem exec_mmSetp_fails {o : MmSetp} (h : Runs s c r) (hrsv : setpRsv o = true) :
    exec (.mmSetp c o scl) s = .next (failsWith s c r (0x02, 0x0210, 0)) :=
  runWord_of_fault h (by simp only [mainSetp, hrsv, if_true])
theorem exec_mmClr_fails {o : MmClr} (h : Runs s c r)
    (hown : ∃ i ≤ o.nm1.toNat, bitOf r.ownOf (bankOf ((r.ptr o.p.toNat).toNat % 1024 + i)) = false) :
    exec (.mmClr c o scl) s = .next (failsWith s c r (0x03, 0x0002, (r.ptr o.p.toNat).toNat % 1024)) := by
  obtain ⟨i, hi, hbit⟩ := hown
  exact runWord_of_fault h (if_pos (leavesOwn_eq_true (Nat.lt_succ_of_le hi) hbit))
theorem mainDrn_fault_of_fits {o : MmDrn} (hfit : o.pos.toNat + (o.nm1.toNat + 1) ≤ 256) (co : Core) (cl : Cluster) :
    (mainDrn c o r co cl).fault = if leavesOwn r.ownOf ((r.ptr o.p.toNat).toNat % 1024) (o.nm1.toNat + 1) then
      some (0x03, 0x0002, (r.ptr o.p.toNat).toNat % 1024) else none := if_neg (Nat.not_lt.2 hfit)
theorem exec_mmDrn_past {o : MmDrn} (h : Runs s c r) (hpast : 256 < o.pos.toNat + (o.nm1.toNat + 1)) :
    exec (.mmDrn c o scl) s = .next (failsWith s c r (0x02, 0x0215, 0)) := runWord_of_fault h (if_pos hpast)
theorem exec_mmDrn_fails {o : MmDrn} (h : Runs s c r) (hfit : o.pos.toNat + (o.nm1.toNat + 1) ≤ 256)
    (hown : ∃ i ≤ o.nm1.toNat, bitOf r.ownOf (bankOf ((r.ptr o.p.toNat).toNat % 1024 + i)) = false) :
    exec (.mmDrn c o scl) s = .next (failsWith s c r (0x03, 0x0002, (r.ptr o.p.toNat).toNat % 1024)) := by
  obtain ⟨i, hi, hbit⟩ := hown
  exact runWord_of_fault h ((mainDrn_fault_of_fits hfit _ _).trans (if_pos (leavesOwn_eq_true (Nat.lt_succ_of_le hi) hbit)))
theorem exec_mmDrn_waits {o : MmDrn} (h : Runs s c r) (hfit : o.pos.toNat + (o.nm1.toNat + 1) ≤ 256)
    (hown : ∀ i ≤ o.nm1.toNat, bitOf r.ownOf (bankOf ((r.ptr o.p.toNat).toNat % 1024 + i)) = true)
    (hn : (afterWord r.pc r.ml).2 < 4096) (hacc : (s.cluster (c / 4)).accepts o.slot.toNat c = false) :
    exec (.mmDrn c o none) s = .next (waitsAt s c r) := by
  have hkeeps : leavesOwn r.ownOf ((r.ptr o.p.toNat).toNat % 1024) (o.nm1.toNat + 1) = false :=
    leavesOwn_eq_false fun i hi => hown i (Nat.le_of_lt_succ hi)
  refine runWord_of_wait (main := mainDrn c o) (scl := none) h ((mainDrn_fault_of_fits hfit _ _).trans (by rw [hkeeps]; rfl)) hn nofun (.inl ?_)
  simp only [mainDrn, hacc, Bool.not_false]
theorem exec_mmScl_waits {o : MmScl} (h : Runs s c r) (hn : (afterWord r.pc r.ml).2 < 4096)
    (hp : ∀ p ∈ scaleReads r (some o), placed p.1 p.2) (hu : (s.core c).unfilledParts (scaleReads r (some o)) = true) :
    exec (.mmScl c o) s = .next (waitsAt s c r) := by
  refine runWord_of_wait (main := mainNop) (scl := some o) h rfl hn (fun o' ho' => ?_) (.inr hu)
  obtain rfl := Option.some.inj ho'
  simp only [sclCheck, placeCheck_eq_none (hp _ (List.mem_singleton.2 rfl))]
  rfl
theorem exec_mmScl_fails {o : MmScl} (h : Runs s c r) (hn : (afterWord r.pc r.ml).2 < 4096)
    (ha : (r.ptr o.p.toNat).toNat % 128 ≠ 0) :
    exec (.mmScl c o) s = .next (failsWith s c r (0x0A, 0x0200, (r.ptr o.p.toNat).toNat)) :=
  runWord_of_scale_fault (main := mainNop) h rfl hn (by simp only [sclCheck, placeCheck_of_not_aligned ha])
theorem exec_mmNop_fails (h : Runs s c r) (hn : 4096 ≤ (afterWord r.pc r.ml).2) :
    exec (.mmNop c) s = .next (failsWith s c r (0x02, 0x0216, 0)) :=
  runWord_of_past (scl := none) (main := mainNop) h rfl hn

end

/-! ## Beginnings (R178, R197) -/

theorem getBytes_lt (m : SMap Byte) (a n : Nat) : getBytes m a n < 256 ^ n := by
  induction n generalizing a with
  | zero => exact Nat.one_pos
  | succ n ih =>
    have := ih (a + 1)
    have := (look 0 m a).isLt
    rw [getBytes, Nat.pow_succ]
    omega
theorem toNat_ofNat_sp (co : Core) (a : Nat) : (BitVec.ofNat 64 (co.sp a 8)).toNat = co.sp a 8 := by
  rw [BitVec.toNat_ofNat]
  exact Nat.mod_eq_of_lt (getBytes_lt co.spad a 8)

/-- What a map holds after entries are written from key `first`. -/
theorem look_loop_put {α : Type} [DecidableEq α] (d : α) (v : Nat → α) (first n j k : Nat) (m : SMap α) :
    look d (loop (fun i u => put d u (first + i) (v i)) n j m) k =
      if first + j ≤ k ∧ k < first + j + n then v (k - first) else look d m k := by
  induction n generalizing j m with
  | zero => rw [loop, if_neg (by omega)]
  | succ n ih =>
    rw [loop, ih]
    by_cases hk : k = first + j
    · rw [if_neg (by omega), if_pos (by omega), hk, look_put_same, Nat.add_sub_cancel_left]
    · rw [look_put_other _ _ _ hk]
      by_cases hin : first + (j + 1) ≤ k ∧ k < first + (j + 1) + n
      · rw [if_pos hin, if_pos (by omega)]
      · rw [if_neg hin, if_neg (by omega)]
theorem look_loop_put_inside {α : Type} [DecidableEq α] (d : α) (v : Nat → α) (first n : Nat) {i : Nat} (m : SMap α) (h : i < n) :
    look d (loop (fun i u => put d u (first + i) (v i)) n 0 m) (first + i) = v i := by
  rw [look_loop_put, if_pos (by omega), Nat.add_sub_cancel_left]
theorem look_loop_put_outside {α : Type} [DecidableEq α] (d : α) (v : Nat → α) (first n : Nat) {k : Nat} (m : SMap α)
    (h : k < first ∨ first + n ≤ k) :
    look d (loop (fun i u => put d u (first + i) (v i)) n 0 m) k = look d m k := by
  rw [look_loop_put, if_neg (by omega)]

theorem fld_scInit {i : Nat} (h : i < 256) : fld scInit.toNat (8 * i) 8 = 0x7F := by
  have hi : 8 * i + 8 ≤ 2048 := by omega
  rw [scInit, BitVec.toNat_ofNat, fld_mod_two_pow _ hi, fld_pack 8 _ 256 0 i h]
  rfl

/-! ## Completions (R98, R180, R183) -/

section
variable {c : Nat} {s : State} {m : MxEntry} {mark : Option Mark}

/-- The marks that a strand's completions carry. -/
def marksOf (st : Strand) : Nat := (st.sem.map (fun p => (p.2.filter (fun c => c.mark.isSome)).length)).sum
/-- The machine with a live entry's completion appended. -/
def appended (s : State) (c : Nat) (m : MxEntry) (mark : Option Mark) : State :=
  s.setStrand (8 * c + m.strand) ((s.strand (8 * c + m.strand)).append m.sem none mark (some m.id))

theorem mxFinish_eq_appended (hm : m.live = true) (hmark : mark = none ∨ marksOf (s.strand (8 * c + m.strand)) < 64) :
    s.mxFinish c m mark = appended s c m mark := by
  rw [State.mxFinish, if_pos hm, State.complete]
  cases mark with
  | none => rfl
  | some k =>
    have hroom : marksOf (s.strand (8 * c + m.strand)) < 64 := hmark.resolve_left nofun
    exact if_neg (Nat.not_le.2 hroom)
theorem mxDeliver_of_room (hroom : s.mxRoom c m = true) (hm : m.live = true)
    (hmark : mark = none ∨ marksOf (s.strand (8 * c + m.strand)) < 64) : s.mxDeliver c m mark = appended s c m mark := by
  rw [State.mxDeliver, if_pos hroom, mxFinish_eq_appended hm hmark]

theorem mxRoom_setCore {co : Core} (h : co.mxheld = (s.core c).mxheld) : (s.setCore c co).mxRoom c m = s.mxRoom c m := by
  rw [State.mxRoom, core_setCore_same, h]
  rfl

theorem appended_core (b : Nat) : (appended s c m mark).core b = s.core b := rfl
theorem appended_strand : (appended s c m mark).strand (8 * c + m.strand) =
    (s.strand (8 * c + m.strand)).append m.sem none mark (some m.id) := strand_setStrand_same _ _ _

/-! ## The unit's steps (R98, R177, R180) -/

/-- The core whose routine begins with entry `m` at index `start` (R178). -/
def begun (co : Core) (q : List MxEntry) (m : MxEntry) (start : Nat) : Core :=
  { co with mxq := q, run := some ⟨m, start, [], [], [], 0, none, [], [], [], false, false, none⟩ }
/-- The core whose unit is free. -/
def unitFree (co : Core) : Core := { co with run := none }
/-- The core that holds the completion at place `i` no longer. -/
def letGo (co : Core) (i : Nat) : Core := { co with mxheld := dropNth co.mxheld i }

theorem exec_mxEntryBegin_call {q : List MxEntry} {start gang own arg : Nat} {regs : List Word} (hrun : (s.core c).run = none)
    (hq : (s.core c).mxq = m :: q) (hk : m.kind = .call start gang own arg regs) :
    exec (.mxEntryBegin c) s = .next (s.setCore c (begun (s.core c) q m start)) := by
  change execMxEntryBegin c s = _
  simp only [execMxEntryBegin, hrun, hq, hk, begun]

/-- The core after the words of a micro-op store have been loaded. -/
def ucLoaded (co : Core) (q : List MxEntry) (src first n : Nat) : Core := { co with
  mxq := q
  images := co.images.filter (fun k => !overlap k.mfirst k.mcount first n)
  ucode := loop (fun i u => put (0x7000000000000000 : Word) u (first + i) (BitVec.ofNat 64 (co.sp (src + 8 * i) 8))) n 0 co.ucode }
/-- A word as it is stored in the routine table: one whose reserved bits are not 0 loses V (R197). -/
def tableWord (x : Nat) : Nat := if fld x 13 33 ≠ 0 then x - (if bitOf x 12 then 2 ^ 12 else 0) else x
theorem tableWord_of_valid {x : Nat} (h : fld x 13 33 = 0) : tableWord x = x := if_neg (not_not.2 h)
/-- The core after entries of its routine table have been loaded. -/
def rtLoaded (co : Core) (q : List MxEntry) (src first n : Nat) : Core := { co with
  mxq := q
  images := co.images.filter (fun k => !overlap k.rtfirst k.rtcount first n)
  rtab := loop (fun i u => put 0 u (first + i) (BitVec.ofNat 64 (tableWord (co.sp (src + 8 * i) 8)))) n 0 co.rtab }

theorem exec_mxEntryBegin_ldUc {q : List MxEntry} {src first n : Nat} (hrun : (s.core c).run = none)
    (hq : (s.core c).mxq = m :: q) (hk : m.kind = .ldUc src first n) (hm : m.live = true) (hroom : s.mxRoom c m = true) :
    exec (.mxEntryBegin c) s = .next (appended (s.setCore c (ucLoaded (s.core c) q src first n)) c m none) := by
  have hroom' : (s.setCore c (ucLoaded (s.core c) q src first n)).mxRoom c m = true := by
    rwa [mxRoom_setCore (co := ucLoaded (s.core c) q src first n) rfl]
  change execMxEntryBegin c s = _
  rw [← mxDeliver_of_room hroom' hm (.inl rfl)]
  simp only [execMxEntryBegin, hrun, hq, hk, ucLoaded]

theorem exec_mxEntryBegin_ldRt {q : List MxEntry} {src first n : Nat} (hrun : (s.core c).run = none)
    (hq : (s.core c).mxq = m :: q) (hk : m.kind = .ldRt src first n) (hm : m.live = true) (hroom : s.mxRoom c m = true)
    (hok : ∀ i < n, fld ((s.core c).sp (src + 8 * i) 8) 13 33 = 0) :
    exec (.mxEntryBegin c) s = .next (appended (s.setCore c (rtLoaded (s.core c) q src first n)) c m none) := by
  have hroom' : (s.setCore c (rtLoaded (s.core c) q src first n)).mxRoom c m = true := by
    rwa [mxRoom_setCore (co := rtLoaded (s.core c) q src first n) rfl]
  have hgood : firstIdx (fun i => decide (fld ((s.core c).sp (src + 8 * i) 8) 13 33 ≠ 0)) n 0 = none := by
    rw [firstIdx_zero_eq_find?, List.find?_eq_none]
    intro i hi
    simp [hok i (List.mem_range.1 hi)]
  change execMxEntryBegin c s = _
  rw [← mxDeliver_of_room hroom' hm (.inl rfl)]
  simp only [execMxEntryBegin, hrun, hq, hk, hgood, rtLoaded, tableWord, decide_eq_true_eq, Option.map_none]

theorem exec_routineWatermarkResume {r : Routine} (hrun : (s.core c).run = some r) (hw : r.wait = true)
    (hs : stillWaits c s r = false) :
    exec (.routineWatermarkResume c) s = .next (s.setCore c { (s.core c) with run := some { r with wait := false } }) := by
  change execRoutineWatermarkResume c s = _
  simp only [execRoutineWatermarkResume, hrun, hw, hs, Bool.not_false, Bool.and_self, if_true]

/-- With no completion to release, a routine that has ended leaves the unit, and its completion is delivered or held. -/
theorem exec_routineComplete_ended {r : Routine} (hrel : s.mxReleasable c = none) (hrun : (s.core c).run = some r)
    (hdone : r.done = some mark) : exec (.routineComplete c) s =
      .next ((s.setCore c (unitFree (s.core c))).mxDeliver c r.entry mark) := by
  change execRoutineComplete c s = _
  simp only [execRoutineComplete, hrel, hrun, hdone, Option.bind_none, State.onCore_eq, unitFree]

theorem exec_routineComplete_held {i : Nat} (hrel : s.mxReleasable c = some i) (hi : (s.core c).mxheld[i]? = some (m, mark)) :
    exec (.routineComplete c) s =
      .next ((s.setCore c (letGo (s.core c) i)).mxFinish c m mark) := by
  change execRoutineComplete c s = _
  simp only [execRoutineComplete, hrel, hi, Option.bind_some, Option.map_some, State.onCore_eq, letGo]

theorem length_dropNth {β : Type} {l : List β} {i : Nat} {x : β} (h : l[i]? = some x) : (dropNth l i).length + 1 = l.length := by
  induction l generalizing i with
  | nil => cases h
  | cons y l ih =>
    cases i with
    | zero => rfl
    | succ i => rw [dropNth, List.length_cons, List.length_cons, ih h]

/-- A completion that can be released is held, and its semaphore has room. -/
theorem of_mxReleasable {i : Nat} (h : s.mxReleasable c = some i) : ∃ m mark, (s.core c).mxheld[i]? = some (m, mark) ∧
    (m.live = false ∨ (s.strand (8 * c + m.strand)).count m.sem < 0xFFFF) := by
  rw [State.mxReleasable, firstIdx_zero_eq_find?] at h
  have hp := List.find?_some h
  cases hi : (s.core c).mxheld[i]? with
  | none => simp [hi] at hp
  | some p =>
    obtain ⟨m, mark⟩ := p
    refine ⟨m, mark, rfl, ?_⟩
    simpa [hi] using hp

end

/-- Settles O33: each clause is one check of a word, one wait, or one case of the unit's beginnings and ends. -/
theorem matrixRoutines : Obligations.MatrixRoutines := by
  unfold Obligations.MatrixRoutines
  refine ⟨⟨fun c o scl s r h hcls => ?_, fun c o scl s r m n k h => ?_, fun c o scl s r h => ?_, fun c o scl s r h => ?_,
      fun c o scl s r h hfit => ?_, fun c o s r h => ?_, fun c o scl s r h => ?_, fun c o scl s r h => ?_, fun c o scl s r h => ?_,
      fun c o scl s r h => ?_, fun c o s r h => ?_, fun c s r h => ?_⟩,
    fun c s m q start gang own arg regs hrun hq hk => ?_, fun c s m q src first n hrun hq hk hm hroom => ?_,
    fun c s m q src first n hrun hq hk hm hroom hok => ?_, fun c s r hrun => ?_, fun c s r mark hrel hrun hdone hroom => ?_,
    fun c s i m mark hrel hi hm hmarks => ?_, fun s c i hrel => ?_, fun c s r mark hrel hrun hdone hm hroom hmarks => ?_⟩
  · exact exec_mmMac_fails h (mainMac_fault_of_no_shape (.inl (Ne.symm hcls)) _ _)
  · intro cls pa pb na nb mac hcls hshape h5 h6 hsat hk
    have hmac : ∀ {x y z : Nat}, placeFault o r m n k = some (x, y, z) → mac x y z := fun hf =>
      exec_mmMac_fails h ((mainMac_fault_of_belongs hcls hshape ⟨h5, h6⟩ hsat (.inr hk) _ _).trans hf)
    obtain ⟨haA, haB, hal, hpl⟩ := placeFault_outcomes o r m n k
    refine ⟨fun ha => hmac (haA ha), fun ha hb => hmac (haB ha hb), fun ha hb => ?_⟩
    obtain ⟨hrA, hrB, hin⟩ := hal ha hb
    refine ⟨fun hpa => hmac (hrA hpa), fun hpa hpb => hmac (hrB hpa hpb), fun hpa hpb => ?_⟩
    obtain ⟨hgA, hgB⟩ := hin hpa hpb
    exact ⟨fun hg => hmac (hgA hg), fun hg hg' => hmac (hgB hg hg'), fun hA hB hg => hmac ((hpl hA hB).1 hg)⟩
  · intro cls pa pb d gangs mac hcls
    have hmac : ∀ {x y z : Nat}, (mainMac o r (s.core c) (s.cluster (c / 4))).fault = some (x, y, z) → mac x y z := exec_mmMac_fails h
    refine ⟨fun hnone => hmac (mainMac_fault_of_no_shape (.inr hnone) _ _), fun m n k hshape => ?_⟩
    have hfault := mainMac_fault_of_shape (r := r) hcls hshape (s.core c) (s.cluster (c / 4))
    refine ⟨fun hg => hmac (hfault.trans (if_pos hg)), fun hg hsat hne => hmac ?_,
      fun hg hsat => ⟨fun b hb hphase hdiff => hmac ?_, fun hb hA hB hne hown => hmac ?_⟩⟩
    · rw [hfault, if_neg (not_not.2 hg), if_pos ⟨hsat, hne⟩]
    · rw [hfault, if_neg (not_not.2 hg), if_neg (fun hx => hx.2 (hsat hx.1)), if_pos (mismatched_of_block hb hphase hdiff)]
    · obtain ⟨-, -, -, hpl⟩ := placeFault_outcomes o r m n k
      rw [mainMac_fault_of_belongs hcls hshape hg hsat (.inl hb)]
      exact (hpl hA hB).2 hne hown
  · exact (exec_mmLoop_fails h).1
  · intro a
    refine ⟨exec_mmDrn_fails h hfit, fun hown hn hscl hacc => ?_⟩
    subst hscl
    exact exec_mmDrn_waits h hfit hown hn hacc
  · exact exec_mmScl_waits h
  · exact exec_mmSetp_fails h
  · exact (exec_mmLoop_fails h).2
  · exact exec_mmDrn_past h
  · exact exec_mmClr_fails h
  · exact exec_mmScl_fails h
  · exact exec_mmNop_fails h
  · have hcore : (s.setCore c (begun (s.core c) q m start)).core c = begun (s.core c) q m start := core_setCore_same _ _ _
    exact ⟨_, _, exec_mxEntryBegin_call hrun hq hk, congrArg Core.run hcore, congrArg Core.mxq hcore, rfl, rfl, rfl, rfl, rfl, rfl,
      fun _ => ⟨rfl, rfl⟩, fun _ _ hi => fld_scInit hi, (congrArg Core.acc hcore).trans rfl, rfl⟩
  · have hcore : (appended (s.setCore c (ucLoaded (s.core c) q src first n)) c m none).core c = ucLoaded (s.core c) q src first n :=
      core_setCore_same _ _ _
    refine ⟨_, exec_mxEntryBegin_ldUc hrun hq hk hm hroom, congrArg Core.mxq hcore, (congrArg Core.run hcore).trans hrun,
      fun i hi => ?_, fun k hkout => ?_, appended_strand⟩
    · rw [hcore, Core.word, ucLoaded, look_loop_put_inside _ _ _ _ _ hi, toNat_ofNat_sp]
    · rw [hcore, Core.word, ucLoaded, look_loop_put_outside _ _ _ _ _ hkout]
      rfl
  · have hcore : (appended (s.setCore c (rtLoaded (s.core c) q src first n)) c m none).core c = rtLoaded (s.core c) q src first n :=
      core_setCore_same _ _ _
    refine ⟨_, exec_mxEntryBegin_ldRt hrun hq hk hm hroom hok, congrArg Core.mxq hcore, (congrArg Core.run hcore).trans hrun,
      fun i hi => ?_, fun k hkout => ?_, appended_strand⟩
    · rw [hcore, rtLoaded, look_loop_put_inside _ _ _ _ _ hi, tableWord_of_valid (hok i hi), toNat_ofNat_sp]
    · rw [hcore, rtLoaded, look_loop_put_outside _ _ _ _ _ hkout]
  · exact exec_routineWatermarkResume hrun
  · have hroom' : (s.setCore c (unitFree (s.core c))).mxRoom c r.entry = false := (mxRoom_setCore (co := unitFree (s.core c)) rfl).trans hroom
    rw [exec_routineComplete_ended hrel hrun hdone, State.mxDeliver, hroom']
    simp only [Bool.false_eq_true, if_false, State.onCore_eq, core_setCore_same, setCore_setCore, Core.holdMx, unitFree]
  · have hcore : (appended (s.setCore c (letGo (s.core c) i)) c m mark).core c = letGo (s.core c) i := core_setCore_same _ _ _
    refine ⟨_, (exec_routineComplete_held hrel hi).trans (congrArg _ (mxFinish_eq_appended hm (.inr hmarks))),
      (congrArg Core.run hcore).trans rfl, ?_, appended_strand⟩
    rw [hcore]
    exact length_dropNth hi
  · exact of_mxReleasable hrel
  · have hcore : (appended (s.setCore c (unitFree (s.core c))) c r.entry mark).core c = unitFree (s.core c) := core_setCore_same _ _ _
    have hroom' : (s.setCore c (unitFree (s.core c))).mxRoom c r.entry = true := (mxRoom_setCore (co := unitFree (s.core c)) rfl).trans hroom
    exact ⟨_, (exec_routineComplete_ended hrel hrun hdone).trans (congrArg _ (mxDeliver_of_room hroom' hm (.inr hmarks))),
      congrArg Core.run hcore, appended_strand, (congrArg Core.acc hcore).trans rfl, rfl⟩

end Sys2Proof.Machine
end
section
/-! PROOFS. Formats and the values of their encodings (R109, R110).

The encodings of a format without their sign number its values in rising order. `mag` is that numbering, continued beyond the largest
finite value with the exponents that would follow; `encode` inverts it on the multiples of a power of two that rounding cuts a value
to. -/

set_option Elab.async false

namespace Sys2Proof.Machine

/-! ## Magnitudes -/

/-- The significand of the `c`-th magnitude of a format. -/
def FFmt.sig (f : FFmt) (c : Nat) : Nat := if c < 2 ^ f.mb then c else 2 ^ f.mb + c % 2 ^ f.mb
/-- The exponent of the last place of the `c`-th magnitude. -/
def FFmt.expo (f : FFmt) (c : Nat) : Int := ((c / 2 ^ f.mb - 1 : Nat) : Int) + f.qmin
/-- The `c`-th magnitude. -/
def FFmt.mag (f : FFmt) (c : Nat) : ℚ := f.sig c * 2 ^ f.expo c

/-- What the formats of R109 have in common. -/
structure FFmt.Regular (f : FFmt) : Prop where
  mb_pos : 1 ≤ f.mb
  mb_le : f.mb ≤ 52
  eb_pos : 2 ≤ f.eb
  kind_le : f.kind ≤ 3
  kind_one : f.kind = 1 → 2 ≤ f.mb

theorem regular_of_mem {f : FFmt} (h : f ∈ floatFormats) : f.Regular := by
  simp only [floatFormats, List.mem_cons, List.not_mem_nil, or_false] at h
  rcases h with rfl | rfl | rfl | rfl | rfl | rfl | rfl | rfl | rfl <;> constructor <;> decide

section
variable {f : FFmt}

@[simp] theorem FFmt.mag_zero : f.mag 0 = 0 := by simp [FFmt.mag, FFmt.sig]

theorem two_zpow_pos (e : Int) : (0 : ℚ) < 2 ^ e := zpow_pos (by norm_num) e

/-- Two neighbours are one last place apart. -/
theorem FFmt.mag_succ (c : Nat) : f.mag (c + 1) = f.mag c + 2 ^ f.expo c := by
  have hpos : 0 < 2 ^ f.mb := Nat.two_pow_pos _
  rcases Nat.lt_or_ge (c + 1) (2 ^ f.mb) with hlt | hge
  · rw [FFmt.mag, FFmt.mag, FFmt.sig, FFmt.sig, FFmt.expo, FFmt.expo, if_pos hlt, if_pos (by omega), Nat.div_eq_of_lt hlt,
      Nat.div_eq_of_lt (by omega)]
    push_cast
    ring
  rcases Nat.lt_or_ge c (2 ^ f.mb) with hc | hc
  · have hcarry : c + 1 = 2 ^ f.mb := by omega
    rw [FFmt.mag, FFmt.mag, FFmt.sig, FFmt.sig, FFmt.expo, FFmt.expo, if_neg (by omega), if_pos hc, hcarry, Nat.div_self hpos,
      Nat.div_eq_of_lt hc, Nat.mod_self, Nat.add_zero, ← hcarry]
    push_cast
    ring
  obtain ⟨j, r, hr, rfl⟩ : ∃ j r, r < 2 ^ f.mb ∧ c = (j + 1) * 2 ^ f.mb + r := by
    refine ⟨c / 2 ^ f.mb - 1, c % 2 ^ f.mb, Nat.mod_lt _ hpos, ?_⟩
    rw [Nat.sub_add_cancel ((Nat.one_le_div_iff hpos).2 hc), Nat.mul_comm, Nat.div_add_mod]
  have hdiv : ((j + 1) * 2 ^ f.mb + r) / 2 ^ f.mb = j + 1 := by
    rw [Nat.mul_comm, Nat.mul_add_div hpos, Nat.div_eq_of_lt hr, Nat.add_zero]
  have hmod : ((j + 1) * 2 ^ f.mb + r) % 2 ^ f.mb = r := by
    rw [Nat.mul_comm, Nat.mul_add_mod, Nat.mod_eq_of_lt hr]
  rw [FFmt.mag, FFmt.mag, FFmt.sig, FFmt.sig, FFmt.expo, FFmt.expo, if_neg (by omega), if_neg (by omega), hdiv, hmod, Nat.add_assoc]
  rcases Nat.lt_or_ge (r + 1) (2 ^ f.mb) with hr1 | hr1
  · rw [Nat.mul_comm, Nat.mul_add_div hpos, Nat.div_eq_of_lt hr1, Nat.mul_add_mod, Nat.mod_eq_of_lt hr1]
    push_cast
    ring
  · have hr2 : r + 1 = 2 ^ f.mb := by omega
    have hq : ((r : ℚ) + 1) = 2 ^ f.mb := by exact_mod_cast hr2
    rw [hr2, ← Nat.succ_mul, Nat.mul_div_cancel _ hpos, Nat.mul_mod_left]
    simp only [Nat.succ_eq_add_one, Nat.add_sub_cancel, Nat.add_zero]
    push_cast
    rw [show ((j : Int) + 1 + f.qmin) = (j + f.qmin) + 1 by ring, zpow_add_one₀ (by norm_num), ← hq]
    ring

theorem FFmt.mag_strictMono : StrictMono f.mag :=
  strictMono_nat_of_lt_succ fun c => by
    rw [FFmt.mag_succ]
    exact lt_add_of_pos_right _ (two_zpow_pos _)
theorem FFmt.mag_nonneg (c : Nat) : 0 ≤ f.mag c := by
  rw [← FFmt.mag_zero (f := f)]
  exact FFmt.mag_strictMono.monotone (Nat.zero_le c)
theorem FFmt.expo_mono : Monotone f.expo := fun a b h => by
  have := Nat.div_le_div_right (c := 2 ^ f.mb) h
  simp only [FFmt.expo]
  omega

/-! ## Encoding a multiple of a last place -/

/-- The number of the magnitude `k * 2 ^ q0`. -/
def FFmt.encode (f : FFmt) (q0 : Int) (k : Nat) : Nat :=
  if k < 2 ^ f.mb then k else ((q0 - f.qmin).toNat + 1) * 2 ^ f.mb + (k - 2 ^ f.mb)

/-- `k * 2 ^ q0` has the significand of a magnitude: full, or below it at the least exponent. -/
structure FFmt.Fits (f : FFmt) (q0 : Int) (k : Nat) : Prop where
  least : f.qmin ≤ q0
  full : k < 2 ^ f.mb → q0 = f.qmin
  short : k < 2 ^ (f.mb + 1)

variable {q0 : Int} {k : Nat}

/-- A carry out of the significand is the addition itself (R116). -/
theorem FFmt.Fits.encode_succ (h : f.Fits q0 k) : f.encode q0 (k + 1) = f.encode q0 k + 1 := by
  obtain ⟨-, hfull, -⟩ := h
  rw [FFmt.encode, FFmt.encode]
  by_cases hk : k < 2 ^ f.mb
  · rw [hfull hk, if_pos hk]
    split
    · rfl
    · have : k + 1 = 2 ^ f.mb := by omega
      simp [this]
  · rw [if_neg hk, if_neg (by omega)]
    omega

theorem FFmt.Fits.expo_encode (h : f.Fits q0 k) : f.expo (f.encode q0 k) = q0 := by
  obtain ⟨hleast, hfull, hshort⟩ := h
  have hpos : 0 < 2 ^ f.mb := Nat.two_pow_pos _
  rw [Nat.pow_succ] at hshort
  rw [FFmt.expo, FFmt.encode]
  by_cases hk : k < 2 ^ f.mb
  · rw [if_pos hk, Nat.div_eq_of_lt hk, hfull hk]
    simp
  · rw [if_neg hk, Nat.mul_comm, Nat.mul_add_div hpos, Nat.div_eq_of_lt (by omega)]
    omega
theorem FFmt.Fits.mag_encode (h : f.Fits q0 k) : f.mag (f.encode q0 k) = k * 2 ^ q0 := by
  have hexpo := h.expo_encode
  obtain ⟨-, -, hshort⟩ := h
  rw [Nat.pow_succ] at hshort
  rw [FFmt.mag, hexpo, FFmt.sig, FFmt.encode]
  by_cases hk : k < 2 ^ f.mb
  · rw [if_pos hk, if_pos hk]
  · have hge : ¬ ((q0 - f.qmin).toNat + 1) * 2 ^ f.mb + (k - 2 ^ f.mb) < 2 ^ f.mb := by
      rw [Nat.succ_mul]
      omega
    rw [if_neg hk, if_neg hge, Nat.mul_comm, Nat.mul_add_mod, Nat.mod_eq_of_lt (by omega), Nat.add_sub_cancel' (by omega)]
theorem FFmt.Fits.mag_encode_succ (h : f.Fits q0 k) : f.mag (f.encode q0 k + 1) = ((k : ℚ) + 1) * 2 ^ q0 := by
  rw [FFmt.mag_succ, h.mag_encode, h.expo_encode]
  ring

/-- The last bit of an encoding is that of its significand. -/
theorem FFmt.encode_mod_two (hmb : 1 ≤ f.mb) (q0 : Int) (k : Nat) : f.encode q0 k % 2 = k % 2 := by
  obtain ⟨j, hj⟩ : ∃ j, 2 ^ f.mb = 2 * j := ⟨2 ^ (f.mb - 1), by rw [← Nat.pow_succ']; congr 1; omega⟩
  rw [FFmt.encode, hj]
  split
  · rfl
  · rw [Nat.mul_left_comm]
    omega

end

/-! ## Decoding -/

section
variable {f : FFmt}

theorem FFmt.Regular.maxCode_eq (h : f.Regular) :
    ∃ t r, f.maxCode = t * 2 ^ f.mb + r ∧ t < 2 ^ f.eb ∧ 1 ≤ t ∧ 1 ≤ r ∧ r < 2 ^ f.mb ∧
      (f.kind = 0 ∨ f.kind = 3 → t + 1 < 2 ^ f.eb) ∧ (f.kind = 1 → t + 1 = 2 ^ f.eb ∧ r + 1 < 2 ^ f.mb) := by
  obtain ⟨hmb, -, heb, -, hone⟩ := h
  have hm : 2 ^ 1 ≤ 2 ^ f.mb := Nat.pow_le_pow_right (by decide) hmb
  have he : 2 ^ 2 ≤ 2 ^ f.eb := Nat.pow_le_pow_right (by decide) heb
  have hm2 : f.kind = 1 → 2 ^ 2 ≤ 2 ^ f.mb := fun hk => Nat.pow_le_pow_right (by decide) (hone hk)
  refine ⟨f.topExp, if f.kind = 1 then 2 ^ f.mb - 2 else 2 ^ f.mb - 1, rfl, ?_⟩
  by_cases h0 : f.kind = 0 ∨ f.kind = 3
  · have h1 : f.kind ≠ 1 := by omega
    simp only [FFmt.topExp, Bool.or_eq_true, decide_eq_true_eq, if_pos h0, if_neg h1]
    omega
  · simp only [FFmt.topExp, Bool.or_eq_true, decide_eq_true_eq, if_neg h0]
    split <;> simp_all <;> omega

/-- The largest finite value has no sign bit. -/
theorem FFmt.Regular.maxCode_lt (h : f.Regular) : f.maxCode < 2 ^ (f.eb + f.mb) := by
  obtain ⟨t, r, hmax, ht, -, -, hr, -⟩ := h.maxCode_eq
  have : (t + 1) * 2 ^ f.mb ≤ 2 ^ f.eb * 2 ^ f.mb := Nat.mul_le_mul_right _ ht
  rw [Nat.pow_add, hmax]
  rw [Nat.succ_mul] at this
  omega

theorem bitOf_signOf_add {c : Nat} (hc : c < 2 ^ (f.eb + f.mb)) (neg : Bool) : bitOf (signOf f neg + c) (f.eb + f.mb) = neg := by
  have hpos : 0 < 2 ^ (f.eb + f.mb) := Nat.two_pow_pos _
  cases neg <;> simp [bitOf, signOf, Nat.add_div_left, Nat.div_eq_of_lt hc, hpos]
theorem fld_signOf_add {c : Nat} (hc : c < 2 ^ (f.eb + f.mb)) (neg : Bool) :
    fld (signOf f neg + c) f.mb f.eb = c / 2 ^ f.mb ∧ fld (signOf f neg + c) 0 f.mb = c % 2 ^ f.mb := by
  have hdiv : c / 2 ^ f.mb < 2 ^ f.eb := Nat.div_lt_of_lt_mul (by rwa [Nat.mul_comm, ← Nat.pow_add])
  have hpow : 2 ^ (f.eb + f.mb) = 2 ^ f.mb * 2 ^ f.eb := by rw [Nat.add_comm, Nat.pow_add]
  cases neg
  · simp [fld, signOf, Nat.mod_eq_of_lt hdiv]
  · simp [fld, signOf, hpow, Nat.mul_add_div (Nat.two_pow_pos _), Nat.mod_eq_of_lt hdiv]

/-- The value of an encoding up to the largest finite one. -/
theorem FFmt.Regular.decodeF_finite (h : f.Regular) {c : Nat} (hc : c ≤ f.maxCode) (neg : Bool) :
    decodeF f (signOf f neg + c) = .num neg (f.sig c) (f.expo c) := by
  have hlt := hc.trans_lt h.maxCode_lt
  obtain ⟨hex, hfr⟩ := fld_signOf_add hlt neg
  obtain ⟨t, r, hmax, ht, ht1, -, hr, hinf, hnan⟩ := h.maxCode_eq
  have hpos : 0 < 2 ^ f.mb := Nat.two_pow_pos _
  have hle : c / 2 ^ f.mb ≤ t := by
    have := Nat.div_le_div_right (c := 2 ^ f.mb) (hc.trans hmax.le)
    rwa [Nat.mul_comm, Nat.mul_add_div hpos, Nat.div_eq_of_lt hr, Nat.add_zero] at this
  have hspecial : ¬ ((f.kind = 0 ∨ f.kind = 3) ∧ c / 2 ^ f.mb = 2 ^ f.eb - 1) := fun ⟨hk, he⟩ => by
    have := hinf hk
    omega
  have hone : ¬ (f.kind = 1 ∧ c / 2 ^ f.mb = 2 ^ f.eb - 1 ∧ c % 2 ^ f.mb = 2 ^ f.mb - 1) := fun ⟨hk, he, hm⟩ => by
    obtain ⟨ht2, hr2⟩ := hnan hk
    have hdm := Nat.div_add_mod c (2 ^ f.mb)
    rw [he, hm, Nat.mul_comm, show 2 ^ f.eb - 1 = t by omega] at hdm
    omega
  simp only [decodeF, bitOf_signOf_add hlt, hex, hfr, Bool.and_eq_true, decide_eq_true_eq]
  rw [if_neg (fun hx => hspecial ⟨.inl hx.1, hx.2⟩), if_neg (fun hx => hspecial ⟨.inr hx.1, hx.2⟩),
    if_neg (fun hx => hone ⟨hx.1.1, hx.1.2, hx.2⟩)]
  by_cases hsub : c < 2 ^ f.mb
  · rw [if_pos (Nat.div_eq_of_lt hsub), FFmt.sig, if_pos hsub, FFmt.expo, Nat.div_eq_of_lt hsub, Nat.mod_eq_of_lt hsub]
    simp
  · have hdiv : 1 ≤ c / 2 ^ f.mb := (Nat.one_le_div_iff hpos).2 (Nat.not_lt.1 hsub)
    rw [if_neg (by omega), FFmt.sig, if_neg hsub, FFmt.expo, FFmt.qmin]
    congr 1
    omega

theorem FVal.rat_num (neg : Bool) (m : Nat) (e : Int) : (FVal.num neg m e).rat = (if neg then -1 else 1) * (m * 2 ^ e) :=
  mul_assoc _ _ _

theorem FFmt.Regular.decodeF_mag (h : f.Regular) {c : Nat} (hc : c ≤ f.maxCode) : (decodeF f c).rat = f.mag c := by
  have := h.decodeF_finite hc false
  rw [signOf, if_neg Bool.false_ne_true, Nat.zero_add] at this
  rw [this, FVal.rat_num, FFmt.mag]
  simp

/-- The ladder of R116 is the rising order of the magnitudes, one place beyond the largest. -/
theorem FFmt.Regular.ladder_eq (h : f.Regular) {c : Nat} (hc : c ≤ f.maxCode + 1) : f.ladder c = f.mag c := by
  rcases Nat.lt_or_ge f.maxCode c with hlt | hle
  · obtain rfl : c = f.maxCode + 1 := by omega
    obtain ⟨t, r, hmax, -, -, hr1, hr, -⟩ := h.maxCode_eq
    have hsame : f.expo (f.maxCode - 1) = f.expo f.maxCode := by
      have hpos : 0 < 2 ^ f.mb := Nat.two_pow_pos _
      rw [FFmt.expo, FFmt.expo, hmax, Nat.add_sub_assoc hr1, Nat.mul_comm, Nat.mul_add_div hpos, Nat.mul_add_div hpos,
        Nat.div_eq_of_lt hr, Nat.div_eq_of_lt (by omega)]
    have hprev := FFmt.mag_succ (f := f) (f.maxCode - 1)
    rw [Nat.sub_add_cancel (by omega), hsame] at hprev
    rw [FFmt.ladder, if_neg (by omega), h.decodeF_mag (Nat.le_refl _), h.decodeF_mag (by omega), FFmt.mag_succ, hprev]
    ring
  · rw [FFmt.ladder, if_pos hle, h.decodeF_mag hle]

end

end Sys2Proof.Machine
end
section
/-! PROOFS. Rounding once (R115, R116, R118 to R120).

A magnitude is a real number `X`, so that square roots and quotients are rounded by the same argument as sums: it is known by an
integral significand, with a positive part below its last place where the significand is sticky. Rounding cuts it at a power of two; the
cut gives the neighbour below, and what the cut leaves decides as R115 and R120 say. -/

set_option Elab.async false

namespace Sys2Proof.Machine

/-! ## Cutting a magnitude -/

/-- `le` and `ge` compare the numbers that are not negative with `X`. -/
structure Compares (le ge : ℚ → Prop) (X : ℝ) : Prop where
  le_iff : ∀ v, 0 ≤ v → (le v ↔ (v : ℝ) ≤ X)
  ge_iff : ∀ v, 0 ≤ v → (ge v ↔ X ≤ v)

/-- `X` is `m * 2 ^ e`, and a positive part below its last place when `sticky`. -/
structure Denotes (m : Nat) (e : Int) (sticky : Bool) (X : ℝ) : Prop where
  exact_ : sticky = false → X = m * 2 ^ e
  above : sticky = true → m * 2 ^ e < X
  below : sticky = true → X < (m + 1) * 2 ^ e

/-- `X` is `k` and `Y` of `2 ^ sh` parts of `2 ^ q0`, of which `rem` are whole; a sticky part lies below 32 bits of them. -/
structure Parts (X : ℝ) (q0 : Int) (k rem sh : Nat) (sticky : Bool) (Y : ℝ) : Prop where
  eq : X = (k + Y / 2 ^ sh) * 2 ^ q0
  rem_lt : rem < 2 ^ sh
  whole : sticky = false → Y = rem
  above : sticky = true → (rem : ℝ) < Y
  below : sticky = true → Y < rem + 1
  deep : sticky = true → 32 ≤ sh

theorem real_two_zpow_pos (e : Int) : (0 : ℝ) < 2 ^ e := zpow_pos (by norm_num) e

section
variable {X : ℝ} {m : Nat} {e : Int} {sticky : Bool}

theorem Denotes.le (h : Denotes m e sticky X) : m * 2 ^ e ≤ X := by
  cases sticky
  · exact (h.exact_ rfl).ge
  · exact (h.above rfl).le
theorem Denotes.lt (h : Denotes m e sticky X) : X < (m + 1) * 2 ^ e := by
  cases sticky
  · rw [h.exact_ rfl]
    exact mul_lt_mul_of_pos_right (by linarith) (real_two_zpow_pos e)
  · exact h.below rfl

/-- A magnitude lies in the binade of its significand. -/
theorem Denotes.binade (h : Denotes m e sticky X) (hm : m ≠ 0) :
    (2 : ℝ) ^ ((ilog2 m : Int) + e) ≤ X ∧ X < (2 : ℝ) ^ ((ilog2 m : Int) + e + 1) := by
  have hlow : (2 : ℝ) ^ ilog2 m ≤ m := by exact_mod_cast Nat.log2_self_le hm
  have hhigh : (m : ℝ) + 1 ≤ 2 ^ (ilog2 m + 1) := by exact_mod_cast (Nat.lt_log2_self : m < 2 ^ (m.log2 + 1))
  have hpos := real_two_zpow_pos e
  refine ⟨le_trans ?_ h.le, h.lt.trans_le ?_⟩
  · rw [zpow_add₀ (by norm_num), zpow_natCast]
    exact mul_le_mul_of_nonneg_right hlow hpos.le
  · rw [show ((ilog2 m : Int) + e + 1) = ((ilog2 m + 1 : Nat) : Int) + e by push_cast; ring, zpow_add₀ (by norm_num), zpow_natCast]
    exact mul_le_mul_of_nonneg_right hhigh hpos.le

theorem cutAt_parts (h : Denotes m e sticky X) (q0 : Int) (hs : sticky = true → e + 32 ≤ q0) :
    ∃ Y, Parts X q0 (cutAt m e q0).1 (cutAt m e q0).2.1 (cutAt m e q0).2.2 sticky Y := by
  by_cases hq : q0 ≤ e
  · have hst : sticky = false := by
      cases sticky
      · rfl
      · have := hs rfl
        omega
    subst hst
    refine ⟨0, ?_, ?_, ?_, nofun, nofun, nofun⟩
    · rw [h.exact_ rfl, cutAt, if_pos hq]
      simp only [zero_div, add_zero]
      push_cast
      rw [mul_assoc, ← zpow_natCast, ← zpow_add₀ (by norm_num)]
      congr 2
      omega
    · simp [cutAt, hq]
    · simp [cutAt, hq]
  · obtain ⟨d, rfl⟩ : ∃ d : Nat, q0 = e + d := ⟨(q0 - e).toNat, by omega⟩
    have hd : (e + d - e).toNat = d := by omega
    rw [cutAt, if_neg hq, hd]
    have hpos := real_two_zpow_pos e
    have hsplit : (m : ℝ) = (m / 2 ^ d : Nat) * 2 ^ d + (m % 2 ^ d : Nat) := by
      have := Nat.div_add_mod' m (2 ^ d)
      exact_mod_cast this.symm
    refine ⟨X / 2 ^ e - (m / 2 ^ d : Nat) * 2 ^ d, ?_, Nat.mod_lt _ (Nat.two_pow_pos d), fun hst => ?_, fun hst => ?_, fun hst => ?_,
      fun hst => ?_⟩
    · rw [zpow_add₀ (by norm_num), zpow_natCast]
      field_simp
      ring
    · rw [h.exact_ hst, mul_div_assoc, div_self hpos.ne', mul_one]
      linarith
    · have := (lt_div_iff₀ hpos).2 (h.above hst)
      linarith
    · have := (div_lt_iff₀ hpos).2 (h.below hst)
      linarith
    · have := hs hst
      change 32 ≤ d
      omega

end

/-! ## Which neighbour is delivered -/

section
variable {X Y : ℝ} {q0 : Int} {k rem sh q : Nat} {sticky neg : Bool} {le ge : ℚ → Prop}

theorem Parts.nonneg (h : Parts X q0 k rem sh sticky Y) : 0 ≤ Y := by
  cases sticky
  · rw [h.whole rfl]
    positivity
  · exact (Nat.cast_nonneg rem).trans (h.above rfl).le
theorem Parts.lt (h : Parts X q0 k rem sh sticky Y) : Y < 2 ^ sh := by
  have hrem : (rem : ℝ) + 1 ≤ 2 ^ sh := by exact_mod_cast h.rem_lt
  cases sticky
  · rw [h.whole rfl]
    linarith
  · have := h.below rfl
    linarith
theorem Parts.cut_le (h : Parts X q0 k rem sh sticky Y) : k * 2 ^ q0 ≤ X := by
  have hfrac : 0 ≤ Y / 2 ^ sh := div_nonneg h.nonneg (by positivity)
  rw [h.eq]
  exact mul_le_mul_of_nonneg_right (by linarith) (real_two_zpow_pos q0).le
theorem Parts.lt_cut (h : Parts X q0 k rem sh sticky Y) : X < (k + 1) * 2 ^ q0 := by
  have hfrac : Y / 2 ^ sh < 1 := (div_lt_one (by positivity)).2 h.lt
  rw [h.eq]
  exact mul_lt_mul_of_pos_right (by linarith) (real_two_zpow_pos q0)
theorem Parts.eq_cut_iff (h : Parts X q0 k rem sh sticky Y) : X = k * 2 ^ q0 ↔ rem = 0 ∧ sticky = false := by
  have hzero : X = k * 2 ^ q0 ↔ Y = 0 := by
    have hpos := real_two_zpow_pos q0
    rw [h.eq, mul_left_inj' hpos.ne', add_eq_left, div_eq_zero_iff]
    simp
  rw [hzero]
  cases sticky
  · simp [h.whole rfl]
  · have := h.above rfl
    have : (0 : ℝ) ≤ rem := Nat.cast_nonneg rem
    exact ⟨fun hY => by linarith, fun hx => by cases hx.2⟩

/-- Comparing what a cut leaves with a number of 2^32 parts is comparing integers. -/
theorem Parts.le_iff (h : Parts X q0 k rem sh sticky Y) (j : Nat) : j / 2 ^ 32 * 2 ^ sh ≤ Y ↔ j * 2 ^ sh ≤ rem * 2 ^ 32 := by
  have hcast : j * 2 ^ sh ≤ rem * 2 ^ 32 ↔ (j : ℝ) / 2 ^ 32 * 2 ^ sh ≤ rem := by
    rw [div_mul_eq_mul_div, div_le_iff₀ (by norm_num)]
    exact_mod_cast Iff.rfl
  rw [hcast]
  cases sticky
  · rw [h.whole rfl]
  · obtain ⟨d, rfl⟩ := Nat.exists_eq_add_of_le (h.deep rfl)
    have hint : (j : ℝ) / 2 ^ 32 * 2 ^ (32 + d) = (j * 2 ^ d : Nat) := by
      rw [pow_add]
      push_cast
      ring
    rw [hint, Nat.cast_le]
    refine ⟨fun hle => ?_, fun hle => (Nat.cast_le.2 hle).trans (h.above rfl).le⟩
    have hlt : ((j * 2 ^ d : Nat) : ℝ) < (rem + 1 : Nat) := by
      rw [Nat.cast_succ]
      exact hle.trans_lt (h.below rfl)
    exact Nat.lt_succ_iff.1 (Nat.cast_lt.1 hlt)
theorem Parts.ge_iff (h : Parts X q0 k rem sh sticky Y) (j : Nat) :
    Y ≤ j / 2 ^ 32 * 2 ^ sh ↔ rem * 2 ^ 32 + b2n sticky ≤ j * 2 ^ sh := by
  have hcast : rem * 2 ^ 32 ≤ j * 2 ^ sh ↔ (rem : ℝ) ≤ (j : ℝ) / 2 ^ 32 * 2 ^ sh := by
    rw [div_mul_eq_mul_div, le_div_iff₀ (by norm_num)]
    exact_mod_cast Iff.rfl
  cases sticky
  · rw [h.whole rfl, ← hcast, b2n, if_neg Bool.false_ne_true, Nat.add_zero]
  · obtain ⟨d, rfl⟩ := Nat.exists_eq_add_of_le (h.deep rfl)
    have hint : (j : ℝ) / 2 ^ 32 * 2 ^ (32 + d) = (j * 2 ^ d : Nat) := by
      rw [pow_add]
      push_cast
      ring
    have hnat : rem * 2 ^ 32 + b2n true ≤ j * 2 ^ (32 + d) ↔ rem + 1 ≤ j * 2 ^ d := by
      rw [Nat.pow_add, Nat.mul_left_comm, Nat.mul_comm (2 ^ 32), b2n, if_pos rfl, Nat.add_one_le_iff, Nat.add_one_le_iff,
        Nat.mul_lt_mul_right (Nat.two_pow_pos 32)]
    rw [hint, hnat]
    refine ⟨fun hle => Nat.cast_lt.1 ((h.above rfl).trans_le hle), fun hle => (h.below rfl).le.trans ?_⟩
    rw [← Nat.cast_succ]
    exact Nat.cast_le.2 hle

/-- A point `j / 2 ^ 32` of the way between the neighbours. -/
theorem Parts.compares (h : Parts X q0 k rem sh sticky Y) (hc : Compares le ge X) {v : ℚ} {j : Nat}
    (hv : v = (k + j / 2 ^ 32) * 2 ^ q0) :
    (le v ↔ j * 2 ^ sh ≤ rem * 2 ^ 32) ∧ (ge v ↔ rem * 2 ^ 32 + b2n sticky ≤ j * 2 ^ sh) := by
  have hpos := real_two_zpow_pos q0
  have hnonneg : 0 ≤ v := by
    rw [hv]
    exact mul_nonneg (by positivity) (two_zpow_pos q0).le
  have hcast : (v : ℝ) = (k + j / 2 ^ 32) * 2 ^ q0 := by
    rw [hv]
    push_cast
    ring
  have hS : (0 : ℝ) < 2 ^ sh := by positivity
  rw [hc.le_iff v hnonneg, hc.ge_iff v hnonneg, ← h.le_iff, ← h.ge_iff, hcast, h.eq, mul_le_mul_iff_left₀ hpos, mul_le_mul_iff_left₀ hpos,
    add_le_add_iff_left, add_le_add_iff_left, le_div_iff₀ hS, div_le_iff₀ hS]
  exact ⟨Iff.rfl, Iff.rfl⟩

/-- The neighbour above is delivered as R115 and R120 say. -/
theorem roundUp_iff (h : Parts X q0 k rem sh sticky Y) (hc : Compares le ge X) (hq : q < 2 ^ 32) (rm : Nat) :
    roundUp rm q neg k rem sh sticky = true ↔
      X ≠ k * 2 ^ q0 ∧ roundsUp rm q neg (decide (k % 2 = 1)) (k * 2 ^ q0) ((k + 1) * 2 ^ q0) le ge := by
  have hrem := h.rem_lt
  have hne : X ≠ k * 2 ^ q0 ↔ ¬ (rem = 0 ∧ sticky = false) := h.eq_cut_iff.not
  have hP : 0 < 2 ^ sh := Nat.two_pow_pos sh
  rw [hne]
  match rm with
  | 0 =>
    obtain ⟨hle, hge⟩ := h.compares hc (v := (k * 2 ^ q0 + (k + 1) * 2 ^ q0) / 2) (j := 2 ^ 31) (by push_cast; ring)
    simp only [roundsUp, roundUp, hle, hge]
    generalize 2 ^ sh = P at *
    cases sticky <;> simp [b2n] <;> grind
  | 1 => simp [roundsUp, roundUp]
  | 2 => cases neg <;> cases sticky <;> simp [roundsUp, roundUp]
  | 3 => cases neg <;> cases sticky <;> simp [roundsUp, roundUp]
  | n + 4 =>
    cases neg
    · obtain ⟨hle, -⟩ := h.compares hc (v := k * 2 ^ q0 + (q + 1) * ((k + 1) * 2 ^ q0 - k * 2 ^ q0) / 2 ^ 32) (j := q + 1)
        (by push_cast; ring)
      simp only [roundsUp, roundUp, Bool.false_eq_true, if_false, hle, decide_eq_true_eq]
      rw [Nat.lt_iff_add_one_le, Nat.le_div_iff_mul_le hP]
      refine ⟨fun hx => ⟨fun h0 => ?_, hx⟩, fun hx => hx.2⟩
      have : 0 < (q + 1) * 2 ^ sh := by positivity
      rw [h0.1] at hx
      omega
    · obtain ⟨-, hge⟩ := h.compares hc (v := (k + 1) * 2 ^ q0 - (q + 1) * ((k + 1) * 2 ^ q0 - k * 2 ^ q0) / 2 ^ 32)
        (j := 2 ^ 32 - (q + 1)) (by rw [Nat.cast_sub (by omega)]; push_cast; ring)
      have hz : (q + 1) * 2 ^ sh ≤ 2 ^ 32 * 2 ^ sh := Nat.mul_le_mul_right _ (by omega)
      simp only [roundsUp, roundUp, if_true, hge, Bool.and_eq_true, Bool.or_eq_true, Bool.not_eq_true', decide_eq_false_iff_not,
        decide_eq_true_eq]
      rw [Nat.lt_iff_add_one_le, Nat.le_div_iff_mul_le hP, Nat.sub_mul (2 ^ 32)]
      generalize (q + 1) * 2 ^ sh = z at *
      generalize 2 ^ sh = P at *
      cases sticky <;> simp [b2n] <;> omega

end

end Sys2Proof.Machine
end
section
/-! PROOFS. Rounding to a format (R115, R116, R118, R119).

The two neighbours of a magnitude are consecutive in the rising order of the encodings; what `roundF` delivers is said once, by
`exists_delivered`, and the clauses of `Rounds` and the range of the result follow from it. -/

set_option Elab.async false

namespace Sys2Proof.Machine

/-- The exponent at which rounding cuts a magnitude. -/
def FFmt.lastPlace (f : FFmt) (m : Nat) (e : Int) : Int :=
  if (ilog2 m : Int) + e - f.mb < f.qmin then f.qmin else (ilog2 m : Int) + e - f.mb

/-- What an overflow delivers, without its sign (R119). -/
def FFmt.overflow (f : FFmt) (sat : Bool) (rm : Nat) (neg : Bool) : Nat :=
  if sat || rm = 1 || (rm = 2 && !neg) || (rm = 3 && neg) then f.maxCode else f.infCode

/-- The encoding and flags of a magnitude between the `c`-th and its upper neighbour, delivered as the upper one if `up`. -/
def FFmt.delivered (f : FFmt) (sat : Bool) (rm : Nat) (neg : Bool) (c : Nat) (up exact_ tiny : Bool) : Nat × Nat :=
  if f.maxCode < (if up then c + 1 else c) then (signOf f neg + f.overflow sat rm neg, flagOF + flagNX)
  else (signOf f neg + (if up then c + 1 else c), if exact_ then 0 else flagNX + (if tiny then flagUF else 0))

section
variable {f : FFmt} {X Y : ℝ} {m : Nat} {e : Int} {sticky : Bool}

/-- What a cut at the last place leaves has a significand of the format. -/
theorem Parts.fits {k rem sh : Nat} (hp : Parts X (f.lastPlace m e) k rem sh sticky Y) (hd : Denotes m e sticky X) (hm : m ≠ 0) :
    f.Fits (f.lastPlace m e) k := by
  obtain ⟨hlow, hhigh⟩ := hd.binade hm
  have hpos := real_two_zpow_pos (f.lastPlace m e)
  have hplace : f.lastPlace m e = f.qmin ∨ f.lastPlace m e = (ilog2 m : Int) + e - f.mb := by
    rw [FFmt.lastPlace]
    split <;> simp
  have hge : (ilog2 m : Int) + e - f.mb ≤ f.lastPlace m e ∧ f.qmin ≤ f.lastPlace m e := by
    rw [FFmt.lastPlace]
    split <;> omega
  refine ⟨hge.2, fun hk => hplace.elim id fun hx => absurd hk (not_lt.2 ?_), ?_⟩
  · have hexp : (ilog2 m : Int) + e = (f.mb : Int) + f.lastPlace m e := by omega
    have := hlow.trans_lt hp.lt_cut
    rw [hexp, zpow_add₀ (by norm_num), zpow_natCast, mul_lt_mul_iff_left₀ hpos] at this
    exact Nat.lt_succ_iff.1 (by exact_mod_cast this)
  · have hexp : (2 : ℝ) ^ ((ilog2 m : Int) + e + 1) ≤ 2 ^ ((f.mb + 1 : Nat) + f.lastPlace m e) :=
      zpow_le_zpow_right₀ (by norm_num) (by push_cast; omega)
    have := (hp.cut_le.trans_lt hhigh).trans_le hexp
    rw [zpow_add₀ (by norm_num), zpow_natCast, mul_lt_mul_iff_left₀ hpos] at this
    exact_mod_cast this

/-- What a cut at the last place decides is what `roundF` delivers. -/
theorem roundF_eq_delivered (sat : Bool) (rm q : Nat) (neg : Bool) {k rem sh : Nat} (hcut : cutAt m e (f.lastPlace m e) = (k, rem, sh))
    (hm : m ≠ 0) (hfit : f.Fits (f.lastPlace m e) k) :
    roundF f sat rm q neg m e sticky = f.delivered sat rm neg (f.encode (f.lastPlace m e) k) (roundUp rm q neg k rem sh sticky)
      (decide (rem = 0) && !sticky) (decide ((ilog2 m : Int) + e < 1 - f.bias)) := by
  have hcode : (if roundUp rm q neg k rem sh sticky then f.encode (f.lastPlace m e) k + 1 else f.encode (f.lastPlace m e) k) =
      f.encode (f.lastPlace m e) (if roundUp rm q neg k rem sh sticky then k + 1 else k) := by
    rw [← hfit.encode_succ]
    split <;> rfl
  have hplace : (if (ilog2 m : Int) + e - f.mb < f.qmin then f.qmin else (ilog2 m : Int) + e - f.mb) = f.lastPlace m e := rfl
  have hnonzero : ¬ (decide (m = 0) && !sticky) = true := by simp [hm]
  rw [FFmt.delivered, hcode]
  simp only [roundF, if_neg hnonzero, hplace, hcut, gt_iff_lt, FFmt.encode, FFmt.overflow, Bool.or_assoc]
  by_cases hrem : rem = 0
  · cases sat <;> cases sticky <;> simp [hrem]
  · cases sat <;> simp [hrem]

variable {le ge : ℚ → Prop} {q : Nat}

theorem bitOf_zero (c : Nat) : bitOf c 0 = decide (c % 2 = 1) := by simp [bitOf]

/-- `X` lies between the `c`-th magnitude and the next. -/
structure FFmt.Between (f : FFmt) (X : ℝ) (c : Nat) : Prop where
  low : f.mag c ≤ X
  high : X < f.mag (c + 1)

/-- Rounding a magnitude delivers one of its two neighbours, and says whether it is exact and whether it is tiny. -/
theorem exists_delivered (hf : f.Regular) (hd : Denotes m e sticky X) (hc : Compares le ge X) (hm : m ≠ 0)
    (hs : sticky = true → e + 32 ≤ f.lastPlace m e) (hq : q < 2 ^ 32) (sat : Bool) (rm : Nat) (neg : Bool) :
    ∃ c, ∃ up exact_ tiny : Bool, f.Between X c ∧
      (up = true ↔ X ≠ f.mag c ∧ roundsUp rm q neg (bitOf c 0) (f.mag c) (f.mag (c + 1)) le ge) ∧
      (exact_ = true ↔ X = f.mag c) ∧ (tiny = true ↔ ¬ le (2 ^ (1 - (f.bias : Int)))) ∧
      roundF f sat rm q neg m e sticky = f.delivered sat rm neg c up exact_ tiny := by
  obtain ⟨Y, hp⟩ := cutAt_parts hd (f.lastPlace m e) hs
  rcases hcut : cutAt m e (f.lastPlace m e) with ⟨k, rem, sh⟩
  rw [hcut] at hp
  have hfit := hp.fits hd hm
  have hmag : (f.mag (f.encode (f.lastPlace m e) k) : ℝ) = k * 2 ^ f.lastPlace m e := by
    rw [hfit.mag_encode]
    push_cast
    rfl
  have hmag1 : (f.mag (f.encode (f.lastPlace m e) k + 1) : ℝ) = (k + 1) * 2 ^ f.lastPlace m e := by
    rw [hfit.mag_encode_succ]
    push_cast
    rfl
  refine ⟨_, _, _, _, ⟨hmag.trans_le hp.cut_le, hp.lt_cut.trans_eq hmag1.symm⟩, ?_, ?_, ?_, roundF_eq_delivered sat rm q neg hcut hm hfit⟩
  · rw [roundUp_iff hp hc hq, hmag, bitOf_zero, FFmt.encode_mod_two hf.mb_pos, hfit.mag_encode, hfit.mag_encode_succ]
  · rw [hmag, hp.eq_cut_iff]
    simp
  · obtain ⟨hlow, hhigh⟩ := hd.binade hm
    rw [decide_eq_true_eq, hc.le_iff _ (two_zpow_pos _).le, not_le]
    push_cast
    refine ⟨fun hlt => hhigh.trans_le (zpow_le_zpow_right₀ (by norm_num) (by omega)), fun hlt => ?_⟩
    exact (zpow_lt_zpow_iff_right₀ (by norm_num)).1 (hlow.trans_lt hlt)

theorem FFmt.Regular.two_pow_mb_le (hf : f.Regular) : 2 ^ f.mb ≤ f.maxCode := by
  obtain ⟨t, r, hmax, -, ht, -, -, -⟩ := hf.maxCode_eq
  have : 1 * 2 ^ f.mb ≤ t * 2 ^ f.mb := Nat.mul_le_mul_right _ ht
  omega
/-- The least normal magnitude (R118). -/
theorem FFmt.mag_two_pow_mb : f.mag (2 ^ f.mb) = 2 ^ (1 - (f.bias : Int)) := by
  rw [FFmt.mag, FFmt.sig, if_neg (Nat.lt_irrefl _), FFmt.expo, Nat.mod_self, Nat.div_self (Nat.two_pow_pos _), FFmt.qmin]
  push_cast
  rw [← zpow_natCast, add_zero, ← zpow_add₀ (by norm_num)]
  congr 1
  simp

theorem FFmt.Between.le_of_mag_le {c c' : Nat} (h : f.Between X c) (hc : f.mag c' ≤ X) : c' ≤ c := by
  have : (f.mag c' : ℝ) < f.mag (c + 1) := hc.trans_lt h.high
  exact Nat.lt_succ_iff.1 (FFmt.mag_strictMono.lt_iff_lt.1 (by exact_mod_cast this))
theorem FFmt.Between.ge_of_lt_mag {c c' : Nat} (h : f.Between X c) (hc : X < f.mag c') : c < c' := by
  have : (f.mag c : ℝ) < f.mag c' := h.low.trans_lt hc
  exact FFmt.mag_strictMono.lt_iff_lt.1 (by exact_mod_cast this)

/-- A magnitude of the format, or one between two of its magnitudes, or beyond the largest. -/
theorem rounds_delivered (hf : f.Regular) (hc : Compares le ge X) {sat neg : Bool} {rm c : Nat} {up exact_ tiny : Bool}
    (hb : f.Between X c) (hup : up = true ↔ X ≠ f.mag c ∧ roundsUp rm q neg (bitOf c 0) (f.mag c) (f.mag (c + 1)) le ge)
    (hexact : exact_ = true ↔ X = f.mag c) (htiny : tiny = true ↔ ¬ le (2 ^ (1 - (f.bias : Int)))) :
    Rounds f sat rm q neg le ge (f.delivered sat rm neg c up exact_ tiny) := by
  have hle : ∀ c', le (f.mag c') ↔ f.mag c' ≤ X := fun c' => hc.le_iff _ (FFmt.mag_nonneg c')
  have hge : ∀ c', ge (f.mag c') ↔ X ≤ f.mag c' := fun c' => hc.ge_iff _ (FFmt.mag_nonneg c')
  refine ⟨fun c' htop h1 h2 => ?_, fun c' htop h1 h2 => ?_, fun h1 _ => ?_⟩
  · rw [hf.ladder_eq (by omega)] at h1 h2
    have heq : X = f.mag c' := le_antisymm ((hge c').1 h2) ((hle c').1 h1)
    have hcc : c' ≤ c := hb.le_of_mag_le heq.ge
    have hcc' : c < c' + 1 := hb.ge_of_lt_mag (by
      rw [heq]
      exact_mod_cast FFmt.mag_strictMono (Nat.lt_succ_self c'))
    obtain rfl : c' = c := by omega
    have hup0 : up = false := Bool.eq_false_iff.2 fun hx => (hup.1 hx).1 heq
    rw [FFmt.delivered, hup0, hexact.2 heq]
    simp [htop]
  · rw [hf.ladder_eq (by omega)] at h1 h2
    rw [hge, not_le] at h1
    rw [hle, not_le] at h2
    have hcc : c' ≤ c := hb.le_of_mag_le h1.le
    have hcc' := hb.ge_of_lt_mag h2
    obtain rfl : c' = c := by omega
    have hexact0 : exact_ = false := Bool.eq_false_iff.2 fun hx => h1.ne' (hexact.1 hx)
    refine ⟨up, tiny, ?_, htiny, ?_⟩
    · beta_reduce
      rw [hup, hf.ladder_eq (by omega), hf.ladder_eq (by omega)]
      exact and_iff_right h1.ne'
    · rw [FFmt.delivered, if_neg (by split <;> omega), hexact0]
      simp
  · rw [hf.ladder_eq (by omega), hge, not_le] at h1
    have hcc := hb.le_of_mag_le h1.le
    have hnottiny : tiny = false := by
      have hnormal : f.mag (2 ^ f.mb) ≤ f.mag f.maxCode := FFmt.mag_strictMono.monotone hf.two_pow_mb_le
      rw [FFmt.mag_two_pow_mb] at hnormal
      exact Bool.eq_false_iff.2 fun hx => htiny.1 hx ((hc.le_iff _ (two_zpow_pos _).le).2
        ((by exact_mod_cast hnormal : _ ≤ (f.mag f.maxCode : ℝ)).trans h1.le))
    have hexact0 : c = f.maxCode → exact_ = false := fun hx => Bool.eq_false_iff.2 fun hy => h1.ne' (hx ▸ hexact.1 hy)
    refine ⟨decide (f.maxCode < if up then c + 1 else c), ?_, ?_⟩
    · beta_reduce
      rw [decide_eq_true_eq, hf.ladder_eq (Nat.le_refl _), hf.ladder_eq (by omega), hle]
      rcases hcc.lt_or_eq with hlt | rfl
      · have : (f.mag (f.maxCode + 1) : ℝ) ≤ f.mag c := by exact_mod_cast FFmt.mag_strictMono.monotone hlt
        exact iff_of_true (by split <;> omega) (.inl (this.trans hb.low))
      · have hno : ¬ (f.mag (f.maxCode + 1) : ℝ) ≤ X := not_le.2 hb.high
        have hcase : (f.maxCode < if up then f.maxCode + 1 else f.maxCode) ↔ up = true := by cases up <;> simp
        rw [hcase, hup, or_iff_right hno, and_iff_right h1.ne']
    · rw [FFmt.delivered]
      by_cases hover : f.maxCode < if up then c + 1 else c
      · rw [if_pos hover, decide_eq_true hover, if_pos rfl, FFmt.overflow]
      · have htop : (if up then c + 1 else c) = f.maxCode ∧ c = f.maxCode := by
          cases up <;> simp only [Bool.false_eq_true, if_false, if_true] at hover ⊢ <;> omega
        rw [if_neg hover, decide_eq_false hover, if_neg Bool.false_ne_true, htop.1, hnottiny, hexact0 htop.2]
        rfl

/-- A magnitude is rounded once. -/
theorem rounds_roundF (hf : f.Regular) (hd : Denotes m e sticky X) (hc : Compares le ge X) (hm : m ≠ 0)
    (hs : sticky = true → e + 32 ≤ f.lastPlace m e) (hq : q < 2 ^ 32) (sat : Bool) (rm : Nat) (neg : Bool) :
    Rounds f sat rm q neg le ge (roundF f sat rm q neg m e sticky) := by
  obtain ⟨c, up, exact_, tiny, hb, hup, hexact, htiny, hr⟩ := exists_delivered hf hd hc hm hs hq sat rm neg
  rw [hr]
  exact rounds_delivered hf hc hb hup hexact htiny

/-- An exact magnitude, of rational numbers. -/
theorem compares_rat (x : ℚ) : Compares (· ≤ x) (x ≤ ·) x :=
  ⟨fun _ _ => Rat.cast_le.symm, fun _ _ => Rat.cast_le.symm⟩
theorem denotes_exact (m : Nat) (e : Int) : Denotes m e false ((m * 2 ^ e : ℚ) : ℝ) :=
  ⟨fun _ => by push_cast; rfl, nofun, nofun⟩

/-! ## The range of the result -/

theorem FFmt.infCode_lt (f : FFmt) : f.infCode < 2 ^ (f.eb + f.mb) := by
  rw [FFmt.infCode, Nat.pow_add]
  exact Nat.mul_lt_mul_of_pos_right (Nat.sub_lt (Nat.two_pow_pos _) Nat.one_pos) (Nat.two_pow_pos _)
theorem signOf_add_lt {c : Nat} (hc : c < 2 ^ (f.eb + f.mb)) (neg : Bool) : signOf f neg + c < 2 ^ f.width := by
  have hpow : 2 ^ f.width = 2 ^ (f.eb + f.mb) + 2 ^ (f.eb + f.mb) := by
    rw [FFmt.width, Nat.add_assoc, Nat.add_comm, Nat.pow_succ, Nat.mul_two]
  rw [signOf, hpow]
  split <;> omega

theorem FFmt.overflow_cases (f : FFmt) (sat : Bool) (rm : Nat) (neg : Bool) :
    f.overflow sat rm neg ≤ f.maxCode ∨ sat = false ∧ f.overflow sat rm neg = f.infCode := by
  rw [FFmt.overflow]
  cases sat
  · split <;> simp
  · exact .inl (Nat.le_refl _)

/-- A choice between pairs whose first components have a property has it. -/
theorem fst_ite {α β : Type} {P : α → Prop} {p : Prop} [Decidable p] {x y : α × β} (hx : P x.1) (hy : ¬ p → P y.1) :
    P (if p then x else y).1 := by
  split
  · exact hx
  · next h => exact hy h

/-- `n` is a finite encoding of the format with its sign, or an infinity where overflows are not saturated. -/
def FFmt.Encodes (f : FFmt) (sat : Bool) (neg : Bool) (n : Nat) : Prop :=
  ∃ c, n = signOf f neg + c ∧ (c ≤ f.maxCode ∨ sat = false ∧ c = f.infCode)

theorem roundF_encodes (f : FFmt) (sat : Bool) (rm q : Nat) (neg : Bool) (m : Nat) (e : Int) (sticky : Bool) :
    f.Encodes sat neg (roundF f sat rm q neg m e sticky).1 := by
  rw [roundF]
  refine fst_ite ⟨0, rfl, .inl (Nat.zero_le _)⟩ fun _ => ?_
  generalize hcut : cutAt m e (if (ilog2 m : Int) + e - f.mb < f.qmin then f.qmin else (ilog2 m : Int) + e - f.mb) = r
  obtain ⟨k, rem, sh⟩ := r
  dsimp only
  rw [hcut]
  refine fst_ite ⟨f.overflow sat rm neg, ?_, f.overflow_cases sat rm neg⟩ fun h => ⟨_, rfl, .inl (Nat.not_lt.1 h)⟩
  cases sat <;> simp [FFmt.overflow]
theorem FFmt.Encodes.lt (hf : f.Regular) {sat neg : Bool} {n : Nat} (h : f.Encodes sat neg n) : n < 2 ^ f.width := by
  obtain ⟨c, rfl, hc⟩ := h
  refine signOf_add_lt (hc.elim (fun h => h.trans_lt hf.maxCode_lt) fun h => ?_) neg
  rw [h.2]
  exact f.infCode_lt
theorem roundF_lt (hf : f.Regular) (sat : Bool) (rm q : Nat) (neg : Bool) (m : Nat) (e : Int) (sticky : Bool) :
    (roundF f sat rm q neg m e sticky).1 < 2 ^ f.width := (roundF_encodes f sat rm q neg m e sticky).lt hf
theorem FFmt.nanCode_lt (hf : f ∈ floatFormats) : f.nanCode < 2 ^ f.width := by
  simp only [floatFormats, List.mem_cons, List.not_mem_nil, or_false] at hf
  rcases hf with rfl | rfl | rfl | rfl | rfl | rfl | rfl | rfl | rfl <;> decide
theorem signOf_lt (f : FFmt) (neg : Bool) : signOf f neg < 2 ^ f.width := signOf_add_lt (c := 0) (Nat.two_pow_pos _) neg
theorem deliver_lt (hf : f ∈ floatFormats) (sat : Bool) (rm q : Nat) (v : FVal) : (deliver f sat rm q v).1 < 2 ^ f.width := by
  cases v with
  | nan s => exact f.nanCode_lt hf
  | inf n => exact fst_ite (P := (· < 2 ^ f.width)) (f.nanCode_lt hf) fun _ => signOf_add_lt f.infCode_lt n
  | num n m e => exact roundF_lt (regular_of_mem hf) sat rm q n m e false

end

end Sys2Proof.Machine
end
section
/-! PROOFS. Sums, products, quotients and roots, rounded once (R115 to R119, R130, R131, R155). -/

set_option Elab.async false

namespace Sys2Proof.Machine

/-! ## Finite values as rational numbers -/

theorem FVal.exists_num {a : FVal} (h : a.finite = true) : ∃ neg m e, a = .num neg m e := by
  cases a with
  | num neg m e => exact ⟨neg, m, e, rfl⟩
  | nan _ => cases h
  | inf _ => cases h

section
variable (neg : Bool) (m : Nat) (e : Int)

theorem FVal.rat_num_eq_zero : (FVal.num neg m e).rat = 0 ↔ m = 0 := by
  have := (two_zpow_pos e).ne'
  rw [FVal.rat_num]
  cases neg <;> simp [this]
theorem FVal.abs_rat_num : |(FVal.num neg m e).rat| = m * 2 ^ e := by
  have : (0 : ℚ) ≤ m * 2 ^ e := mul_nonneg (Nat.cast_nonneg m) (two_zpow_pos e).le
  rw [FVal.rat_num]
  cases neg <;> simp
theorem FVal.rat_num_neg : (FVal.num neg m e).rat < 0 ↔ neg = true ∧ m ≠ 0 := by
  have hpos := two_zpow_pos e
  rw [FVal.rat_num]
  rcases Nat.eq_zero_or_pos m with rfl | hm
  · simp
  · have : (0 : ℚ) < m * 2 ^ e := mul_pos (Nat.cast_pos.2 hm) hpos
    cases neg <;> simp <;> grind
theorem FVal.rat_negate (a : FVal) : a.negate.rat = -a.rat := by
  cases a with
  | num neg m e => cases neg <;> simp [FVal.negate, FVal.rat_num]
  | nan _ => simp [FVal.negate, FVal.rat]
  | inf _ => simp [FVal.negate, FVal.rat]

/-- The signed numerator at a lower exponent is the same value. -/
theorem atExp_mul {e0 : Int} (h : e0 ≤ e) : (atExp neg m e e0 : ℚ) * 2 ^ e0 = (FVal.num neg m e).rat := by
  have hscale : (m * 2 ^ (e - e0).toNat : ℚ) * 2 ^ e0 = m * 2 ^ e := by
    rw [mul_assoc, ← zpow_natCast, ← zpow_add₀ (by norm_num)]
    congr 2
    omega
  rw [FVal.rat_num, ← hscale, atExp]
  cases neg <;> push_cast <;> simp

end

section
variable {f : FFmt} {sat : Bool} {rm q : Nat} {x : ℚ}

/-- Delivering a finite value rounds it; a zero keeps its sign. -/
theorem deliver_num_roundsTo (hf : f.Regular) (hq : q < 2 ^ 32) {neg : Bool} {m : Nat} {e : Int} (hx : (FVal.num neg m e).rat = x)
    (h0 : x ≠ 0) : RoundsTo f sat rm q x (deliver f sat rm q (.num neg m e)) := by
  subst hx
  have hm : m ≠ 0 := fun h => h0 ((FVal.rat_num_eq_zero neg m e).2 h)
  have hneg : decide ((FVal.num neg m e).rat < 0) = neg := by
    rw [Bool.eq_iff_iff, decide_eq_true_eq, FVal.rat_num_neg]
    exact and_iff_left hm
  rw [RoundsTo, hneg, FVal.abs_rat_num]
  exact rounds_roundF hf (denotes_exact m e) (compares_rat _) hm nofun hq sat rm neg
theorem deliver_num_zero {neg : Bool} {m : Nat} {e : Int} (h0 : (FVal.num neg m e).rat = 0) :
    deliver f sat rm q (.num neg m e) = (signOf f neg, 0) := by
  simp [deliver, roundF, (FVal.rat_num_eq_zero neg m e).1 h0]

/-! ## Sums and products -/

theorem addNum_num (rm : Nat) (n1 : Bool) (m1 : Nat) (e1 : Int) (n2 : Bool) (m2 : Nat) (e2 : Int) :
    ∃ n m e, addNum rm n1 m1 e1 n2 m2 e2 = .num n m e ∧
      (FVal.num n m e).rat = (FVal.num n1 m1 e1).rat + (FVal.num n2 m2 e2).rat ∧
      ((FVal.num n1 m1 e1).rat + (FVal.num n2 m2 e2).rat = 0 → n = if n1 = n2 then n1 else decide (rm = 2)) := by
  rw [addNum]
  set e0 := if e1 ≤ e2 then e1 else e2
  have h1 : e0 ≤ e1 := by grind
  have h2 : e0 ≤ e2 := by grind
  have hsum : ((atExp n1 m1 e1 e0 + atExp n2 m2 e2 e0 : Int) : ℚ) * 2 ^ e0 = (FVal.num n1 m1 e1).rat + (FVal.num n2 m2 e2).rat := by
    rw [← atExp_mul n1 m1 e1 h1, ← atExp_mul n2 m2 e2 h2]
    push_cast
    ring
  generalize atExp n1 m1 e1 e0 + atExp n2 m2 e2 e0 = v at hsum ⊢
  rw [← hsum]
  by_cases hv : v = 0
  · exact ⟨_, _, _, if_pos hv, by simp [FVal.rat, hv], fun _ => by simp⟩
  · refine ⟨_, _, _, if_neg hv, ?_, fun h0 => ?_⟩
    · have habs : (v : ℚ) = (if v < 0 then -1 else 1) * (v.natAbs : ℚ) := by
        rw [Nat.cast_natAbs]
        split
        · next h => rw [abs_of_neg h]; push_cast; ring
        · next h => rw [abs_of_nonneg (not_lt.1 h), one_mul]
      rw [FVal.rat_num, ← mul_assoc]
      simp only [decide_eq_true_eq]
      rw [← habs]
    · exact absurd ((mul_eq_zero.1 h0).resolve_right (two_zpow_pos e0).ne') (by exact_mod_cast hv)

/-- The exact sum of two finite values. -/
theorem addF_num (rm : Nat) {a b : FVal} (ha : a.finite = true) (hb : b.finite = true) :
    ∃ n m e, addF rm a b = (.num n m e, 0) ∧ (FVal.num n m e).rat = a.rat + b.rat ∧
      (a.rat + b.rat = 0 → n = if a.neg = b.neg then a.neg else decide (rm = 2)) := by
  obtain ⟨n1, m1, e1, rfl⟩ := FVal.exists_num ha
  obtain ⟨n2, m2, e2, rfl⟩ := FVal.exists_num hb
  obtain ⟨n, m, e, hadd, hrat, hsign⟩ := addNum_num rm n1 m1 e1 n2 m2 e2
  exact ⟨n, m, e, by rw [addF, hadd], hrat, hsign⟩
/-- The exact product of two finite values. -/
theorem mulF_num {a b : FVal} (ha : a.finite = true) (hb : b.finite = true) :
    ∃ m e, mulF a b = (.num (a.neg != b.neg) m e, 0) ∧ (FVal.num (a.neg != b.neg) m e).rat = a.rat * b.rat := by
  obtain ⟨n1, m1, e1, rfl⟩ := FVal.exists_num ha
  obtain ⟨n2, m2, e2, rfl⟩ := FVal.exists_num hb
  refine ⟨_, _, rfl, ?_⟩
  simp only [FVal.rat_num, FVal.neg, zpow_add₀ (two_ne_zero : (2 : ℚ) ≠ 0)]
  push_cast
  cases n1 <;> cases n2 <;> simp <;> ring

theorem fAdd_of_addF {a b v : FVal} (h : addF rm a b = (v, 0)) : fAdd f rm q a b = deliver f false rm q v := by
  simp [fAdd, h]
theorem fMul_of_mulF {a b v : FVal} (h : mulF a b = (v, 0)) : fMul f rm q a b = deliver f false rm q v := by
  simp [fMul, h]

section
variable {a b c : FVal} (ha : a.finite = true) (hb : b.finite = true)
include ha hb

theorem fAdd_roundsTo (hf : f.Regular) (hq : q < 2 ^ 32) (h0 : a.rat + b.rat ≠ 0) :
    RoundsTo f false rm q (a.rat + b.rat) (fAdd f rm q a b) := by
  obtain ⟨n, m, e, hadd, hrat, -⟩ := addF_num rm ha hb
  rw [fAdd_of_addF hadd]
  exact deliver_num_roundsTo hf hq hrat h0
theorem fAdd_zero (h0 : a.rat + b.rat = 0) :
    fAdd f rm q a b = (signOf f (if a.neg = b.neg then a.neg else decide (rm = 2)), 0) := by
  obtain ⟨n, m, e, hadd, hrat, hsign⟩ := addF_num rm ha hb
  rw [fAdd_of_addF hadd, deliver_num_zero (hrat.trans h0), hsign h0]
theorem fMul_roundsTo (hf : f.Regular) (hq : q < 2 ^ 32) (h0 : a.rat * b.rat ≠ 0) :
    RoundsTo f false rm q (a.rat * b.rat) (fMul f rm q a b) := by
  obtain ⟨m, e, hmul, hrat⟩ := mulF_num ha hb
  rw [fMul_of_mulF hmul]
  exact deliver_num_roundsTo hf hq hrat h0
theorem fMul_zero (h0 : a.rat * b.rat = 0) : fMul f rm q a b = (signOf f (a.neg != b.neg), 0) := by
  obtain ⟨m, e, hmul, hrat⟩ := mulF_num ha hb
  rw [fMul_of_mulF hmul, deliver_num_zero (hrat.trans h0)]
/-- A fused product and sum is rounded once (R131). -/
theorem fFma_roundsTo (hc : c.finite = true) (hf : f.Regular) (hq : q < 2 ^ 32) (negp : Bool)
    (h0 : (if negp then -1 else 1) * (a.rat * b.rat) + c.rat ≠ 0) :
    RoundsTo f false rm q ((if negp then -1 else 1) * (a.rat * b.rat) + c.rat) (fFma f rm q negp a b c) := by
  obtain ⟨m, e, hmul, hrat⟩ := mulF_num ha hb
  have hp : (if negp then (FVal.num (a.neg != b.neg) m e).negate else .num (a.neg != b.neg) m e).rat =
      (if negp then -1 else 1) * (a.rat * b.rat) := by
    cases negp <;> simp [FVal.rat_negate, hrat]
  have hfin : (if negp then (FVal.num (a.neg != b.neg) m e).negate else .num (a.neg != b.neg) m e).finite = true := by
    cases negp <;> rfl
  obtain ⟨n, m', e', hadd, hsum, -⟩ := addF_num rm hfin hc
  rw [hp] at hsum
  have hfma : fFma f rm q negp a b c = deliver f false rm q (.num n m' e') := by simp [fFma, hmul, hadd]
  rw [hfma]
  exact deliver_num_roundsTo hf hq hsum h0

end

/-! ## Quotients and roots -/

theorem fld_lt (v lo n : Nat) : fld v lo n < 2 ^ n := Nat.mod_lt _ (Nat.two_pow_pos n)
theorem decodeF_sig_lt {n : Bool} {m x : Nat} {e : Int} (h : decodeF f x = .num n m e) : m < 2 ^ (f.mb + 1) := by
  have hfr := fld_lt x 0 f.mb
  rw [Nat.pow_succ]
  simp only [decodeF] at h
  repeat' split at h
  all_goals cases h
  all_goals omega

/-- A significand far longer than the format's leaves its sticky part below 32 bits of what is cut. -/
theorem deep_of_le (hf : f.Regular) {m : Nat} {e : Int} (hm : 2 ^ 84 ≤ m) : e + 32 ≤ f.lastPlace m e := by
  have hlog : 84 ≤ ilog2 m := (Nat.le_log2 (by omega)).2 hm
  have := hf.mb_le
  rw [FFmt.lastPlace]
  split <;> omega

/-- A quotient is denoted by its integral part, sticky where there is a remainder. -/
theorem denotes_quotient {N d : Nat} (hd : d ≠ 0) (e : Int) : Denotes (N / d) e (decide (N % d ≠ 0)) ((N : ℝ) / d * 2 ^ e) := by
  have hpos := real_two_zpow_pos e
  have hdpos : (0 : ℝ) < d := by exact_mod_cast Nat.pos_of_ne_zero hd
  have hsplit : (N : ℝ) = d * (N / d : Nat) + (N % d : Nat) := by exact_mod_cast (Nat.div_add_mod N d).symm
  have hmod : ((N % d : Nat) : ℝ) < d := by exact_mod_cast Nat.mod_lt N (Nat.pos_of_ne_zero hd)
  refine ⟨fun h => ?_, fun h => ?_, fun h => ?_⟩
  · have hz : N % d = 0 := by simpa using h
    rw [hz, Nat.cast_zero, add_zero] at hsplit
    rw [hsplit, mul_div_cancel_left₀ _ hdpos.ne']
  · have hz : (0 : ℝ) < (N % d : Nat) := by
      have : N % d ≠ 0 := by simpa using h
      exact_mod_cast Nat.pos_of_ne_zero this
    refine mul_lt_mul_of_pos_right ((lt_div_iff₀ hdpos).2 ?_) hpos
    rw [hsplit]
    linarith
  · refine mul_lt_mul_of_pos_right ((div_lt_iff₀ hdpos).2 ?_) hpos
    rw [hsplit]
    linarith

/-- A quotient is rounded once (R130). -/
theorem fDiv_roundsTo (hf : f.Regular) (hq : q < 2 ^ 32) {x y : Nat} (ha : (decodeF f x).finite = true) (hb : (decodeF f y).finite = true)
    (ha0 : (decodeF f x).rat ≠ 0) (hb0 : (decodeF f y).rat ≠ 0) :
    RoundsTo f false rm q ((decodeF f x).rat / (decodeF f y).rat) (fDiv f rm q (decodeF f x) (decodeF f y)) := by
  obtain ⟨n1, m1, e1, hx⟩ := FVal.exists_num ha
  obtain ⟨n2, m2, e2, hy⟩ := FVal.exists_num hb
  have hm2lt := decodeF_sig_lt hy
  rw [hx] at ha0 ⊢
  rw [hy] at hb0 ⊢
  rw [Ne, FVal.rat_num_eq_zero] at ha0 hb0
  have hmb := hf.mb_le
  have hpow : 2 ^ (f.mb + 1) ≤ 2 ^ 53 := Nat.pow_le_pow_right (by decide) (by omega)
  have hquot : 2 ^ 84 ≤ m1 * 2 ^ 256 / m2 := by
    refine (Nat.le_div_iff_mul_le (Nat.pos_of_ne_zero hb0)).2 ?_
    calc 2 ^ 84 * m2 ≤ 2 ^ 84 * 2 ^ 53 := Nat.mul_le_mul_left _ (by omega)
      _ ≤ 1 * 2 ^ 256 := by norm_num
      _ ≤ m1 * 2 ^ 256 := Nat.mul_le_mul_right _ (Nat.pos_of_ne_zero ha0)
  have hquot0 : m1 * 2 ^ 256 / m2 ≠ 0 := by omega
  have hsign : decide ((FVal.num n1 m1 e1).rat / (FVal.num n2 m2 e2).rat < 0) = (n1 != n2) := by
    have h1 : (0 : ℚ) < m1 * 2 ^ e1 := mul_pos (by exact_mod_cast Nat.pos_of_ne_zero ha0) (two_zpow_pos e1)
    have h2 : (0 : ℚ) < m2 * 2 ^ e2 := mul_pos (by exact_mod_cast Nat.pos_of_ne_zero hb0) (two_zpow_pos e2)
    have hpos := div_pos h1 h2
    rw [Bool.eq_iff_iff, decide_eq_true_eq, FVal.rat_num, FVal.rat_num]
    cases n1 <;> cases n2 <;> simp [neg_div, div_neg, hpos, hpos.le]
  have habs : |(FVal.num n1 m1 e1).rat / (FVal.num n2 m2 e2).rat| = (m1 * 2 ^ 256 : Nat) / (m2 : ℚ) * 2 ^ (e1 - e2 - 256) := by
    rw [abs_div, FVal.abs_rat_num, FVal.abs_rat_num, zpow_sub₀ (by norm_num), zpow_sub₀ (by norm_num)]
    have := (two_zpow_pos e2).ne'
    push_cast
    field_simp
  rw [RoundsTo, hsign, habs]
  have hdiv : fDiv f rm q (.num n1 m1 e1) (.num n2 m2 e2) =
      roundF f false rm q (n1 != n2) (m1 * 2 ^ 256 / m2) (e1 - e2 - 256) (decide (m1 * 2 ^ 256 % m2 ≠ 0)) := by
    simp only [fDiv, if_neg hb0, if_neg ha0]
  rw [hdiv]
  have hd := denotes_quotient (N := m1 * 2 ^ 256) hb0 (e1 - e2 - 256)
  have hc := compares_rat ((m1 * 2 ^ 256 : Nat) / (m2 : ℚ) * 2 ^ (e1 - e2 - 256))
  push_cast at hc hd ⊢
  exact rounds_roundF hf hd hc hquot0 (fun _ => deep_of_le hf hquot) hq false rm _

end

end Sys2Proof.Machine
end
section
/-! PROOFS. Square roots (R117, R130, R155). -/

set_option Elab.async false

namespace Sys2Proof.Machine

/-- The bits tried from `i - 1` down complete the floor of the root. -/
theorem isqrtFrom_spec (n : Nat) : ∀ i r, r * r ≤ n → n < (r + 2 ^ i) * (r + 2 ^ i) →
    isqrtFrom n i r * isqrtFrom n i r ≤ n ∧ n < (isqrtFrom n i r + 1) * (isqrtFrom n i r + 1)
  | 0, _, hlow, hhigh => ⟨hlow, hhigh⟩
  | i + 1, r, hlow, hhigh => by
    rw [isqrtFrom]
    split
    · next h => exact isqrtFrom_spec n i _ h (by rwa [Nat.add_assoc, ← Nat.mul_two, ← Nat.pow_succ])
    · next h => exact isqrtFrom_spec n i r hlow (Nat.not_le.1 h)
theorem isqrt_spec (n : Nat) : isqrt n * isqrt n ≤ n ∧ n < (isqrt n + 1) * (isqrt n + 1) := by
  refine isqrtFrom_spec n _ 0 (Nat.zero_le _) ?_
  rw [Nat.zero_add, ← Nat.pow_add]
  exact Nat.lt_log2_self.trans_le (Nat.pow_le_pow_right (by decide) (by rw [ilog2]; omega))
theorem le_isqrt {j n : Nat} (h : 2 ^ (2 * j) ≤ n) : 2 ^ j ≤ isqrt n := by
  have hlt := h.trans_lt (isqrt_spec n).2
  rw [Nat.two_mul, Nat.pow_add] at hlt
  exact Nat.lt_succ_iff.1 (Nat.mul_self_lt_mul_self_iff.1 hlt)

/-- A root is denoted by its integral part, sticky where its square falls short. -/
theorem denotes_root {r : Nat} {V X : ℝ} {e : Int} {sticky : Bool} (hX : 0 ≤ X) (hsq : X * X = V * (2 ^ e * 2 ^ e))
    (hlow : (r : ℝ) * r ≤ V) (hhigh : V < (r + 1) * (r + 1)) (hst : sticky = true ↔ (r : ℝ) * r ≠ V) : Denotes r e sticky X := by
  have hpos := real_two_zpow_pos e
  have hpos2 : (0 : ℝ) < 2 ^ e * 2 ^ e := mul_pos hpos hpos
  have hr : (0 : ℝ) ≤ r := Nat.cast_nonneg r
  refine ⟨fun h => ?_, fun h => ?_, fun _ => ?_⟩
  · have hV : (r : ℝ) * r = V := by_contra fun hne => by simp [hst.2 hne] at h
    exact (mul_self_inj hX (by positivity)).1 (by rw [hsq, ← hV]; ring)
  · have hV := lt_of_le_of_ne hlow (hst.1 h)
    refine (mul_self_lt_mul_self_iff (by positivity) hX).2 ?_
    rw [hsq, mul_mul_mul_comm]
    exact mul_lt_mul_of_pos_right hV hpos2
  · refine (mul_self_lt_mul_self_iff hX (by positivity)).2 ?_
    rw [hsq, mul_mul_mul_comm]
    exact mul_lt_mul_of_pos_right hhigh hpos2

/-- A value's significand at an even exponent. -/
theorem exists_even_exp (m : Nat) (e : Int) :
    ∃ h : Int, (if e % 2 = 0 then e else e - 1) / 2 = h ∧
      (m : ℝ) * 2 ^ e = (if e % 2 = 0 then m else 2 * m : Nat) * (2 ^ h * 2 ^ h) := by
  refine ⟨_, rfl, ?_⟩
  rw [← zpow_add₀ (by norm_num)]
  split
  · congr 2
    omega
  · have he : e = ((e - 1) / 2 + (e - 1) / 2) + 1 := by omega
    conv_lhs => rw [he]
    rw [zpow_add_one₀ (by norm_num)]
    push_cast
    ring

section
variable {f : FFmt} {rm q x : Nat}

theorem compares_sqrt {a : ℚ} (ha : 0 < a) : Compares (fun v => v * v ≤ a) (fun v => a ≤ v * v) (Real.sqrt a) := by
  refine ⟨fun v hv => ?_, fun v hv => ?_⟩
  · rw [Real.le_sqrt (by exact_mod_cast hv) (by exact_mod_cast ha.le), sq]
    exact_mod_cast Iff.rfl
  · rw [Real.sqrt_le_left (by exact_mod_cast hv), sq]
    exact_mod_cast Iff.rfl
theorem compares_rsq {a : ℚ} (ha : 0 < a) : Compares (fun v => v * v * a ≤ 1) (fun v => 1 ≤ v * v * a) (Real.sqrt (1 / a)) := by
  have har : (0 : ℝ) < a := by exact_mod_cast ha
  refine ⟨fun v hv => ?_, fun v hv => ?_⟩
  · rw [Real.le_sqrt (by exact_mod_cast hv) (one_div_nonneg.2 har.le), sq, le_div_iff₀ har]
    exact_mod_cast Iff.rfl
  · rw [Real.sqrt_le_left (by exact_mod_cast hv), sq, div_le_iff₀ har]
    exact_mod_cast Iff.rfl

theorem exists_pos_num {a : FVal} (hfin : a.finite = true) (ha : 0 < a.rat) : ∃ m e, a = .num false m e ∧ m ≠ 0 := by
  obtain ⟨n, m, e, rfl⟩ := FVal.exists_num hfin
  have hm : m ≠ 0 := fun h => ha.ne' ((FVal.rat_num_eq_zero n m e).2 h)
  have hn : n ≠ true := fun h => ha.not_gt ((FVal.rat_num_neg n m e).2 ⟨h, hm⟩)
  exact ⟨m, e, by rw [Bool.eq_false_iff.2 hn], hm⟩

/-- A square root is rounded once (R130). -/
theorem fSqrt_rounds (hf : f.Regular) (hq : q < 2 ^ 32) {a : FVal} (hfin : a.finite = true) (ha : 0 < a.rat) :
    Rounds f false rm q false (fun v => v * v ≤ a.rat) (fun v => a.rat ≤ v * v) (fSqrt f rm q a) := by
  have hc := compares_sqrt ha
  obtain ⟨m, e, rfl, hm⟩ := exists_pos_num hfin ha
  obtain ⟨h, hh, hval⟩ := exists_even_exp m e
  have hrat : ((FVal.num false m e).rat : ℝ) = m * 2 ^ e := by
    rw [FVal.rat_num]
    push_cast
    simp
  simp only [fSqrt, if_neg hm, if_neg Bool.false_ne_true, hh]
  set M := (if e % 2 = 0 then m else 2 * m) with hM
  have hM0 : 1 ≤ M := by grind
  have hroot : 2 ^ 128 ≤ isqrt (M * 2 ^ 256) := le_isqrt (Nat.le_mul_of_pos_left (2 ^ (2 * 128)) hM0)
  obtain ⟨hlow, hhigh⟩ := isqrt_spec (M * 2 ^ 256)
  have hsq : Real.sqrt (FVal.num false m e).rat * Real.sqrt (FVal.num false m e).rat =
      ((M * 2 ^ 256 : Nat) : ℝ) * (2 ^ (h - 128) * 2 ^ (h - 128)) := by
    rw [Real.mul_self_sqrt (by exact_mod_cast ha.le), hrat, hval, zpow_sub₀ (by norm_num)]
    push_cast
    norm_num
    ring
  refine rounds_roundF hf (denotes_root (Real.sqrt_nonneg _) hsq (by exact_mod_cast hlow) (by exact_mod_cast hhigh) ?_) hc
    (by omega) (fun _ => deep_of_le hf (by omega)) hq false rm false
  rw [decide_eq_true_eq]
  exact_mod_cast Iff.rfl

/-- A reciprocal square root is rounded once (R155). -/
theorem fRsq_rounds (hf : f.Regular) (hq : q < 2 ^ 32) (hfin : (decodeF f x).finite = true) (ha : 0 < (decodeF f x).rat) :
    ∃ fl, Rounds f false rm q false (fun v => v * v * (decodeF f x).rat ≤ 1) (fun v => 1 ≤ v * v * (decodeF f x).rat)
      (fRsq f rm q (decodeF f x), fl) := by
  have hc := compares_rsq ha
  obtain ⟨m, e, hx, hm⟩ := exists_pos_num hfin ha
  have hmlt := decodeF_sig_lt hx
  have hmb := hf.mb_le
  have hpow : 2 ^ (f.mb + 1) ≤ 2 ^ 53 := Nat.pow_le_pow_right (by decide) (by omega)
  rw [hx] at hc ha ⊢
  obtain ⟨h, hh, hval⟩ := exists_even_exp m e
  have hrat : ((FVal.num false m e).rat : ℝ) = m * 2 ^ e := by
    rw [FVal.rat_num]
    push_cast
    simp
  simp only [fRsq, if_neg hm, if_neg Bool.false_ne_true, hh]
  set M := (if e % 2 = 0 then m else 2 * m) with hM
  have hM0 : 1 ≤ M := by grind
  have hMlt : M ≤ 2 ^ 54 := by grind
  have hquot : 2 ^ (2 * 128) ≤ 2 ^ 512 / M := by
    refine (Nat.le_div_iff_mul_le hM0).2 ?_
    rw [show 512 = 2 * 128 + 256 from rfl, Nat.pow_add]
    exact Nat.mul_le_mul_left _ (hMlt.trans (Nat.pow_le_pow_right (by decide) (by decide)))
  have hroot : 2 ^ 128 ≤ isqrt (2 ^ 512 / M) := le_isqrt hquot
  obtain ⟨hlow, hhigh⟩ := isqrt_spec (2 ^ 512 / M)
  set r := isqrt (2 ^ 512 / M)
  have hMpos : (0 : ℝ) < M := by exact_mod_cast hM0
  have hsq : Real.sqrt (1 / (FVal.num false m e).rat) * Real.sqrt (1 / (FVal.num false m e).rat) =
      (2 ^ 512 / M : ℝ) * (2 ^ (-h - 256) * 2 ^ (-h - 256)) := by
    have hnonneg : (0 : ℝ) ≤ 1 / (FVal.num false m e).rat := by
      have : (0 : ℝ) < (FVal.num false m e).rat := by exact_mod_cast ha
      positivity
    have hh := (real_two_zpow_pos h).ne'
    rw [Real.mul_self_sqrt hnonneg, hrat, hval, zpow_sub₀ (by norm_num), zpow_neg]
    field_simp
  have hlow' : (r : ℝ) * r ≤ 2 ^ 512 / M := by
    rw [le_div_iff₀ hMpos]
    exact_mod_cast (Nat.le_div_iff_mul_le hM0).1 hlow
  have hhigh' : (2 ^ 512 / M : ℝ) < (r + 1) * (r + 1) := by
    rw [div_lt_iff₀ hMpos]
    exact_mod_cast (Nat.div_lt_iff_lt_mul hM0).1 hhigh
  refine ⟨_, rounds_roundF hf (denotes_root (Real.sqrt_nonneg _) hsq hlow' hhigh' ?_) hc (by omega)
    (fun _ => deep_of_le hf (by omega)) hq false rm false⟩
  rw [decide_eq_true_eq, ne_eq, ne_eq, eq_div_iff hMpos.ne', mul_comm (r * r : ℝ)]
  exact_mod_cast Iff.rfl

end

end Sys2Proof.Machine
end
section
/-! PROOFS. Special values and conversions (R117, R119, R134). -/

set_option Elab.async false

namespace Sys2Proof.Machine

section
variable {f : FFmt} {rm q : Nat} {a b : FVal}

theorem FVal.exists_nan (h : a.isNan = true) : ∃ s, a = .nan s := by
  cases a with
  | nan s => exact ⟨s, rfl⟩
  | num _ _ _ => cases h
  | inf _ => cases h
theorem isZero_of_rat_zero (hfin : b.finite = true) (h0 : b.rat = 0) : b.isZero = true := by
  obtain ⟨n, m, e, rfl⟩ := FVal.exists_num hfin
  simpa [FVal.isZero] using (FVal.rat_num_eq_zero n m e).1 h0

/-- A NaN operand gives the canonical NaN, and raises NV if it signals (R117). -/
theorem arith_nan (h : a.isNan = true ∨ b.isNan = true) :
    fAdd f rm q a b = (f.nanCode, if a.isSig || b.isSig then flagNV else 0) ∧
    fMul f rm q a b = (f.nanCode, if a.isSig || b.isSig then flagNV else 0) ∧
    fDiv f rm q a b = (f.nanCode, if a.isSig || b.isSig then flagNV else 0) := by
  rcases h with h | h <;> obtain ⟨s, rfl⟩ := FVal.exists_nan h
  · simp [fAdd, fMul, fDiv, addF, mulF, deliver]
  · cases a <;> simp [fAdd, fMul, fDiv, addF, mulF, deliver]
theorem fAdd_inf_sub_inf : fAdd f rm q (.inf false) (.inf true) = (f.nanCode, flagNV) := by simp [fAdd, addF, deliver]
theorem fMul_inf_zero (ha : a = .inf false ∨ a = .inf true) (hfin : b.finite = true) (h0 : b.rat = 0) :
    fMul f rm q a b = (f.nanCode, flagNV) ∧ fMul f rm q b a = (f.nanCode, flagNV) := by
  have hzero := isZero_of_rat_zero hfin h0
  obtain ⟨n, m, e, rfl⟩ := FVal.exists_num hfin
  rcases ha with rfl | rfl <;> simp [fMul, mulF, deliver, hzero]

section
variable (ha : a.finite = true) (hb : b.finite = true)
include ha hb

theorem fDiv_zero (ha0 : a.rat = 0) (hb0 : b.rat ≠ 0) : fDiv f rm q a b = (signOf f (a.neg != b.neg), 0) := by
  obtain ⟨n1, m1, e1, rfl⟩ := FVal.exists_num ha
  obtain ⟨n2, m2, e2, rfl⟩ := FVal.exists_num hb
  rw [Ne, FVal.rat_num_eq_zero] at hb0
  rw [FVal.rat_num_eq_zero] at ha0
  simp [fDiv, FVal.neg, ha0, hb0]
theorem fDiv_by_zero (ha0 : a.rat ≠ 0) (hb0 : b.rat = 0) :
    fDiv f rm q a b = (signOf f (a.neg != b.neg) + f.infCode, flagDZ) := by
  obtain ⟨n1, m1, e1, rfl⟩ := FVal.exists_num ha
  obtain ⟨n2, m2, e2, rfl⟩ := FVal.exists_num hb
  rw [Ne, FVal.rat_num_eq_zero] at ha0
  rw [FVal.rat_num_eq_zero] at hb0
  simp [fDiv, FVal.neg, ha0, hb0]
theorem fDiv_zero_by_zero (ha0 : a.rat = 0) (hb0 : b.rat = 0) : fDiv f rm q a b = (f.nanCode, flagNV) := by
  obtain ⟨n1, m1, e1, rfl⟩ := FVal.exists_num ha
  obtain ⟨n2, m2, e2, rfl⟩ := FVal.exists_num hb
  rw [FVal.rat_num_eq_zero] at ha0 hb0
  simp [fDiv, ha0, hb0]

end

theorem fSqrt_zero (ha : a.finite = true) (h0 : a.rat = 0) : fSqrt f rm q a = (signOf f a.neg, 0) := by
  obtain ⟨n, m, e, rfl⟩ := FVal.exists_num ha
  simp [fSqrt, FVal.neg, (FVal.rat_num_eq_zero n m e).1 h0]
theorem fSqrt_negative (ha : a.finite = true) (h0 : a.rat < 0) : fSqrt f rm q a = (f.nanCode, flagNV) := by
  obtain ⟨n, m, e, rfl⟩ := FVal.exists_num ha
  obtain ⟨hn, hm⟩ := (FVal.rat_num_neg n m e).1 h0
  simp [fSqrt, hn, hm]

/-! ## Between formats -/

theorem deliver_roundsTo (hf : f.Regular) (hq : q < 2 ^ 32) {sat : Bool} (ha : a.finite = true) (h0 : a.rat ≠ 0) :
    RoundsTo f sat rm q a.rat (deliver f sat rm q a) := by
  obtain ⟨n, m, e, rfl⟩ := FVal.exists_num ha
  exact deliver_num_roundsTo hf hq rfl h0
theorem deliver_zero {sat : Bool} (ha : a.finite = true) (h0 : a.rat = 0) : deliver f sat rm q a = (signOf f a.neg, 0) := by
  obtain ⟨n, m, e, rfl⟩ := FVal.exists_num ha
  exact deliver_num_zero h0
theorem deliver_nan {sat : Bool} (ha : a.isNan = true) : deliver f sat rm q a = (f.nanCode, if a.isSig then flagNV else 0) := by
  obtain ⟨s, rfl⟩ := FVal.exists_nan ha
  rfl

theorem regular_of_mem_arithmetic (h : f ∈ arithmeticFormats) : f.Regular := regular_of_mem (by
  simp only [arithmeticFormats, floatFormats, List.mem_cons, List.not_mem_nil, or_false] at h ⊢
  tauto)

/-- The formats into which a conversion saturates are the two narrow ones (R119). -/
theorem fCvt_eq_deliver {g : FFmt} (hg : g ∈ arithmeticFormats ++ [e4m3, e5m2]) (x : Nat) :
    fCvt f g rm q x = deliver g (decide (g ∈ [e4m3, e5m2])) rm q (decodeF f x) := by
  have hsat : (decide (g.kind = 1) || decide (g.kind = 3)) = decide (g ∈ [e4m3, e5m2]) := by
    simp only [arithmeticFormats, List.cons_append, List.nil_append, List.mem_cons, List.not_mem_nil, or_false] at hg
    rcases hg with rfl | rfl | rfl | rfl | rfl | rfl <;> decide
  rw [fCvt, hsat]
theorem kind_eq_one_iff {g : FFmt} (hg : g ∈ arithmeticFormats ++ [e4m3, e5m2]) : g.kind = 1 ↔ g = e4m3 := by
  simp only [arithmeticFormats, List.cons_append, List.nil_append, List.mem_cons, List.not_mem_nil, or_false] at hg
  rcases hg with rfl | rfl | rfl | rfl | rfl | rfl <;> decide
theorem regular_of_mem_targets {g : FFmt} (hg : g ∈ arithmeticFormats ++ [e4m3, e5m2]) : g.Regular := by
  refine (List.mem_append.1 hg).elim regular_of_mem_arithmetic fun h => regular_of_mem ?_
  simp only [floatFormats, List.mem_cons, List.not_mem_nil, or_false] at h ⊢
  tauto

/-! ## Integers -/

/-- Rounding to an integer delivers one of the two that enclose the value. -/
theorem roundInt_spec (hq : q < 2 ^ 32) (neg : Bool) (m : Nat) (e : Int) (rm : Nat) :
    ∃ up : Bool, (up = true ↔ (m * 2 ^ e : ℚ) ≠ ⌊(m * 2 ^ e : ℚ)⌋₊ ∧ roundsUp rm q neg (bitOf ⌊(m * 2 ^ e : ℚ)⌋₊ 0)
        ⌊(m * 2 ^ e : ℚ)⌋₊ (⌊(m * 2 ^ e : ℚ)⌋₊ + 1) (· ≤ m * 2 ^ e) (m * 2 ^ e ≤ ·)) ∧
      roundInt rm q neg m e = ((if neg then -1 else 1) * ((if up then ⌊(m * 2 ^ e : ℚ)⌋₊ + 1 else ⌊(m * 2 ^ e : ℚ)⌋₊ : Nat) : Int),
        decide ((m * 2 ^ e : ℚ) ≠ ⌊(m * 2 ^ e : ℚ)⌋₊)) := by
  obtain ⟨Y, hp⟩ := cutAt_parts (denotes_exact m e) 0 nofun
  rcases hcut : cutAt m e 0 with ⟨k, rem, sh⟩
  rw [hcut] at hp
  have hfloor : ⌊(m * 2 ^ e : ℚ)⌋₊ = k := by
    have hlow := hp.cut_le
    have hhigh := hp.lt_cut
    simp only [zpow_zero, mul_one] at hlow hhigh
    exact (Nat.floor_eq_iff (mul_nonneg (Nat.cast_nonneg m) (two_zpow_pos e).le)).2 ⟨by exact_mod_cast hlow, by exact_mod_cast hhigh⟩
  have hexact : (m * 2 ^ e : ℚ) = k ↔ rem = 0 := by
    have := hp.eq_cut_iff
    simp only [zpow_zero, mul_one, and_true] at this
    rw [← this]
    exact_mod_cast Iff.rfl
  have hup := roundUp_iff hp (compares_rat _) hq rm (neg := neg)
  have hne : ((m * 2 ^ e : ℚ) : ℝ) ≠ k * 2 ^ (0 : Int) ↔ (m * 2 ^ e : ℚ) ≠ k := by
    rw [zpow_zero, mul_one]
    exact_mod_cast Iff.rfl
  rw [hne, zpow_zero, mul_one, mul_one] at hup
  rw [hfloor, bitOf_zero]
  refine ⟨_, hup, ?_⟩
  simp only [roundInt, hcut, ne_eq, hexact]
  generalize roundUp rm q neg k rem sh false = up
  cases neg <;> cases up <;> simp

/-- Conversion to an integer rounds, then clamps (R134). -/
theorem fToInt_spec (hq : q < 2 ^ 32) (lo hi : Int) (ha : a.finite = true) :
    ∃ up : Bool, (up = true ↔ |a.rat| ≠ ⌊|a.rat|⌋₊ ∧ roundsUp rm q a.neg (bitOf ⌊|a.rat|⌋₊ 0) ⌊|a.rat|⌋₊ (⌊|a.rat|⌋₊ + 1)
        (· ≤ |a.rat|) (|a.rat| ≤ ·)) ∧
      fToInt rm q lo hi a =
        if (if a.neg then -1 else 1) * ((if up then ⌊|a.rat|⌋₊ + 1 else ⌊|a.rat|⌋₊ : Nat) : Int) < lo then (lo, flagNV)
        else if hi < (if a.neg then -1 else 1) * ((if up then ⌊|a.rat|⌋₊ + 1 else ⌊|a.rat|⌋₊ : Nat) : Int) then (hi, flagNV)
        else ((if a.neg then -1 else 1) * ((if up then ⌊|a.rat|⌋₊ + 1 else ⌊|a.rat|⌋₊ : Nat) : Int),
          if |a.rat| = ⌊|a.rat|⌋₊ then 0 else flagNX) := by
  obtain ⟨n, m, e, rfl⟩ := FVal.exists_num ha
  obtain ⟨up, hup, hr⟩ := roundInt_spec hq n m e rm
  rw [FVal.abs_rat_num]
  refine ⟨up, hup, ?_⟩
  simp only [fToInt, hr, FVal.neg, gt_iff_lt, decide_eq_true_eq, ne_eq, ite_not]
  congr

/-- An integer is rounded once (R134). -/
theorem fOfInt_roundsTo (hf : f.Regular) (hq : q < 2 ^ 32) {v : Int} (hv : v ≠ 0) : RoundsTo f false rm q v (fOfInt f rm q v) := by
  have habs : (FVal.num (decide (v < 0)) v.natAbs 0).rat = v := by
    rw [FVal.rat_num, Nat.cast_natAbs, zpow_zero, mul_one]
    rcases lt_or_ge v 0 with h | h
    · simp [h, abs_of_neg h]
    · simp [not_lt.2 h, abs_of_nonneg h]
  exact deliver_num_roundsTo hf hq habs (by exact_mod_cast hv)

end

end Sys2Proof.Machine
end
section
/-! PROOFS. Scalar floating point at issue (R128 to R135). -/

set_option Elab.async false

namespace Sys2Proof.Machine

/-! ## Results -/

/-- The draw of an operation of SA or SB is that of its slot (R121). -/
theorem draw_oneEnv (i : Instr) (s : State) (n : Nat) (u : SUnit) (el : Nat) :
    (oneEnv i s n (slotOfUnit u)).draw el = randomAt s n u.slot el := by
  cases u <;> rfl
theorem fpLat_eq (o : RG) : fpLat o = if o.f.getLsbD 5 then 6 else 4 := by rw [fpLat, bitOf_toNat]
theorem late_fpLat (o : RG) : late (fpLat o) = 1 := by
  rw [fpLat]
  split <;> rfl
theorem mkResult_eq_sres_flags (e : Env) (d : BitVec 6) (l fl : Nat) {v : Nat} (hv : v < 2 ^ 64) :
    mkResult e (rs d) l v (flags := fl) = sres e.st d l (BitVec.ofNat 64 v) (BitVec.ofNat 5 fl) := by
  rw [mkResult, sres, BitVec.setWidth_ofNat_of_le_of_lt (by decide) hv]
  rfl

/-- An operation of SA or SB whose action is one result with its flags issues with it. -/
theorem exec_of_flagged {i : Instr} {u : SUnit} {regs reads : List Reg} {r : Reg} {v fl : Env → Nat} {o : RG} {s : State} {n : Nat}
    (hsl : slotOf i = some (slotOfUnit u)) (hcall : callsIn [(slotOfUnit u, .ok i)] = false)
    (hop : ∀ e, opOf i e = one e regs r (fpLat o) (v e) (fl e)) (hregs : ∀ x ∈ regs, x ∈ reads ∨ x.Quiet) (hw : WellFormed i = true)
    (h : Issues s n reads [r] 1) :
    exec i s = .next (s.issued n (bundleLen i) [mkResult (oneEnv i s n (slotOfUnit u)) r (fpLat o)
      (v (oneEnv i s n (slotOfUnit u))) (flags := fl (oneEnv i s n (slotOfUnit u)))]) := by
  rw [← late_fpLat o] at h
  exact (exec_of_slotOf hsl s).trans
    (one_issued h hw hsl (sticky_slotOfUnit u) hcall (hop _) fun x hx => (hregs x hx).imp id fun q => q _)

/-- The operations whose result and flags are a pair of the strand and of the draw. -/
theorem scalarFp_of_fp1 {mk : SUnit → RG → Instr} {reads : RG → List Reg} {f : RG → Nat → Strand → Nat × Nat}
    {regs : RG → List Reg} (hlt : ∀ o q st, (f o q st).1 < 2 ^ 64)
    (hop : ∀ u o e, opOf (mk u o) e = fp1 e o (regs o) (f o (e.draw 0) e.st) := by intros; rfl)
    (hregs : ∀ o, ∀ x ∈ regs o, x ∈ reads o ∨ x.Quiet := by exact fun _ _ hx => .inl hx)
    (hsl : ∀ u o, slotOf (mk u o) = some (slotOfUnit u) := by intro u o; cases u <;> rfl)
    (hcall : ∀ u o, callsIn [(slotOfUnit u, .ok (mk u o))] = false := by intros; rfl) : ScalarFp mk reads f := by
  intro u o s n hw h
  rw [exec_of_flagged (r := rs o.d) (hsl u o) (hcall u o) (hop u o) (hregs o) hw h, draw_oneEnv, mkResult_eq_sres_flags _ _ _ _ (hlt o _ _),
    fpLat_eq]
  rfl

/-! ## The range of results -/

theorem prec_mem (o : RG) : prec o ∈ floatFormats := by
  rw [prec]
  split <;> simp [floatFormats]
theorem width_le {f : FFmt} (hf : f ∈ floatFormats) : f.width ≤ 64 := by
  simp only [floatFormats, List.mem_cons, List.not_mem_nil, or_false] at hf
  rcases hf with rfl | rfl | rfl | rfl | rfl | rfl | rfl | rfl | rfl <;> decide

section
variable {f : FFmt} (hf : f ∈ floatFormats) (rm q : Nat) (a b c : FVal)
include hf

theorem fAdd_lt : (fAdd f rm q a b).1 < 2 ^ f.width := deliver_lt hf false rm q _
theorem fMul_lt : (fMul f rm q a b).1 < 2 ^ f.width := deliver_lt hf false rm q _
theorem fFma_lt (negp : Bool) : (fFma f rm q negp a b c).1 < 2 ^ f.width := deliver_lt hf false rm q _
theorem fDiv_lt : (fDiv f rm q a b).1 < 2 ^ f.width := by
  have hnan := f.nanCode_lt hf
  have hinf := fun n => signOf_add_lt f.infCode_lt n
  have hsign := signOf_lt f
  have hround := roundF_lt (regular_of_mem hf) false rm q
  rw [fDiv.eq_def]
  dsimp only
  split
  · exact hnan
  · exact hnan
  · exact hnan
  · exact hinf _
  · exact hsign _
  · refine fst_ite (P := (· < 2 ^ f.width)) (fst_ite (P := (· < 2 ^ f.width)) hnan fun _ => hinf _) fun _ => ?_
    exact fst_ite (P := (· < 2 ^ f.width)) (hsign _) fun _ => hround _ _ _ _
theorem fSqrt_lt : (fSqrt f rm q a).1 < 2 ^ f.width := by
  have hnan := f.nanCode_lt hf
  have hround := roundF_lt (regular_of_mem hf) false rm q false
  rw [fSqrt.eq_def]
  dsimp only
  split
  · exact hnan
  · exact fst_ite (P := (· < 2 ^ f.width)) hnan fun _ => by simpa [signOf] using signOf_add_lt f.infCode_lt false
  · refine fst_ite (P := (· < 2 ^ f.width)) (signOf_lt f _) fun _ => fst_ite (P := (· < 2 ^ f.width)) hnan fun _ => ?_
    exact hround _ _ _
theorem fMinMax_lt (max num : Bool) {x y : Nat} (hx : x < 2 ^ f.width) (hy : y < 2 ^ f.width) :
    (fMinMax f max num x y).1 < 2 ^ f.width := by
  refine fst_ite (P := (· < 2 ^ f.width)) ?_ fun _ => ?_
  · exact fst_ite (P := (· < 2 ^ f.width)) hx fun _ => fst_ite (P := (· < 2 ^ f.width)) hy fun _ => f.nanCode_lt hf
  · dsimp only
    split <;> assumption
theorem fCvt_lt (src : FFmt) (x : Nat) : (fCvt src f rm q x).1 < 2 ^ f.width := deliver_lt hf _ rm q _

end

theorem fClass_lt (f : FFmt) (x : Nat) : fClass f x < 2 ^ 64 := by
  rw [fClass]
  split
  · split <;> decide
  · split <;> decide
  · repeat' split
    all_goals decide

theorem lt_two_pow_64 {f : FFmt} (hf : f ∈ floatFormats) {n : Nat} (h : n < 2 ^ f.width) : n < 2 ^ 64 :=
  h.trans_le (Nat.pow_le_pow_right (by decide) (width_le hf))

theorem wrap_lt (n : Nat) (x : Int) : wrap n x < 2 ^ n := by
  have hnonneg : 0 ≤ x % (2 ^ n : Nat) := Int.emod_nonneg _ (by positivity)
  have hlt : x % (2 ^ n : Nat) < (2 ^ n : Nat) := Int.emod_lt_of_pos _ (by positivity)
  rw [wrap]
  omega

theorem sfcvt_lt (o : RG) (q x : Nat) : (sfcvt o q x).1 < 2 ^ 64 := by
  have hto : ∀ w sg, (fToReg o q w sg x).1 < 2 ^ 64 := fun w sg => wrap_lt 64 _
  have hof : ∀ w sg, (fOfReg o q w sg x).1 < 2 ^ 64 := fun w sg =>
    lt_two_pow_64 (prec_mem o) (roundF_lt (regular_of_mem (prec_mem o)) _ _ _ _ _ _ _)
  have hcvt : ∀ {g : FFmt}, g ∈ floatFormats → ∀ f y, (fCvt f g (fRm o) q y).1 < 2 ^ 64 := fun hg f y =>
    lt_two_pow_64 hg (fCvt_lt hg _ _ f y)
  have hint : ∀ w sg, (if !bitOf (extOf o) 4 then fToReg o q w sg x else fOfReg o q w sg x).1 < 2 ^ 64 := fun w sg =>
    fst_ite (P := (· < 2 ^ 64)) (hto w sg) fun _ => hof w sg
  have hnarrow : ∀ {g : FFmt}, g ∈ floatFormats → (if !bitOf (extOf o) 4 then fCvt (prec o) g (fRm o) q (fbits (prec o) x)
      else fCvt g (prec o) (fRm o) q (fbits g x)).1 < 2 ^ 64 := fun hg =>
    fst_ite (P := (· < 2 ^ 64)) (hcvt hg _ _) fun _ => hcvt (prec_mem o) _ _
  rw [sfcvt]
  split
  · exact fst_ite (P := (· < 2 ^ 64)) (hcvt (by simp [floatFormats]) _ _) fun _ => hcvt (by simp [floatFormats]) _ _
  · exact hto _ _
  · exact hof _ _
  · dsimp only
    split
    · exact hint 64 true
    · exact hint 64 false
    · exact hint 32 true
    · exact hint 32 false
    · exact hnarrow (g := f16) (by simp [floatFormats])
    · exact hnarrow (g := bf16) (by simp [floatFormats])
    · exact hnarrow (g := e4m3) (by simp [floatFormats])
    · exact hnarrow (g := e5m2) (by simp [floatFormats])

/-! ## The operations -/

theorem Reg.quiet_s0 : (rs 0).Quiet := fun _ => ⟨rfl, rfl⟩

/-- A predicate and its flag of an invalid operation. -/
theorem mkResult_eq_bres_flags (e : Env) (d : BitVec 6) (l : Nat) (v nv : Bool) :
    mkResult e (.b d.toNat) l (b2n v) (flags := if nv then flagNV else 0) = bres e.st d l v (if nv then 16 else 0) := by
  cases v <;> cases nv <;> rfl

/-- SFCMP compares, and is invalid on a signalling NaN, or on any where the order matters (R133). -/
theorem exec_sfcmp (u : SUnit) (o : RG) {s : State} {n : Nat} (hw : WellFormed (.sfcmp u o) = true)
    (h : Issues s n [.s o.a.toNat, .s o.b.toNat] [] 1) :
    let st := s.strand n
    let a := fpVal o st o.a
    let b := fpVal o st o.b
    let quiet := o.f.toNat % 4 = 0 ∨ o.f.toNat % 4 = 3
    let unordered := a.isNan || b.isNan
    exec (.sfcmp u o) s = .next (s.issued n (bundleLen (.sfcmp u o)) [bres st o.d (if o.f.getLsbD 5 then 6 else 4)
      (match o.f.toNat % 4 with
        | 0 => !unordered && cmpF a b == 0
        | 1 => !unordered && cmpF a b < 0
        | 2 => !unordered && cmpF a b ≤ 0
        | _ => unordered)
      (if (if quiet then a.isSig || b.isSig else unordered) then 16 else 0)]) := by
  intro st a b quiet unordered
  have hop : ∀ e, opOf (.sfcmp u o) e = one e [rs o.a, rs o.b] (.b o.d.toNat) (fpLat o) _ _ := fun e => rfl
  rw [← fpLat_eq, exec_of_flagged (u := u) (by cases u <;> rfl) rfl hop (fun _ hx => .inl hx) hw (h.write_quiet (Reg.quiet_b _)),
    mkResult_eq_bres_flags]
  change Host.Outcome.next (s.issued n _ [bres st o.d (fpLat o) (match o.f.toNat % 4 with
      | 0 => !unordered && decide (cmpF a b = 0)
      | 1 => !unordered && decide (cmpF a b < 0)
      | 2 => !unordered && decide (cmpF a b ≤ 0)
      | _ => unordered)
    (if (if decide (o.f.toNat % 4 = 1) || decide (o.f.toNat % 4 = 2) then unordered else a.isSig || b.isSig) then 16 else 0)]) = _
  have hlt : o.f.toNat % 4 < 4 := Nat.mod_lt _ (by decide)
  have hcase : o.f.toNat % 4 = 0 ∨ o.f.toNat % 4 = 1 ∨ o.f.toNat % 4 = 2 ∨ o.f.toNat % 4 = 3 := by omega
  simp only [quiet]
  rcases hcase with hc | hc | hc | hc <;> simp only [hc] <;> rfl

/-- Settles O5: each operation is one result of its strand, and each result is its exact value cut once. -/
theorem scalarFloat : Obligations.ScalarFloat := by
  refine ⟨?_, fun f hf sat rm q neg m e _ hq hm => ?_, fun f hf rm q x y z _ hq => ?_, fun f hf g hg rm q x _ hq => ?_,
    fun f hf rm q x lo hi _ hq _ _ => ?_, fun f hf rm q v _ hq hv => fOfInt_roundsTo (regular_of_mem_arithmetic hf) hq hv⟩
  · have hlt := fun (o : RG) {n : Nat} (h : n < 2 ^ (prec o).width) => lt_two_pow_64 (prec_mem o) h
    have hcode := fun (o : RG) (st : Strand) (i : BitVec 6) => Nat.mod_lt (st.getS i.toNat).toNat (Nat.two_pow_pos (prec o).width)
    refine ⟨scalarFp_of_fp1 (fun o _ _ => hlt o (fAdd_lt (prec_mem o) _ _ _ _)),
      scalarFp_of_fp1 (fun o _ _ => hlt o (fAdd_lt (prec_mem o) _ _ _ _)),
      scalarFp_of_fp1 (fun o _ _ => hlt o (fMul_lt (prec_mem o) _ _ _ _)),
      scalarFp_of_fp1 (fun o _ _ => hlt o (fDiv_lt (prec_mem o) _ _ _ _)),
      scalarFp_of_fp1 (fun o _ _ => hlt o (fSqrt_lt (prec_mem o) _ _ _)), ?_,
      scalarFp_of_fp1 (fun o _ st => hlt o (fMinMax_lt (prec_mem o) _ _ (hcode o st _) (hcode o st _))),
      scalarFp_of_fp1 (fun o _ st => hlt o (fMinMax_lt (prec_mem o) _ _ (hcode o st _) (hcode o st _))),
      scalarFp_of_fp1 (fun _ _ _ => fClass_lt _ _), scalarFp_of_fp1 (fun o q _ => sfcvt_lt o q _), fun u o s n => exec_sfcmp u o⟩
    refine scalarFp_of_fp1 (regs := fun o => [rs o.a, rs o.b, rs ((o.x.map (fun x => x.c)).getD 0)])
      (fun o _ _ => hlt o (fFma_lt (prec_mem o) _ _ _ _ _ _)) (fun u o e => ?_) (fun o => ?_)
    · change opSfma u o e = _
      rw [← bitOf_toNat, ← bitOf_toNat]
      cases hx : o.x <;> simp only [opSfma, hx] <;> rfl
    · have hquiet : (Reg.s 0).Quiet := Reg.quiet_s0
      cases o.x <;> simp [rs, hquiet]
  · exact rounds_roundF (regular_of_mem hf) (denotes_exact m e) (compares_rat _) hm nofun hq sat rm neg
  · have hr := regular_of_mem_arithmetic hf
    refine ⟨fun ha hb => ⟨fAdd_roundsTo ha hb hr hq, fAdd_zero ha hb, fMul_roundsTo ha hb hr hq, fMul_zero ha hb,
        fDiv_roundsTo hr hq ha hb, fDiv_zero ha hb, fDiv_by_zero ha hb, fun hc negp => fFma_roundsTo ha hb hc hr hq negp⟩,
      fun ha h0 => ⟨fSqrt_rounds hr hq ha h0, fRsq_rounds hr hq ha h0⟩, fSqrt_zero, fSqrt_negative, arith_nan, fun ha hb => ?_,
      fMul_inf_zero, fun ha ha0 hb hb0 => fDiv_zero_by_zero ha hb ha0 hb0⟩
    rw [ha, hb, fAdd_inf_sub_inf]
  · rw [fCvt_eq_deliver hg]
    exact ⟨deliver_roundsTo (regular_of_mem_targets hg) hq, deliver_zero, fun neg ha => by simp only [ha, deliver, kind_eq_one_iff hg],
      deliver_nan⟩
  · refine ⟨fun h => ?_, fun neg h => ?_, fToInt_spec hq lo hi⟩
    · obtain ⟨s, hs⟩ := FVal.exists_nan h
      simp [hs, fToInt]
    · simp [h, fToInt]

end Sys2Proof.Machine
end
section
/-! PROOFS. Vector operations at issue (R136, R137).

Every operation of VA and VB with a vector result is one packed register under a lane mask; every one with a scalar result is one
number. The three laws here take an operation from its action to the statement's form. -/

set_option Elab.async false

namespace Sys2Proof.Machine

/-! ## Fields of an operation -/

section
variable (o : VR)

@[simp] theorem vExt_eq_extN : vExt o = o.extN := by
  rw [vExt, VR.extN]
  cases o.x <;> rfl
@[simp] theorem vRm_eq_rm : vRm o = o.rm := by
  rw [vRm, VR.rm]
  cases o.x <;> rfl
@[simp] theorem vC_eq_c : vC o = o.c := by
  rw [vC, VR.c]
  cases o.x <;> rfl

end

theorem randomAt_oneEnv (i : Instr) (s : State) (n : Nat) (u : VUnit) :
    (oneEnv i s n (slotOfVUnit u)).draw = randomAt s n u.slot := by
  cases u <;> rfl

/-- A well-formed operation has one of its type codes (R138). -/
theorem ty_mem_of_vr {o : VR} {long rsv coded rng : Bool} {ts : List Nat} {rm ext : Nat}
    (h : vr o long ts rm ext rsv coded rng = none) : o.ty ∈ ts := by
  by_contra hty
  have hc : ts.contains o.t.toNat = false := by simpa [VR.ty] using hty
  simp only [vr, chk, hc] at h
  repeat' split at h
  all_goals simp_all

/-! ## Packed registers -/

theorem elem_ofNat_pack {t j : Nat} (f : Nat → Nat) (hj : j < tN t) :
    elem (BitVec.ofNat 2048 (pack (tW t) f (tN t) 0)) t j = f j % 2 ^ tW t := by
  have hfit : tW t * j + tW t ≤ 2048 := by
    rw [← Nat.mul_succ]
    exact (Nat.mul_le_mul_left _ hj).trans (Nat.mul_div_le 2048 (tW t))
  rw [elem, BitVec.toNat_ofNat, fld_mod_two_pow _ hfit, fld_pack _ _ _ _ _ hj, Nat.zero_add]

section
variable {i : Instr} {u : VUnit} {s : State} {n : Nat} {regs reads : List Reg} {d : BitVec 6} {l v : Nat} {lanes : Word}
  {bytes : BitVec 4}

/-- An operation of VA or VB whose action is one register issues with it. -/
theorem exec_of_oneV (h : Issues s n reads [.v d.toNat] 1) (hw : WellFormed i = true) (hsl : slotOf i = some (slotOfVUnit u))
    (hcall : callsIn [(slotOfVUnit u, .ok i)] = false)
    (hop : opOf i (oneEnv i s n (slotOfVUnit u)) = oneV (oneEnv i s n (slotOfVUnit u)) regs d l v lanes bytes)
    (hregs : ∀ r ∈ regs, r ∈ reads ∨ r.Quiet) :
    exec i s = .next (s.issued n (bundleLen i) [vres (s.strand n) d l (BitVec.ofNat 2048 v) lanes bytes]) :=
  exec_of_plain h hw hsl (sticky_slotOfVUnit u) hcall hop
    ⟨hregs, fun r hr => by simpa [oneV] using hr, List.length_filter_le _ _, by simp [oneV, twice], rfl, rfl, rfl⟩ rfl rfl rfl rfl

/-- An operation of VA or VB whose action is one scalar issues with it. -/
theorem exec_of_scalar (h : Issues s n reads [.s d.toNat] 1) (hw : WellFormed i = true) (hsl : slotOf i = some (slotOfVUnit u))
    (hcall : callsIn [(slotOfVUnit u, .ok i)] = false)
    (hop : opOf i (oneEnv i s n (slotOfVUnit u)) = one (oneEnv i s n (slotOfVUnit u)) regs (rs d) l v)
    (hregs : ∀ r ∈ regs, r ∈ reads ∨ r.Quiet) (hv : v < 2 ^ 64) :
    exec i s = .next (s.issued n (bundleLen i) [sres (s.strand n) d l (BitVec.ofNat 64 v)]) := by
  have hres : mkResult (oneEnv i s n (slotOfVUnit u)) (rs d) l v = sres (s.strand n) d l (BitVec.ofNat 64 v) :=
    mkResult_eq_sres_flags _ _ _ 0 hv
  rw [← hres]
  exact exec_of_plain h hw hsl (sticky_slotOfVUnit u) hcall hop
    ⟨hregs, fun r hr => by simpa [one, rs] using hr, List.length_filter_le _ _, by simp [one, twice], rfl, rfl, rfl⟩ rfl rfl rfl rfl

end

section
variable {mk : VUnit → VR → Instr} {reads : VR → List Reg} {l : Nat}

/-- The elementwise operations, from what they do to each element. -/
theorem elementwise_of_vmap {ty : VR → Nat} {f : VR → Strand → (Nat → Nat) → Nat → Nat} {only : VR → Prop} (regs : VR → List Reg)
    (hop : ∀ u o e, only o → opOf (mk u o) e = vmap e o (regs o) l (ty o) (f o e.st e.draw))
    (hregs : ∀ o, ∀ x ∈ regs o, x ∈ reads o ∨ x.Quiet := by exact fun _ _ hx => .inl hx)
    (hsl : ∀ u o, slotOf (mk u o) = some (slotOfVUnit u) := by intro u o; cases u <;> rfl)
    (hcall : ∀ u o, callsIn [(slotOfVUnit u, .ok (mk u o))] = false := by intros; rfl) : Elementwise mk reads l ty f only := by
  intro u o s n ho hw h
  refine ⟨_, exec_of_oneV h hw (hsl u o) (hcall u o) (hop u o _ ho) fun r hr => ?_, fun j hj hact => ?_⟩
  · exact (List.mem_cons.1 hr).elim (fun hk => .inr (hk ▸ Reg.quiet_k _)) (hregs o r)
  · have hk : actEl (vk (oneEnv (mk u o) s n (slotOfVUnit u)) o) (ty o) j = true := hact
    rw [elem_ofNat_pack _ hj, randomAt_oneEnv, if_pos hk]
    rfl

/-- The operations that write every element, from what a well-formed one writes to each. -/
theorem everyElement_of_vall {ty : VR → Nat} {f : VR → Strand → Nat → Nat} (regs : VR → List Reg) (g : VR → Env → Nat → Nat)
    (hop : ∀ u o e, opOf (mk u o) e = vall e o (regs o) l (ty o) (g o e))
    (hg : ∀ u o e, WellFormed (mk u o) = true → ∀ j < tN (ty o), g o e j = f o e.st j)
    (hregs : ∀ o, ∀ x ∈ regs o, x ∈ reads o ∨ x.Quiet := by exact fun _ _ hx => .inl hx)
    (hsl : ∀ u o, slotOf (mk u o) = some (slotOfVUnit u) := by intro u o; cases u <;> rfl)
    (hcall : ∀ u o, callsIn [(slotOfVUnit u, .ok (mk u o))] = false := by intros; rfl) : EveryElement mk reads l ty f := by
  intro u o s n hw h
  refine ⟨_, exec_of_oneV h hw (hsl u o) (hcall u o) (hop u o _) fun r hr => ?_, fun j hj => ?_⟩
  · exact (List.mem_cons.1 hr).elim (fun hk => .inr (hk ▸ Reg.quiet_k _)) (hregs o r)
  · rw [elem_ofNat_pack _ hj, hg u o _ hw j hj]
    rfl

/-- The operations with a scalar result, from its number. -/
theorem vecToScalar_of_one {f : VR → Strand → Word} (regs : VR → List Reg) (g : VR → Strand → Nat)
    (hop : ∀ u o e, opOf (mk u o) e = one e (.k o.k.toNat :: regs o) (rs o.d) l (g o e.st))
    (hlt : ∀ o st, g o st < 2 ^ 64) (hg : ∀ o st, BitVec.ofNat 64 (g o st) = f o st)
    (hregs : ∀ o, ∀ x ∈ regs o, x ∈ reads o ∨ x.Quiet := by exact fun _ _ hx => .inl hx)
    (hsl : ∀ u o, slotOf (mk u o) = some (slotOfVUnit u) := by intro u o; cases u <;> rfl)
    (hcall : ∀ u o, callsIn [(slotOfVUnit u, .ok (mk u o))] = false := by intros; rfl) : VecToScalar mk reads l f := by
  intro u o s n hw h
  rw [exec_of_scalar h hw (hsl u o) (hcall u o) (hop u o _) (fun r hr => ?_) (hlt o _)]
  · rw [hg]
    rfl
  · exact (List.mem_cons.1 hr).elim (fun hk => .inr (hk ▸ Reg.quiet_k _)) (hregs o r)

end

end Sys2Proof.Machine
end
section
/-! PROOFS. Operations across lanes (R156 to R163): the list functions of the model against the recursions of the rules. -/

set_option Elab.async false

namespace Sys2Proof.Machine

/-! ## Sums (R157, R159) -/

section
variable (add : Nat → Nat → Nat) (x : Nat → Nat)

theorem pairUp_map_range (m : Nat) :
    pairUp add ((List.range (2 * m)).map x) = (List.range m).map (fun i => add (x (2 * i)) (x (2 * i + 1))) := by
  induction m generalizing x with
  | zero => rfl
  | succ m ih =>
    have hsplit : List.range (2 * (m + 1)) = 0 :: 1 :: (List.range (2 * m)).map (· + 2) := by
      rw [Nat.mul_succ, List.range_succ_eq_map, List.range_succ_eq_map, List.map_cons, List.map_map]
      rfl
    rw [hsplit, List.map_cons, List.map_cons, List.map_map, pairUp, ih, List.range_succ_eq_map, List.map_cons, List.map_map]
    rfl

/-- A tree over sums of adjacent pairs is the tree one level up. -/
theorem treeOver_pairs (n i : Nat) :
    treeOver add (fun j => add (x (2 * j)) (x (2 * j + 1))) n i = treeOver add x (n + 1) (2 * i) := by
  induction n generalizing i with
  | zero => rfl
  | succ n ih => rw [treeOver, ih, ih, Nat.mul_add, ← Nat.pow_succ']; rfl

theorem treeSum_singleton (k y : Nat) : treeSum add k [y] = y := by
  induction k with
  | zero => rfl
  | succ k ih => rw [treeSum, pairUp, ih]; exact nofun

/-- Summing pairs level by level gives the balanced tree; levels beyond the last change nothing. -/
theorem treeSum_map_range (n k : Nat) : treeSum add (n + k) ((List.range (2 ^ n)).map x) = treeOver add x n 0 := by
  induction n generalizing x with
  | zero => rw [Nat.zero_add]; exact treeSum_singleton add k (x 0)
  | succ n ih => rw [Nat.succ_add, treeSum, Nat.pow_succ', pairUp_map_range, ih, treeOver_pairs]

/-- One stage of a running sum adds to each element the one `m` below it. -/
theorem scanStage_map_range (N m : Nat) :
    ((List.range N).map x).take m ++ List.zipWith add (((List.range N).map x).drop m) ((List.range N).map x) =
      (List.range N).map (fun i => if i < m then x i else add (x i) (x (i - m))) := by
  refine List.ext_getElem (by simp; omega) fun i h1 h2 => ?_
  rw [List.length_map, List.length_range] at h2
  rw [List.getElem_map, List.getElem_range]
  split
  · next h => rw [List.getElem_append_left (by simp; omega)]; simp
  · next h => rw [List.getElem_append_right (by simp; omega)]; simp; grind

theorem scanStages_map_range (N n k : Nat) :
    scanStages add n (2 ^ k) ((List.range N).map (scanAfter add x k)) = (List.range N).map (scanAfter add x (k + n)) := by
  induction n generalizing k with
  | zero => rfl
  | succ n ih =>
    rw [scanStages, scanStage_map_range, ← Nat.pow_succ', show k + (n + 1) = (k + 1) + n by omega, ← ih]
    rfl

end

/-- The source elements of a source-masked operation. -/
theorem srcEls_eq_map (e : Env) (o : VR) : srcEls e o = (List.range (tN o.ty)).map (o.src e.st) := rfl
theorem addEl_eq_add (o : VR) : addEl o = o.add := by
  funext x y
  rw [addEl, VR.add, vRm_eq_rm]
  rfl

/-- The types of 32 and 64 bits have a power of two elements. -/
theorem tN_eq_two_pow_levels {o : VR} (h : o.ty ∈ [0, 1, 2, 3]) : tN o.ty = 2 ^ o.levels := by
  simp only [List.mem_cons, List.not_mem_nil, or_false] at h
  rw [VR.levels]
  rcases h with h | h | h | h <;> rw [h] <;> rfl
theorem levels_le (o : VR) : o.levels = 5 ∨ o.levels = 6 := by
  rw [VR.levels]
  split <;> simp

theorem treeSum_srcEls (e : Env) {o : VR} (h : o.ty ∈ [0, 1, 2, 3]) :
    treeSum (addEl o) 6 (srcEls e o) = treeOver o.add (o.src e.st) o.levels 0 := by
  rw [srcEls_eq_map, addEl_eq_add, tN_eq_two_pow_levels h]
  rcases levels_le o with hl | hl <;> rw [hl]
  · exact treeSum_map_range o.add _ 5 1
  · exact treeSum_map_range o.add _ 6 0
theorem scanStages_srcEls (e : Env) {o : VR} (h : o.ty ∈ [0, 1, 2, 3]) {i : Nat} (hi : i < tN o.ty) :
    (scanStages (addEl o) 6 1 (srcEls e o)).getD i 0 = scanAfter o.add (o.src e.st) o.levels i := by
  have hstages := scanStages_map_range o.add (o.src e.st) (tN o.ty) 6 0
  have hsrc : scanAfter o.add (o.src e.st) 0 = o.src e.st := rfl
  rw [Nat.pow_zero, hsrc] at hstages
  rw [srcEls_eq_map, addEl_eq_add, hstages, List.getD_eq_getElem _ _ (by simpa using hi), List.getElem_map, List.getElem_range]
  rw [tN_eq_two_pow_levels h] at hi
  rcases levels_le o with hl | hl <;> rw [hl] at hi ⊢
  rw [scanAfter, if_pos hi]

/-! ## Choices (R158, R160, R161, R163) -/

/-- VARGMAX's choice after an element it has chosen. -/
def argStep (o : VR) (st : Strand) (b j : Nat) : Nat := if argLess o.ty (o.el st o.a b) (o.el st o.a j) then j else b

/-- An active element as it is taken into VARGMAX's choice so far: the chosen element's number and value. -/
def argTake (o : VR) (st : Strand) (acc : Option (Nat × Nat)) (j : Nat) : Option (Nat × Nat) :=
  acc.elim (some (j, o.el st o.a j)) fun b => if argLess o.ty b.2 (o.el st o.a j) then some (j, o.el st o.a j) else some b

theorem foldl_argTake (o : VR) (st : Strand) (l : List Nat) (b : Nat) :
    l.foldl (argTake o st) (some (b, o.el st o.a b)) =
      some (l.foldl (argStep o st) b, o.el st o.a (l.foldl (argStep o st) b)) := by
  induction l generalizing b with
  | nil => rfl
  | cons i l ih =>
    have hstep : argTake o st (some (b, o.el st o.a b)) i = some (argStep o st b i, o.el st o.a (argStep o st b i)) := by
      simp only [argTake, argStep, Option.elim_some]
      split <;> rfl
    rw [List.foldl_cons, List.foldl_cons, hstep, ih]

theorem mem_active {o : VR} {st : Strand} {i : Nat} (h : i ∈ o.active st) : i < tN o.ty :=
  List.mem_range.1 (List.mem_filter.1 h).1
theorem tN_lt (t : Nat) : tN t ≤ 2048 := Nat.div_le_self _ _

/-- The number of the greatest active element, and all ones where none is active. -/
def argMax (o : VR) (st : Strand) : Nat :=
  match o.active st with
  | [] => 2 ^ 64 - 1
  | i :: l => l.foldl (argStep o st) i

theorem argStep_foldl_mem (o : VR) (st : Strand) (l : List Nat) (b : Nat) : l.foldl (argStep o st) b ∈ b :: l := by
  induction l generalizing b with
  | nil => exact List.mem_singleton_self b
  | cons i l ih =>
    rw [List.foldl_cons]
    rcases List.mem_cons.1 (ih (argStep o st b i)) with h | h
    · rw [h, argStep]
      split <;> simp
    · simp [h]
theorem argMax_lt (o : VR) (st : Strand) : argMax o st < 2 ^ 64 := by
  rw [argMax]
  split
  · decide
  · next i l hact =>
    have := mem_active (o := o) (st := st) (hact ▸ argStep_foldl_mem o st l i)
    have := tN_lt o.ty
    omega

theorem opVargmax_eq (u : VUnit) (o : VR) (e : Env) : opVargmax u o e = one e [.k o.k.toNat, rv o.a] (rs o.d) 4 (argMax o e.st) := by
  rw [opVargmax]
  generalize hloop : loop _ (tN (vt o)) 0 none = best
  have hbest : best = (o.active e.st).foldl (argTake o e.st) none := by
    rw [← hloop, loop_zero_eq_foldl, VR.active, List.foldl_filter]
    congr 1
    funext acc i
    cases acc <;> rfl
  rw [hbest, argMax]
  cases hact : o.active e.st with
  | nil => rfl
  | cons i l =>
    rw [List.foldl_cons, argTake, Option.elim_none, foldl_argTake]

/-- The length of a run of accepted elements. -/
theorem acceptRun_eq_length (p : Nat → Bool) (n i : Nat) :
    acceptRun p n i = (((List.range n).map (fun j => i + j)).takeWhile p).length := by
  induction n generalizing i with
  | zero => rfl
  | succ n ih =>
    rw [acceptRun, List.range_succ_eq_map, List.map_cons, List.map_map, List.takeWhile_cons, ih]
    have hshift : (List.range n).map ((fun j => i + j) ∘ Nat.succ) = (List.range n).map (fun j => i + 1 + j) :=
      List.map_congr_left fun j _ => by simp only [Function.comp_apply]; omega
    rw [hshift]
    by_cases hp : p i = true
    · simp [hp, Nat.add_comm 1]
    · simp [hp]

end Sys2Proof.Machine
end
section
/-! PROOFS. The nearest element of a microscaled format (R111, R126).

Rounding to nearest even with saturation picks, of a rising sequence of magnitudes, the nearest up to a greatest one. The sequence is that
of the encodings of a floating-point format, or that of the multiples of a last place of an integer format. -/

set_option Elab.async false

namespace Sys2Proof.Machine

/-! ## Nearest on a rising sequence -/

/-- `c` is, up to `top`, the number of the magnitude to which `X` is rounded to nearest even. -/
def RoundsEven (mags : Nat → ℚ) (top : Nat) (X : ℚ) (c : Nat) : Prop :=
  ∃ c0, ∃ up : Bool, mags c0 ≤ X ∧ X < mags (c0 + 1) ∧
    (up = true ↔ (mags c0 + mags (c0 + 1)) / 2 < X ∨ (mags c0 + mags (c0 + 1)) / 2 ≤ X ∧ c0 % 2 = 1) ∧
    c = min (if up then c0 + 1 else c0) top

section
variable {mags : Nat → ℚ} {top c : Nat} {X : ℚ}

/-- The magnitude rounded to is the nearest, and of two equally near the even one. -/
theorem RoundsEven.nearest (hmono : StrictMono mags) (h : RoundsEven mags top X c) {c' : Nat} (hc' : c' ≤ top) :
    |mags c - X| ≤ |mags c' - X| ∧ (|mags c - X| = |mags c' - X| → c = c' ∨ c % 2 = 0) := by
  obtain ⟨c0, up, hlow, hhigh, hup, rfl⟩ := h
  have hbelow : ∀ i ≤ c0, |mags i - X| = X - mags i := fun i hi => by
    have := hmono.monotone hi
    rw [abs_of_nonpos (by linarith), neg_sub]
  have habove : ∀ i, c0 < i → |mags i - X| = mags i - X := fun i hi => by
    have := hmono.monotone (Nat.succ_le_of_lt hi)
    exact abs_of_nonneg (by linarith)
  rcases Nat.lt_or_ge c0 top with htop | htop
  · have hmin : min (if up then c0 + 1 else c0) top = if up then c0 + 1 else c0 := by
      cases up <;> simp <;> omega
    rw [hmin]
    rcases Nat.lt_or_ge c0 c' with hlt | hge
    · have hle := hmono.monotone (Nat.succ_le_of_lt hlt)
      rw [habove c' hlt]
      cases up
      · have hno : ¬ _ := fun hx => Bool.false_ne_true (hup.2 hx)
        rw [not_or, not_lt, not_and] at hno
        simp only [Bool.false_eq_true, if_false, hbelow c0 (Nat.le_refl _)]
        refine ⟨by linarith [hno.1], fun heq => .inr ?_⟩
        have := hno.2 (by linarith)
        omega
      · simp only [if_true, habove (c0 + 1) (Nat.lt_succ_self _)]
        refine ⟨by linarith, fun heq => .inl (hmono.injective ?_)⟩
        linarith
    · have hle := hmono.monotone hge
      rw [hbelow c' hge]
      cases up
      · simp only [Bool.false_eq_true, if_false, hbelow c0 (Nat.le_refl _)]
        refine ⟨by linarith, fun heq => .inl (hmono.injective ?_)⟩
        linarith
      · simp only [if_true, habove (c0 + 1) (Nat.lt_succ_self _)]
        rcases hup.1 rfl with hx | ⟨hx, hodd⟩
        · exact ⟨by linarith, fun heq => by linarith⟩
        · exact ⟨by linarith, fun heq => .inr (by omega)⟩
  · have hmin : min (if up then c0 + 1 else c0) top = top := by
      cases up <;> simp <;> omega
    have hle := hmono.monotone hc'
    rw [hmin, hbelow top htop, hbelow c' (hc'.trans htop)]
    refine ⟨by linarith, fun heq => .inl (hmono.injective ?_)⟩
    linarith

theorem RoundsEven.le_top (h : RoundsEven mags top X c) : c ≤ top := by
  obtain ⟨c0, up, -, -, -, rfl⟩ := h
  exact min_le_right _ _

/-- The error is less than a bound of the steps of the sequence and of the distance beyond its greatest magnitude. -/
theorem RoundsEven.error_lt (hmono : StrictMono mags) (h : RoundsEven mags top X c) {gap : ℚ}
    (hstep : ∀ i < top, mags (i + 1) - mags i ≤ gap) (hover : X - mags top < gap) : |mags c - X| < gap := by
  have hnear := fun c' => h.nearest hmono (c' := c')
  obtain ⟨c0, up, hlow, hhigh, -, -⟩ := h
  rcases Nat.lt_or_ge c0 top with htop | htop
  · refine (hnear c0 htop.le).1.trans_lt ?_
    rw [abs_of_nonpos (by linarith)]
    linarith [hstep c0 htop]
  · refine (hnear top (Nat.le_refl _)).1.trans_lt ?_
    have := hmono.monotone htop
    rw [abs_of_nonpos (by linarith)]
    linarith

/-- A sign. -/
def sgn (neg : Bool) : ℚ := if neg then -1 else 1

theorem abs_sgn_mul (neg : Bool) (a : ℚ) : |sgn neg * a| = |a| := by
  cases neg <;> simp [sgn]

/-- The same with signs: a magnitude of the other sign is no nearer than zero. -/
theorem RoundsEven.nearest_signed (hmono : StrictMono mags) (hzero : mags 0 = 0) (hX : 0 ≤ X) (h : RoundsEven mags top X c)
    {neg neg' : Bool} {c' : Nat} (hc' : neg' = neg → c' ≤ top) :
    |sgn neg * mags c - sgn neg * X| ≤ |sgn neg' * mags c' - sgn neg * X| ∧
      (|sgn neg * mags c - sgn neg * X| = |sgn neg' * mags c' - sgn neg * X| → sgn neg * mags c = sgn neg' * mags c' ∨ c % 2 = 0) := by
  rw [← mul_sub, abs_sgn_mul]
  by_cases hneg : neg' = neg
  · subst hneg
    rw [← mul_sub, abs_sgn_mul]
    obtain ⟨hle, heq⟩ := h.nearest hmono (hc' rfl)
    exact ⟨hle, fun hx => (heq hx).imp (fun hy => by rw [hy]) id⟩
  · have hnonneg : 0 ≤ mags c' := hzero ▸ hmono.monotone (Nat.zero_le c')
    have hother : |sgn neg' * mags c' - sgn neg * X| = mags c' + X := by
      have : sgn neg' = -sgn neg := by revert hneg; cases neg <;> cases neg' <;> simp [sgn]
      rw [this, neg_mul, ← neg_add', ← mul_add, abs_neg, abs_sgn_mul, abs_of_nonneg (by linarith)]
    obtain ⟨hle, heq⟩ := h.nearest hmono (Nat.zero_le top)
    rw [hzero, zero_sub, abs_neg, abs_of_nonneg hX] at hle heq
    rw [hother]
    refine ⟨by linarith, fun hx => ?_⟩
    have hc0 : mags c' = 0 := by linarith
    refine (heq (by linarith)).imp (fun hy => ?_) id
    rw [hy, hzero, hc0, mul_zero, mul_zero]

end

/-! ## Floating-point elements -/

section
variable {f : FFmt}

/-- Rounding to nearest even with saturation. -/
theorem roundF_even (hf : f.Regular) (neg : Bool) (m : Nat) (e : Int) :
    ∃ c, (roundF f true 0 0 neg m e false).1 = signOf f neg + c ∧ RoundsEven f.mag f.maxCode (m * 2 ^ e) c := by
  by_cases hm : m = 0
  · have h1 : 0 < f.mag 1 := by
      rw [← FFmt.mag_zero (f := f)]
      exact FFmt.mag_strictMono Nat.one_pos
    refine ⟨0, by simp [roundF, hm], 0, false, ?_, ?_, ?_, by simp⟩
    · simp [hm]
    · simpa [hm] using h1
    · simp [hm, not_lt.2 (half_pos h1).le]
  · obtain ⟨c0, up, exact_, tiny, hb, hup, -, -, hr⟩ := exists_delivered hf (denotes_exact m e) (compares_rat _) hm nofun
      (q := 0) (by decide) true 0 neg
    have hlow : f.mag c0 ≤ m * 2 ^ e := by exact_mod_cast hb.low
    have hhigh : m * 2 ^ e < f.mag (c0 + 1) := by exact_mod_cast hb.high
    refine ⟨min (if up then c0 + 1 else c0) f.maxCode, ?_, c0, up, hlow, hhigh, ?_, rfl⟩
    · rw [hr, FFmt.delivered]
      by_cases h : f.maxCode < if up then c0 + 1 else c0
      · rw [if_pos h, min_eq_right h.le]
        rfl
      · rw [if_neg h, min_eq_left (Nat.not_lt.1 h)]
    · rw [hup, bitOf_zero]
      simp only [roundsUp, not_le, decide_eq_true_eq]
      refine and_iff_right_of_imp fun hx heq => ?_
      have hx' : (f.mag c0 + f.mag (c0 + 1)) / 2 ≤ m * 2 ^ e := hx.elim le_of_lt And.left
      have heq' : (m * 2 ^ e : ℚ) = f.mag c0 := by exact_mod_cast heq
      linarith

/-- The top exponent encodes no finite value where the format has infinities. -/
theorem decodeF_top {x : Nat} (hk : f.kind = 0 ∨ f.kind = 3) (he : fld x f.mb f.eb = 2 ^ f.eb - 1) : (decodeF f x).finite = false := by
  rcases hk with hk | hk <;> by_cases hfr : fld x 0 f.mb = 0 <;> simp [decodeF, hk, he, hfr, FVal.finite]
theorem decodeF_last {x : Nat} (hk : f.kind = 1) (he : fld x f.mb f.eb = 2 ^ f.eb - 1) (hfr : fld x 0 f.mb = 2 ^ f.mb - 1) :
    (decodeF f x).finite = false := by
  simp [decodeF, hk, he, hfr, FVal.finite]

/-- A finite encoding is a magnitude with a sign. -/
theorem FFmt.Regular.exists_code (hf : f.Regular) {z : Nat} (hz : z < 2 ^ f.width) (hfin : (decodeF f z).finite = true) :
    ∃ neg c, c ≤ f.maxCode ∧ z = signOf f neg + c := by
  have hpow : 2 ^ f.width = 2 * 2 ^ (f.eb + f.mb) := by
    rw [FFmt.width, Nat.add_assoc, Nat.add_comm, Nat.pow_succ, Nat.mul_comm]
  obtain ⟨neg, c, hc, rfl⟩ : ∃ neg c, c < 2 ^ (f.eb + f.mb) ∧ z = signOf f neg + c := by
    rcases Nat.lt_or_ge z (2 ^ (f.eb + f.mb)) with h | h
    · exact ⟨false, z, h, by simp [signOf]⟩
    · exact ⟨true, z - 2 ^ (f.eb + f.mb), by omega, by simp [signOf]; omega⟩
  refine ⟨neg, c, ?_, rfl⟩
  obtain ⟨hex, hfr⟩ := fld_signOf_add hc neg
  have hdm := Nat.div_add_mod' c (2 ^ f.mb)
  have hr := Nat.mod_lt c (Nat.two_pow_pos f.mb)
  have hq : c / 2 ^ f.mb < 2 ^ f.eb := Nat.div_lt_of_lt_mul (by rwa [Nat.add_comm, Nat.pow_add] at hc)
  have hbelow : ∀ t, c / 2 ^ f.mb ≤ t → c / 2 ^ f.mb * 2 ^ f.mb ≤ t * 2 ^ f.mb := fun t => Nat.mul_le_mul_right _
  have hinf : f.kind = 0 ∨ f.kind = 3 → c / 2 ^ f.mb ≠ 2 ^ f.eb - 1 := fun hk he =>
    Bool.false_ne_true ((decodeF_top hk (hex.trans he)).symm.trans hfin)
  have hnan : f.kind = 1 → c / 2 ^ f.mb = 2 ^ f.eb - 1 → c % 2 ^ f.mb ≠ 2 ^ f.mb - 1 := fun hk he hm =>
    Bool.false_ne_true ((decodeF_last hk (hex.trans he) (hfr.trans hm)).symm.trans hfin)
  have heb : 2 ^ 2 ≤ 2 ^ f.eb := Nat.pow_le_pow_right (by decide) hf.eb_pos
  rw [FFmt.maxCode, FFmt.topExp]
  simp only [Bool.or_eq_true, decide_eq_true_eq]
  split
  · next hk =>
    have := hinf hk
    have := hbelow (2 ^ f.eb - 2) (by omega)
    rw [if_neg (by omega)]
    omega
  · have := hbelow (2 ^ f.eb - 1) (by omega)
    split
    · next hk =>
      rcases Nat.lt_or_ge (c / 2 ^ f.mb) (2 ^ f.eb - 1) with hlt | hge
      · have := Nat.mul_le_mul_right (2 ^ f.mb) (Nat.succ_le_of_lt hlt)
        rw [Nat.succ_mul] at this
        omega
      · have := hnan hk (by omega)
        omega
    · omega

end

end Sys2Proof.Machine
end
section
/-! PROOFS. Microscaled elements, and the greatest exponent of a list of values (R111, R122, R126). -/

set_option Elab.async false

namespace Sys2Proof.Machine

/-- `code` is an element of `w` bits nearest `t`, of two equally near the even one, within `gap`. -/
structure NearestElem (val : Nat → FVal) (w : Nat) (gap t : ℚ) (code : Nat) : Prop where
  lt : code < 2 ^ w
  nearest : ∀ z < 2 ^ w, (val z).finite = true → |(val code).rat - t| ≤ |(val z).rat - t| ∧
    (|(val code).rat - t| = |(val z).rat - t| → (val code).rat = (val z).rat ∨ code % 2 = 0)
  error : |(val code).rat - t| < gap

theorem FVal.rat_num_sgn (neg : Bool) (m : Nat) (e : Int) : (FVal.num neg m e).rat = sgn neg * (m * 2 ^ e) := FVal.rat_num neg m e

/-! ## Floating-point elements -/

section
variable {f : FFmt}

theorem FFmt.Regular.rat_code (hf : f.Regular) {c : Nat} (hc : c ≤ f.maxCode) (neg : Bool) :
    (decodeF f (signOf f neg + c)).rat = sgn neg * f.mag c := by
  rw [hf.decodeF_finite hc, FVal.rat_num_sgn, FFmt.mag]
theorem signOf_mod_two (hf : f.Regular) (neg : Bool) (c : Nat) : (signOf f neg + c) % 2 = c % 2 := by
  have hpow : 2 ^ (f.eb + f.mb) = 2 * 2 ^ (f.eb + f.mb - 1) := by
    have := hf.mb_pos
    rw [← Nat.pow_succ']
    congr 1
    omega
  rw [signOf]
  split <;> omega

theorem nearestElem_roundF (hf : f.Regular) (neg : Bool) (m : Nat) (e : Int) {gap : ℚ} (hgap : 2 ^ f.expo f.maxCode ≤ gap)
    (hover : m * 2 ^ e - f.mag f.maxCode < gap) :
    NearestElem (decodeF f) f.width gap (FVal.num neg m e).rat (roundF f true 0 0 neg m e false).1 := by
  obtain ⟨c, hr, heven⟩ := roundF_even hf neg m e
  have hX : (0 : ℚ) ≤ m * 2 ^ e := mul_nonneg (Nat.cast_nonneg m) (two_zpow_pos e).le
  have hc := heven.le_top
  rw [hr]
  refine ⟨signOf_add_lt (hc.trans_lt hf.maxCode_lt) neg, fun z hz hfin => ?_, ?_⟩
  · obtain ⟨neg', c', hc', rfl⟩ := hf.exists_code hz hfin
    rw [hf.rat_code hc, hf.rat_code hc', signOf_mod_two hf, FVal.rat_num_sgn]
    exact heven.nearest_signed FFmt.mag_strictMono FFmt.mag_zero hX fun _ => hc'
  · rw [hf.rat_code hc, FVal.rat_num_sgn, ← mul_sub, abs_sgn_mul]
    refine heven.error_lt FFmt.mag_strictMono (fun i hi => ?_) hover
    rw [FFmt.mag_succ, add_sub_cancel_left]
    exact (zpow_le_zpow_right₀ (by norm_num) (FFmt.expo_mono hi.le)).trans hgap

end

/-! ## Integer elements -/

/-- The value of an integer element of `w` bits with `fb` fraction bits. -/
def intElem (w fb x : Nat) : FVal := .num (decide (sext w x < 0)) (sext w x).natAbs (-(fb : Int))
/-- An integer clamped to `w` bits. -/
def clampInt (w : Nat) (v : Int) : Nat :=
  if v < -(2 ^ (w - 1) : Nat) then wrap w (-(2 ^ (w - 1) : Nat))
  else if v > (2 ^ (w - 1) : Nat) - 1 then wrap w ((2 ^ (w - 1) : Nat) - 1) else wrap w v
/-- The greatest magnitude of a sign. -/
def intTop (w : Nat) (neg : Bool) : Nat := if neg then 2 ^ (w - 1) else 2 ^ (w - 1) - 1
/-- The rising magnitudes of integer elements. -/
def intMag (fb i : Nat) : ℚ := i * 2 ^ (-(fb : Int))

theorem intMag_strictMono (fb : Nat) : StrictMono (intMag fb) := fun _ _ h =>
  mul_lt_mul_of_pos_right (Nat.cast_lt.2 h) (two_zpow_pos _)
theorem intMag_zero (fb : Nat) : intMag fb 0 = 0 := by simp [intMag]

theorem signed_natAbs (v : Int) : (v : ℚ) = sgn (decide (v < 0)) * (v.natAbs : ℚ) := by
  rw [Nat.cast_natAbs, sgn]
  rcases lt_or_ge v 0 with h | h
  · simp [h, abs_of_neg h]
  · simp [not_lt.2 h, abs_of_nonneg h]

section
variable {w : Nat}

theorem two_pow_eq_two_mul (hw : 1 ≤ w) : 2 ^ w = 2 * 2 ^ (w - 1) := by
  rw [← Nat.pow_succ']
  congr 1
  omega
theorem sext_range (hw : 1 ≤ w) (z : Nat) : -((2 ^ (w - 1) : Nat) : Int) ≤ sext w z ∧ sext w z < (2 ^ (w - 1) : Nat) := by
  have hpow := two_pow_eq_two_mul hw
  have := Nat.mod_lt z (Nat.two_pow_pos w)
  rw [sext]
  split <;> omega
theorem sext_wrap (hw : 1 ≤ w) {v : Int} (hlow : -((2 ^ (w - 1) : Nat) : Int) ≤ v) (hhigh : v < (2 ^ (w - 1) : Nat)) :
    sext w (wrap w v) = v := by
  have hpow := two_pow_eq_two_mul hw
  rw [sext, Nat.mod_eq_of_lt (wrap_lt w v), wrap, hpow]
  generalize 2 ^ (w - 1) = p at *
  rcases lt_or_ge v 0 with h | h
  · have : v % ((2 * p : Nat) : Int) = v + (2 * p : Nat) := by
      rw [← Int.add_emod_right, Int.emod_eq_of_lt] <;> push_cast <;> omega
    rw [this]
    split <;> omega
  · rw [Int.emod_eq_of_lt h (by push_cast; omega)]
    split <;> omega
theorem wrap_mod_two (hw : 1 ≤ w) (v : Int) : wrap w v % 2 = v.natAbs % 2 := by
  have hpow := two_pow_eq_two_mul hw
  have hdm := Int.emod_add_mul_ediv v ((2 ^ w : Nat) : Int)
  have hnonneg : 0 ≤ v % ((2 ^ w : Nat) : Int) := Int.emod_nonneg _ (by positivity)
  rw [wrap]
  rw [hpow] at hdm hnonneg ⊢
  push_cast at hdm hnonneg ⊢
  rw [mul_assoc] at hdm
  generalize (2 : Int) ^ (w - 1) * (v / (2 * 2 ^ (w - 1))) = z at hdm
  generalize v % (2 * 2 ^ (w - 1)) = y at *
  omega

/-- A clamped integer is its magnitude, up to the greatest of its sign. -/
theorem sext_clampInt (hw : 1 ≤ w) (neg : Bool) (k : Nat) :
    sext w (clampInt w ((if neg then -1 else 1) * (k : Int))) = (if neg then -1 else 1) * (min k (intTop w neg) : Nat) ∧
      clampInt w ((if neg then -1 else 1) * (k : Int)) % 2 = min k (intTop w neg) % 2 := by
  have hp : 0 < 2 ^ (w - 1) := Nat.two_pow_pos _
  have hclamp : clampInt w ((if neg then -1 else 1) * (k : Int)) = wrap w ((if neg then -1 else 1) * (min k (intTop w neg) : Nat)) := by
    rw [clampInt, intTop]
    cases neg <;> simp only [Bool.false_eq_true, if_false, if_true, one_mul, neg_one_mul]
    · split
      · omega
      · split
        · congr 1; omega
        · congr 1; omega
    · split
      · congr 1; omega
      · split
        · omega
        · congr 1; omega
  rw [hclamp, wrap_mod_two hw, intTop]
  refine ⟨sext_wrap hw ?_ ?_, ?_⟩ <;> cases neg <;>
    simp only [Bool.false_eq_true, if_false, if_true, one_mul, neg_one_mul] <;> omega

/-- Rounding to nearest even among the integers of a last place. -/
theorem roundInt_even (fb : Nat) (neg : Bool) (m : Nat) (e : Int) (top : Nat) :
    ∃ k : Nat, ∃ ix, roundInt 0 0 neg m (e + fb) = ((if neg then -1 else 1) * (k : Int), ix) ∧
      RoundsEven (intMag fb) top (m * 2 ^ e) (min k top) := by
  obtain ⟨up, hup, hr⟩ := roundInt_spec (q := 0) (by decide) neg m (e + fb) 0
  have hpos := two_zpow_pos (-(fb : Int))
  have hscale : (m * 2 ^ e : ℚ) = m * 2 ^ (e + fb) * 2 ^ (-(fb : Int)) := by
    rw [mul_assoc, ← zpow_add₀ (by norm_num), add_neg_cancel_right]
  have hX : (0 : ℚ) ≤ m * 2 ^ (e + fb) := mul_nonneg (Nat.cast_nonneg m) (two_zpow_pos _).le
  have hlow := Nat.floor_le hX
  have hhigh := Nat.lt_floor_add_one (m * 2 ^ (e + fb) : ℚ)
  generalize (m * 2 ^ (e + fb) : ℚ) = X at *
  refine ⟨_, _, hr, ⌊X⌋₊, up, ?_, ?_, ?_, rfl⟩
  · rw [hscale]
    exact mul_le_mul_of_nonneg_right hlow hpos.le
  · rw [hscale, intMag]
    push_cast
    exact mul_lt_mul_of_pos_right hhigh hpos
  · have hmid : (intMag fb ⌊X⌋₊ + intMag fb (⌊X⌋₊ + 1)) / 2 = ((⌊X⌋₊ : ℚ) + (⌊X⌋₊ + 1)) / 2 * 2 ^ (-(fb : Int)) := by
      rw [intMag, intMag]
      push_cast
      ring
    rw [hup, hmid, hscale, mul_lt_mul_iff_left₀ hpos, mul_le_mul_iff_left₀ hpos, bitOf_zero]
    simp only [roundsUp, not_le, decide_eq_true_eq]
    refine and_iff_right_of_imp fun hx heq => ?_
    have hx' : ((⌊X⌋₊ : ℚ) + (⌊X⌋₊ + 1)) / 2 ≤ X := hx.elim le_of_lt And.left
    linarith

theorem rat_intElem (fb x : Nat) : (intElem w fb x).rat = sgn (decide (sext w x < 0)) * intMag fb (sext w x).natAbs := by
  rw [intElem, FVal.rat_num_sgn, intMag]

theorem rat_intElem_cast (fb x : Nat) : (intElem w fb x).rat = sext w x * 2 ^ (-(fb : Int)) := by
  rw [rat_intElem, signed_natAbs (sext w x), intMag, mul_assoc]

theorem nearestElem_roundInt (hw : 1 ≤ w) (fb : Nat) (neg : Bool) (m : Nat) (e : Int)
    (hover : m * 2 ^ e - intMag fb (2 ^ (w - 1) - 1) < 2 ^ (-(fb : Int))) :
    NearestElem (intElem w fb) w (2 ^ (-(fb : Int))) (FVal.num neg m e).rat (clampInt w (roundInt 0 0 neg m (e + fb)).1) := by
  obtain ⟨k, ix, hr, heven⟩ := roundInt_even fb neg m e (intTop w neg)
  obtain ⟨hval, hpar⟩ := sext_clampInt hw neg k
  have hX : (0 : ℚ) ≤ m * 2 ^ e := mul_nonneg (Nat.cast_nonneg m) (two_zpow_pos e).le
  have hcode : (intElem w fb (clampInt w ((if neg then -1 else 1) * (k : Int)))).rat = sgn neg * intMag fb (min k (intTop w neg)) := by
    rw [rat_intElem_cast, hval, intMag]
    cases neg <;> simp [sgn]
  rw [hr]
  refine ⟨?_, fun z hz _ => ?_, ?_⟩
  · rw [clampInt]
    repeat' split
    all_goals exact wrap_lt w _
  · rw [hcode, rat_intElem, hpar, FVal.rat_num_sgn]
    refine heven.nearest_signed (intMag_strictMono fb) (intMag_zero fb) hX fun hsign => ?_
    have hrange := sext_range hw z
    rw [intTop]
    cases neg <;> simp at hsign ⊢ <;> omega
  · rw [hcode, FVal.rat_num_sgn, ← mul_sub, abs_sgn_mul]
    refine heven.error_lt (intMag_strictMono fb) (fun i _ => ?_) (lt_of_le_of_lt ?_ hover)
    · rw [intMag, intMag]
      push_cast
      linarith
    · have : 2 ^ (w - 1) - 1 ≤ intTop w neg := by
        rw [intTop]
        split
        · exact Nat.sub_le _ _
        · exact Nat.le_refl _
      exact sub_le_sub_left ((intMag_strictMono fb).monotone this) _

end

end Sys2Proof.Machine
end
section
/-! PROOFS. The greatest exponent of a list of values, and quantisation to a microscaled block (R111, R122, R126, R153). -/

set_option Elab.async false

namespace Sys2Proof.Machine

/-! ## The greatest exponent -/

/-- The exponent of a finite value that is not zero. -/
def FVal.log : FVal → Option Int
  | .num _ m e => if m = 0 then none else some ((ilog2 m : Int) + e)
  | _ => none
/-- The greatest exponent so far, with that of another value. -/
def topStep (acc : Option Int) (p : FVal) : Option Int :=
  p.log.elim acc fun l => some (acc.elim l fun t => if l > t then l else t)

theorem int_log_eq {m : Nat} (hm : m ≠ 0) (e : Int) : Int.log 2 (m * 2 ^ e : ℚ) = (ilog2 m : Int) + e := by
  have hpos : (0 : ℚ) < m * 2 ^ e := mul_pos (by exact_mod_cast Nat.pos_of_ne_zero hm) (two_zpow_pos e)
  obtain ⟨hlow, hhigh⟩ := (denotes_exact m e).binade hm
  have hlow' : ((2 : Nat) : ℚ) ^ ((ilog2 m : Int) + e) ≤ m * 2 ^ e := (Rat.cast_le (K := ℝ)).1 (by push_cast at hlow ⊢; exact hlow)
  have hhigh' : (m * 2 ^ e : ℚ) < ((2 : Nat) : ℚ) ^ ((ilog2 m : Int) + e + 1) := (Rat.cast_lt (K := ℝ)).1 (by push_cast at hhigh ⊢; exact hhigh)
  have h1 := (Int.zpow_le_iff_le_log (by decide) hpos).1 hlow'
  have h2 := (Int.lt_zpow_iff_log_lt (by decide) hpos).1 hhigh'
  omega

theorem FVal.log_eq_none {p : FVal} (hfin : p.finite = true) : p.log = none ↔ p.rat = 0 := by
  obtain ⟨n, m, e, rfl⟩ := FVal.exists_num hfin
  rw [FVal.rat_num_eq_zero, FVal.log]
  split <;> simp [*]
theorem FVal.log_eq_some {p : FVal} {l : Int} : p.log = some l ↔ p.rat ≠ 0 ∧ Int.log 2 |p.rat| = l := by
  cases p with
  | nan _ => simp [FVal.log, FVal.rat]
  | inf _ => simp [FVal.log, FVal.rat]
  | num n m e =>
    rw [FVal.abs_rat_num, Ne, FVal.rat_num_eq_zero, FVal.log]
    by_cases hm : m = 0
    · simp [hm]
    · simp [hm, int_log_eq hm e]

/-- A fold over values: no exponent where it began with none and met none, and else the greatest it began with or met. -/
def TopOf (ps : List FVal) (acc : Option Int) : Option Int → Prop
  | none => acc = none ∧ ∀ p ∈ ps, p.log = none
  | some t => (acc = some t ∨ ∃ p ∈ ps, p.log = some t) ∧ (∀ a, acc = some a → a ≤ t) ∧ ∀ p ∈ ps, ∀ l, p.log = some l → l ≤ t

theorem topStep_of_none {acc : Option Int} {p : FVal} (h : p.log = none) : topStep acc p = acc := by
  rw [topStep, h]
  rfl
theorem topStep_of_some {acc : Option Int} {p : FVal} {l : Int} (h : p.log = some l) :
    ∃ t, topStep acc p = some t ∧ (t = l ∨ acc = some t) ∧ l ≤ t ∧ ∀ a, acc = some a → a ≤ t := by
  rw [topStep, h, Option.elim_some]
  cases acc with
  | none => exact ⟨l, rfl, .inl rfl, le_refl l, nofun⟩
  | some a =>
    refine ⟨_, rfl, ?_, ?_, fun a' ha => ?_⟩
    · rw [Option.elim_some, Option.some_inj]
      split <;> omega
    · rw [Option.elim_some]
      split <;> omega
    · cases ha
      rw [Option.elim_some]
      split <;> omega

theorem foldl_topStep (ps : List FVal) (acc : Option Int) : TopOf ps acc (ps.foldl topStep acc) := by
  induction ps generalizing acc with
  | nil => cases acc <;> simp [TopOf]
  | cons p ps ih =>
    have hrest := ih (topStep acc p)
    rw [List.foldl_cons]
    cases hlog : p.log with
    | none =>
      rw [topStep_of_none hlog] at hrest ⊢
      cases hfold : ps.foldl topStep acc <;> rw [hfold] at hrest <;> simpa [TopOf, hlog] using hrest
    | some l =>
      obtain ⟨t', ht', hfrom, hl, hacc⟩ := topStep_of_some (acc := acc) hlog
      rw [ht'] at hrest ⊢
      cases hfold : ps.foldl topStep (some t') with
      | none =>
        rw [hfold] at hrest
        cases hrest.1
      | some t =>
        rw [hfold] at hrest
        obtain ⟨horigin, hstart, hmax⟩ := hrest
        have hle := hstart t' rfl
        refine ⟨?_, fun a ha => (hacc a ha).trans hle, fun p' hp' l' hl' => ?_⟩
        · rcases horigin with heq | ⟨p', hp', hlog'⟩
          · cases heq
            exact hfrom.symm.imp_right fun h => ⟨p, List.mem_cons_self, hlog.trans (congrArg some h.symm)⟩
          · exact .inr ⟨p', List.mem_cons_of_mem p hp', hlog'⟩
        · rcases List.mem_cons.1 hp' with rfl | hp'
          · rw [hlog, Option.some_inj] at hl'
            omega
          · exact hmax p' hp' l' hl'

theorem foldl_topStep_none {ps : List FVal} (h : ps.foldl topStep none = none) : ∀ p ∈ ps, p.log = none := by
  have := foldl_topStep ps none
  rw [h] at this
  exact this.2
theorem foldl_topStep_some {ps : List FVal} {t : Int} (h : ps.foldl topStep none = some t) :
    (∃ p ∈ ps, p.log = some t) ∧ ∀ p ∈ ps, ∀ l, p.log = some l → l ≤ t := by
  have := foldl_topStep ps none
  rw [h] at this
  exact ⟨this.1.resolve_left nofun, this.2.2⟩

/-! ## Quantisation -/

/-- The shift of a block, from the greatest exponent of its values. -/
def quantShift (c : Nat) (x : Nat → Nat) : Int :=
  (((List.range 32).map (fun j => decodeF f32 (x j))).foldl topStep none).elim (-127) fun l => max (l - efmtEmax c) (-127)
/-- The element of a value of a block. -/
def quantElem (c : Nat) (shift : Int) (v : FVal) : Nat × Bool :=
  match v with
  | .num n m e => roundSat c n m (e - shift)
  | _ => (0, false)

theorem quantBlock_special {c : Nat} {x : Nat → Nat} (h : ∃ j < 32, (decodeF f32 (x j)).finite = false) :
    quantBlock c x = (0, 0xFF, 0) := by
  obtain ⟨j, hj, hfin⟩ := h
  refine if_pos ((firstIdx_isSome_iff _ _ _).2 ⟨j, hj, ?_⟩)
  rw [Nat.zero_add]
  cases hv : decodeF f32 (x j) with
  | num n m e => simp [hv, FVal.finite] at hfin
  | nan s => simp [hv]
  | inf n => simp [hv]

theorem quantBlock_finite {c : Nat} {x : Nat → Nat} (h : ∀ j < 32, (decodeF f32 (x j)).finite = true) :
    quantBlock c x = (pack (efmtWidth c) (fun j => (quantElem c (quantShift c x) (decodeF f32 (x j))).1) 32 0,
      (quantShift c x + 127).toNat,
      loop (fun j a => a + b2n (quantElem c (quantShift c x) (decodeF f32 (x j))).2) 32 0 0) := by
  refine (if_neg fun hbad => ?_).trans ?_
  · obtain ⟨j, hj, hbad⟩ := (firstIdx_isSome_iff _ _ _).1 hbad
    obtain ⟨n, m, e, hv⟩ := FVal.exists_num (h j hj)
    simp [hv] at hbad
  · rw [quantShift]
    dsimp only
    generalize hloop : loop _ 32 0 none = top
    have htop : top = ((List.range 32).map (fun j => decodeF f32 (x j))).foldl topStep none := by
      rw [← hloop, loop_zero_eq_foldl, List.foldl_map]
      congr 1
      funext acc j
      cases decodeF f32 (x j) with
      | num n m e =>
        rw [topStep, FVal.log]
        dsimp only
        split
        · rfl
        · cases acc <;> rfl
      | nan s => rfl
      | inf n => rfl
    rw [← htop]
    cases top with
    | none => rfl
    | some l =>
      have hmax : (if l - efmtEmax c < -127 then -127 else l - efmtEmax c) = max (l - efmtEmax c) (-127) := by
        split <;> omega
      simp only [hmax]
      rfl

/-! ## The shift of a block -/

section
variable {c : Nat} {x : Nat → Nat}

theorem mem_block {j : Nat} (hj : j < 32) : decodeF f32 (x j) ∈ (List.range 32).map (fun j => decodeF f32 (x j)) :=
  List.mem_map.2 ⟨j, List.mem_range.2 hj, rfl⟩

/-- The shift brings the greatest value of the block into the top binade of the elements, where that is not below -127 (R153). -/
theorem quantShift_zero (hfin : ∀ j < 32, (decodeF f32 (x j)).finite = true) (h : ∀ j < 32, (decodeF f32 (x j)).rat = 0) :
    quantShift c x = -127 := by
  rw [quantShift]
  cases hfold : ((List.range 32).map (fun j => decodeF f32 (x j))).foldl topStep none with
  | none => rfl
  | some t =>
    obtain ⟨⟨p, hp, hlog⟩, -⟩ := foldl_topStep_some hfold
    obtain ⟨j, hj, rfl⟩ := List.mem_map.1 hp
    have hj := List.mem_range.1 hj
    rw [(FVal.log_eq_none (hfin j hj)).2 (h j hj)] at hlog
    cases hlog
theorem quantShift_ge {j : Nat} (hj : j < 32) (h0 : (decodeF f32 (x j)).rat ≠ 0) :
    max (Int.log 2 |(decodeF f32 (x j)).rat| - efmtEmax c) (-127) ≤ quantShift c x := by
  have hlog := FVal.log_eq_some.2 ⟨h0, rfl⟩
  rw [quantShift]
  cases hfold : ((List.range 32).map (fun j => decodeF f32 (x j))).foldl topStep none with
  | none =>
    rw [foldl_topStep_none hfold _ (mem_block hj)] at hlog
    cases hlog
  | some t =>
    have := (foldl_topStep_some hfold).2 _ (mem_block hj) _ hlog
    rw [Option.elim_some]
    omega
theorem quantShift_le {t : Int} (h : ∀ j < 32, (decodeF f32 (x j)).rat ≠ 0 → Int.log 2 |(decodeF f32 (x j)).rat| ≤ t) :
    quantShift c x ≤ max (t - efmtEmax c) (-127) := by
  rw [quantShift]
  cases hfold : ((List.range 32).map (fun j => decodeF f32 (x j))).foldl topStep none with
  | none => exact le_max_right _ _
  | some l =>
    obtain ⟨⟨p, hp, hlog⟩, -⟩ := foldl_topStep_some hfold
    obtain ⟨j, hj, rfl⟩ := List.mem_map.1 hp
    obtain ⟨h0, hl⟩ := FVal.log_eq_some.1 hlog
    have := h j (List.mem_range.1 hj) h0
    rw [Option.elim_some]
    omega
theorem quantShift_range : -127 ≤ quantShift c x := by
  rw [quantShift]
  cases ((List.range 32).map (fun j => decodeF f32 (x j))).foldl topStep none with
  | none => exact le_refl _
  | some l => exact le_max_right _ _

theorem decodeF_f32_exp {y : Nat} {n : Bool} {m : Nat} {e : Int} (hy : decodeF f32 y = .num n m e) : e ≤ 104 := by
  have hex : fld y f32.mb f32.eb < 256 := fld_lt y 23 8
  rw [decodeF] at hy
  generalize fld y f32.mb f32.eb = ex at hex hy
  by_cases htop : ex = 255
  · subst htop
    split at hy
    · split at hy <;> cases hy
    · simp [f32] at *
  · rw [if_neg (by simp [f32, htop]), if_neg (by simp [f32]), if_neg (by simp [f32])] at hy
    split at hy
    · cases hy
      decide
    · cases hy
      simp only [f32]
      omega
/-- The exponent of a binary32 value. -/
theorem f32_log_le {y : Nat} (h0 : (decodeF f32 y).rat ≠ 0) : Int.log 2 |(decodeF f32 y).rat| ≤ 127 := by
  cases hy : decodeF f32 y with
  | nan s => simp [hy, FVal.rat] at h0
  | inf n => simp [hy, FVal.rat] at h0
  | num n m e =>
    rw [hy, Ne, FVal.rat_num_eq_zero] at h0
    have hm : m < 2 ^ 24 := decodeF_sig_lt hy
    have hlog : ilog2 m < 24 := (Nat.log2_lt h0).2 hm
    have he : e ≤ 104 := decodeF_f32_exp hy
    rw [FVal.abs_rat_num, int_log_eq h0]
    omega

/-- The bound of an element's error, in its last places (R111). -/
def elemGap (c : Nat) : ℚ :=
  match c with | 2 => 64 | 3 => 8192 | 4 => 4 | 5 => 1 / 2 | 6 => 2 | 7 => 1 / 64 | 8 => 1 / 16 | _ => 1 / 4

theorem nearestElem_float {f : FFmt} (hf : f.Regular) (neg : Bool) {m sig : Nat} {e expo : Int} {gap lim : ℚ}
    (hs : f.sig f.maxCode = sig) (he : f.expo f.maxCode = expo) (hgap : 2 ^ expo ≤ gap) (hlim : sig * 2 ^ expo + gap = lim)
    (hlt : m * 2 ^ e < lim) :
    NearestElem (decodeF f) f.width gap (FVal.num neg m e).rat (roundF f true 0 0 neg m e false).1 := by
  subst hs he
  exact nearestElem_roundF hf neg m e hgap (by rw [FFmt.mag]; linarith)
theorem roundSat_int (neg : Bool) (m : Nat) (e : Int) :
    (roundSat 7 neg m e).1 = clampInt 8 (roundInt 0 0 neg m (e + (6 : Nat))).1 ∧
    (roundSat 8 neg m e).1 = clampInt 6 (roundInt 0 0 neg m (e + (4 : Nat))).1 ∧
    (roundSat 9 neg m e).1 = clampInt 4 (roundInt 0 0 neg m (e + (2 : Nat))).1 := by
  simp only [roundSat, clampInt, apply_ite Prod.fst, and_self]

/-- Rounding with saturation picks the nearest element (R126). -/
theorem nearestElem_roundSat {c : Nat} (h2 : 2 ≤ c) (h9 : c ≤ 9) (neg : Bool) {m : Nat} {e : Int}
    (hlt : (m * 2 ^ e : ℚ) < 2 ^ (efmtEmax c + 1)) :
    NearestElem (elemVal c) (efmtWidth c) (elemGap c) (FVal.num neg m e).rat (roundSat c neg m e).1 := by
  obtain ⟨h7, h8, h9'⟩ := roundSat_int neg m e
  have hreg : ∀ {f : FFmt}, f ∈ [e4m3, e5m2, e3m2, e2m3, e2m1] → f.Regular := fun h => regular_of_mem (by
    simp only [floatFormats, List.mem_cons, List.not_mem_nil, or_false] at h ⊢
    tauto)
  interval_cases c
  · exact nearestElem_float (f := e4m3) (hreg (by simp)) neg (sig := 14) (expo := 5) rfl rfl (by norm_num [elemGap]) (by norm_num [elemGap, efmtEmax]) hlt
  · exact nearestElem_float (f := e5m2) (hreg (by simp)) neg (sig := 7) (expo := 13) rfl rfl (by norm_num [elemGap]) (by norm_num [elemGap, efmtEmax]) hlt
  · exact nearestElem_float (f := e3m2) (hreg (by simp)) neg (sig := 7) (expo := 2) rfl rfl (by norm_num [elemGap]) (by norm_num [elemGap, efmtEmax]) hlt
  · exact nearestElem_float (f := e2m3) (hreg (by simp)) neg (sig := 15) (expo := -1) rfl rfl (by norm_num [elemGap]) (by norm_num [elemGap, efmtEmax]) hlt
  · exact nearestElem_float (f := e2m1) (hreg (by simp)) neg (sig := 3) (expo := 1) rfl rfl (by norm_num [elemGap]) (by norm_num [elemGap, efmtEmax]) hlt
  · rw [h7]
    have hgap : elemGap 7 = 2 ^ (-((6 : Nat) : Int)) := by norm_num [elemGap]
    rw [hgap]
    exact nearestElem_roundInt (w := 8) (by decide) 6 neg m e (by norm_num [intMag, efmtEmax] at hlt ⊢; linarith)
  · rw [h8]
    have hgap : elemGap 8 = 2 ^ (-((4 : Nat) : Int)) := by norm_num [elemGap]
    rw [hgap]
    exact nearestElem_roundInt (w := 6) (by decide) 4 neg m e (by norm_num [intMag, efmtEmax] at hlt ⊢; linarith)
  · rw [h9']
    have hgap : elemGap 9 = 2 ^ (-((2 : Nat) : Int)) := by norm_num [elemGap]
    rw [hgap]
    exact nearestElem_roundInt (w := 4) (by decide) 2 neg m e (by norm_num [intMag, efmtEmax] at hlt ⊢; linarith)

end

end Sys2Proof.Machine
end
section
/-! PROOFS. Conversions, packing, microscaled blocks and operations across lanes (R150 to R163). -/

set_option Elab.async false

namespace Sys2Proof.Machine

/-! ## The image of a block (R126, R153) -/

section
variable {c : Nat} {x : Nat → Nat}

/-- A finite value of a block, scaled by the shift, lies below twice the elements' top binade. -/
theorem scaled_lt {j : Nat} (hj : j < 32) {n : Bool} {m : Nat} {e : Int}
    (hv : decodeF f32 (x j) = .num n m e) : (m * 2 ^ (e - quantShift c x) : ℚ) < 2 ^ (efmtEmax c + 1) := by
  by_cases hm : m = 0
  · rw [hm, Nat.cast_zero, zero_mul]
    exact two_zpow_pos _
  · have h0 : (decodeF f32 (x j)).rat ≠ 0 := by rwa [hv, Ne, FVal.rat_num_eq_zero]
    have hge := quantShift_ge (c := c) hj h0
    rw [hv, FVal.abs_rat_num, int_log_eq hm] at hge
    have hhigh := Int.lt_zpow_succ_log_self (b := 2) (by decide) (m * 2 ^ e : ℚ)
    rw [int_log_eq hm] at hhigh
    push_cast at hhigh
    calc (m * 2 ^ (e - quantShift c x) : ℚ) = m * 2 ^ e * 2 ^ (-quantShift c x) := by
          rw [mul_assoc, ← zpow_add₀ (by norm_num), sub_eq_add_neg]
      _ < 2 ^ ((ilog2 m : Int) + e + 1) * 2 ^ (-quantShift c x) := mul_lt_mul_of_pos_right hhigh (two_zpow_pos _)
      _ = 2 ^ ((ilog2 m : Int) + e + 1 + -quantShift c x) := (zpow_add₀ (by norm_num) _ _).symm
      _ ≤ 2 ^ (efmtEmax c + 1) := zpow_le_zpow_right₀ (by norm_num) (by omega)

/-- Each element of a block is nearest its scaled value. -/
theorem quantBlock_elem (h2 : 2 ≤ c) (h9 : c ≤ 9) (hfin : ∀ j < 32, (decodeF f32 (x j)).finite = true) {j : Nat} (hj : j < 32) :
    NearestElem (elemVal c) (efmtWidth c) (elemGap c) ((decodeF f32 (x j)).rat * 2 ^ (-quantShift c x))
      (fld (quantBlock c x).1 (efmtWidth c * j) (efmtWidth c)) := by
  obtain ⟨n, m, e, hv⟩ := FVal.exists_num (hfin j hj)
  have hnear := nearestElem_roundSat h2 h9 n (scaled_lt hj hv)
  have hrat : (FVal.num n m (e - quantShift c x)).rat = (decodeF f32 (x j)).rat * 2 ^ (-quantShift c x) := by
    rw [hv, FVal.rat_num_sgn, FVal.rat_num_sgn, sub_eq_add_neg, zpow_add₀ (by norm_num)]
    ring
  have helem : quantElem c (quantShift c x) (decodeF f32 (x j)) = roundSat c n m (e - quantShift c x) := by rw [hv]; rfl
  rw [quantBlock_finite hfin, fld_pack _ _ _ _ _ hj, Nat.zero_add, helem, Nat.mod_eq_of_lt hnear.lt]
  rwa [hrat] at hnear

theorem quantBlock_scale (hfin : ∀ j < 32, (decodeF f32 (x j)).finite = true) :
    ((quantBlock c x).2.1 : Int) - 127 = quantShift c x := by
  have := quantShift_range (c := c) (x := x)
  rw [quantBlock_finite hfin]
  dsimp only
  omega
theorem efmtEmax_nonneg (c : Nat) : 0 ≤ efmtEmax c := by
  unfold efmtEmax
  split <;> decide
theorem quantBlock_scale_le (hfin : ∀ j < 32, (decodeF f32 (x j)).finite = true) : (quantBlock c x).2.1 ≤ 254 := by
  have hscale := quantBlock_scale (c := c) hfin
  have hle := quantShift_le (c := c) (x := x) fun j _ h0 => f32_log_le h0
  have := efmtEmax_nonneg c
  omega
/-- The greatest value of a block fixes the shift. -/
theorem quantShift_of_greatest {j : Nat} (hj : j < 32) (h0 : (decodeF f32 (x j)).rat ≠ 0)
    (hmax : ∀ i < 32, |(decodeF f32 (x i)).rat| ≤ |(decodeF f32 (x j)).rat|) :
    quantShift c x = max (Int.log 2 |(decodeF f32 (x j)).rat| - efmtEmax c) (-127) :=
  le_antisymm (quantShift_le fun i hi h => Int.log_mono_right (abs_pos.2 h) (hmax i hi)) (quantShift_ge hj h0)

end

/-! ## Elements of a conversion (R127, R134, R151) -/

theorem clampT_eq {w : Nat} {signed : Bool} {lo hi : Int} (h : intRange w signed = (lo, hi)) (hle : lo ≤ hi) (v : Int) :
    clampT w signed v = wrap w (max lo (min hi v)) := by
  rw [clampT, h]
  dsimp only
  split
  · congr 1; omega
  · split
    · congr 1; omega
    · congr 1; omega
theorem clampT_lt (w : Nat) (signed : Bool) (v : Int) : clampT w signed v < 2 ^ w := by
  rw [clampT]
  dsimp only
  repeat' split
  all_goals exact wrap_lt w _
theorem narrow8_lt (c rm q x : Nat) : narrow8 c rm q x < 2 ^ 8 := by
  have h (f : FFmt) (hf : f ∈ floatFormats) : (fCvt f32 f rm q x).1 < 2 ^ f.width := fCvt_lt hf rm q f32 x
  unfold narrow8
  split
  · exact h e4m3 (by simp [floatFormats])
  · exact h e5m2 (by simp [floatFormats])
  · exact clampT_lt 8 true _
  · exact clampT_lt 8 false _

end Sys2Proof.Machine
end
section
/-! PROOFS. The vector operations of conversion, packing and reduction, and O9 (R134, R150 to R163). -/

set_option Elab.async false

namespace Sys2Proof.Machine

/-! ## Conversions (R134, R151, R152) -/

theorem lane_lt (v : Vec) (i : Nat) : lane v i < 2 ^ 32 := fld_lt _ _ _

/-- Two halves of a field, the low one first. -/
theorem fld_two_halves (w lo hi : Nat) : fld (lo % 2 ^ w + 2 ^ w * (hi % 2 ^ w)) 0 (2 * w) = lo % 2 ^ w + 2 ^ w * (hi % 2 ^ w) := by
  have h1 : lo % 2 ^ w < 2 ^ w := Nat.mod_lt _ (Nat.two_pow_pos w)
  have h2 : hi % 2 ^ w < 2 ^ w := Nat.mod_lt _ (Nat.two_pow_pos w)
  have h3 : 2 ^ w * (hi % 2 ^ w) + 2 ^ w ≤ 2 ^ w * 2 ^ w := by rw [← Nat.mul_succ]; exact Nat.mul_le_mul_left _ h2
  rw [fld, Nat.pow_zero, Nat.div_one, Nat.two_mul, Nat.pow_add]
  exact Nat.mod_eq_of_lt (by omega)

theorem vcvt_elementwise : Elementwise .vcvt VR.ra 3 VR.ty
    (fun o st q j => cvtEl o.ty (o.extN % 8) o.rm (q j) (elem (st.getV o.a.toNat) (o.extN % 8) j))
    (fun o => o.ty ≠ 3 ∧ o.extN % 8 ≠ 3) := by
  refine elementwise_of_vmap VR.ra fun u o e ⟨hd, hs⟩ => ?_
  change opVcvt u o e = _
  rw [opVcvt, vExt_eq_extN, vRm_eq_rm]
  exact (if_neg hd).trans (if_neg hs)
theorem vcvt_to_f64 : Elementwise .vcvt VR.ra 3 (fun _ => 3)
    (fun o st q j => cvtEl 3 (o.extN % 8) o.rm (q j) (elem (st.getV o.a.toNat) (o.extN % 8) (2 * j))) (fun o => o.ty = 3) := by
  refine elementwise_of_vmap VR.ra fun u o e hd => ?_
  change opVcvt u o e = _
  rw [opVcvt, vExt_eq_extN, vRm_eq_rm]
  refine (if_pos hd).trans ?_
  have hd' : vt o = 3 := hd
  rw [hd']
  rfl

/-- A 64-bit element whose high word is zero. -/
theorem elem_ofNat_pack_even (f : Nat → Nat) {j : Nat} (hj : j < 32) (hodd : f (2 * j + 1) = 0) :
    elem (BitVec.ofNat 2048 (pack 32 f 64 0)) 3 j = f (2 * j) % 2 ^ 32 := by
  have hlow := lane_ofNat_pack f (i := 2 * j) (by omega)
  have hhigh := lane_ofNat_pack f (i := 2 * j + 1) (by omega)
  rw [hodd] at hhigh
  generalize BitVec.ofNat 2048 (pack 32 f 64 0) = v at *
  rw [← hlow]
  simp only [elem, lane, fld, tW, if_true] at *
  have hd : v.toNat / 2 ^ (32 * (2 * j + 1)) = v.toNat / 2 ^ (64 * j) / 2 ^ 32 := by
    rw [Nat.div_div_eq_div_mul, ← Nat.pow_add]
    congr 2
    omega
  have he : 32 * (2 * j) = 64 * j := by omega
  rw [hd] at hhigh
  rw [he]
  omega

theorem vcvt_from_f64 : Elementwise .vcvt VR.ra 3 (fun _ => 3)
    (fun o st q j => cvtEl o.ty 3 o.rm (q (2 * j)) (elem (st.getV o.a.toNat) 3 j) % 2 ^ 32) (fun o => o.ty ≠ 3 ∧ o.extN % 8 = 3) := by
  rintro u o s n ⟨hd, hs⟩ hw h
  have hop : opOf (.vcvt u o) (oneEnv (.vcvt u o) s n (slotOfVUnit u)) =
      oneV (oneEnv (.vcvt u o) s n (slotOfVUnit u)) [.k o.k.toNat, rv o.a] o.d 3
        (pack 32 (fun i => if i % 2 = 0 && ((s.strand n).getK o.k.toNat).getLsbD i then
          cvtEl o.ty 3 o.rm (randomAt s n u.slot i) (elem ((s.strand n).getV o.a.toNat) 3 (i / 2)) else 0) 64 0)
        (actLanes ((s.strand n).getK o.k.toNat) 3) := by
    rw [← randomAt_oneEnv (.vcvt u o)]
    change opVcvt u o _ = _
    rw [opVcvt, vExt_eq_extN, vRm_eq_rm, hs]
    exact (if_neg hd).trans (if_pos rfl)
  refine ⟨_, exec_of_oneV h hw (by cases u <;> rfl) rfl hop fun r hr => ?_, fun j hj hact => ?_⟩
  · exact (List.mem_cons.1 hr).elim (fun hk => .inr (hk ▸ Reg.quiet_k _)) .inl
  · have hj : j < 32 := lt_of_lt_of_eq hj (by simp [tN, tW])
    have hact : ((s.strand n).getK o.k.toNat).getLsbD (2 * j) = true := hact
    rw [elem_ofNat_pack_even _ hj (by simp), hact, Nat.mul_mod_right, Nat.mul_div_cancel_left _ (by decide)]
    change _ = _ % 2 ^ 32 % 2 ^ 64
    rw [Nat.mod_eq_of_lt ((Nat.mod_lt _ (by decide)).trans (by decide) : _ < 2 ^ 64)]
    rfl

/-- The element VUNPACK makes of a lane (R152). -/
def unpackedEl (o : VR) (st : Strand) (i : Nat) : Nat :=
  let x := lane (st.getV o.a.toNat) i
  let byte := fld x (8 * fld o.extN 4 2) 8
  let word := if bitOf o.extN 0 then x / 2 ^ 16 else x % 2 ^ 16
  if bitOf o.extN 3 then
    match o.extN % 8 with
    | 0 => (fCvt e4m3 f32 0 0 byte).1
    | 1 => (fCvt e5m2 f32 0 0 byte).1
    | 2 => wrap 32 (sext 8 byte)
    | _ => byte
  else if o.ty = 6 then wrap 32 (sext 16 word) else (fCvt (tF o.ty) f32 0 0 word).1

theorem vunpack_elementwise : Elementwise .vunpack VR.ra 3 (fun _ => 0) (fun o st _ => unpackedEl o st) := by
  refine elementwise_of_vmap VR.ra fun u o e _ => ?_
  change opVunpack u o e = _
  rw [opVunpack, vExt_eq_extN]
  refine congrArg (vmap e o [rv o.a] 3 0) (funext fun i => ?_)
  have hx := lane_lt (e.vv o.a) i
  have hword : (if bitOf o.extN 0 then fld (lane (e.vv o.a) i) 16 16 else fld (lane (e.vv o.a) i) 0 16) =
      if bitOf o.extN 0 then lane (e.vv o.a) i / 2 ^ 16 else lane (e.vv o.a) i % 2 ^ 16 := by
    simp only [fld]
    split <;> omega
  dsimp only
  rw [hword]
  rfl

/-! ## Packing (R152) -/

theorem narrow16_lt {t : Nat} (h : t ∈ [4, 5, 6]) (rm q x : Nat) : narrow16 t rm q x < 2 ^ 16 := by
  simp only [List.mem_cons, List.not_mem_nil, or_false] at h
  rcases h with rfl | rfl | rfl
  · exact fCvt_lt (f := f16) (by simp [floatFormats]) rm q f32 x
  · exact fCvt_lt (f := bf16) (by simp [floatFormats]) rm q f32 x
  · exact clampT_lt 16 true _

/-- The lanes VPACK writes. -/
def packed (o : VR) (st : Strand) (q : Nat → Nat) (i : Nat) : Nat :=
  if bitOf o.extN 3 then
    (narrow8 (o.extN % 8) o.rm (q (2 * i)) (lane (st.getV o.a.toNat) i) +
      2 ^ 8 * narrow8 (o.extN % 8) o.rm (q (2 * i + 1)) (lane (st.getV o.b.toNat) i)) * 2 ^ (16 * b2n (bitOf o.extN 4))
  else
    narrow16 o.ty o.rm (q (2 * i)) (lane (st.getV o.a.toNat) i) +
      2 ^ 16 * narrow16 o.ty o.rm (q (2 * i + 1)) (lane (st.getV o.b.toNat) i)

theorem opVpack_eq (u : VUnit) (o : VR) (e : Env) :
    opVpack u o e = oneV e [.k o.k.toNat, rv o.a, rv o.b] o.d 3
      (pack 32 (fun i => if (e.st.getK o.k.toNat).getLsbD i then packed o e.st e.draw i else 0) 64 0) (e.st.getK o.k.toNat)
      (if bitOf o.extN 3 then (if bitOf o.extN 4 then 12 else 3) else 15) := by
  unfold opVpack packed
  rw [vExt_eq_extN, vRm_eq_rm]
  by_cases h3 : bitOf o.extN 3 = true <;> by_cases h4 : bitOf o.extN 4 = true <;> simp only [h3, h4] <;> rfl

theorem b2n_eq_ite (b : Bool) : b2n b = if b then 1 else 0 := rfl

/-- The fields of a packed lane, low and high. -/
theorem fld_low_half {w lo hi : Nat} (hlo : lo < 2 ^ w) : fld (lo + 2 ^ w * hi) 0 w = lo := by
  rw [fld, Nat.pow_zero, Nat.div_one, Nat.add_mul_mod_self_left, Nat.mod_eq_of_lt hlo]
theorem fld_high_half {w lo hi : Nat} (hlo : lo < 2 ^ w) (hhi : hi < 2 ^ w) : fld (lo + 2 ^ w * hi) w w = hi := by
  rw [fld, Nat.add_mul_div_left _ _ (Nat.two_pow_pos w), Nat.div_eq_of_lt hlo, Nat.zero_add, Nat.mod_eq_of_lt hhi]
theorem fld_mul_two_pow (v k a w : Nat) : fld (v * 2 ^ k) (k + a) w = fld v a w := by
  rw [fld, fld, Nat.pow_add, ← Nat.div_div_eq_div_mul, Nat.mul_div_cancel _ (Nat.two_pow_pos k)]

/-- An 8-bit VPACK writes two bytes to the half of each lane it names. -/
theorem packed_bytes {o : VR} (st : Strand) (q : Nat → Nat) (i : Nat) (h3 : bitOf o.extN 3 = true) :
    packed o st q i < 2 ^ 32 ∧
    fld (packed o st q i) (16 * b2n (bitOf o.extN 4)) 8 = narrow8 (o.extN % 8) o.rm (q (2 * i)) (lane (st.getV o.a.toNat) i) ∧
    fld (packed o st q i) (16 * b2n (bitOf o.extN 4) + 8) 8 =
      narrow8 (o.extN % 8) o.rm (q (2 * i + 1)) (lane (st.getV o.b.toNat) i) := by
  have hlo := narrow8_lt (o.extN % 8) o.rm (q (2 * i)) (lane (st.getV o.a.toNat) i)
  have hhi := narrow8_lt (o.extN % 8) o.rm (q (2 * i + 1)) (lane (st.getV o.b.toNat) i)
  rw [packed, if_pos h3]
  generalize narrow8 _ _ (q (2 * i)) _ = lo at *
  generalize narrow8 _ _ (q (2 * i + 1)) _ = hi at *
  refine ⟨?_, ?_, ?_⟩
  · rw [b2n_eq_ite]
    split <;> omega
  · exact (fld_mul_two_pow _ _ 0 8).trans (fld_low_half hlo)
  · exact (fld_mul_two_pow _ _ 8 8).trans (fld_high_half hlo hhi)
/-- A 16-bit VPACK writes both halves of each lane. -/
theorem packed_halves {o : VR} (st : Strand) (q : Nat → Nat) (i : Nat) (h3 : ¬ bitOf o.extN 3 = true) (hty : o.ty ∈ [4, 5, 6]) :
    packed o st q i < 2 ^ 32 ∧
    fld (packed o st q i) 0 16 = narrow16 o.ty o.rm (q (2 * i)) (lane (st.getV o.a.toNat) i) ∧
    fld (packed o st q i) 16 16 = narrow16 o.ty o.rm (q (2 * i + 1)) (lane (st.getV o.b.toNat) i) := by
  have hlo := narrow16_lt hty o.rm (q (2 * i)) (lane (st.getV o.a.toNat) i)
  have hhi := narrow16_lt hty o.rm (q (2 * i + 1)) (lane (st.getV o.b.toNat) i)
  rw [packed, if_neg h3]
  generalize narrow16 _ _ (q (2 * i)) _ = lo at *
  generalize narrow16 _ _ (q (2 * i + 1)) _ = hi at *
  exact ⟨by omega, fld_low_half hlo, fld_high_half hlo hhi⟩

theorem vpack_ty {u : VUnit} {o : VR} (hw : WellFormed (.vpack u o) = true) (h3 : ¬ bitOf o.extN 3 = true) : o.ty ∈ [4, 5, 6] := by
  have hc := ty_mem_of_vr (check_of_wellFormed hw)
  rwa [vExt_eq_extN, if_neg h3] at hc

theorem vpack_issues {u : VUnit} {o : VR} {s : State} {n : Nat} (hw : WellFormed (.vpack u o) = true)
    (h : Issues s n o.rab [.v o.d.toNat] 1) :
    let st := s.strand n
    let q := randomAt s n u.slot
    let k := st.getK o.k.toNat
    let half := if bitOf o.extN 4 then 1 else 0
    ∃ r, (exec (.vpack u o) s = .next (s.issued n (bundleLen (.vpack u o))
        [vres st o.d 3 r k (if bitOf o.extN 3 then (if bitOf o.extN 4 then 12 else 3) else 15)])) ∧
      ∀ i < 64, k.getLsbD i = true →
        if bitOf o.extN 3 then
          fld (lane r i) (16 * half) 8 = narrow8 (o.extN % 8) o.rm (q (2 * i)) (lane (st.getV o.a.toNat) i) % 2 ^ 8 ∧
          fld (lane r i) (16 * half + 8) 8 = narrow8 (o.extN % 8) o.rm (q (2 * i + 1)) (lane (st.getV o.b.toNat) i) % 2 ^ 8
        else
          fld (lane r i) 0 16 = narrow16 o.ty o.rm (q (2 * i)) (lane (st.getV o.a.toNat) i) % 2 ^ 16 ∧
          fld (lane r i) 16 16 = narrow16 o.ty o.rm (q (2 * i + 1)) (lane (st.getV o.b.toNat) i) % 2 ^ 16 := by
  have hop : opOf (.vpack u o) (oneEnv (.vpack u o) s n (slotOfVUnit u)) = _ := opVpack_eq u o _
  refine ⟨_, exec_of_oneV h hw (by cases u <;> rfl) rfl hop fun r hr => ?_, fun i hi hact => ?_⟩
  · exact (List.mem_cons.1 hr).elim (fun hk => .inr (hk ▸ Reg.quiet_k _)) .inl
  · have hact' : ((oneEnv (.vpack u o) s n (slotOfVUnit u)).st.getK o.k.toNat).getLsbD i = true := hact
    rw [lane_ofNat_pack _ hi, if_pos hact', randomAt_oneEnv]
    by_cases h3 : bitOf o.extN 3 = true
    · obtain ⟨hlt, hlo, hhi⟩ := packed_bytes (s.strand n) (randomAt s n u.slot) i h3
      rw [if_pos h3, Nat.mod_eq_of_lt (narrow8_lt _ _ _ _), Nat.mod_eq_of_lt (narrow8_lt _ _ _ _)]
      exact ⟨(congrArg (fld · _ 8) (Nat.mod_eq_of_lt hlt)).trans hlo, (congrArg (fld · _ 8) (Nat.mod_eq_of_lt hlt)).trans hhi⟩
    · have hty := vpack_ty hw h3
      obtain ⟨hlt, hlo, hhi⟩ := packed_halves (s.strand n) (randomAt s n u.slot) i h3 hty
      rw [if_neg h3, Nat.mod_eq_of_lt (narrow16_lt hty _ _ _), Nat.mod_eq_of_lt (narrow16_lt hty _ _ _)]
      exact ⟨(congrArg (fld · _ 16) (Nat.mod_eq_of_lt hlt)).trans hlo, (congrArg (fld · _ 16) (Nat.mod_eq_of_lt hlt)).trans hhi⟩

/-! ## Quantisation (R153) -/

/-- The 64 values VQMX quantises. -/
def quantSource (o : VR) (st : Strand) (j : Nat) : Nat := if (st.getK o.k.toNat).getLsbD j then lane (st.getV o.a.toNat) j else 0

theorem opVqmx_eq (u : VUnit) (o : VR) (e : Env) :
    opVqmx u o e =
      { reads := [.k o.k.toNat, rv o.a], dests := [(rv o.d, 6), (rs o.c, 6)],
        results := [mkResult e (rv o.d) 6 ((quantBlock (o.extN % 16) (quantSource o e.st)).1 +
            (quantBlock (o.extN % 16) (fun j => quantSource o e.st (32 + j))).1 * 2 ^ (32 * efmtWidth (o.extN % 16))) allLanes,
          mkResult e (rs o.c) 6 ((quantBlock (o.extN % 16) (quantSource o e.st)).2.1 +
            (quantBlock (o.extN % 16) (fun j => quantSource o e.st (32 + j))).2.1 * 2 ^ 8 +
            (quantBlock (o.extN % 16) (quantSource o e.st)).2.2 * 2 ^ 16 +
            (quantBlock (o.extN % 16) (fun j => quantSource o e.st (32 + j))).2.2 * 2 ^ 24)] } := by
  rw [opVqmx, vExt_eq_extN, vC_eq_c]
  rfl

theorem vqmx_issues {u : VUnit} {o : VR} {s : State} {n : Nat} (hw : WellFormed (.vqmx u o) = true)
    (h : Issues s n [.v o.a.toNat] [.v o.d.toNat, .s o.c.toNat] 2) :
    let st := s.strand n
    let x (j : Nat) : Nat := if (st.getK o.k.toNat).getLsbD j then lane (st.getV o.a.toNat) j else 0
    let lo := quantBlock (o.extN % 16) x
    let hi := quantBlock (o.extN % 16) (fun j => x (32 + j))
    exec (.vqmx u o) s = .next (s.issued n (bundleLen (.vqmx u o))
      [vres st o.d 6 (BitVec.ofNat 2048 (lo.1 + hi.1 * 2 ^ (32 * efmtWidth (o.extN % 16)))) 0xFFFFFFFFFFFFFFFF,
       ⟨.s o.c.toNat, BitVec.ofNat 2048 (lo.2.1 + hi.2.1 * 2 ^ 8 + lo.2.2 * 2 ^ 16 + hi.2.2 * 2 ^ 24), 0, 15, 6, st.tl, 0, false⟩]) := by
  have hop : opOf (.vqmx u o) (oneEnv (.vqmx u o) s n (slotOfVUnit u)) = _ := opVqmx_eq u o _
  refine exec_of_plain h hw (by cases u <;> rfl) (sticky_slotOfVUnit u) rfl hop ⟨fun r hr => ?_, fun r hr => ?_, ?_, ?_, rfl, rfl, rfl⟩ rfl rfl rfl rfl
  · exact (List.mem_cons.1 hr).elim (fun hk => .inr (hk ▸ Reg.quiet_k _)) .inl
  · exact hr
  · exact List.length_filter_le _ _
  · simp [twice, rv, rs]

theorem vdqmx_elementwise : Elementwise .vdqmx (fun o => [.v o.a.toNat, .s o.c.toNat]) 4 (fun _ => 0) (fun o st q j =>
    let w := efmtWidth (o.extN % 16)
    let scale := fld (st.getS o.c.toNat).toNat (8 * (j / 32)) 8
    if scale = 0xFF then f32.nanCode
    else match elemVal (o.extN % 16) (fld (st.getV o.a.toNat).toNat (w * j) w) with
      | .num neg m e => (roundF f32 false o.rm (q j) neg m (e + scale - 127) false).1
      | v => (deliver f32 false o.rm (q j) v).1) := by
  refine elementwise_of_vmap (fun o => [.v o.a.toNat, .s o.c.toNat]) fun u o e _ => ?_
  change opVdqmx u o e = _
  rw [opVdqmx, vExt_eq_extN, vC_eq_c, vRm_eq_rm]
  rfl

/-! ## Operations across lanes (R156 to R163) -/

/-- The mode of VPERM (R156). -/
def permMode (o : VR) : Nat := if o.x.isSome then fld o.extN 6 2 else 0
/-- The lane VPERM takes its lane `i` from. -/
def permFrom (o : VR) (st : Strand) (i : Nat) : Nat :=
  match permMode o with
  | 0 => lane (st.getV o.b.toNat) i % 64
  | 1 => i ^^^ (o.extN % 64)
  | 2 => (i + o.extN % 64) % 64
  | _ => o.extN % 64

theorem vperm_everyElement : EveryElement .vperm (fun o => if o.x.isSome ∧ fld o.extN 6 2 ≠ 0 then o.ra else o.rab) 3 (fun _ => 0)
    (fun o st i => if (permMode o = 0 ∧ bitOf (lane (st.getV o.b.toNat) i) 7 = true) ∨ (st.getK o.k.toNat).getLsbD (permFrom o st i) = false
      then 0 else lane (st.getV o.a.toNat) (permFrom o st i)) := by
  refine everyElement_of_vall (fun o => if permMode o = 0 then [rv o.a, rv o.b] else [rv o.a])
    (fun o e i => if (permMode o = 0 && bitOf (lane (e.st.getV o.b.toNat) i) 7) || !(e.st.getK o.k.toNat).getLsbD (permFrom o e.st i)
      then 0 else lane (e.st.getV o.a.toNat) (permFrom o e.st i)) (fun u o e => ?_) (fun u o e _ i _ => ?_) fun o r hr => ?_
  · change opVperm u o e = _
    rw [opVperm, vExt_eq_extN]
    rfl
  · simp only [Bool.or_eq_true, Bool.and_eq_true, decide_eq_true_eq, Bool.not_eq_true']
  · refine .inl ?_
    by_cases hx : o.x.isSome = true <;> by_cases hm : fld o.extN 6 2 = 0 <;> simpa [permMode, hx, hm, VR.ra, VR.rab, rv] using hr

theorem vsum_everyElement : EveryElement .vsum VR.ra 6 VR.ty (fun o st _ => treeOver o.add (o.src st) o.levels 0) :=
  everyElement_of_vall VR.ra (fun o e _ => treeSum (addEl o) 6 (srcEls e o)) (fun _ _ _ => rfl)
    fun _ _ _ hw _ _ => treeSum_srcEls _ (ty_mem_of_vr (check_of_wellFormed hw))
theorem vscan_everyElement : EveryElement .vscan VR.ra 6 VR.ty (fun o st i =>
    if bitOf o.extN 0 then (if i = 0 then 0 else scanAfter o.add (o.src st) o.levels (i - 1))
    else scanAfter o.add (o.src st) o.levels i) := by
  refine everyElement_of_vall VR.ra (fun o e i => if bitOf o.extN 0 then
    (if i = 0 then 0 else (scanStages (addEl o) 6 1 (srcEls e o)).getD (i - 1) 0)
    else (scanStages (addEl o) 6 1 (srcEls e o)).getD i 0) (fun u o e => ?_) fun u o e hw i hi => ?_
  · change opVscan u o e = _
    rw [opVscan, vExt_eq_extN]
    rfl
  · have hty := ty_mem_of_vr (check_of_wellFormed hw)
    rw [scanStages_srcEls e hty hi, scanStages_srcEls e hty (by omega)]

theorem vsrch_scalar : VecToScalar .vsrch (fun o => [.v o.a.toNat, .s o.b.toNat]) 4 (fun o st =>
    BitVec.ofNat 64 (((o.active st).find? (fun j =>
      vcond o.ty (if bitOf o.extN 0 then 5 else 4) (o.el st o.a j) ((st.getS o.b.toNat).toNat % 2 ^ 32))).getD (tN o.ty))) := by
  refine vecToScalar_of_one (fun o => [.v o.a.toNat, .s o.b.toNat]) (fun o st => ((o.active st).find? (fun j =>
      vcond o.ty (if bitOf o.extN 0 then 5 else 4) (o.el st o.a j) ((st.getS o.b.toNat).toNat % 2 ^ 32))).getD (tN o.ty))
    (fun u o e => ?_) (fun o st => ?_) fun _ _ => rfl
  · change opVsrch u o e = _
    rw [opVsrch, vExt_eq_extN, firstIdx_zero_eq_find?, VR.active, List.find?_filter]
    simp only [Bool.decide_and, Bool.decide_eq_true]
    rfl
  · have htn := tN_lt o.ty
    cases hfind : (o.active st).find? _ with
    | none => exact lt_of_le_of_lt htn (by decide)
    | some j =>
      have := mem_active (List.mem_of_find?_eq_some hfind)
      rw [Option.getD_some]
      omega

theorem vrng_elementwise : Elementwise .vrng (fun _ => []) 4 (fun _ => 0) (fun o _ q i =>
    if o.ty = 2 then q i else (roundF f32 false 0 0 false (q i / 2 ^ 8) (-24) false).1) :=
  elementwise_of_vmap (fun _ => []) fun _ _ _ _ => rfl

theorem vacpt_everyElement : EveryElement .vacpt VR.rab 4 (fun _ => 0) (fun o st i =>
    let len := 2 ^ (o.extN % 8)
    let seg := (List.range len).map (fun j => i / len * len + j)
    (seg.takeWhile (fun j => (st.getK o.k.toNat).getLsbD j && o.el st o.a j == o.el st o.b j)).length) := by
  refine everyElement_of_vall VR.rab (fun o e i => acceptRun (fun j => (e.st.getK o.k.toNat).getLsbD j && o.el e.st o.a j == o.el e.st o.b j)
    (2 ^ (o.extN % 8)) (i / 2 ^ (o.extN % 8) * 2 ^ (o.extN % 8))) (fun u o e => ?_) fun u o e _ i _ => acceptRun_eq_length _ _ _
  change opVacpt u o e = _
  rw [opVacpt, vExt_eq_extN]
  rfl

/-- What VMAXR makes of the active elements (R160). -/
def maxOver (o : VR) (st : Strand) : Nat :=
  match o.active st with
  | [] => if o.ty = 1 then 2 ^ 31 else if o.ty = 2 then 0 else signOf (tF o.ty) true + (tF o.ty).infCode
  | i :: l =>
    if tIsF o.ty then
      l.foldl (fun x j => (fMinMax (tF o.ty) true (bitOf o.extN 0) x (o.el st o.a j)).1)
        (if (o.fel st o.a i).isNan then (tF o.ty).nanCode else o.el st o.a i)
    else l.foldl (fun x j => if intT o.ty x ≥ o.iel st o.a j then x else o.el st o.a j) (o.el st o.a i)

theorem opVmaxr_eq (u : VUnit) (o : VR) (e : Env) : opVmaxr u o e = vall e o [rv o.a] 6 o.ty (fun _ => maxOver o e.st) := by
  have hels : ((List.range (tN (vt o))).filter (actEl (vk e o) (vt o))).map (eA e o) = (o.active e.st).map (o.el e.st o.a) := rfl
  rw [opVmaxr, vExt_eq_extN]
  rw [hels, maxOver]
  cases o.active e.st with
  | nil => rfl
  | cons i l =>
    simp only [List.map_cons, List.foldl_map]
    rfl
theorem vmaxr_everyElement : EveryElement .vmaxr VR.ra 6 VR.ty (fun o st _ => maxOver o st) :=
  everyElement_of_vall VR.ra (fun o e _ => maxOver o e.st) opVmaxr_eq fun _ _ _ _ _ _ => rfl

/-! ## The clauses on blocks, conversions and packing -/

theorem quantBlock_laws {c : Nat} {x : Nat → Nat} (h2 : 2 ≤ c) (h9 : c ≤ 9) :
    let v (j : Nat) : FVal := decodeF f32 (x j)
    let r := quantBlock c x
    let w := efmtWidth c
    let shift : Int := (r.2.1 : Int) - 127
    ((∃ j < 32, (v j).finite = false) → r = (0, 0xFF, 0)) ∧
    ((∀ j < 32, (v j).finite = true) → r.2.1 ≤ 254 ∧ ((∀ j < 32, (v j).rat = 0) → shift = -127) ∧
      (∀ j < 32, (v j).rat ≠ 0 → (∀ i < 32, |(v i).rat| ≤ |(v j).rat|) → shift = max (Int.log 2 |(v j).rat| - efmtEmax c) (-127)) ∧
      ∀ j < 32,
        let code := fld r.1 (w * j) w
        let t := (v j).rat * 2 ^ (-shift)
        (∀ z < 2 ^ w, (elemVal c z).finite = true → |(elemVal c code).rat - t| ≤ |(elemVal c z).rat - t| ∧
          (|(elemVal c code).rat - t| = |(elemVal c z).rat - t| → (elemVal c code).rat = (elemVal c z).rat ∨ code % 2 = 0)) ∧
        |(elemVal c code).rat - t| < elemGap c) := by
  refine ⟨quantBlock_special, fun hfin => ?_⟩
  have hscale := quantBlock_scale (c := c) hfin
  refine ⟨quantBlock_scale_le hfin, fun h0 => ?_, fun j hj h0 hmax => ?_, fun j hj => ?_⟩
  · exact hscale.trans (quantShift_zero hfin h0)
  · exact hscale.trans (quantShift_of_greatest hj h0 hmax)
  · have hnear := quantBlock_elem h2 h9 hfin hj
    rw [← hscale] at hnear
    exact ⟨hnear.nearest, hnear.error⟩

theorem narrow_laws (rm q x : Nat) : narrow8 0 rm q x = (fCvt f32 e4m3 rm q x).1 ∧ narrow8 1 rm q x = (fCvt f32 e5m2 rm q x).1 ∧
    narrow8 2 rm q x = wrap 8 (max (-128) (min 127 (sext 32 x))) ∧ narrow8 3 rm q x = wrap 8 (max 0 (min 255 (sext 32 x))) ∧
    narrow16 6 rm q x = wrap 16 (max (-32768) (min 32767 (sext 32 x))) ∧ narrow16 4 rm q x = (fCvt f32 f16 rm q x).1 ∧
    narrow16 5 rm q x = (fCvt f32 bf16 rm q x).1 :=
  ⟨rfl, rfl, clampT_eq (w := 8) (signed := true) rfl (by decide) _, clampT_eq (w := 8) (signed := false) rfl (by decide) _,
    clampT_eq (w := 16) (signed := true) rfl (by decide) _, rfl, rfl⟩

section
variable {d s : Nat} (rm q x : Nat)

theorem cvtEl_float_float (hs : tIsF s = true) (hd : tIsF d = true) : cvtEl d s rm q x = (fCvt (tF s) (tF d) rm q x).1 := by
  rw [cvtEl, if_pos hs, if_pos hd]
theorem cvtEl_float_int (hs : tIsF s = true) (hd : tIsF d = false) : cvtEl d s rm q x = wrap (tW d) (fToInt rm q
    (if tSigned d then -(2 ^ (tW d - 1) : Nat) else 0) (if tSigned d then (2 ^ (tW d - 1) : Nat) - 1 else (2 ^ tW d : Nat) - 1)
    (decodeF (tF s) x)).1 := by
  rw [cvtEl, if_pos hs, if_neg (by simp [hd]), intRange]
  cases tSigned d <;> rfl
theorem cvtEl_int_float (hs : tIsF s = false) (hd : tIsF d = true) :
    cvtEl d s rm q x = (fOfInt (tF d) rm q (if tSigned s then sext (tW s) x else (x : Int))).1 := by
  rw [cvtEl, if_neg (by simp [hs]), if_pos hd, intT]

end

/-- Settles O9: the laws of each operation, of quantised blocks, and of the reductions. -/
theorem acrossLanes : Obligations.AcrossLanes := by
  refine ⟨⟨vcvt_elementwise, vcvt_to_f64, vcvt_from_f64, fun u o s n => vpack_issues, vunpack_elementwise,
    fun u o s n => vqmx_issues, vdqmx_elementwise⟩,
    ⟨fun c x h2 h9 => ?_, fun d s rm q x => cvtEl_float_float rm q x, fun d s rm q x => cvtEl_float_int rm q x,
      fun d s rm q x => cvtEl_int_float rm q x, narrow_laws⟩,
    vperm_everyElement, vsum_everyElement, vscan_everyElement, vmaxr_everyElement, ?_, vsrch_scalar, vrng_elementwise,
    vacpt_everyElement⟩
  · exact quantBlock_laws h2 h9
  · refine vecToScalar_of_one VR.ra argMax opVargmax_eq argMax_lt fun o st => ?_
    rw [argMax]
    cases o.active st <;> rfl

end Sys2Proof.Machine
end
section
/-! PROOFS. The rows a completed block writes (R170, R175, R176). -/

set_option Elab.async false

namespace Sys2Proof.Machine

/-! ## Writing consecutive rows -/

/-- Write one row of a tile from what it held, and note whether it raises a flag. -/
def tileStep (d : Nat) (v : Nat → Vec → Vec) (p : Nat → Bool → Bool) (f : Nat → Vec → Bool) (x : Nat) (acc : Core × Bool) : Core × Bool :=
  (acc.1.setRow (d + x) (v x (acc.1.row (d + x))) true (p x (acc.1.rowP (d + x))), acc.2 || f x (acc.1.row (d + x)))

section
variable (co : Core) {x y : Nat} (v : Vec) (p : Bool)

theorem row_setRow_same (hx : x < 1024) : (co.setRow x v true p).row x = v ∧ (co.setRow x v true p).rowP x = p := by
  rw [Core.row, Core.rowP, Core.setRow, Nat.mod_eq_of_lt hx]
  simp
theorem row_setRow_other (hx : x < 1024) (hy : y < 1024) (h : y ≠ x) :
    (co.setRow x v true p).row y = co.row y ∧ (co.setRow x v true p).rowP y = co.rowP y := by
  simp only [Core.row, Core.rowP, Core.setRow, Nat.mod_eq_of_lt hx, Nat.mod_eq_of_lt hy]
  exact ⟨look_put_other _ _ _ h, look_put_other _ _ _ h⟩

end

section
variable {d : Nat} {v : Nat → Vec → Vec} {p : Nat → Bool → Bool} {f : Nat → Vec → Bool}

/-- Rows written once each hold what their step makes of what they held, and the others what they held. -/
theorem loop_tileStep (co : Core) {n : Nat} (hd : d + n ≤ 1024) :
    (∀ x < n, (loop (tileStep d v p f) n 0 (co, false)).1.row (d + x) = v x (co.row (d + x)) ∧
      (loop (tileStep d v p f) n 0 (co, false)).1.rowP (d + x) = p x (co.rowP (d + x))) ∧
    (∀ y < 1024, y < d ∨ d + n ≤ y → (loop (tileStep d v p f) n 0 (co, false)).1.row y = co.row y ∧
      (loop (tileStep d v p f) n 0 (co, false)).1.rowP y = co.rowP y) ∧
    ((loop (tileStep d v p f) n 0 (co, false)).2 = true ↔ ∃ x < n, f x (co.row (d + x)) = true) := by
  rw [loop_zero_eq_foldl]
  induction n with
  | zero => exact ⟨fun x hx => absurd hx (Nat.not_lt_zero x), fun y _ _ => ⟨rfl, rfl⟩, by simp⟩
  | succ n ih =>
    obtain ⟨hin, hout, hflag⟩ := ih (by omega)
    rw [List.range_succ, List.foldl_append, List.foldl_cons, List.foldl_nil]
    generalize (List.range n).foldl _ _ = acc at hin hout hflag ⊢
    obtain ⟨hrow, hrowP⟩ := hout (d + n) (by omega) (.inr (Nat.le_refl _))
    rw [tileStep, hrow, hrowP]
    refine ⟨fun x hx => ?_, fun y hy hyd => ?_, ?_⟩
    · rcases Nat.lt_succ_iff_lt_or_eq.1 hx with hx' | rfl
      · have hother := row_setRow_other acc.1 (v n (co.row (d + n))) (p n (co.rowP (d + n))) (x := d + n) (y := d + x)
          (by omega) (by omega) (by omega)
        exact ⟨hother.1.trans (hin x hx').1, hother.2.trans (hin x hx').2⟩
      · exact row_setRow_same acc.1 _ _ (by omega)
    · have hother := row_setRow_other acc.1 (v n (co.row (d + n))) (p n (co.rowP (d + n))) (x := d + n) (y := y)
        (by omega) hy (by omega)
      have hkept := hout y hy (by omega)
      exact ⟨hother.1.trans hkept.1, hother.2.trans hkept.2⟩
    · rw [Bool.or_eq_true, hflag]
      exact Nat.exists_lt_succ_right.symm

end

/-! ## Shapes (R168) -/

/-- The words of an accumulator row a word of the class takes (R175). -/
def wordsOf (cls : Nat) : Nat := if cls = 6 then 2 else 1

section
variable {cls sh m n k : Nat}

theorem mmShape_dvd (h : mmShape cls sh = some (m, n, k)) : 64 ∣ n * wordsOf cls ∧ 32 ∣ m ∧ 32 ∣ n := by
  unfold mmShape at h
  split at h <;> cases h <;> decide

end

/-! ## Words of a block -/

/-- A word of a completed block from what the accumulator held, and whether it saturates (R122, R124, R125). -/
def blockWord (b : Block) (r : Routine) (k i j old : Nat) : Nat × Bool :=
  if mmClass b.ea = 1 then accI32 b k i j old
  else if mmClass b.ea = 5 then (accGang f32 b i j old, false)
  else if mmClass b.ea = 6 then (accGang f64 b i j old, false)
  else (accF32 b k (r.scale b.sca) (r.scale b.scb) i j old, false)
/-- Word `q` of row `x` of the tile. -/
def rowWord (b : Block) (r : Routine) (n k x : Nat) (row : Vec) (q : Nat) : Nat × Bool :=
  let wa := wordsOf (mmClass b.ea)
  let perRow := n * wa / 64
  blockWord b r k (x / perRow) (x % perRow * (64 / wa) + q) (fld row.toNat (32 * wa * q) (32 * wa))
/-- Row `x` of the tile. -/
def tileRow (b : Block) (r : Routine) (n k x : Nat) (row : Vec) : Vec :=
  BitVec.ofNat 2048 (pack (32 * wordsOf (mmClass b.ea)) (fun q => (rowWord b r n k x row q).1) (64 / wordsOf (mmClass b.ea)) 0)
/-- The poison of a row of the tile (R176). -/
def tilePoison (b : Block) (r : Routine) (m n : Nat) (rowP : Bool) : Bool :=
  (b.poison || (efmtScaled b.ea && r.scaleBad b.sca m) || (efmtScaled b.eb && r.scaleBad b.scb n)) || (!b.zero && rowP)
/-- A word of a row of the tile saturates. -/
def tileSat (b : Block) (r : Routine) (n k x : Nat) (row : Vec) : Bool :=
  mmClass b.ea = 1 && (firstIdx (fun q => (rowWord b r n k x row q).2) (64 / wordsOf (mmClass b.ea)) 0).isSome

section
variable {b : Block} {r : Routine} {co : Core} {m n k : Nat}

theorem completeBlock_eq_loop (h : mmShape (mmClass b.ea) b.shape = some (m, n, k)) :
    completeBlock b r co = loop (tileStep (b.d.toNat % 1024) (tileRow b r n k) (fun _ => tilePoison b r m n) (tileSat b r n k))
      (m * (n * wordsOf (mmClass b.ea) / 64)) 0 (co, false) := by
  rw [completeBlock, h]
  rfl

theorem tile_rows (h : mmShape (mmClass b.ea) b.shape = some (m, n, k)) :
    m * (n * wordsOf (mmClass b.ea) / 64) = m * n * wordsOf (mmClass b.ea) / 64 := by
  rw [Nat.mul_assoc, Nat.mul_div_assoc _ (mmShape_dvd h).1]

/-- What a completed block leaves in the accumulator. -/
theorem completeBlock_rows (h : mmShape (mmClass b.ea) b.shape = some (m, n, k))
    (hd : b.d.toNat % 1024 + m * n * wordsOf (mmClass b.ea) / 64 ≤ 1024) :
    (∀ x < m * n * wordsOf (mmClass b.ea) / 64,
      (completeBlock b r co).1.row (b.d.toNat % 1024 + x) = tileRow b r n k x (co.row (b.d.toNat % 1024 + x)) ∧
      (completeBlock b r co).1.rowP (b.d.toNat % 1024 + x) = tilePoison b r m n (co.rowP (b.d.toNat % 1024 + x))) ∧
    (∀ y < 1024, y < b.d.toNat % 1024 ∨ b.d.toNat % 1024 + m * n * wordsOf (mmClass b.ea) / 64 ≤ y →
      (completeBlock b r co).1.row y = co.row y ∧ (completeBlock b r co).1.rowP y = co.rowP y) ∧
    ((completeBlock b r co).2 = true ↔ ∃ x < m * n * wordsOf (mmClass b.ea) / 64,
      tileSat b r n k x (co.row (b.d.toNat % 1024 + x)) = true) := by
  rw [completeBlock_eq_loop h, tile_rows h]
  exact loop_tileStep co hd

end

/-! ## Positions of words in a tile of 32-bit words -/

section
variable {b : Block} {r : Routine} {co : Core} {m n k i j : Nat}

theorem rowWord_at (hcls : wordsOf (mmClass b.ea) = 1) (hn : 64 ∣ n) (hj : j < n) (row : Vec) :
    rowWord b r n k ((n * i + j) / 64) row (j % 64) = blockWord b r k i j (lane row (j % 64)) := by
  obtain ⟨p, rfl⟩ := hn
  have hx : (64 * p * i + j) / 64 = p * i + j / 64 := by
    rw [Nat.mul_assoc, Nat.mul_add_div (by decide)]
  have hp : j / 64 < p := Nat.div_lt_of_lt_mul hj
  have hdiv : (p * i + j / 64) / p = i := by
    rw [Nat.mul_add_div (by omega), Nat.div_eq_of_lt hp, Nat.add_zero]
  have hmod : (p * i + j / 64) % p = j / 64 := by
    rw [Nat.mul_add_mod, Nat.mod_eq_of_lt hp]
  have hcol : j / 64 * 64 + j % 64 = j := by omega
  rw [rowWord, hcls, hx]
  simp only [Nat.mul_one, Nat.mul_div_cancel_left p (by decide : 0 < 64), hdiv, hmod, Nat.div_one, hcol]
  rfl
theorem tile_row_lt (hi : i < m) (hj : j < n) (hn : 64 ∣ n) : (n * i + j) / 64 < m * n / 64 := by
  have hle : n * i + n ≤ n * m := by
    rw [← Nat.mul_succ]
    exact Nat.mul_le_mul_left _ hi
  have hdvd : 64 ∣ n * m := hn.mul_right m
  rw [Nat.mul_comm m]
  omega

/-- A word of a completed block of 32-bit words. -/
theorem completeBlock_word (h : mmShape (mmClass b.ea) b.shape = some (m, n, k)) (hcls : mmClass b.ea ≠ 6)
    (hd : b.d.toNat % 1024 + m * n / 64 ≤ 1024) (hi : i < m) (hj : j < n) :
    lane ((completeBlock b r co).1.row (b.d.toNat % 1024 + (n * i + j) / 64)) (j % 64) =
      (blockWord b r k i j (lane (co.row (b.d.toNat % 1024 + (n * i + j) / 64)) (j % 64))).1 % 2 ^ 32 := by
  have hwords : wordsOf (mmClass b.ea) = 1 := if_neg hcls
  have hn := (mmShape_dvd h).1
  obtain ⟨hrows, -, -⟩ := completeBlock_rows (r := r) (co := co) h (by rwa [hwords, Nat.mul_one])
  rw [hwords, Nat.mul_one] at hn hrows
  rw [(hrows _ (tile_row_lt hi hj hn)).1, tileRow, hwords]
  exact (lane_ofNat_pack _ (Nat.mod_lt _ (by decide))).trans (by rw [rowWord_at hwords hn hj])

/-- A row outside the tile keeps its words and its poison. -/
theorem completeBlock_other (h : mmShape (mmClass b.ea) b.shape = some (m, n, k)) (hcls : mmClass b.ea ≠ 6)
    (hd : b.d.toNat % 1024 + m * n / 64 ≤ 1024) {x : Nat} (hx : x < 1024)
    (hout : x < b.d.toNat % 1024 ∨ b.d.toNat % 1024 + m * n / 64 ≤ x) :
    (completeBlock b r co).1.row x = co.row x ∧ (completeBlock b r co).1.rowP x = co.rowP x := by
  have hwords : wordsOf (mmClass b.ea) = 1 := if_neg hcls
  obtain ⟨-, hother, -⟩ := completeBlock_rows (r := r) (co := co) h (by rwa [hwords, Nat.mul_one])
  rw [hwords, Nat.mul_one] at hother
  exact hother x hx hout

/-- A block of 32-bit words saturates where one of its words does. -/
theorem completeBlock_sat (h : mmShape (mmClass b.ea) b.shape = some (m, n, k)) (hcls : mmClass b.ea ≠ 6)
    (hd : b.d.toNat % 1024 + m * n / 64 ≤ 1024) :
    (completeBlock b r co).2 = true ↔ mmClass b.ea = 1 ∧ ∃ i < m, ∃ j < n,
      (blockWord b r k i j (lane (co.row (b.d.toNat % 1024 + (n * i + j) / 64)) (j % 64))).2 = true := by
  have hwords : wordsOf (mmClass b.ea) = 1 := if_neg hcls
  have hn := (mmShape_dvd h).1
  obtain ⟨-, -, hsat⟩ := completeBlock_rows (r := r) (co := co) h (by rwa [hwords, Nat.mul_one])
  rw [hwords, Nat.mul_one] at hn hsat
  have htile (x : Nat) (row : Vec) : tileSat b r n k x row = true ↔
      mmClass b.ea = 1 ∧ ∃ q < 64, (rowWord b r n k x row q).2 = true := by
    rw [tileSat, hwords, Bool.and_eq_true, decide_eq_true_eq, firstIdx_isSome_iff]
    simp only [Nat.zero_add]
  simp only [hsat, htile]
  constructor
  · rintro ⟨x, hx, ha, q, hq, hbit⟩
    have hpos : 0 < n / 64 := Nat.pos_of_ne_zero fun h0 => by simp [Nat.eq_zero_of_dvd_of_div_eq_zero hn h0] at hx
    have hj : x % (n / 64) * 64 + q < n := by
      have := Nat.mod_lt x hpos
      omega
    have hi : x / (n / 64) < m := by
      refine (Nat.div_lt_iff_lt_mul hpos).2 ?_
      rwa [Nat.mul_div_assoc _ hn] at hx
    have hcol : (x % (n / 64) * 64 + q) % 64 = q := by omega
    have hrow : (n * (x / (n / 64)) + (x % (n / 64) * 64 + q)) / 64 = x := by
      have hdm := Nat.div_add_mod x (n / 64)
      have hprod : n * (x / (n / 64)) = 64 * (n / 64 * (x / (n / 64))) := by
        rw [← Nat.mul_assoc, Nat.mul_div_cancel' hn]
      omega
    have hword := rowWord_at (r := r) (k := k) (i := x / (n / 64)) hwords hn hj (co.row (b.d.toNat % 1024 + x))
    rw [hrow, hcol] at hword
    exact ⟨ha, _, hi, _, hj, by rwa [hrow, hcol, ← hword]⟩
  · rintro ⟨ha, i, hi, j, hj, hbit⟩
    exact ⟨_, tile_row_lt hi hj hn, ha, j % 64, Nat.mod_lt _ (by decide), by rwa [rowWord_at hwords hn hj]⟩

end

end Sys2Proof.Machine
end
section
/-! PROOFS. Completed blocks of the integer and ganged classes, and the poison of their rows (R124, R125, R176). -/

set_option Elab.async false

namespace Sys2Proof.Machine

/-! ## Integer blocks (R125) -/

/-- The integer of a value, by its sign and significand. -/
def FVal.signed : FVal → Int
  | .num n m _ => if n then -m else m
  | _ => 0
/-- An element of an integer format. -/
def intOf (c x : Nat) : Int := if c = 0xC then sext 8 x else (x : Int)

theorem mmClass_int {c : Nat} (h : mmClass c = 1) : c = 0xC ∨ c = 0xD := by
  by_contra hc
  rw [not_or] at hc
  obtain ⟨h12, h13⟩ := hc
  rw [mmClass] at h
  split_ifs at h <;> simp [h12, h13] at *

theorem signed_intElem (v e : Int) : (FVal.num (decide (v < 0)) v.natAbs e).signed = v := by
  simp only [FVal.signed, decide_eq_true_eq]
  split <;> omega
theorem elemVal_int {c x : Nat} (h : mmClass c = 1) (hx : x < 2 ^ 8) :
    ∃ n m, elemVal c x = .num n m 0 ∧ (if n then -(m : Int) else m) = intOf c x := by
  rcases mmClass_int h with rfl | rfl
  · exact ⟨_, _, rfl, signed_intElem (sext 8 x) 0⟩
  · exact ⟨false, x % 256, rfl, congrArg Nat.cast (Nat.mod_eq_of_lt hx)⟩
theorem signed_mmProd {ea eb x y : Nat} (ha : mmClass ea = 1) (hb : mmClass eb = 1) (hx : x < 2 ^ 8) (hy : y < 2 ^ 8) :
    (mmProd ea eb x y).signed = intOf ea x * intOf eb y := by
  obtain ⟨n1, m1, hA, h1⟩ := elemVal_int ha hx
  obtain ⟨n2, m2, hB, h2⟩ := elemVal_int hb hy
  rw [mmProd, hA, hB, ← h1, ← h2]
  cases n1 <;> cases n2 <;> simp [mulF, FVal.signed]

/-- A product added into an integer sum. -/
def addSigned (a : Int) (p : FVal) : Int :=
  match p with
  | .num n m _ => if n then a - (m : Int) else a + (m : Int)
  | _ => a
theorem addSigned_eq (a : Int) (p : FVal) : addSigned a p = a + p.signed := by
  cases p with
  | num n m e => cases n <;> simp [addSigned, FVal.signed, Int.sub_eq_add_neg]
  | nan s => exact (Int.add_zero a).symm
  | inf n => exact (Int.add_zero a).symm
/-- Adding up one by one is the sum. -/
theorem foldl_eq_sum {α : Type} {f : Int → α → Int} {g : α → Int} (h : ∀ a x, f a x = a + g x) (l : List α) (a : Int) :
    l.foldl f a = a + (l.map g).sum := by
  induction l generalizing a with
  | nil => simp
  | cons x l ih => rw [List.foldl_cons, ih, List.map_cons, List.sum_cons, ← Int.add_assoc, h]

/-- The exact sum of the integer products of a position. -/
def intSum (b : Block) (k i j : Nat) : Int :=
  (b.steps.flatMap (fun st => (List.range k).map (fun q =>
    intOf b.ea (fld st.1 (8 * (i * k + q)) 8) * intOf b.eb (fld st.2 (8 * (j * k + q)) 8)))).sum

section
variable {b : Block} {k : Nat} (ha : mmClass b.ea = 1) (hb : mmClass b.eb = 1)
include ha hb

theorem sum_signed_blockProds (i j : Nat) : ((blockProds b k i j).map FVal.signed).sum = intSum b k i j := by
  have hw : ∀ {c}, mmClass c = 1 → efmtWidth c = 8 := fun h => by rcases mmClass_int h with rfl | rfl <;> rfl
  rw [blockProds, hw ha, hw hb, List.map_flatMap, intSum]
  congr 2
  funext st
  rw [List.map_map]
  exact List.map_congr_left fun q _ => signed_mmProd ha hb (fld_lt _ _ 8) (fld_lt _ _ 8)

theorem accI32_eq (i j old : Nat) :
    let v : Int := (if b.zero then 0 else sext 32 old) + intSum b k i j
    (accI32 b k i j old).1 = (if b.satm then clampT 32 true v else wrap 32 v) ∧
    ((accI32 b k i j old).2 = true ↔ b.satm = true ∧ (v < -(2 ^ 31) ∨ 2 ^ 31 ≤ v)) := by
  have hsum := (foldl_eq_sum addSigned_eq (blockProds b k i j) 0).trans (Int.zero_add _)
  rw [sum_signed_blockProds ha hb] at hsum
  have hacc : accI32 b k i j old = if b.satm then
      (clampT 32 true ((if b.zero then 0 else sext 32 old) + (blockProds b k i j).foldl addSigned 0),
        decide ((if b.zero then 0 else sext 32 old) + (blockProds b k i j).foldl addSigned 0 > (2 ^ 31 : Nat) - 1) ||
          decide ((if b.zero then 0 else sext 32 old) + (blockProds b k i j).foldl addSigned 0 < -(2 ^ 31 : Nat)))
    else (wrap 32 ((if b.zero then 0 else sext 32 old) + (blockProds b k i j).foldl addSigned 0), false) := rfl
  rw [hacc, hsum]
  generalize (if b.zero then 0 else sext 32 old) + intSum b k i j = v
  cases b.satm
  · simp
  · simp
    omega

/-- Completing an integer block (R125). -/
theorem completeBlock_int {m n : Nat} (r : Routine) (co : Core) (h : mmShape 1 b.shape = some (m, n, k))
    (hd : b.d.toNat % 1024 + m * n / 64 ≤ 1024) :
    (∀ i < m, ∀ j < n,
      let old : Int := if b.zero then 0 else sext 32 (lane (co.row (b.d.toNat % 1024 + (n * i + j) / 64)) (j % 64))
      lane ((completeBlock b r co).1.row (b.d.toNat % 1024 + (n * i + j) / 64)) (j % 64) =
        if b.satm then clampT 32 true (old + intSum b k i j) else wrap 32 (old + intSum b k i j)) ∧
    ((completeBlock b r co).2 = true ↔ b.satm = true ∧ ∃ i < m, ∃ j < n,
      let v : Int := (if b.zero then 0 else sext 32 (lane (co.row (b.d.toNat % 1024 + (n * i + j) / 64)) (j % 64))) + intSum b k i j
      v < -(2 ^ 31) ∨ 2 ^ 31 ≤ v) ∧
    (∀ x < 1024, x < b.d.toNat % 1024 ∨ b.d.toNat % 1024 + m * n / 64 ≤ x → (completeBlock b r co).1.row x = co.row x) := by
  rw [← ha] at h
  have hcls : mmClass b.ea ≠ 6 := by rw [ha]; decide
  have hword (i j old : Nat) : blockWord b r k i j old = accI32 b k i j old := if_pos ha
  refine ⟨fun i hi j hj => ?_, ?_, fun x hx hout => ?_⟩
  · rw [completeBlock_word h hcls hd hi hj, hword, (accI32_eq ha hb i j _).1]
    refine Nat.mod_eq_of_lt ?_
    split
    · exact clampT_lt 32 true _
    · exact wrap_lt 32 _
  · rw [completeBlock_sat h hcls hd, and_iff_right ha]
    simp only [hword, (accI32_eq ha hb _ _ _).2]
    exact ⟨fun ⟨i, hi, j, hj, hs, hv⟩ => ⟨hs, i, hi, j, hj, hv⟩, fun ⟨hs, i, hi, j, hj, hv⟩ => ⟨i, hi, j, hj, hs, hv⟩⟩
  · exact (completeBlock_other h hcls hd hx hout).1

end

/-! ## Ganged blocks (R124) -/

theorem accGang_of_steps (f : FFmt) {b : Block} {st : Nat × Nat} (hst : b.steps = [st]) (i j old : Nat) :
    accGang f b i j old = (fFma f 0 0 false (decodeF f (fld st.1 (f.width * i) f.width)) (decodeF f (fld st.2 (f.width * j) f.width))
      (decodeF f (if b.zero then 0 else old))).1 := by
  rw [accGang, hst]

theorem completeBlock_gang32 {b : Block} (r : Routine) (co : Core) {st : Nat × Nat} (ha : mmClass b.ea = 5) (hsh : b.shape = 0)
    (hst : b.steps = [st]) (hd : b.d.toNat % 1024 + 128 ≤ 1024) {i j : Nat} (hi : i < 128) (hj : j < 64) :
    lane ((completeBlock b r co).1.row (b.d.toNat % 1024 + i)) j = (fFma f32 0 0 false (decodeF f32 (fld st.1 (32 * i) 32))
      (decodeF f32 (fld st.2 (32 * j) 32))
      (decodeF f32 (if b.zero then 0 else lane (co.row (b.d.toNat % 1024 + i)) j))).1 := by
  have h : mmShape (mmClass b.ea) b.shape = some (128, 64, 1) := by rw [ha, hsh]; rfl
  have hword := completeBlock_word (r := r) (co := co) h (by rw [ha]; decide) hd hi hj
  have hrow : (64 * i + j) / 64 = i := by omega
  rw [hrow, Nat.mod_eq_of_lt hj] at hword
  have hblock (old : Nat) : blockWord b r 1 i j old = (accGang f32 b i j old, false) := by
    rw [blockWord, ha]
    rfl
  rw [hword, hblock, accGang_of_steps f32 hst]
  exact Nat.mod_eq_of_lt (fFma_lt (by simp [floatFormats]) _ _ _ _ _ _)

theorem completeBlock_gang64 {b : Block} (r : Routine) (co : Core) {st : Nat × Nat} (ha : mmClass b.ea = 6) (hsh : b.shape = 0)
    (hst : b.steps = [st]) (hd : b.d.toNat % 1024 + 64 ≤ 1024) {i j : Nat} (hi : i < 64) (hj : j < 32) :
    fld ((completeBlock b r co).1.row (b.d.toNat % 1024 + i)).toNat (64 * j) 64 = (fFma f64 0 0 false (decodeF f64 (fld st.1 (64 * i) 64))
      (decodeF f64 (fld st.2 (64 * j) 64))
      (decodeF f64 (if b.zero then 0 else fld (co.row (b.d.toNat % 1024 + i)).toNat (64 * j) 64))).1 := by
  have h : mmShape (mmClass b.ea) b.shape = some (64, 32, 1) := by rw [ha, hsh]; rfl
  obtain ⟨hrows, -, -⟩ := completeBlock_rows (r := r) (co := co) h (by rw [ha]; exact hd)
  have hblock (q old : Nat) : blockWord b r 1 i q old = (accGang f64 b i q old, false) := by
    rw [blockWord, ha]
    rfl
  have hword : rowWord b r 32 1 i (co.row (b.d.toNat % 1024 + i)) j =
      (accGang f64 b i j (fld (co.row (b.d.toNat % 1024 + i)).toNat (64 * j) 64), false) := by
    rw [← hblock, rowWord, ha]
    simp [wordsOf, Nat.mod_one]
  have htile : tileRow b r 32 1 i (co.row (b.d.toNat % 1024 + i)) =
      BitVec.ofNat 2048 (pack (tW 3) (fun q => (rowWord b r 32 1 i (co.row (b.d.toNat % 1024 + i)) q).1) (tN 3) 0) := by
    rw [tileRow, ha]
    rfl
  have hpack := elem_ofNat_pack (t := 3) (fun q => (rowWord b r 32 1 i (co.row (b.d.toNat % 1024 + i)) q).1) hj
  rw [← htile, hword, accGang_of_steps f64 hst] at hpack
  rw [(hrows i (by rw [ha]; exact hi)).1]
  exact hpack.trans (Nat.mod_eq_of_lt (fFma_lt (by simp [floatFormats]) _ _ _ _ _ _))

/-! ## Poison (R176) -/

theorem scaleBad_eq (r : Routine) (reg : Nat) {bytes : Nat} (h : 32 ∣ bytes) :
    r.scaleBad reg bytes = decide ((look 0 r.scP reg).toNat % 2 ^ (bytes / 32) ≠ 0) := by
  have hunits : (bytes + 31) / 32 = bytes / 32 := by omega
  rw [Routine.scaleBad, hunits, fld, Nat.pow_zero, Nat.div_one]

end Sys2Proof.Machine
end
section
/-! PROOFS. Completed blocks of the floating-point classes, and O32 (R122, R123). -/

set_option Elab.async false

namespace Sys2Proof.Machine

/-! ## Products of elements (R117, R122) -/

/-- A value that is infinite. -/
def FVal.infinite (x : FVal) : Bool := !x.finite && !x.isNan
/-- A product that is no number: of a NaN, or of an infinity and a zero. -/
def NanPair (p : FVal × FVal) : Prop :=
  p.1.isNan = true ∨ p.2.isNan = true ∨ (p.1.infinite = true ∧ p.2.isZero = true) ∨ (p.1.isZero = true ∧ p.2.infinite = true)
/-- A product that has an infinite factor, of a sign. -/
def InfPair (neg : Bool) (p : FVal × FVal) : Prop := (p.1.infinite || p.2.infinite) = true ∧ (p.1.neg != p.2.neg) = neg

theorem mulF_isNan (p : FVal × FVal) : (mulF p.1 p.2).1.isNan = true ↔ NanPair p := by
  obtain ⟨a, b⟩ := p
  rw [NanPair]
  cases a with
  | nan s => cases b <;> simp [mulF, FVal.isNan]
  | inf n =>
    cases b with
    | nan s => simp [mulF, FVal.isNan]
    | inf n' => simp [mulF, FVal.isNan, FVal.isZero]
    | num n' m e => by_cases hm : m = 0 <;> simp [mulF, FVal.isNan, FVal.infinite, FVal.finite, FVal.isZero, hm]
  | num n m e =>
    cases b with
    | nan s => simp [mulF, FVal.isNan]
    | inf n' => by_cases hm : m = 0 <;> simp [mulF, FVal.isNan, FVal.infinite, FVal.finite, FVal.isZero, hm]
    | num n' m' e' => simp [mulF, FVal.isNan, FVal.infinite, FVal.finite]
theorem mulF_eq_inf {p : FVal × FVal} (h : ¬ NanPair p) (neg : Bool) : (mulF p.1 p.2).1 = .inf neg ↔ InfPair neg p := by
  obtain ⟨a, b⟩ := p
  rw [← mulF_isNan] at h
  rw [InfPair]
  cases a with
  | nan s => cases b <;> simp [mulF, FVal.isNan] at h
  | inf n =>
    cases b with
    | nan s => simp [mulF, FVal.isNan] at h
    | inf n' => simp [mulF, FVal.isZero, FVal.infinite, FVal.finite, FVal.isNan, FVal.neg]
    | num n' m e =>
      by_cases hm : m = 0 <;> simp [mulF, FVal.isNan, FVal.infinite, FVal.finite, FVal.isZero, FVal.neg, hm] at h ⊢
  | num n m e =>
    cases b with
    | nan s => simp [mulF, FVal.isNan] at h
    | inf n' => by_cases hm : m = 0 <;> simp [mulF, FVal.isNan, FVal.infinite, FVal.finite, FVal.isZero, FVal.neg, hm] at h ⊢
    | num n' m' e' => simp [mulF, FVal.isNan, FVal.infinite, FVal.finite]

/-- The pairs of elements of a position. -/
def blockPairs (b : Block) (k i j : Nat) : List (FVal × FVal) :=
  b.steps.flatMap (fun st => (List.range k).map (fun q =>
    (elemVal b.ea (fld st.1 (efmtWidth b.ea * (i * k + q)) (efmtWidth b.ea)),
      elemVal b.eb (fld st.2 (efmtWidth b.eb * (j * k + q)) (efmtWidth b.eb)))))
theorem blockProds_eq_map (b : Block) (k i j : Nat) : blockProds b k i j = (blockPairs b k i j).map (fun p => (mulF p.1 p.2).1) := by
  rw [blockProds, blockPairs, List.map_flatMap]
  simp only [List.map_map]
  rfl

/-! ## The truncated sum (R122) -/

/-- A magnitude is cut toward zero. -/
theorem cutAt_fst (m : Nat) (e g : Int) : ((cutAt m e g).1 : Int) = ⌊(m * 2 ^ e : ℚ) / 2 ^ g⌋ := by
  obtain ⟨Y, hp⟩ := cutAt_parts (denotes_exact m e) g nofun
  have hlow := hp.cut_le
  have hhigh := hp.lt_cut
  have hpos := two_zpow_pos g
  refine (Int.floor_eq_iff.2 ⟨?_, ?_⟩).symm
  · rw [le_div_iff₀ hpos]
    exact (Rat.cast_le (K := ℝ)).1 (by push_cast at hlow ⊢; exact hlow)
  · rw [div_lt_iff₀ hpos]
    exact (Rat.cast_lt (K := ℝ)).1 (by push_cast at hhigh ⊢; exact hhigh)

/-- A product cut toward zero at a place, in units of it. -/
def FVal.cut (g : Int) : FVal → Int
  | .num n m e => if n then -((cutAt m e g).1 : Int) else (cutAt m e g).1
  | _ => 0
theorem FVal.cut_eq {p : FVal} (h : p.finite = true) (g : Int) :
    (p.cut g : ℚ) = (if p.rat < 0 then -1 else 1) * (⌊|p.rat| / 2 ^ g⌋ : ℚ) := by
  obtain ⟨n, m, e, rfl⟩ := FVal.exists_num h
  rw [FVal.abs_rat_num, ← cutAt_fst, FVal.cut]
  simp only [FVal.rat_num_neg]
  cases n
  · simp
  · rcases Nat.eq_zero_or_pos m with rfl | hm
    · rw [cutAt_fst]
      simp
    · simp [hm.ne']

/-- The sum of products cut toward zero, in units of the place. -/
def cutSum (g : Int) (ps : List FVal) : Int := (ps.map (FVal.cut g)).sum
/-- A product cut and added into the sum. -/
def addCut (g : Int) (acc : Int) (p : FVal) : Int :=
  match p with
  | .num n m e => let c : Int := ((cutAt m e g).1 : Nat); if n then acc - c else acc + c
  | _ => acc
theorem addCut_eq (g acc : Int) (p : FVal) : addCut g acc p = acc + p.cut g := by
  cases p with
  | num n m e => cases n <;> simp [addCut, FVal.cut, Int.sub_eq_add_neg]
  | nan s => exact (Int.add_zero acc).symm
  | inf n => exact (Int.add_zero acc).symm

theorem cutSum_eq {ps : List FVal} (h : ∀ p ∈ ps, p.finite = true) (g : Int) :
    (cutSum g ps : ℚ) * 2 ^ g = (ps.map (fun p => (if p.rat < 0 then -1 else 1) * (⌊|p.rat| / 2 ^ g⌋ : ℚ) * 2 ^ g)).sum := by
  induction ps with
  | nil => simp [cutSum]
  | cons p ps ih =>
    have htail := ih fun x hx => h x (List.mem_cons_of_mem p hx)
    rw [cutSum] at htail ⊢
    rw [List.map_cons, List.sum_cons, Int.cast_add, add_mul, htail, List.map_cons, List.sum_cons,
      FVal.cut_eq (h p List.mem_cons_self) g]

/-! ## The value of a block (R122, R123) -/

/-- The truncated sum of a block whose greatest product has exponent `t`. -/
def truncated (ps : List FVal) (x t : Int) : FVal := .num (decide (cutSum (t - 30) ps < 0)) (cutSum (t - 30) ps).natAbs (t - 30 + x)

/-- The greatest exponent so far, with that of a product. -/
def topTake (acc : Option Int) (p : FVal) : Option Int :=
  match p with
  | .num _ m e => if m = 0 then acc else
      let l : Int := (ilog2 m : Int) + e
      match acc with | none => some l | some t => some (if l > t then l else t)
  | _ => acc
theorem topTake_eq : topTake = topStep := by
  funext acc p
  cases p with
  | num n m e =>
    rw [topStep, FVal.log, topTake]
    split
    · rfl
    · cases acc <;> rfl
  | nan s => rfl
  | inf n => rfl

section
variable {ps : List FVal} {x : Int}

/-- The value of a block, by the sums of its products. -/
theorem blockValue_eq (nanScale : Bool) : blockValue ps nanScale x =
    if nanScale || ps.any FVal.isNan then some (.nan false)
    else if ps.any (fun p => decide (p = .inf false)) && ps.any (fun p => decide (p = .inf true)) then some (.nan false)
    else if ps.any (fun p => decide (p = .inf false)) then some (.inf false)
    else if ps.any (fun p => decide (p = .inf true)) then some (.inf true)
    else (ps.foldl topStep none).map (truncated ps x) := by
  have hsum (g : Int) : cutSum g ps = ps.foldl (addCut g) 0 := ((foldl_eq_sum (addCut_eq g) ps 0).trans (Int.zero_add _)).symm
  have htrunc : truncated ps x = fun t => .num (decide (ps.foldl (addCut (t - 30)) 0 < 0))
      (ps.foldl (addCut (t - 30)) 0).natAbs (t - 30 + x) := funext fun t => by rw [truncated, hsum]
  rw [htrunc, ← topTake_eq]
  unfold blockValue
  dsimp only
  congr 4
  generalize hfold : List.foldl _ none ps = top
  have htop : ps.foldl topTake none = top := hfold
  rw [htop]
  cases top <;> rfl

theorem blockValue_nan {nanScale : Bool} (h : nanScale = true ∨ ∃ p ∈ ps, p.isNan = true) :
    blockValue ps nanScale x = some (.nan false) := by
  rw [blockValue_eq, if_pos (by simpa using h)]
theorem any_eq_inf (n : Bool) : ps.any (fun p => decide (p = .inf n)) = decide (.inf n ∈ ps) := by simp [List.any_eq]
theorem blockValue_infs (h0 : .inf false ∈ ps) (h1 : .inf true ∈ ps) : blockValue ps false x = some (.nan false) := by
  rw [blockValue_eq, any_eq_inf, any_eq_inf]
  simp [h0, h1]
theorem blockValue_inf (hnan : ∀ p ∈ ps, ¬ p.isNan = true) {neg : Bool} (h : .inf neg ∈ ps) (hother : .inf (!neg) ∉ ps) :
    blockValue ps false x = some (.inf neg) := by
  rw [blockValue_eq, any_eq_inf, any_eq_inf, if_neg (by simpa using hnan)]
  cases neg <;> simp_all
theorem blockValue_finite (h : ∀ p ∈ ps, p.finite = true) :
    blockValue ps false x = (ps.foldl topStep none).map (truncated ps x) := by
  have hnan : ∀ p ∈ ps, ¬ p.isNan = true := fun p hp => by
    obtain ⟨n, m, e, rfl⟩ := FVal.exists_num (h p hp)
    simp [FVal.isNan]
  have hinf (n : Bool) : .inf n ∉ ps := fun hmem => by simpa [FVal.finite] using h _ hmem
  rw [blockValue_eq, any_eq_inf, any_eq_inf, if_neg (by simpa using hnan)]
  simp [hinf]

/-- The greatest exponent of finite values is the fold's. -/
theorem foldl_topStep_of_greatest {top : Int} (hex : ∃ p ∈ ps, p.rat ≠ 0 ∧ Int.log 2 |p.rat| = top)
    (hle : ∀ p ∈ ps, p.rat ≠ 0 → Int.log 2 |p.rat| ≤ top) : ps.foldl topStep none = some top := by
  obtain ⟨p, hp, hlog⟩ := hex
  have hlog := FVal.log_eq_some.2 hlog
  cases hfold : ps.foldl topStep none with
  | none =>
    rw [foldl_topStep_none hfold p hp] at hlog
    cases hlog
  | some t =>
    obtain ⟨⟨p', hp', hlog'⟩, hmax⟩ := foldl_topStep_some hfold
    obtain ⟨h0, ht⟩ := FVal.log_eq_some.1 hlog'
    have h1 := hle p' hp' h0
    have h2 := hmax p hp top hlog
    exact congrArg some (by omega)
theorem foldl_topStep_of_zero (h : ∀ p ∈ ps, p.finite = true ∧ p.rat = 0) : ps.foldl topStep none = none := by
  cases hfold : ps.foldl topStep none with
  | none => rfl
  | some t =>
    obtain ⟨⟨p, hp, hlog⟩, -⟩ := foldl_topStep_some hfold
    rw [(FVal.log_eq_none (h p hp).1).2 (h p hp).2] at hlog
    cases hlog

theorem truncated_rat (h : ∀ p ∈ ps, p.finite = true) (t : Int) :
    (truncated ps x t).rat =
      (ps.map (fun p => (if p.rat < 0 then -1 else 1) * (⌊|p.rat| / 2 ^ (t - 30)⌋ : ℚ) * 2 ^ (t - 30))).sum * 2 ^ x := by
  rw [← cutSum_eq h, truncated, FVal.rat_num_sgn, ← mul_assoc, ← signed_natAbs, zpow_add₀ (by norm_num), mul_assoc]

end

/-! ## Words of the accumulator (R122, R123, R170) -/

/-- The scale byte of a row of a side; that of 1 where the format is not scaled. -/
def scaleByte (c : Nat) (sc : BitVec 2048) (i : Nat) : Nat := if efmtScaled c then fld sc.toNat (8 * i) 8 else 127
theorem sideScale_eq (c : Nat) (sc : BitVec 2048) (i : Nat) :
    sideScale c sc i = ((scaleByte c sc i : Int) - 127, decide (scaleByte c sc i = 0xFF)) := by
  rw [sideScale, scaleByte]
  split <;> rfl

/-- The accumulator's word after the value of a block. -/
def accWord (acc : Nat) (v : Option FVal) : Nat := v.elim acc fun v => (deliver f32 false 0 0 (addF 0 (decodeF f32 acc) v).1).1

section
variable {acc : Nat}

theorem accWord_lt (h : acc < 2 ^ 32) (v : Option FVal) : accWord acc v < 2 ^ 32 := by
  cases v with
  | none => exact h
  | some v => exact deliver_lt (by simp [floatFormats]) false 0 0 _
theorem accWord_nan (s : Bool) : accWord acc (some (.nan s)) = f32.nanCode := by
  rw [accWord, Option.elim_some]
  cases decodeF f32 acc <;> rfl
theorem accWord_inf (neg : Bool) : accWord acc (some (.inf neg)) =
    if (decodeF f32 acc).isNan = true ∨ decodeF f32 acc = .inf (!neg) then f32.nanCode else signOf f32 neg + f32.infCode := by
  rw [accWord, Option.elim_some]
  have hkind : f32.kind ≠ 1 := by decide
  cases decodeF f32 acc with
  | nan s => simp [addF, deliver, FVal.isNan]
  | inf n => cases n <;> cases neg <;> simp [addF, deliver, FVal.isNan, hkind]
  | num n m e => simp [addF, deliver, FVal.isNan, hkind]

/-- The encoding of an infinity. -/
theorem decodeF_eq_inf {n : Bool} (hlt : acc < 2 ^ 32) (h : decodeF f32 acc = .inf n) : acc = signOf f32 n + f32.infCode := by
  have hparts : acc = signOf f32 (bitOf acc 31) + fld acc 23 8 * 2 ^ 23 + fld acc 0 23 := by
    simp only [signOf, bitOf, fld, f32, decide_eq_true_eq]
    split <;> omega
  have hcode : bitOf acc 31 = n ∧ fld acc 23 8 = 255 ∧ fld acc 0 23 = 0 := by
    unfold decodeF at h
    dsimp only at h
    split at h
    · next htop =>
      split at h
      · next hfr =>
        cases h
        exact ⟨rfl, of_decide_eq_true (Bool.and_eq_true_iff.1 htop).2, hfr⟩
      · cases h
    · rw [if_neg (by simp [f32]), if_neg (by simp [f32])] at h
      split at h <;> cases h
  obtain ⟨hn, hex, hfr⟩ := hcode
  rw [hparts, hn, hex, hfr]
  rfl

theorem accWord_num {neg : Bool} {m : Nat} {e : Int} {t : ℚ} (hlt : acc < 2 ^ 32)
    (ht : (decodeF f32 acc).rat + (FVal.num neg m e).rat = t) :
    let new := accWord acc (some (.num neg m e))
    let a := decodeF f32 acc
    (a.finite = true → t ≠ 0 → ∃ fl, RoundsTo f32 false 0 0 t (new, fl)) ∧
      (a.finite = true → t = 0 → new % 2 ^ 31 = 0) ∧ (a.finite = false → new = if a.isNan then f32.nanCode else acc) := by
  rw [accWord, Option.elim_some]
  refine ⟨fun ha h0 => ?_, fun ha h0 => ?_, fun ha => ?_⟩
  · obtain ⟨n', m', e', hadd, hrat, -⟩ := addF_num 0 ha (b := .num neg m e) rfl
    rw [hadd]
    exact ⟨_, deliver_num_roundsTo (regular_of_mem (by simp [floatFormats])) (by decide) (hrat.trans ht) h0⟩
  · obtain ⟨n', m', e', hadd, hrat, -⟩ := addF_num 0 ha (b := .num neg m e) rfl
    rw [hadd, deliver_num_zero ((hrat.trans ht).trans h0)]
    cases n' <;> rfl
  · cases hacc : decodeF f32 acc with
    | nan s => rfl
    | inf n => exact (decodeF_eq_inf hlt hacc).symm
    | num n m e => rw [hacc] at ha; cases ha

end

section
variable {b : Block} {k i j : Nat} {sca scb : BitVec 2048}

/-- The value added to a word of the accumulator. -/
def blockWordValue (b : Block) (k : Nat) (sca scb : BitVec 2048) (i j : Nat) : Option FVal :=
  blockValue (blockProds b k i j) (decide (scaleByte b.ea sca i = 0xFF) || decide (scaleByte b.eb scb j = 0xFF))
    ((scaleByte b.ea sca i : Int) - 127 + ((scaleByte b.eb scb j : Int) - 127))
/-- A word of a block is no number: by a scale or by a product (R123). -/
def NanWord (b : Block) (k : Nat) (sca scb : BitVec 2048) (i j : Nat) : Prop :=
  scaleByte b.ea sca i = 0xFF ∨ scaleByte b.eb scb j = 0xFF ∨ ∃ p ∈ blockPairs b k i j, NanPair p
/-- A product of a word of a block is infinite, of a sign. -/
def InfWord (b : Block) (k i j : Nat) (neg : Bool) : Prop := ∃ p ∈ blockPairs b k i j, InfPair neg p

theorem accF32_eq (old : Nat) :
    accF32 b k sca scb i j old = accWord (if b.zero then 0 else old) (blockWordValue b k sca scb i j) := by
  rw [accF32, sideScale_eq, sideScale_eq, blockWordValue]
  dsimp only
  cases blockValue (blockProds b k i j) _ _ <;> rfl

theorem isNan_blockProds : (∃ p ∈ blockProds b k i j, p.isNan = true) ↔ ∃ p ∈ blockPairs b k i j, NanPair p := by
  rw [blockProds_eq_map]
  simp only [List.mem_map, exists_exists_and_eq_and, mulF_isNan]
theorem inf_mem_blockProds (h : ∀ p ∈ blockPairs b k i j, ¬ NanPair p) (neg : Bool) :
    .inf neg ∈ blockProds b k i j ↔ InfWord b k i j neg := by
  rw [blockProds_eq_map, List.mem_map, InfWord]
  exact exists_congr fun p => and_congr_right fun hp => mulF_eq_inf (h p hp) neg

theorem blockWordValue_nan (h : NanWord b k sca scb i j) : blockWordValue b k sca scb i j = some (.nan false) := by
  refine blockValue_nan ?_
  rw [isNan_blockProds, Bool.or_eq_true, decide_eq_true_eq, decide_eq_true_eq, or_assoc]
  exact h

section
variable (h : ¬ NanWord b k sca scb i j)
include h

theorem blockWordValue_eq : blockWordValue b k sca scb i j = blockValue (blockProds b k i j) false
    ((scaleByte b.ea sca i : Int) - 127 + ((scaleByte b.eb scb j : Int) - 127)) := by
  rw [NanWord, not_or, not_or] at h
  obtain ⟨ha, hb, -⟩ := h
  rw [blockWordValue, decide_eq_false ha, decide_eq_false hb, Bool.or_false]
theorem not_nanPair : ∀ p ∈ blockPairs b k i j, ¬ NanPair p := fun p hp hnan => h (.inr (.inr ⟨p, hp, hnan⟩))
theorem blockWordValue_infs (h0 : InfWord b k i j false) (h1 : InfWord b k i j true) :
    blockWordValue b k sca scb i j = some (.nan false) := by
  rw [blockWordValue_eq h]
  exact blockValue_infs ((inf_mem_blockProds (not_nanPair h) _).2 h0) ((inf_mem_blockProds (not_nanPair h) _).2 h1)
theorem blockWordValue_inf {neg : Bool} (h0 : InfWord b k i j neg) (h1 : ¬ InfWord b k i j (!neg)) :
    blockWordValue b k sca scb i j = some (.inf neg) := by
  rw [blockWordValue_eq h]
  refine blockValue_inf (fun p hp hnan => ?_) ((inf_mem_blockProds (not_nanPair h) _).2 h0)
    (mt (inf_mem_blockProds (not_nanPair h) _).1 h1)
  obtain ⟨p', hp', hnan'⟩ := isNan_blockProds.1 ⟨p, hp, hnan⟩
  exact not_nanPair h p' hp' hnan'

end

/-- Finite pairs have finite products, of the products of their values. -/
theorem mulF_finite {p : FVal × FVal} (h : p.1.finite = true ∧ p.2.finite = true) :
    (mulF p.1 p.2).1.finite = true ∧ (mulF p.1 p.2).1.rat = p.1.rat * p.2.rat := by
  obtain ⟨m, e, hmul, hrat⟩ := mulF_num h.1 h.2
  rw [hmul]
  exact ⟨rfl, hrat⟩

/-- The values of the products of a word. -/
def pairProducts (b : Block) (k i j : Nat) : List ℚ := (blockPairs b k i j).map (fun p => p.1.rat * p.2.rat)

section
variable (hfin : ∀ p ∈ blockPairs b k i j, p.1.finite = true ∧ p.2.finite = true)
include hfin

theorem blockProds_finite : ∀ p ∈ blockProds b k i j, p.finite = true := fun p hp => by
  rw [blockProds_eq_map] at hp
  obtain ⟨p', hp', rfl⟩ := List.mem_map.1 hp
  exact (mulF_finite (hfin p' hp')).1
theorem map_rat_blockProds : (blockProds b k i j).map FVal.rat = pairProducts b k i j := by
  rw [blockProds_eq_map, List.map_map, pairProducts]
  exact List.map_congr_left fun p hp => (mulF_finite (hfin p hp)).2
theorem rat_mem_pairProducts {p : FVal} (hp : p ∈ blockProds b k i j) : p.rat ∈ pairProducts b k i j := by
  rw [← map_rat_blockProds hfin]
  exact List.mem_map_of_mem hp

section
variable (hsa : scaleByte b.ea sca i ≠ 0xFF) (hsb : scaleByte b.eb scb j ≠ 0xFF)
include hsa hsb

theorem blockWordValue_finite : blockWordValue b k sca scb i j = ((blockProds b k i j).foldl topStep none).map
    (truncated (blockProds b k i j) ((scaleByte b.ea sca i : Int) - 127 + ((scaleByte b.eb scb j : Int) - 127))) := by
  rw [blockWordValue, decide_eq_false hsa, decide_eq_false hsb, Bool.or_false]
  exact blockValue_finite (blockProds_finite hfin)
theorem blockWordValue_zero (h0 : ∀ x ∈ pairProducts b k i j, x = 0) : blockWordValue b k sca scb i j = none := by
  have hzero := foldl_topStep_of_zero fun p hp => ⟨blockProds_finite hfin p hp, h0 _ (rat_mem_pairProducts hfin hp)⟩
  rw [blockWordValue_finite hfin hsa hsb, hzero]
  rfl
/-- The value added is the sum of the products, each cut 30 places below the greatest, scaled (R122). -/
theorem blockWordValue_sum {top : Int} (hex : ∃ x ∈ pairProducts b k i j, x ≠ 0 ∧ Int.log 2 |x| = top)
    (hle : ∀ x ∈ pairProducts b k i j, x ≠ 0 → Int.log 2 |x| ≤ top) :
    ∃ neg m e, blockWordValue b k sca scb i j = some (.num neg m e) ∧ (FVal.num neg m e).rat =
      ((pairProducts b k i j).map (fun x => (if x < 0 then -1 else 1) * (⌊|x| / 2 ^ (top - 30)⌋ : ℚ) * 2 ^ (top - 30))).sum *
        2 ^ ((scaleByte b.ea sca i : Int) - 127 + ((scaleByte b.eb scb j : Int) - 127)) := by
  have htop : (blockProds b k i j).foldl topStep none = some top := by
    refine foldl_topStep_of_greatest ?_ fun p hp => hle _ (rat_mem_pairProducts hfin hp)
    obtain ⟨x, hx, hlog⟩ := hex
    rw [← map_rat_blockProds hfin] at hx
    obtain ⟨p, hp, rfl⟩ := List.mem_map.1 hx
    exact ⟨p, hp, hlog⟩
  refine ⟨_, _, _, by rw [blockWordValue_finite hfin hsa hsb, htop]; rfl, ?_⟩
  refine (truncated_rat (blockProds_finite hfin) top).trans ?_
  rw [← map_rat_blockProds hfin, List.map_map]
  rfl

end

end

end

/-! ## The clauses of a completed block -/

/-- A word of a completed block of a floating-point or microscaled class (R122, R123). -/
theorem completeBlock_float {b : Block} {r : Routine} {co : Core} {m n k : Nat}
    (hcls : mmClass b.ea = 0 ∨ mmClass b.ea = 2 ∨ mmClass b.ea = 3 ∨ mmClass b.ea = 4)
    (h : mmShape (mmClass b.ea) b.shape = some (m, n, k)) (hd : b.d.toNat % 1024 + m * n / 64 ≤ 1024) {i j : Nat} (hi : i < m)
    (hj : j < n) :
    let old := if b.zero then 0 else lane (co.row (b.d.toNat % 1024 + (n * i + j) / 64)) (j % 64)
    lane ((completeBlock b r co).1.row (b.d.toNat % 1024 + (n * i + j) / 64)) (j % 64) =
      accWord old (blockWordValue b k (r.scale b.sca) (r.scale b.scb) i j) ∧ old < 2 ^ 32 := by
  have hold : (if b.zero then 0 else lane (co.row (b.d.toNat % 1024 + (n * i + j) / 64)) (j % 64)) < 2 ^ 32 := by
    split
    · decide
    · exact lane_lt _ _
  have hword (old : Nat) : blockWord b r k i j old = (accF32 b k (r.scale b.sca) (r.scale b.scb) i j old, false) := by
    rw [blockWord, if_neg (by omega), if_neg (by omega), if_neg (by omega)]
  refine ⟨?_, hold⟩
  rw [completeBlock_word h (by omega) hd hi hj, hword, accF32_eq]
  exact Nat.mod_eq_of_lt (accWord_lt hold _)

/-- What a completed block of a floating-point or microscaled class leaves in a word (R122, R123). -/
theorem float_word_laws {b : Block} {r : Routine} {co : Core} {m n k : Nat}
    (hcls : mmClass b.ea = 0 ∨ mmClass b.ea = 2 ∨ mmClass b.ea = 3 ∨ mmClass b.ea = 4)
    (h : mmShape (mmClass b.ea) b.shape = some (m, n, k)) (hd : b.d.toNat % 1024 + m * n / 64 ≤ 1024) {i j : Nat} (hi : i < m)
    (hj : j < n) :
    let sa := scaleByte b.ea (r.scale b.sca) i
    let sb := scaleByte b.eb (r.scale b.scb) j
    let old := if b.zero then 0 else lane (co.row (b.d.toNat % 1024 + (n * i + j) / 64)) (j % 64)
    let new := lane ((completeBlock b r co).1.row (b.d.toNat % 1024 + (n * i + j) / 64)) (j % 64)
    let a := decodeF f32 old
    let ps := pairProducts b k i j
    let nan := NanWord b k (r.scale b.sca) (r.scale b.scb) i j
    let inf := InfWord b k i j
    (sa ≠ 0xFF → sb ≠ 0xFF → (∀ p ∈ blockPairs b k i j, p.1.finite = true ∧ p.2.finite = true) →
      ((∀ x ∈ ps, x = 0) → new = old) ∧
      (∀ top : Int, (∃ x ∈ ps, x ≠ 0 ∧ Int.log 2 |x| = top) → (∀ x ∈ ps, x ≠ 0 → Int.log 2 |x| ≤ top) →
        let g : ℚ := 2 ^ (top - 30)
        let sum : ℚ := (ps.map (fun x => (if x < 0 then -1 else 1) * (⌊|x| / g⌋ : ℚ) * g)).sum
        let t := a.rat + sum * 2 ^ ((sa : Int) - 127 + ((sb : Int) - 127))
        (a.finite = true → t ≠ 0 → ∃ fl, RoundsTo f32 false 0 0 t (new, fl)) ∧
        (a.finite = true → t = 0 → new % 2 ^ 31 = 0) ∧ (a.finite = false → new = if a.isNan then f32.nanCode else old))) ∧
    (nan → new = f32.nanCode) ∧ (¬ nan → inf true → inf false → new = f32.nanCode) ∧
    (¬ nan → ∀ neg, inf neg → ¬ inf (!neg) →
      new = if a.isNan ∨ a = .inf (!neg) then f32.nanCode else signOf f32 neg + f32.infCode) := by
  intro sa sb old new a ps nan inf
  obtain ⟨hnew, hlt⟩ : new = accWord old (blockWordValue b k (r.scale b.sca) (r.scale b.scb) i j) ∧ old < 2 ^ 32 :=
    completeBlock_float hcls h hd hi hj
  refine ⟨fun hsa hsb hfin => ⟨fun h0 => ?_, fun top hex hle => ?_⟩, fun hnan => ?_, fun hnan h1 h0 => ?_, fun hnan neg h0 h1 => ?_⟩
  · rw [hnew, blockWordValue_zero hfin hsa hsb h0]
    rfl
  · obtain ⟨neg, m', e, hval, hrat⟩ := blockWordValue_sum hfin hsa hsb hex hle
    rw [hnew, hval]
    exact accWord_num hlt (congrArg (a.rat + ·) hrat)
  · rw [hnew, blockWordValue_nan hnan, accWord_nan]
  · rw [hnew, blockWordValue_infs hnan h0 h1, accWord_nan]
  · rw [hnew, blockWordValue_inf hnan h0 h1, accWord_inf]

/-- Settles O32: the rows of the tile, and their words by class. -/
theorem completedBlocks : Obligations.CompletedBlocks := by
  refine ⟨fun b r co m n k ha hb h hd => completeBlock_int ha hb r co h hd,
    ⟨fun b r co m n k hcls _ h hd i hi j hj => float_word_laws hcls h hd hi hj,
    fun b r co st ha _ hsh hst hd i hi j hj => completeBlock_gang32 r co ha hsh hst hd hi hj,
    fun b r co st ha _ hsh hst hd i hi j hj => completeBlock_gang64 r co ha hsh hst hd hi hj, fun b r co m n k h hd => ?_⟩⟩
  obtain ⟨hrows, hother, -⟩ := completeBlock_rows (r := r) (co := co) h hd
  obtain ⟨-, hm, hn⟩ := mmShape_dvd h
  refine ⟨fun x hx => ?_, hother⟩
  rw [(hrows x hx).2, tilePoison, scaleBad_eq r b.sca hm, scaleBad_eq r b.scb hn]

end Sys2Proof.Machine
end
